-- ==== Sys2Proof/Syntax.lean ====
section
/-! DEFINITION. The commands of the block: one constructor per row of opcode_table.json, in its order, with the
operands the model gives it (the table names none): what the command's sender decides or supplies. -/

namespace Sys2Proof

/-! ## Operand types -/

/-- Dies that hold a timebase follower (01_stack.md R30, R32). -/
inductive TbDie
  | u1
  | cd
  | iod
deriving DecidableEq, Repr

/-- A finding of a start-up test (14_startup_faults.md R418): the defect kind and unit of Table 13-11, and whether
the repeat fails too. -/
structure Finding where
  kind : Nat
  unit : BitVec 48
  twice : Bool
deriving DecidableEq, Repr

/-- What a cold start finds outside the block's own state (14_startup_faults.md R411): the strap readings of the IOD,
CD, U1 and U0 sites, the test findings, which timebase paths and sideband copies deliver, how PCIe and the belt ports
train, and how long the start takes (class "neither"). -/
structure StartEnv where
  straps : List (BitVec 3)
  finds : List Finding
  pathsLost : List (Bool × Bool)
  sidebandLost : List Bool
  pcieOk : Bool
  partners : List (Nat × Nat)
  totalMs : Nat
deriving DecidableEq, Repr

/-- What a warm device reset finds (14_startup_faults.md R428): as a start finds it, the lost timebase paths, the findings
of tile BIST and the duration, and in RECOVERY all that the start it goes on with finds (R414); a device-scope fault that
occurs during it (event code, unit). -/
structure WarmEnv where
  start : StartEnv
  fault : Option (Nat × Nat)
deriving DecidableEq, Repr

/-- A TSV sense group (Table 14-10, letter G): die 0 is U0, 1 is U1; rail 0 VDD_CORE, 1 VDD_CDS, 2 VDD_UL, 3 GND. -/
structure SenseGroup where
  die : Nat
  rail : Nat
  region : Nat
  group : Nat
deriving DecidableEq, Repr

/-- The sense groups of Table 1-5: 96 for each region of VDD_CORE on each die, 64 of VDD_CDS on each die, 128 of VDD_UL on
U0; of GND, which R27 names, the table gives no number, and the unit's 16 bits bound it (DESIGN CHOICE). A rail without
regions has region 0. -/
def SenseGroup.inTable (g : SenseGroup) : Bool :=
  match g.rail with
  | 0 => decide (g.region < 16) && decide (g.group < 96)
  | 1 => decide (g.region = 0) && decide (g.group < 64)
  | 2 => decide (g.die = 0) && decide (g.region = 0) && decide (g.group < 128)
  | 3 => decide (g.region = 0) && decide (g.group < 2 ^ 16)
  | _ => false

/-- A message unit of the bridge (01_stack.md R36, R39): the slice whose traffic it is, its virtual channel, the 16 bytes of
its slot. -/
structure BridgeUnit where
  slice : Nat
  vc : Nat
  data : List Byte
deriving DecidableEq, Repr

/-- A thread group: cluster, logical tile, group slot of the tile (04_thread_groups.md R104). -/
structure GroupRef where
  cluster : Nat
  ltile : Nat
  slot : Nat
deriving DecidableEq, Repr

/-- Number formats (Table 2-1, the FMT codes of Table 3-2, and INT32 of Table 2-2). -/
inductive NumFmt
  | fp32
  | bf16
  | fp16
  | e5m2
  | e4m3
  | e3m2
  | e2m3
  | e2m1
  | int8
  | int4
  | int32
  | sterling
deriving DecidableEq, Repr

/-- Comparisons of the vector and scalar units. -/
inductive CmpOp
  | eq
  | lt
  | le
deriving DecidableEq, Repr

/-- Integer operations of the vector and scalar units (02_numbers.md R66). -/
inductive IntOp
  | add
  | sub
  | mul
  | satAdd
  | satSub
  | satMul
  | smin
  | smax
  | umin
  | umax
  | and
  | or
  | xor
  | shl
  | shrU
  | shrS
deriving DecidableEq, Repr

/-- Vector arithmetic (02_numbers.md R55, R66, R67). -/
inductive VecOp
  | fadd
  | fsub
  | fmul
  | ffma
  | fmin
  | fmax
  | fcmp (op : CmpOp)
  | fsel
  | cvt (dst src : NumFmt) (sat : Bool)
  | int32 (op : IntOp)
  | int64 (op : IntOp)
  | icmp (op : CmpOp) (signed : Bool)
  | redSum
  | mxScale (fmt : NumFmt)
deriving DecidableEq, Repr

/-- Scalar arithmetic (04_thread_groups.md R109). -/
inductive ScalarOp
  | int64 (op : IntOp)
  | cmp (op : CmpOp) (signed : Bool)
  | mov
  | imm (v : W64)
  | aswRead
  | aswClear
deriving DecidableEq, Repr

/-- Local-store atomics (04_thread_groups.md R126). -/
inductive AtomicOp
  | add
  | xchg
  | cas
  | and
  | or
  | smin
  | smax
  | umin
  | umax
deriving DecidableEq, Repr

/-- In-cache reductions, by their code (08_underlayer.md R249). -/
structure RedOp where
  code : Nat
deriving DecidableEq, Repr

/-- The read-only caches of a cluster (04_thread_groups.md R129, Table 13-11). -/
inductive CacheKind
  | const
  | instr
  | desc
deriving DecidableEq, Repr

/-- Options of a special-function instruction (05_special_functions.md R137): the suffix's narrow format, SAT. -/
structure SfuOpt where
  narrow : Option NumFmt
  sat : Bool
deriving DecidableEq, Repr

/-- Activations of SFG (05_special_functions.md R142). -/
inductive SfgAct
  | relu
  | sigmoid
  | silu
  | geluT
  | geluE
deriving DecidableEq, Repr

/-- Where a placed row comes from (07_kv_ledger.md R210, R213): the tokens of an accepted command, or a held
fed-back row. -/
inductive RowSource
  | command (sq cid : Nat)
  | fedBack (seq : Nat)
deriving DecidableEq, Repr

/-- A wait for ledger blocks (07_kv_ledger.md R211). -/
inductive WaitRef
  | command (sq cid : Nat)
  | fedBack (seq : Nat)
deriving DecidableEq, Repr

/-- An exit record's content as the TOPK or exit stage delivers it (06_pipeline.md, 12_host.md). -/
structure ExitRec where
  token : Nat
  hasToken : Bool
  last : Bool
  payload : List W64
deriving DecidableEq, Repr

/-- What a stage operation did to one block of the sweep (06_pipeline.md R179): kernel outputs are data of the
programs, which this block does not encode. -/
structure BlockOut where
  handle : W64
  fault : Bool
  data : List (Nat × Byte)
  carry : List W64
deriving DecidableEq, Repr

/-- Services that a kernel's code may use (06_pipeline.md Table 6-1); a global read of an embedding table is a global load,
which R164 opens to every role. -/
inductive Service
  | kvAppend
  | kvRead
  | beltInject
  | beltTap
  | returnRing
deriving DecidableEq, Repr

/-- A stage program (13_configuration.md, Table 13-5): its descriptors as words, the slots that hold kernel
descriptors (the others hold matrix descriptors: only its code tells them apart), code and constants sizes, and what its
code, which this specification does not encode, is found to be: the verdicts of R106 and R146, the services its kernels use
(R164). -/
structure Program where
  index : Nat
  descBase : Nat
  descs : List (List W64)
  kernels : List Nat
  commitBound : Nat
  objId : Option Nat
  constBytes : Nat
  codeBytes : Nat
  consts : List (Nat × Byte)
  codeOk : Bool
  codeUsesUluverSfg : Bool
  services : List Service
  hash : BitVec 384
deriving DecidableEq, Repr

/-- An image record (13_configuration.md R382): TYPE, OPTIONAL, body words from W1; wellLen: LEN is a multiple of 8,
at least 8, and the record lies inside its section. -/
structure ImgRecord where
  type : Nat
  optional : Bool
  wellLen : Bool
  body : List W64
  prog : Option Program
deriving DecidableEq, Repr

/-- An image section (Table 13-4) with its records; hashOk is the verdict of comparing SHA-384 of its bytes with
HASH. -/
structure ImgSection where
  kind : Nat
  part : Nat
  gen : Nat
  offset : Nat
  size : Nat
  hash : BitVec 384
  hashOk : Bool
  records : List ImgRecord
deriving DecidableEq, Repr

/-- An image bank's content (Table 13-3); sigOk is the verdict of the ECDSA check under the key KEY_ID names. -/
structure Image where
  magic : W32
  format : Nat
  level : Nat
  keyId : Nat
  gen : Nat
  length : Nat
  bindUid : W64
  zeros : Bool
  sigOk : Bool
  sections : List ImgSection
deriving DecidableEq, Repr

/-- A licence slot that is not blank (Table 13-8); sigOk is the verdict under the Wotuten root key. -/
structure LicenceRec where
  wellFormed : Bool
  tier : Nat
  owners : BitVec 2
  uid : W64
  serial : Nat
  sigOk : Bool
deriving DecidableEq, Repr

/-- What an NVM_WRITE reads from host memory (13_configuration.md R394, R395). -/
inductive NvmContent
  | image (img : Image)
  | licences (recs : List LicenceRec)
deriving DecidableEq, Repr

/-- A request to the underlayer (08_underlayer.md): master, class, address of its 256-byte line, sectors asked,
store data and byte mask, reduction code, tag of the requester. -/
structure UlReq where
  id : Nat
  master : Nat
  cls : Nat
  line : Nat
  sectors : BitVec 8
  data : BitVec 2048
  bytes : BitVec 256
  red : Nat
deriving DecidableEq, Repr

/-- What a scrub visit finds (08_underlayer.md R259): nothing, a corrected word (with the row of HBM it lies in, and
whether that row's bank has a repair resource left), or an uncorrectable error in a sector. -/
inductive ScrubFind
  | clean
  | corrected (row word : Nat) (repairLeft : Bool)
  | uncorrectable (sector : Nat)
deriving DecidableEq, Repr

/-- What lies in lost data of a BLOCK or BELT owner (08_underlayer.md Table 8-6, 09_belt_scoring.md Table 9-12): a block's
buffer in flight, in a forming buffer or in an entry queue; a shard record, a tap entry, a query slot, the tallies, ranges
or directory; nothing of these. -/
inductive LostData
  | plain
  | block (handle : W64)
  | forming (pipe cls : Nat)
  | entry (pipe index : Nat)
  | shardRecord (home id gen index : Nat) (asHome : Bool)
  | tapEntry (rev seg home seq : Nat)
  | querySlot (cluster slot : Nat)
  | tallies
deriving DecidableEq, Repr

/-- A received slot (10_rings.md R302): its port (R335), its slot delimiter, and whether an uncorrectable codeword fell in
it (R307). -/
structure Rx where
  port : Nat
  sd : W32
  uncorr : Bool
deriving DecidableEq, Repr

/-- What the trailer of a frame says (10_rings.md R306, R307): intact, stomped upstream, or bad. -/
inductive CrcVerdict
  | good
  | inverted
  | bad
deriving DecidableEq, Repr

/-- A corpus record of a frame (Table 9-2): the record's words. -/
structure BeltRec where
  words : List W64
deriving DecidableEq, Repr

/-- A belt frame (09_belt_scoring.md Tables 9-1 to 9-3): the eight header words, its payload (records or message words),
and of the trailer HOPS, STOMP, and the CRC word as its difference, by exclusive or, from the correct value. -/
structure Frame where
  w : List W64
  recs : List BeltRec
  body : List W64
  hops : Nat
  stomp : W16
  crcDiff : W32
deriving DecidableEq, Repr

/-- What starts a planned removal (10_rings.md R325): a LEAVE message, or the register write with FORCE. -/
inductive LeaveSrc
  | message (rx : Rx) (f : Frame)
  | register (force : Bool)
deriving DecidableEq, Repr

/-- Causes that wake the device from Q3 or Q4 (15_power_thermal.md R458), in its order. -/
inductive WakeCause
  | doorbell
  | queryFrame
  | controlFrame
  | fillIn
  | join
  | brakesEmpty
  | tolerance
  | reset
deriving DecidableEq, Repr

/-! ## The commands -/

/-- What an end of a bridge pair receives (R36 to R39): whether the end is U0's, the flit, and what its die then has to
send. -/
structure BridgeRx where
  atU0 : Bool
  flit : List Byte
  units : List BridgeUnit
deriving DecidableEq, Repr

/-- What a pass of the array shows beside its sums (R90, R97): a compare that a fault makes mismatch, copies of the merge
that disagree. -/
structure PassErrors where
  mismatch : Bool
  mergeDiffers : Bool
deriving DecidableEq, Repr

/-- The rest of a row word beside sd, sa and sb: the code of SMAX.FIN with sc, or a reserved code (Table 5-7, R149). -/
inductive FinWord where
  | fin (sc : Nat)
  | reserved
deriving DecidableEq, Repr

/-- A word that the underlayer finds in error (R252, R254): its number in its row, how many of its bits are wrong, what its
check bit 0 reads. -/
structure BadWord where
  word : Nat
  bits : Nat
  bit0 : Bool
deriving DecidableEq, Repr

/-- The steps that slices and equator link counted in a window (R342). -/
structure WindowSteps where
  slices : Nat
  equator : Nat
deriving DecidableEq, Repr

/-- The commands, one per row of opcode_table.json. -/
inductive Instr
  /-- VAUX_RISE (R409). -/
  | vauxRise
  /-- VAUX_FALL (R402). -/
  | vauxFall
  /-- VIN_IB_IN_RANGE (R437). -/
  | vinIbInRange
  /-- VIN_IB_LOW (R438). -/
  | vinIbLow
  /-- DEVICE_RESET_ASSERT (R471). -/
  | deviceResetAssert
  /-- DEVICE_RESET_RELEASE (R409). -/
  | deviceResetRelease
  /-- REFCLK_LOST (R33). -/
  | refclkLost
  /-- REFCLK_RETURN (R33). -/
  | refclkReturn
  /-- COLD_START (R411). -/
  | coldStart (env : StartEnv)
  /-- START_STEP_TIMEOUT (R412). -/
  | startStepTimeout (step : Nat)
  /-- WARM_DEVICE_RESET (R428). -/
  | warmDeviceReset (env : WarmEnv)
  /-- CLUSTER_RESET (R425). -/
  | clusterReset (c : Nat)
  /-- TB_VALUE_CHECK (R30). -/
  | tbValueCheck (die : TbDie) (valA valB : W64)
  /-- TB_PATH_LOST (R31). -/
  | tbPathLost (onCd pathB : Bool)
  /-- SIDEBAND_COPY_LOST (R34). -/
  | sidebandCopyLost (copyB : Bool)
  /-- VIF_PARITY_MISMATCH (R23). -/
  | vifParityMismatch (iface group : Nat) (repeatFails : Bool)
  /-- VIF_WIRE_TEST_COMPLETE (R23). -/
  | vifWireTestComplete (iface group : Nat) (located : Option Nat) (thirdOk : Bool)
  /-- TSV_SENSE_READ (R27). -/
  | tsvSenseRead (weak : List SenseGroup)
  /-- BRIDGE_FLIT_RECEIVE (R38). -/
  | bridgeFlitReceive (pair : Nat) (rx : BridgeRx)
  /-- HBM_TRANSFER_ERROR (R43). -/
  | hbmTransferError (ch : Nat) (repeatFails : Bool) (lost : List (Nat × LostData))
  /-- CADENCE_WINDOW_END (R46). -/
  | cadenceWindowEnd (counts : List (Option (Nat × Nat)))
  /-- MIN_CLEAR (R49). -/
  | minClear
  /-- PAIR_LO_READ (R15). -/
  | pairLoRead (off : Nat)
  /-- PAIR_HI_WRITE (R15). -/
  | pairHiWrite (off : Nat) (v : W32)
  /-- REGISTER_WRITE (R13). -/
  | registerWrite (off : Nat) (v : W32)
  /-- MMA (R83). -/
  | mma (g : GroupRef) (desc sOff sScale : Nat)
  /-- MMAP (R91). -/
  | mmap (g : GroupRef) (desc count sOff sScale : Nat)
  /-- MWAIT (R83). -/
  | mwait (g : GroupRef) (n : Nat)
  /-- MATRIX_PASS_END (R89). -/
  | matrixPassEnd (c t sub : Nat) (e : PassErrors)
  /-- SPARE_ATTACH_COMPLETE (R99). -/
  | spareAttachComplete (c t : Nat)
  /-- MATRIX_INSTRUCTION_COMPLETE (R89). -/
  | matrixInstructionComplete (c t : Nat)
  /-- LAUNCH_ADMIT (R107). -/
  | launchAdmit (c t : Nat) (handle : W64) (desc : Nat)
  /-- VECTOR_ARITH (R66). -/
  | vectorArith (g : GroupRef) (op : VecOp) (d a b c : Nat)
  /-- SCALAR_ARITH (R109). -/
  | scalarArith (g : GroupRef) (op : ScalarOp) (d a b : Nat)
  /-- LS_LOAD (R116). -/
  | lsLoad (g : GroupRef) (log2Size d a : Nat)
  /-- LS_STORE (R116). -/
  | lsStore (g : GroupRef) (log2Size a src : Nat)
  /-- LS_ATOMIC (R126). -/
  | lsAtomic (g : GroupRef) (op : AtomicOp) (wide : Bool) (d a src cmp : Nat)
  /-- GLOBAL_LOAD (R117). -/
  | globalLoad (g : GroupRef) (log2Size d a : Nat) (evict : List Nat)
  /-- LD_NC (R118). -/
  | ldNc (g : GroupRef) (log2Size d a : Nat)
  /-- GLOBAL_STORE (R117). -/
  | globalStore (g : GroupRef) (log2Size a src : Nat)
  /-- GLOBAL_REDUCTION (R117). -/
  | globalReduction (g : GroupRef) (op : RedOp) (a src : Nat)
  /-- CONSTANT_LOAD (R129). -/
  | constantLoad (g : GroupRef) (log2Size d a : Nat)
  /-- INVAL_L1 (R118). -/
  | invalL1 (g : GroupRef)
  /-- FENCE_GL (R120). -/
  | fenceGl (g : GroupRef)
  /-- FENCE_LS (R120). -/
  | fenceLs (g : GroupRef)
  /-- BRC (R121). -/
  | brc (g : GroupRef) (p target reconv : Nat)
  /-- BACKWARD_BRANCH (R122). -/
  | backwardBranch (g : GroupRef) (target : Nat)
  /-- EXIT (R124). -/
  | exit (g : GroupRef)
  /-- BAR (R128). -/
  | bar (g : GroupRef) (n : Nat)
  /-- LOCK_ACQ (R127). -/
  | lockAcq (g : GroupRef) (a p : Nat)
  /-- LOCK_REL (R127). -/
  | lockRel (g : GroupRef) (a : Nat)
  /-- SHREADY (R115). -/
  | shready (g : GroupRef)
  /-- STAGE_WATCHDOG_EXPIRY (R131). -/
  | stageWatchdogExpiry (c : Nat)
  /-- CACHE_PARITY_ERROR (R132). -/
  | cacheParityError (c : Nat) (cache : CacheKind) (set way : Nat)
  /-- TILE_STORE_ECC_ERROR (R133). -/
  | tileStoreEccError (c t : Nat) (correctable : Bool)
  /-- RCP (R137). -/
  | rcp (g : GroupRef) (o : SfuOpt) (d a : Nat)
  /-- RSQRT (R137). -/
  | rsqrt (g : GroupRef) (o : SfuOpt) (d a : Nat)
  /-- SQRT (R137). -/
  | sqrt (g : GroupRef) (o : SfuOpt) (d a : Nat)
  /-- DIV (R137). -/
  | div (g : GroupRef) (o : SfuOpt) (d a b : Nat)
  /-- EXP2 (R141). -/
  | exp2 (g : GroupRef) (o : SfuOpt) (d a : Nat)
  /-- EXP (R141). -/
  | exp (g : GroupRef) (o : SfuOpt) (d a : Nat)
  /-- LOG2 (R137). -/
  | log2 (g : GroupRef) (o : SfuOpt) (d a : Nat)
  /-- LN (R137). -/
  | ln (g : GroupRef) (o : SfuOpt) (d a : Nat)
  /-- SINPI (R137). -/
  | sinpi (g : GroupRef) (o : SfuOpt) (d a : Nat)
  /-- COSPI (R137). -/
  | cospi (g : GroupRef) (o : SfuOpt) (d a : Nat)
  /-- TANH (R141). -/
  | tanh (g : GroupRef) (o : SfuOpt) (d a : Nat)
  /-- SIGMOID (R141). -/
  | sigmoid (g : GroupRef) (o : SfuOpt) (d a : Nat)
  /-- SFG (R142). -/
  | sfg (g : GroupRef) (act : SfgAct) (o : SfuOpt) (d gate up : Nat)
  /-- ROW_RSTAT (R151). -/
  | rowRstat (g : GroupRef) (sd sa sb sc : Nat) (accDisagree : Bool)
  /-- ROW_LNORM (R155). -/
  | rowLnorm (g : GroupRef) (sd sa sb sc : Nat) (accDisagree : Bool)
  /-- ROW_RMSNORM (R156). -/
  | rowRmsnorm (g : GroupRef) (sd sa sb sc : Nat) (accDisagree : Bool)
  /-- ROW_SMAX (R158). -/
  | rowSmax (g : GroupRef) (sd sa sb sc : Nat) (accDisagree : Bool)
  /-- ROW_SMAX_STEP (R160). -/
  | rowSmaxStep (g : GroupRef) (sd sa sb sc : Nat) (accDisagree : Bool)
  /-- ROW_SMAX_FIN (R162). -/
  | rowSmaxFin (g : GroupRef) (sd sa sb : Nat) (w : FinWord)
  /-- KVADDR (R214). -/
  | kvaddr (g : GroupRef) (sd ss : Nat)
  /-- KVPUT (R215). -/
  | kvput (g : GroupRef) (ss sa : Nat)
  /-- RNG_INSTRUCTION (R246). -/
  | rngInstruction (g : GroupRef) (op sa sb : Nat)
  /-- ROW_PLACE (R210). -/
  | rowPlace (src : RowSource)
  /-- RESERVATION_RETRY (R211). -/
  | reservationRetry
  /-- RESERVATION_STALL_TIMEOUT (R211). -/
  | reservationStallTimeout (w : WaitRef)
  /-- FILL_TIMEOUT_EXPIRY (R175). -/
  | fillTimeoutExpiry (pipe cls : Nat)
  /-- BLOCK_CLOSE (R176). -/
  | blockClose (pipe cls : Nat)
  /-- BLOCK_LEAVE_ENTRY (R176). -/
  | blockLeaveEntry (pipe : Nat)
  /-- BLOCK_TRANSFER (R171). -/
  | blockTransfer (handle : W64)
  /-- MESH_HANDSHAKE_PARITY_ERROR (R172). -/
  | meshHandshakeParityError (link : Nat) (repeatFails : Bool)
  /-- SWEEP_START (R179). -/
  | sweepStart (c : Nat)
  /-- LOAD_NOTICE_ELAPSED (R441). -/
  | loadNoticeElapsed (c : Nat)
  /-- STAGE_OPERATION_COMPLETE (R179). -/
  | stageOperationComplete (c : Nat) (outs : List BlockOut)
  /-- ROW_EXIT (R212). -/
  | rowExit (handle : W64) (row : Nat) (rec : Option ExitRec)
  /-- ROLE_MOVE_LOADED (R184). -/
  | roleMoveLoaded (c : Nat)
  /-- RELOAD_PARTITION (R186). -/
  | reloadPartition (sq cid : Nat)
  /-- CHANGE_SECTIONS_STAGED (R187). -/
  | changeSectionsStaged
  /-- CLUSTER_OLD_GEN_DRAINED (R130). -/
  | clusterOldGenDrained (c : Nat)
  /-- PARTITION_SWITCHED (R187). -/
  | partitionSwitched (p : Nat)
  /-- OLD_GENERATION_RELEASE (R188). -/
  | oldGenerationRelease (c : Nat)
  /-- ENTRY_HOLD_TIMEOUT (R189). -/
  | entryHoldTimeout
  /-- TRAIN_STEP (R192). -/
  | trainStep (sq cid : Nat)
  /-- TRAIN_READERS_DRAINED (R197). -/
  | trainReadersDrained (pipe : Nat)
  /-- TRAIN_UPDATE (R196). -/
  | trainUpdate (pipe : Nat)
  /-- NOP (R361). -/
  | nop (sq cid : Nat)
  /-- IDENTIFY (R367). -/
  | identify (sq cid : Nat)
  /-- LOAD_OBJECT (R366). -/
  | loadObject (sq cid : Nat) (obj : Option Program)
  /-- READ_OBJECT (R361). -/
  | readObject (sq cid : Nat)
  /-- RANGE_OP (R245). -/
  | rangeOp (sq cid : Nat)
  /-- PREFETCH (R245). -/
  | prefetch (id : Nat)
  /-- FLUSH (R245). -/
  | flush (id : Nat)
  /-- INVALIDATE (R245). -/
  | invalidate (id : Nat)
  /-- DEAD (R248). -/
  | dead (id : Nat)
  /-- LIVE (R245). -/
  | live (id : Nat)
  /-- RANGE_OP_COMPLETE (R246). -/
  | rangeOpComplete (id : Nat)
  /-- RUN_PIPELINE (R361). -/
  | runPipeline (sq cid : Nat)
  /-- SEQ_OPEN (R206). -/
  | seqOpen (sq cid : Nat)
  /-- SEQ_APPEND (R210). -/
  | seqAppend (sq cid : Nat)
  /-- SEQ_FORK (R218). -/
  | seqFork (sq cid : Nat)
  /-- KV_COPY_COMPLETE (R219). -/
  | kvCopyComplete (id : Nat)
  /-- SEQ_CLOSE (R227). -/
  | seqClose (sq cid : Nat)
  /-- SEQ_PREEMPT (R224). -/
  | seqPreempt (sq cid : Nat)
  /-- SWAP_OUT_COMPLETE (R223). -/
  | swapOutComplete (seq : Nat)
  /-- SEQ_RESUME (R225). -/
  | seqResume (sq cid : Nat)
  /-- SWAP_IN_COMPLETE (R225). -/
  | swapInComplete (seq : Nat) (readError : Bool)
  /-- SWAP_AREA_WRITE (R226). -/
  | swapAreaWrite (off : Nat) (v : W32)
  /-- SEQ_SEL_WRITE (R230). -/
  | seqSelWrite (v : W32)
  /-- QUERY_SUBMIT (R279). -/
  | querySubmit (sq cid : Nat)
  /-- QUERY_CANCEL (R291). -/
  | queryCancel (sq cid : Nat)
  /-- SHARD_LOAD (R365). -/
  | shardLoad (sq cid : Nat)
  /-- RING_BRAKE (R317). -/
  | ringBrake (sq cid : Nat)
  /-- RING_RELEASE (R318). -/
  | ringRelease (sq cid : Nat)
  /-- NVM_WRITE (R394). -/
  | nvmWrite (sq cid : Nat) (content : NvmContent)
  /-- JOURNAL_READ (R405). -/
  | journalRead (sq cid : Nat)
  /-- SLICE_READ (R236). -/
  | sliceRead (r : UlReq) (what : LostData)
  /-- SLICE_STORE (R237). -/
  | sliceStore (r : UlReq)
  /-- SLICE_FILL_COMPLETE (R236). -/
  | sliceFillComplete (line : Nat)
  /-- REDUCTION_REQUEST (R249). -/
  | reductionRequest (r : UlReq)
  /-- UL_CORRECTABLE_ERROR (R254). -/
  | ulCorrectableError (slice die row : Nat) (w : BadWord)
  /-- CORRECTION_LOG_EXPIRY (R254). -/
  | correctionLogExpiry (slice : Nat)
  /-- UL_UNCORRECTABLE_CLEAN (R256). -/
  | ulUncorrectableClean (line sector : Nat)
  /-- UL_UNCORRECTABLE_DIRTY (R257). -/
  | ulUncorrectableDirty (line sector : Nat) (inHbm : Bool) (what : LostData)
  /-- TAG_ERROR (R253). -/
  | tagError (line : Nat) (bothFail : Bool)
  /-- SCRUB_UL_VISIT (R259). -/
  | scrubUlVisit (found : ScrubFind) (what : LostData)
  /-- SCRUB_HBM_VISIT (R259). -/
  | scrubHbmVisit (found : ScrubFind) (what : LostData)
  /-- HBM_CORRECTABLE_ERROR (R260). -/
  | hbmCorrectableError (ch row word : Nat) (repairLeft : Bool)
  /-- SLICE_DRAIN_COMPLETE (R262). -/
  | sliceDrainComplete (slice : Nat) (lost : List (Nat × LostData))
  /-- PIN_RECOMPUTE_COMPLETE (R241). -/
  | pinRecomputeComplete
  /-- EMPTY_FRAME (R273). -/
  | emptyFrame (rx : Rx) (f : Frame)
  /-- CORPUS_FRAME (R287). -/
  | corpusFrame (rx : Rx) (f : Frame)
  /-- TOP_NOTE (R275). -/
  | topNote (rx : Rx) (f : Frame)
  /-- SEGMENT (R275). -/
  | segment (rx : Rx) (f : Frame)
  /-- MARKER_INTERVAL_EXPIRY (R274). -/
  | markerIntervalExpiry
  /-- QUERY_FRAME (R279). -/
  | queryFrame (rx : Rx) (f : Frame)
  /-- SHARD_FRAME (R271). -/
  | shardFrame (rx : Rx) (f : Frame)
  /-- SCORE_ROUND_END (R282). -/
  | scoreRoundEnd (c : Nat) (fault : Option (Nat × Bool))
  /-- SHED_CHECK (R287). -/
  | shedCheck (c : Nat)
  /-- FILL_IN_TIMEOUT (R298). -/
  | fillInTimeout (home rev seg seq : Nat)
  /-- DISCOVER (R312). -/
  | discover (rx : Rx) (f : Frame)
  /-- CONFIRM (R312). -/
  | confirm (rx : Rx) (f : Frame)
  /-- JOIN (R324). -/
  | join (rx : Rx) (f : Frame)
  /-- DIRECTORY (R311). -/
  | directory (rx : Rx) (f : Frame)
  /-- TAKEOVER (R292). -/
  | takeover (rx : Rx) (f : Frame)
  /-- ABANDON (R322). -/
  | abandon (rx : Rx) (f : Frame)
  /-- BYPASSED (R318). -/
  | bypassed (rx : Rx) (f : Frame)
  /-- LEAVE (R325). -/
  | leave (src : LeaveSrc)
  /-- DEMOTE (R328). -/
  | demote (rx : Rx) (f : Frame)
  /-- TOL (R373). -/
  | tol (rx : Rx) (f : Frame)
  /-- RESUME (R321). -/
  | resume (rx : Rx) (f : Frame)
  /-- QCANCEL (R364). -/
  | qcancel (rx : Rx) (f : Frame)
  /-- FEDGEN (R334). -/
  | fedgen (rx : Rx) (f : Frame)
  /-- RESULT (R331). -/
  | result (rx : Rx) (f : Frame)
  /-- REFUSE (R364). -/
  | refuse (rx : Rx) (f : Frame)
  /-- HOME_BEHIND (R273). -/
  | homeBehind (rx : Rx) (f : Frame)
  /-- FILL_IN (R297). -/
  | fillIn (rx : Rx) (f : Frame)
  /-- REPORT (R310). -/
  | report (rx : Rx) (f : Frame)
  /-- GAP (R322). -/
  | gap (rx : Rx) (f : Frame)
  /-- STAGED (R295). -/
  | staged (rx : Rx) (f : Frame)
  /-- QUIET (R295). -/
  | quiet (rx : Rx) (f : Frame)
  /-- LINK_READY (R324). -/
  | linkReady (rx : Rx) (f : Frame)
  /-- RETURN_RESEND_TIMEOUT (R310). -/
  | returnResendTimeout (id : Nat)
  /-- CONTROL_PIECE_TIMEOUT (R310). -/
  | controlPieceTimeout (sender sub seq : Nat)
  /-- LOP_RETRY (R307). -/
  | lopRetry (port hseq : Nat)
  /-- RETRY_TIMEOUT (R308). -/
  | retryTimeout (port hseq : Nat)
  /-- REPLAY_SLOT (R307). -/
  | replaySlot (rx : Rx) (f : Frame)
  /-- LOP_BRAKE (R317). -/
  | lopBrake (origin : Nat)
  /-- LOP_RELEASE (R318). -/
  | lopRelease (origin : Nat)
  /-- BRAKE_RESEND_TIMEOUT (R318). -/
  | brakeResendTimeout
  /-- LOP_BYPASS (R320). -/
  | lopBypass (port pos : Nat)
  /-- HEARTBEAT (R300). -/
  | heartbeat (port pos : Nat)
  /-- LAST_SLOT (R324). -/
  | lastSlot (rx : Rx) (f : Option Frame)
  /-- SD_LOSS_TIMEOUT (R319). -/
  | sdLossTimeout (port : Nat)
  /-- LANE_BER_WINDOW (R304): the error ratio, the FEC symbols corrected and the uncorrectable codewords of the second. -/
  | laneBerWindow (port berExp corrected uncorr : Nat) (aboveLimit : Bool)
  /-- PORT_QUALIFIED (R416). -/
  | portQualified (port partner : Nat)
  /-- FORMATION_START (R312). -/
  | formationStart
  /-- DISCOVER_RETRY (R312). -/
  | discoverRetry
  /-- FORMATION_TIMEOUT (R314). -/
  | formationTimeout
  /-- REPORT_COLLECTION_COMPLETE (R312). -/
  | reportCollectionComplete
  /-- SLOT_AUDIT (R316). -/
  | slotAudit (nothing : Unit)
  /-- STANDBY_TAKEOVER_TIMEOUT (R327). -/
  | standbyTakeoverTimeout
  /-- FED_TIMEOUT (R331). -/
  | fedTimeout (qnum : W64)
  /-- REGULATION_WINDOW_END (R342). -/
  | regulationWindowEnd (steps : WindowSteps) (pcie : List (Nat × Nat))
  /-- GUARANTEE_WRITE (R338). -/
  | guaranteeWrite (m r : Nat) (v : W32)
  /-- CLASS_RESERVATION_WRITE (R341). -/
  | classReservationWrite (k : Nat) (v : W32)
  /-- SQ_TAIL_DOORBELL (R349). -/
  | sqTailDoorbell (q : Nat) (v : W32)
  /-- CQ_HEAD_DOORBELL (R349). -/
  | cqHeadDoorbell (q : Nat) (v : W32)
  /-- SQ_ENABLE (R348). -/
  | sqEnable (q : Nat) (v : W32)
  /-- SQ_DISABLE (R353). -/
  | sqDisable (q : Nat) (v : W32)
  /-- CQ_ENABLE (R348). -/
  | cqEnable (q : Nat) (v : W32)
  /-- CQ_DISABLE (R353). -/
  | cqDisable (q : Nat) (v : W32)
  /-- COMMAND_FETCH (R350). -/
  | commandFetch (fetchError : Bool)
  /-- DEFER_TIMEOUT (R359). -/
  | deferTimeout (sq cid : Nat)
  /-- INTERRUPT_COALESCE_TIMEOUT (R352). -/
  | interruptCoalesceTimeout (cq : Nat)
  /-- SLOT_RELEASE (R371). -/
  | slotRelease (n : Nat)
  /-- PCIE_HOT_RESET (R476). -/
  | pcieHotReset
  /-- PCIE_LINK_FAILURE (R374). -/
  | pcieLinkFailure
  /-- FLASH_OPERATION_COMPLETE (R379). -/
  | flashOperationComplete (ok : Bool)
  /-- JOURNAL_PAGE_PROGRAM (R402). -/
  | journalPageProgram (ok : Bool)
  /-- JOURNAL_COMPACTION (R403). -/
  | journalCompaction
  /-- WARM_RESET_REQUEST (R432). -/
  | warmResetRequest (v : W32)
  /-- CLUSTER_RESET_REQUEST (R432). -/
  | clusterResetRequest (v : W32)
  /-- BOARD_NOTICE_RAISE (R443). -/
  | boardNoticeRaise (demand : Nat)
  /-- BOARD_HOLD_EXPIRY (R444). -/
  | boardHoldExpiry (demand : Nat)
  /-- PHASE_SHED (R442). -/
  | phaseShed (r : Nat)
  /-- PHASE_MISMATCH (R449). -/
  | phaseMismatch (r ph : Nat)
  /-- PHASE_RETRY (R449). -/
  | phaseRetry (r ph : Nat)
  /-- PHASE_TRACK_WINDOW_END (R449). -/
  | phaseTrackWindowEnd (r ph : Nat)
  /-- REGION_WAKE_REQUEST (R452). -/
  | regionWakeRequest (r : Nat)
  /-- WAKE_SLOT_WAIT_TIMEOUT (R452). -/
  | wakeSlotWaitTimeout (r : Nat)
  /-- REGION_WAKE_COMPLETE (R452). -/
  | regionWakeComplete (r : Nat)
  /-- REGION_VSET_WRITE (R453). -/
  | regionVsetWrite (r : Nat) (v : W32)
  /-- Q2_DWELL_EXPIRY (R454). -/
  | q2DwellExpiry (r : Nat)
  /-- IDLE_DWELL_EXPIRY (R456). -/
  | idleDwellExpiry (state : Nat)
  /-- DEVICE_WAKE (R458). -/
  | deviceWake (cause : WakeCause)
  /-- DEVICE_WAKE_COMPLETE (R455). -/
  | deviceWakeComplete
  /-- HK_CHANNEL_READ (R460). -/
  | hkChannelRead (n : Nat) (v : W16)
  /-- HOUSEKEEPING_ROUND (R460). -/
  | housekeepingRound
  /-- GUARD_SECOND (R465). -/
  | guardSecond
  /-- I3C_ENTDAA (R480). -/
  | i3cEntdaa (addr : Nat)
  /-- I3C_COMMON_COMMAND (R480). -/
  | i3cCommonCommand (code : Byte) (direct : Bool) (data : List Byte)
  /-- I3C_PRIVATE_WRITE (R481). -/
  | i3cPrivateWrite (hi lo : Byte)
  /-- I3C_PRIVATE_READ (R482). -/
  | i3cPrivateRead (n : Nat)
  /-- TAP_RESET (R483). -/
  | tapReset
  /-- IDCODE (R484). -/
  | idcode
  /-- SAMPLE_PRELOAD (R485). -/
  | samplePreload (cells : BitVec 334)
  /-- EXTEST (R486). -/
  | extest
  /-- EXTEST_PULSE (R486). -/
  | extestPulse
  /-- EXTEST_TRAIN (R486). -/
  | extestTrain
  /-- CLAMP (R486). -/
  | clamp
  /-- HIGHZ (R486). -/
  | highz
  /-- BYPASS (R483). -/
  | bypass
  /-- ROLE_STRAP_CHANGE (R10). -/
  | roleStrapChange (v : BitVec 2)
  /-- REFCLK_PRESENT (R475). -/
  | refclkPresent
  /-- PCIE_LINK_DOWN (R476). -/
  | pcieLinkDown
  /-- QUERY_PLACEMENT_TIMEOUT (R364). -/
  | queryPlacementTimeout (sq cid : Nat)
  /-- BRAKE_STOPPING_DISTANCE_ELAPSED (R317). -/
  | brakeStoppingDistanceElapsed
  /-- BOARD_NOTICE_ELAPSED (R443). -/
  | boardNoticeElapsed
  /-- CHANGE_RESTORE_COMPLETE (R189). -/
  | changeRestoreComplete
  /-- ROW_REPLACEMENT_COMPLETE (R254). -/
  | rowReplacementComplete (slice die row : Nat)
  /-- FALL_THROUGH_COMPLETE (R250). -/
  | fallThroughComplete (line : Nat)
  /-- ALIGN_SLOT (R303). -/
  | alignSlot (port : Nat)
  /-- ALIGNMENT_LOCK_LOST (R303). -/
  | alignmentLockLost (port : Nat)
deriving DecidableEq, Repr

end Sys2Proof
end

