-- ==== Sys2Proof/Config.lean ====
section
/-! DEFINITION. What the specification leaves open: free values, with no body, so that nothing can be proved of a
particular value of one. -/

namespace Sys2Proof

/-- The native result bits of a rounded special function inside its error bound (05_special_functions.md R138: the
bits are the reference model's, which the specification does not hold). Arguments: the function's number, the operand's
FP32 bits, the second operand's. -/
opaque Config.nativeBits : Nat → W32 → W32 → W32

/-- The internal value of a gating activation, carried to more than FP32 precision (05_special_functions.md R142): its
integer and its exponent of two. Arguments: the activation's number, the gate's FP32 bits. -/
opaque Config.gateMant : Nat → W32 → Nat
opaque Config.gateExp : Nat → W32 → Int

/-- α of SMAX.STEP where a score is +∞, which no rule states (05_special_functions.md R159, R160): a function of m, ℓ and
the scores, since results are reproducible (R73, R74). -/
opaque Config.smaxAlpha : W32 → W32 → List W32 → W32

/-- The result bits of a base function of the predecessor unit in Uluver mode (05_special_functions.md R144: U3f). -/
opaque Config.u3Bits : Nat → W32 → W32

/-- Bytes the I3C target answers to a mandatory direct read command whose value the specification does not give
(16_pins_test.md R480): the command's code, the byte's number. -/
opaque Config.i3cByte : Nat → Nat → Byte

/-- The slot credits of a virtual channel that an end of a bridge pair starts with (01_stack.md R36 gives no number). -/
opaque Config.bridgeCredits : Nat → Nat

/-- A fresh value each time the model needs one that the specification leaves open: the count of such needs. -/
opaque Config.freeValue : Nat → W64

end Sys2Proof
end

