-- ==== Sys2Proof/Machine/Regs.lean ====
section
/-! DEFINITION. The BAR0 register map (00_scope.md R13, R17 and the register tables of every chapter): one named
field per table row, each register's writable bits, write-one-to-clear bits and reset value. -/

namespace Sys2Proof.Machine

/-- A register field: its register's BAR0 offset, its lowest bit and its width. -/
structure Fld where
  off : Nat
  lo : Nat
  width : Nat
deriving DecidableEq, Repr

/-- One row of the register map: base, two strides with their counts, the RW bits, the W1C bits, the reset value. -/
structure RegRow where
  base : Nat
  stride1 : Nat
  count1 : Nat
  stride2 : Nat
  count2 : Nat
  rw : BitVec 32
  w1c : BitVec 32
  reset : BitVec 32
  img : BitVec 32
deriving DecidableEq, Repr

/-- Register rows, part 0. -/
def regRows0 : List RegRow := [
  ⟨0x00100800, 0x0, 1, 0x0, 1, 0x00000000#32, 0x00000000#32, 0x00000000#32, 0x00000000#32⟩,
  ⟨0x00100810, 0x0, 1, 0x0, 1, 0x00000000#32, 0x00000000#32, 0x00000000#32, 0x00000000#32⟩,
  ⟨0x00100814, 0x0, 1, 0x0, 1, 0x00000000#32, 0x00000000#32, 0x00000000#32, 0x00000000#32⟩,
  ⟨0x00100818, 0x0, 1, 0x0, 1, 0x00000000#32, 0x00000007#32, 0x00000000#32, 0x00000000#32⟩,
  ⟨0x00100820, 0x0, 1, 0x0, 1, 0x00000000#32, 0x00000000#32, 0x00000000#32, 0x00000000#32⟩,
  ⟨0x00100824, 0x0, 1, 0x0, 1, 0x00000000#32, 0x00000000#32, 0x00000000#32, 0x00000000#32⟩,
  ⟨0x00100830, 0x0, 1, 0x0, 1, 0x00000000#32, 0x00000000#32, 0x00000000#32, 0x00000000#32⟩,
  ⟨0x00100834, 0x0, 1, 0x0, 1, 0x00000000#32, 0x00000000#32, 0x00000000#32, 0x00000000#32⟩,
  ⟨0x00100838, 0x0, 1, 0x0, 1, 0x00000000#32, 0x00000080#32, 0x0000000F#32, 0x00000000#32⟩,
  ⟨0x00200100, 0x0, 1, 0x0, 1, 0x0000FFFF#32, 0x00000000#32, 0x00000000#32, 0x00000000#32⟩,
  ⟨0x00200104, 0x0, 1, 0x0, 1, 0x00000000#32, 0x0000FFFF#32, 0x00000000#32, 0x00000000#32⟩,
  ⟨0x00200140, 0x8, 16, 0x0, 1, 0x00000000#32, 0x00000000#32, 0xFFFF0000#32, 0x00000000#32⟩,
  ⟨0x00200144, 0x8, 16, 0x0, 1, 0x00000000#32, 0x00000000#32, 0x00000000#32, 0x00000000#32⟩,
  ⟨0x00200200, 0x4, 16, 0x0, 1, 0x00000000#32, 0x00000000#32, 0x00000000#32, 0x00000000#32⟩,
  ⟨0x00100840, 0x0, 1, 0x0, 1, 0x00000000#32, 0x00000000#32, 0x00484101#32, 0x00000000#32⟩,
  ⟨0x00708000, 0x20, 16, 0x0, 1, 0x00000000#32, 0x00000000#32, 0x00000000#32, 0x00000000#32⟩,
  ⟨0x00708004, 0x20, 16, 0x0, 1, 0x00000000#32, 0x00000000#32, 0x00000000#32, 0x00000000#32⟩,
  ⟨0x00708008, 0x20, 16, 0x0, 1, 0x00000000#32, 0x00000000#32, 0x00000000#32, 0x00000000#32⟩,
  ⟨0x0070800C, 0x20, 16, 0x0, 1, 0x00000000#32, 0x00000000#32, 0x00000000#32, 0x00000000#32⟩,
  ⟨0x00708010, 0x20, 16, 0x0, 1, 0x00000000#32, 0x00000000#32, 0x00000000#32, 0x00000000#32⟩,
  ⟨0x00708200, 0x0, 1, 0x0, 1, 0x00000000#32, 0xFFFF001F#32, 0x00000000#32, 0x00000000#32⟩,
  ⟨0x00708204, 0x0, 1, 0x0, 1, 0x0000FFFF#32, 0x00000000#32, 0x00000010#32, 0x0000FFFF#32⟩,
  ⟨0x0070A000, 0x10, 16, 0x0, 1, 0x00000000#32, 0x00000000#32, 0x00000000#32, 0x00000000#32⟩,
  ⟨0x0070A004, 0x10, 16, 0x0, 1, 0x00000000#32, 0x00000000#32, 0x00000000#32, 0x00000000#32⟩,
  ⟨0x0070A008, 0x10, 16, 0x0, 1, 0x000FFFFF#32, 0x00000000#32, 0x00002710#32, 0x000FFFFF#32⟩]

/-- Register rows, part 1. -/
def regRows1 : List RegRow := [
  ⟨0x0070A100, 0x0, 1, 0x0, 1, 0x00000000#32, 0x00000001#32, 0x00000000#32, 0x00000000#32⟩,
  ⟨0x0070A104, 0x0, 1, 0x0, 1, 0x00000000#32, 0x00000000#32, 0x00000000#32, 0x00000000#32⟩,
  ⟨0x0070A108, 0x0, 1, 0x0, 1, 0x00000000#32, 0x00000000#32, 0x00000000#32, 0x00000000#32⟩,
  ⟨0x00700000, 0x10, 16, 0x0, 1, 0x00000000#32, 0x00000000#32, 0x00000000#32, 0x00000000#32⟩,
  ⟨0x00700004, 0x10, 16, 0x0, 1, 0x00000000#32, 0x00000000#32, 0x00000000#32, 0x00000000#32⟩,
  ⟨0x00700008, 0x10, 16, 0x0, 1, 0x00000000#32, 0x00000000#32, 0x00000000#32, 0x00000000#32⟩,
  ⟨0x00700200, 0x10, 8, 0x0, 1, 0x00000000#32, 0x00000000#32, 0x00000000#32, 0x00000000#32⟩,
  ⟨0x00700204, 0x10, 8, 0x0, 1, 0x00000000#32, 0x00000000#32, 0x00000000#32, 0x00000000#32⟩,
  ⟨0x00700300, 0x4, 16, 0x0, 1, 0xFF0FFFFF#32, 0x00000000#32, 0x200007D0#32, 0xFF0FFFFF#32⟩,
  ⟨0x00700400, 0x0, 1, 0x0, 1, 0x000FFFFF#32, 0x00000000#32, 0x00002710#32, 0x000FFFFF#32⟩,
  ⟨0x00700404, 0x0, 1, 0x0, 1, 0x00000000#32, 0x00000000#32, 0x00000000#32, 0x00000000#32⟩,
  ⟨0x00700410, 0x0, 1, 0x0, 1, 0x00000000#32, 0x00000000#32, 0x00000000#32, 0x00000000#32⟩,
  ⟨0x00701000, 0x800, 8, 0x8, 256, 0x00000000#32, 0x00000000#32, 0x00000000#32, 0x00000000#32⟩,
  ⟨0x00701004, 0x800, 8, 0x8, 256, 0x00000000#32, 0x00000000#32, 0x00000000#32, 0x00000000#32⟩,
  ⟨0x00400000, 0x0, 1, 0x0, 1, 0x00000000#32, 0x00000000#32, 0x00000000#32, 0x00000000#32⟩,
  ⟨0x00400004, 0x0, 1, 0x0, 1, 0x00000000#32, 0x00000000#32, 0x00000000#32, 0x00000000#32⟩,
  ⟨0x00400008, 0x0, 1, 0x0, 1, 0x00FFFFFF#32, 0x00000000#32, 0x00A0C350#32, 0x00FFFFFF#32⟩,
  ⟨0x0040000C, 0x0, 1, 0x0, 1, 0x00000000#32, 0x00000000#32, 0x00000000#32, 0x00000000#32⟩,
  ⟨0x00400010, 0x0, 1, 0x0, 1, 0xFF000000#32, 0x00000000#32, 0x00000000#32, 0x00000000#32⟩,
  ⟨0x00400014, 0x0, 1, 0x0, 1, 0xFFFFFFFF#32, 0x00000000#32, 0x00000000#32, 0x00000000#32⟩,
  ⟨0x00400018, 0x0, 1, 0x0, 1, 0x8000FFFF#32, 0x00000000#32, 0x00000000#32, 0x00000000#32⟩,
  ⟨0x00400020, 0x0, 1, 0x0, 1, 0x00000000#32, 0x0000003F#32, 0x00000000#32, 0x00000000#32⟩,
  ⟨0x00400024, 0x0, 1, 0x0, 1, 0x00000000#32, 0x00000000#32, 0x00000000#32, 0x00000000#32⟩,
  ⟨0x00400040, 0x4, 16, 0x0, 1, 0x0000001F#32, 0x00000000#32, 0x00000000#32, 0x0000001F#32⟩,
  ⟨0x00400080, 0x4, 8, 0x0, 1, 0x00000000#32, 0x00000000#32, 0x00000000#32, 0x00000000#32⟩]

/-- Register rows, part 2. -/
def regRows2 : List RegRow := [
  ⟨0x00400100, 0x0, 1, 0x0, 1, 0x0000FFFF#32, 0x00000000#32, 0x00000000#32, 0x00000000#32⟩,
  ⟨0x00400104, 0x0, 1, 0x0, 1, 0x00000000#32, 0x00000000#32, 0x00000000#32, 0x00000000#32⟩,
  ⟨0x00400108, 0x0, 1, 0x0, 1, 0x00000000#32, 0x00000000#32, 0x00000000#32, 0x00000000#32⟩,
  ⟨0x0040010C, 0x0, 1, 0x0, 1, 0x00000000#32, 0x00000000#32, 0x00000000#32, 0x00000000#32⟩,
  ⟨0x00300000, 0x0, 1, 0x0, 1, 0x00000000#32, 0x00000000#32, 0x00000000#32, 0x00000000#32⟩,
  ⟨0x00300008, 0x0, 1, 0x0, 1, 0x00000000#32, 0x00000000#32, 0x00000000#32, 0x00000000#32⟩,
  ⟨0x0030000C, 0x0, 1, 0x0, 1, 0x00000000#32, 0x00000000#32, 0x00000000#32, 0x00000000#32⟩,
  ⟨0x00300010, 0x4, 4, 0x0, 1, 0x00000000#32, 0x00000000#32, 0x00000000#32, 0x00000000#32⟩,
  ⟨0x00300020, 0x4, 4, 0x0, 1, 0x00000000#32, 0x00000000#32, 0x00000000#32, 0x00000000#32⟩,
  ⟨0x00300040, 0x0, 1, 0x0, 1, 0x00000000#32, 0x000003FF#32, 0x00000000#32, 0x00000000#32⟩,
  ⟨0x00300044, 0x0, 1, 0x0, 1, 0x00000000#32, 0x00000000#32, 0x00000000#32, 0x00000000#32⟩,
  ⟨0x00300048, 0x0, 1, 0x0, 1, 0x00000000#32, 0x00000000#32, 0x00000000#32, 0x00000000#32⟩,
  ⟨0x0030004C, 0x0, 1, 0x0, 1, 0x00000000#32, 0x00000000#32, 0x00000000#32, 0x00000000#32⟩,
  ⟨0x00300050, 0x0, 1, 0x0, 1, 0xFFFFFFFF#32, 0x00000000#32, 0x05A00168#32, 0xFFFFFFFF#32⟩,
  ⟨0x00300054, 0x0, 1, 0x0, 1, 0x00000000#32, 0x00000000#32, 0x00000000#32, 0x00000000#32⟩,
  ⟨0x00300100, 0x100, 2, 0x4, 64, 0x00000000#32, 0x00000000#32, 0x00000000#32, 0x00000000#32⟩,
  ⟨0x00301000, 0x20, 32, 0x0, 1, 0x00000000#32, 0x00000000#32, 0x00000000#32, 0x00000000#32⟩,
  ⟨0x00301004, 0x20, 32, 0x0, 1, 0x00000000#32, 0x00000000#32, 0x00000000#32, 0x00000000#32⟩,
  ⟨0x00301008, 0x20, 32, 0x0, 1, 0x00000000#32, 0x00000000#32, 0x00000000#32, 0x00000000#32⟩,
  ⟨0x0030100C, 0x20, 32, 0x0, 1, 0x00000000#32, 0x00000000#32, 0x00000000#32, 0x00000000#32⟩,
  ⟨0x00301010, 0x20, 32, 0x0, 1, 0x00000000#32, 0x00000000#32, 0x00000000#32, 0x00000000#32⟩,
  ⟨0x00301014, 0x20, 32, 0x0, 1, 0x00000000#32, 0x00000000#32, 0x00000000#32, 0x00000000#32⟩,
  ⟨0x00301018, 0x20, 32, 0x0, 1, 0x00000000#32, 0x00000000#32, 0x00000000#32, 0x00000000#32⟩,
  ⟨0x0030101C, 0x20, 32, 0x0, 1, 0x00000000#32, 0x00000000#32, 0x00000000#32, 0x00000000#32⟩,
  ⟨0x00302000, 0x4, 128, 0x0, 1, 0x00000000#32, 0x00000000#32, 0x00000000#32, 0x00000000#32⟩]

/-- Register rows, part 3. -/
def regRows3 : List RegRow := [
  ⟨0x00500000, 0x0, 1, 0x0, 1, 0xFFFFFF0F#32, 0x00000000#32, 0xC0403203#32, 0xFFFFFF0F#32⟩,
  ⟨0x00500004, 0x0, 1, 0x0, 1, 0x00000000#32, 0x00000000#32, 0x00000000#32, 0x00000000#32⟩,
  ⟨0x00500008, 0x0, 1, 0x0, 1, 0x00000000#32, 0x00000000#32, 0x00000000#32, 0x00000000#32⟩,
  ⟨0x0050000C, 0x0, 1, 0x0, 1, 0x00000000#32, 0x00000000#32, 0x00000000#32, 0x00000000#32⟩,
  ⟨0x00500010, 0x0, 1, 0x0, 1, 0x00000000#32, 0x00000000#32, 0x00000000#32, 0x00000000#32⟩,
  ⟨0x00500040, 0x4, 16, 0x0, 1, 0x00000000#32, 0x00000000#32, 0x00000000#32, 0x00000000#32⟩,
  ⟨0x00500080, 0x4, 16, 0x0, 1, 0x00000000#32, 0x00000000#32, 0x00000000#32, 0x00000000#32⟩,
  ⟨0x005000C0, 0x0, 1, 0x0, 1, 0x00000000#32, 0x000001FF#32, 0x00000000#32, 0x00000000#32⟩,
  ⟨0x005000D0, 0x0, 1, 0x0, 1, 0x00000000#32, 0x00000000#32, 0x00000000#32, 0x00000000#32⟩,
  ⟨0x005000D4, 0x0, 1, 0x0, 1, 0x00000000#32, 0x00000000#32, 0x00000000#32, 0x00000000#32⟩,
  ⟨0x00500400, 0x0, 1, 0x0, 1, 0x00000000#32, 0x00000000#32, 0x00000FFF#32, 0x00000000#32⟩,
  ⟨0x00500404, 0x0, 1, 0x0, 1, 0x00000000#32, 0x00000000#32, 0x00000FFF#32, 0x00000000#32⟩,
  ⟨0x00500408, 0x0, 1, 0x0, 1, 0x00000000#32, 0x00000000#32, 0x00000000#32, 0x00000000#32⟩,
  ⟨0x0050040C, 0x0, 1, 0x0, 1, 0x00000000#32, 0x00000000#32, 0x00000000#32, 0x00000000#32⟩,
  ⟨0x00500410, 0x0, 1, 0x0, 1, 0x00000000#32, 0x00000000#32, 0x00000FFF#32, 0x00000000#32⟩,
  ⟨0x00500414, 0x0, 1, 0x0, 1, 0x00000000#32, 0x00000000#32, 0x00000000#32, 0x00000000#32⟩,
  ⟨0x00500418, 0x0, 1, 0x0, 1, 0x00FFFFFF#32, 0x00000000#32, 0x00400019#32, 0x00FFFFFF#32⟩,
  ⟨0x0050041C, 0x0, 1, 0x0, 1, 0x00000000#32, 0x0000FFFF#32, 0x00000000#32, 0x00000000#32⟩,
  ⟨0x00500440, 0x10, 8, 0x0, 1, 0x00000000#32, 0x00000000#32, 0x00000FFF#32, 0x00000000#32⟩,
  ⟨0x00500444, 0x10, 8, 0x0, 1, 0x00000000#32, 0x00000000#32, 0x00000000#32, 0x00000000#32⟩,
  ⟨0x00500448, 0x10, 8, 0x0, 1, 0x00000000#32, 0x00000000#32, 0x00000000#32, 0x00000000#32⟩,
  ⟨0x005004C0, 0x0, 1, 0x0, 1, 0x000FFFFF#32, 0x00000000#32, 0x0002BF20#32, 0x000FFFFF#32⟩,
  ⟨0x005004C4, 0x0, 1, 0x0, 1, 0x00000000#32, 0x00000000#32, 0x00000000#32, 0x00000000#32⟩,
  ⟨0x00600000, 0x0, 1, 0x0, 1, 0xFFFFFFFF#32, 0x00000000#32, 0x03E8F000#32, 0xFFFFFFFF#32⟩,
  ⟨0x00600004, 0x0, 1, 0x0, 1, 0x00000000#32, 0x00000003#32, 0x00000000#32, 0x00000000#32⟩]

/-- Register rows, part 4. -/
def regRows4 : List RegRow := [
  ⟨0x00600080, 0x4, 4, 0x0, 1, 0x00000000#32, 0x00000000#32, 0x00000000#32, 0x00000000#32⟩,
  ⟨0x00600100, 0x10, 22, 0x4, 4, 0x00FF07FF#32, 0x00000000#32, 0x00000000#32, 0x00FF07FF#32⟩,
  ⟨0x00600400, 0x4, 16, 0x0, 1, 0x001F1F3F#32, 0x00000000#32, 0x00100204#32, 0x001F1F3F#32⟩,
  ⟨0x00600600, 0x4, 22, 0x0, 1, 0x00000000#32, 0x0000000F#32, 0x00000000#32, 0x00000000#32⟩,
  ⟨0x00600700, 0x0, 1, 0x0, 1, 0x00000000#32, 0x00000000#32, 0x00000000#32, 0x00000000#32⟩,
  ⟨0x00601000, 0x10, 22, 0x4, 4, 0x00000000#32, 0x00000000#32, 0x00000000#32, 0x00000000#32⟩,
  ⟨0x00000000, 0x0, 1, 0x0, 1, 0x00000000#32, 0x00000000#32, 0x00000000#32, 0x00000000#32⟩,
  ⟨0x00000004, 0x0, 1, 0x0, 1, 0x00000000#32, 0x0000001F#32, 0x00000000#32, 0x00000000#32⟩,
  ⟨0x00000008, 0x0, 1, 0x0, 1, 0x000FFFFF#32, 0x00000000#32, 0x00000000#32, 0x000FFFFF#32⟩,
  ⟨0x0000000C, 0x0, 1, 0x0, 1, 0x00000000#32, 0x00000000#32, 0x00000000#32, 0x00000000#32⟩,
  ⟨0x00000010, 0x0, 1, 0x0, 1, 0x000FFFFF#32, 0x00000000#32, 0x0000EA60#32, 0x000FFFFF#32⟩,
  ⟨0x00001000, 0x20, 64, 0x0, 1, 0xFFFFF000#32, 0x00000000#32, 0x00000000#32, 0x00000000#32⟩,
  ⟨0x00001004, 0x20, 64, 0x0, 1, 0xFFFFFFFF#32, 0x00000000#32, 0x00000000#32, 0x00000000#32⟩,
  ⟨0x00001008, 0x20, 64, 0x0, 1, 0xBFFF0000#32, 0x00000000#32, 0x00140000#32, 0x00000000#32⟩,
  ⟨0x0000100C, 0x20, 64, 0x0, 1, 0x00000000#32, 0x00000001#32, 0x00000000#32, 0x00000000#32⟩,
  ⟨0x00002000, 0x20, 64, 0x0, 1, 0xFFFFF000#32, 0x00000000#32, 0x00000000#32, 0x00000000#32⟩,
  ⟨0x00002004, 0x20, 64, 0x0, 1, 0xFFFFFFFF#32, 0x00000000#32, 0x00000000#32, 0x00000000#32⟩,
  ⟨0x00002008, 0x20, 64, 0x0, 1, 0xBFEFFFFF#32, 0x00000000#32, 0x00040000#32, 0x00000000#32⟩,
  ⟨0x0000200C, 0x20, 64, 0x0, 1, 0x00000000#32, 0x00000000#32, 0x00000001#32, 0x00000000#32⟩,
  ⟨0x00100000, 0x0, 1, 0x0, 1, 0x00000000#32, 0x00000000#32, 0x00000000#32, 0x00000000#32⟩,
  ⟨0x00100004, 0x0, 1, 0x0, 1, 0x00000000#32, 0x00000000#32, 0x00000000#32, 0x00000000#32⟩,
  ⟨0x00100008, 0x0, 1, 0x0, 1, 0x00000000#32, 0x00000000#32, 0x00000000#32, 0x00000000#32⟩,
  ⟨0x0010000C, 0x0, 1, 0x0, 1, 0x00000000#32, 0x00000000#32, 0x00000000#32, 0x00000000#32⟩,
  ⟨0x00100010, 0x0, 1, 0x0, 1, 0x00000000#32, 0x00000000#32, 0x00000000#32, 0x00000000#32⟩,
  ⟨0x00100014, 0x0, 1, 0x0, 1, 0x00000000#32, 0x00000000#32, 0x00000000#32, 0x00000000#32⟩]

/-- Register rows, part 5. -/
def regRows5 : List RegRow := [
  ⟨0x00100018, 0x0, 1, 0x0, 1, 0x00000000#32, 0x00000000#32, 0x00000000#32, 0x00000000#32⟩,
  ⟨0x0010001C, 0x0, 1, 0x0, 1, 0x00000000#32, 0x00000000#32, 0x00000000#32, 0x00000000#32⟩,
  ⟨0x00100020, 0x0, 1, 0x0, 1, 0x00000000#32, 0x0000001F#32, 0x00000000#32, 0x00000000#32⟩,
  ⟨0x00800000, 0x0, 1, 0x0, 1, 0x00000000#32, 0x00000000#32, 0x00000000#32, 0x00000000#32⟩,
  ⟨0x00800004, 0x0, 1, 0x0, 1, 0x00000000#32, 0x00000000#32, 0x00000000#32, 0x00000000#32⟩,
  ⟨0x00800008, 0x0, 1, 0x0, 1, 0x00000000#32, 0x00000000#32, 0x00000000#32, 0x00000000#32⟩,
  ⟨0x0080000C, 0x0, 1, 0x0, 1, 0x00000000#32, 0x00000000#32, 0x00000000#32, 0x00000000#32⟩,
  ⟨0x00800010, 0x0, 1, 0x0, 1, 0x00000000#32, 0x00000000#32, 0x00000000#32, 0x00000000#32⟩,
  ⟨0x00800014, 0x0, 1, 0x0, 1, 0x00000000#32, 0x00000000#32, 0x00000000#32, 0x00000000#32⟩,
  ⟨0x00800018, 0x0, 1, 0x0, 1, 0x00000000#32, 0x000000FF#32, 0x00000000#32, 0x00000000#32⟩,
  ⟨0x00900000, 0x0, 1, 0x0, 1, 0x00000000#32, 0x00000000#32, 0x00008000#32, 0x00000000#32⟩,
  ⟨0x00900004, 0x0, 1, 0x0, 1, 0x00000000#32, 0x00000000#32, 0x00004000#32, 0x00000000#32⟩,
  ⟨0x00900008, 0x0, 1, 0x0, 1, 0x00000000#32, 0x00000001#32, 0x00000000#32, 0x00000000#32⟩,
  ⟨0x0090000C, 0x0, 1, 0x0, 1, 0x00000000#32, 0x00000000#32, 0x00000000#32, 0x00000000#32⟩,
  ⟨0x00900010, 0x0, 1, 0x0, 1, 0x00000000#32, 0x00000000#32, 0x00000000#32, 0x00000000#32⟩,
  ⟨0x00900014, 0x0, 1, 0x0, 1, 0x00000000#32, 0x0000003F#32, 0x00000000#32, 0x00000000#32⟩,
  ⟨0x00900018, 0x0, 1, 0x0, 1, 0x000F1FFF#32, 0x00000000#32, 0x00021E00#32, 0x000F1FFF#32⟩,
  ⟨0x0090001C, 0x0, 1, 0x0, 1, 0x00000000#32, 0x00000000#32, 0x00000000#32, 0x00000000#32⟩,
  ⟨0x00200000, 0x0, 1, 0x0, 1, 0x00000000#32, 0x00000000#32, 0x03800000#32, 0x00000000#32⟩,
  ⟨0x00200004, 0x0, 1, 0x0, 1, 0x80FF00FF#32, 0x00000000#32, 0x8001000A#32, 0x80FF00FF#32⟩,
  ⟨0x00200008, 0x0, 1, 0x0, 1, 0x00000000#32, 0x000000FF#32, 0x00000000#32, 0x00000000#32⟩,
  ⟨0x0020000C, 0x0, 1, 0x0, 1, 0x00000000#32, 0x00000000#32, 0x00000000#32, 0x00000000#32⟩,
  ⟨0x00200010, 0x0, 1, 0x0, 1, 0x00000000#32, 0x00000000#32, 0x00000000#32, 0x00000000#32⟩,
  ⟨0x00200040, 0x4, 16, 0x0, 1, 0x8FFFFF00#32, 0x00000000#32, 0x00009C00#32, 0x8FFFFF00#32⟩,
  ⟨0x00200080, 0x4, 16, 0x0, 1, 0x00000000#32, 0x00000000#32, 0x00000000#32, 0x00000000#32⟩]

/-- Register rows, part 6. -/
def regRows6 : List RegRow := [
  ⟨0x00280000, 0x0, 1, 0x0, 1, 0x00000000#32, 0x00000000#32, 0x00000000#32, 0x00000000#32⟩,
  ⟨0x00280004, 0x0, 1, 0x0, 1, 0x00000000#32, 0x00000000#32, 0x00100000#32, 0x00000000#32⟩,
  ⟨0x00280008, 0x0, 1, 0x0, 1, 0x00000000#32, 0x00000000#32, 0x00000000#32, 0x00000000#32⟩,
  ⟨0x0028000C, 0x0, 1, 0x0, 1, 0xFFFF0000#32, 0x00000000#32, 0x01000000#32, 0xFFFF0000#32⟩,
  ⟨0x00280010, 0x0, 1, 0x0, 1, 0x00000000#32, 0x0000000F#32, 0x00000000#32, 0x00000000#32⟩,
  ⟨0x00280100, 0x4, 64, 0x0, 1, 0x00000000#32, 0x00000000#32, 0x00000000#32, 0x00000000#32⟩]

/-- The MSI-X table of 256 entries at 0x0000_8000 and the pending-bit array at 0x0000_9000 (12_host.md R347; PRESUMED: the
PCIe specification's layout and resets, log entry 101). -/
def regRows7 : List RegRow := [
  ⟨0x00008000, 0x10, 256, 0x0, 1, 0xFFFFFFFC#32, 0x00000000#32, 0x00000000#32, 0x00000000#32⟩,
  ⟨0x00008004, 0x10, 256, 0x0, 1, 0xFFFFFFFF#32, 0x00000000#32, 0x00000000#32, 0x00000000#32⟩,
  ⟨0x00008008, 0x10, 256, 0x0, 1, 0xFFFFFFFF#32, 0x00000000#32, 0x00000000#32, 0x00000000#32⟩,
  ⟨0x0000800C, 0x10, 256, 0x0, 1, 0x00000001#32, 0x00000000#32, 0x00000001#32, 0x00000000#32⟩,
  ⟨0x00009000, 0x4, 8, 0x0, 1, 0x00000000#32, 0x00000000#32, 0x00000000#32, 0x00000000#32⟩]

/-- Every register row of BAR0. -/
def regRows : List RegRow :=
  regRows0 ++ regRows1 ++ regRows2 ++ regRows3 ++ regRows4 ++ regRows5 ++ regRows6 ++ regRows7

/-- MSI-X table entry v, word 3 bit 0 Mask (12_host.md R347; log entry 101). -/
def Fld.MSIX_MASK (v : Nat) : Fld := ⟨0x0000800C + 16 * v, 0, 1⟩
/-- MSI-X pending-bit array, bit v (12_host.md R347; log entry 101). -/
def Fld.MSIX_PENDING (v : Nat) : Fld := ⟨0x00009000 + 4 * (v / 32), v % 32, 1⟩

/-- `CFG_DIE_STRAPS` bits 19 U0_OK, RO, reset 0 (01_stack.md R48). -/
def Fld.CFG_DIE_STRAPS_U0_OK : Fld := ⟨0x00100800, 19, 1⟩
/-- `CFG_DIE_STRAPS` bits 18 U1_OK, RO, reset 0 (01_stack.md R48). -/
def Fld.CFG_DIE_STRAPS_U1_OK : Fld := ⟨0x00100800, 18, 1⟩
/-- `CFG_DIE_STRAPS` bits 17 CD_OK, RO, reset 0 (01_stack.md R48). -/
def Fld.CFG_DIE_STRAPS_CD_OK : Fld := ⟨0x00100800, 17, 1⟩
/-- `CFG_DIE_STRAPS` bits 16 IOD_OK, RO, reset 0 (01_stack.md R48). -/
def Fld.CFG_DIE_STRAPS_IOD_OK : Fld := ⟨0x00100800, 16, 1⟩
/-- `CFG_DIE_STRAPS` bits 14:12 U0_STRAP, RO, reset Strap (01_stack.md R48). -/
def Fld.CFG_DIE_STRAPS_U0_STRAP : Fld := ⟨0x00100800, 12, 3⟩
/-- `CFG_DIE_STRAPS` bits 10:8 U1_STRAP, RO, reset Strap (01_stack.md R48). -/
def Fld.CFG_DIE_STRAPS_U1_STRAP : Fld := ⟨0x00100800, 8, 3⟩
/-- `CFG_DIE_STRAPS` bits 6:4 CD_STRAP, RO, reset Strap (01_stack.md R48). -/
def Fld.CFG_DIE_STRAPS_CD_STRAP : Fld := ⟨0x00100800, 4, 3⟩
/-- `CFG_DIE_STRAPS` bits 2:0 IOD_STRAP, RO, reset Strap (01_stack.md R48). -/
def Fld.CFG_DIE_STRAPS_IOD_STRAP : Fld := ⟨0x00100800, 0, 3⟩
/-- Offset of `CFG_DIE_STRAPS` (01_stack.md R48). -/
def Off.CFG_DIE_STRAPS : Nat := 0x00100800
/-- `CFG_VIF_CDU1` bits 31:24 SLICES_RETIRED, RO, reset 0 (01_stack.md R48). -/
def Fld.CFG_VIF_CDU1_SLICES_RETIRED : Fld := ⟨0x00100810, 24, 8⟩
/-- `CFG_VIF_CDU1` bits 23:16 GROUPS_FULL, RO, reset 0 (01_stack.md R48). -/
def Fld.CFG_VIF_CDU1_GROUPS_FULL : Fld := ⟨0x00100810, 16, 8⟩
/-- `CFG_VIF_CDU1` bits 15:0 SPARES_USED, RO, reset 0 (01_stack.md R48). -/
def Fld.CFG_VIF_CDU1_SPARES_USED : Fld := ⟨0x00100810, 0, 16⟩
/-- Offset of `CFG_VIF_CDU1` (01_stack.md R48). -/
def Off.CFG_VIF_CDU1 : Nat := 0x00100810
/-- `CFG_VIF_U1U0` bits 31:24 SLICES_RETIRED, RO, reset 0 (01_stack.md R48). -/
def Fld.CFG_VIF_U1U0_SLICES_RETIRED : Fld := ⟨0x00100814, 24, 8⟩
/-- `CFG_VIF_U1U0` bits 23:16 GROUPS_FULL, RO, reset 0 (01_stack.md R48). -/
def Fld.CFG_VIF_U1U0_GROUPS_FULL : Fld := ⟨0x00100814, 16, 8⟩
/-- `CFG_VIF_U1U0` bits 15:0 SPARES_USED, RO, reset 0 (01_stack.md R48). -/
def Fld.CFG_VIF_U1U0_SPARES_USED : Fld := ⟨0x00100814, 0, 16⟩
/-- Offset of `CFG_VIF_U1U0` (01_stack.md R48). -/
def Off.CFG_VIF_U1U0 : Nat := 0x00100814
/-- `CFG_VIF_EVENTS` bits 31:16 RETRY_COUNT, RO, reset 0 (01_stack.md R48). -/
def Fld.CFG_VIF_EVENTS_RETRY_COUNT : Fld := ⟨0x00100818, 16, 16⟩
/-- `CFG_VIF_EVENTS` bits 2 UNLOCATED, W1C, reset 0 (01_stack.md R48). -/
def Fld.CFG_VIF_EVENTS_UNLOCATED : Fld := ⟨0x00100818, 2, 1⟩
/-- `CFG_VIF_EVENTS` bits 1 STEERED, W1C, reset 0 (01_stack.md R48). -/
def Fld.CFG_VIF_EVENTS_STEERED : Fld := ⟨0x00100818, 1, 1⟩
/-- `CFG_VIF_EVENTS` bits 0 RETIRED, W1C, reset 0 (01_stack.md R48). -/
def Fld.CFG_VIF_EVENTS_RETIRED : Fld := ⟨0x00100818, 0, 1⟩
/-- Offset of `CFG_VIF_EVENTS` (01_stack.md R48). -/
def Off.CFG_VIF_EVENTS : Nat := 0x00100818
/-- `CFG_BRIDGE` bits 31:16 PAIR_RETIRED, RO, reset 0x0000 (01_stack.md R48). -/
def Fld.CFG_BRIDGE_PAIR_RETIRED : Fld := ⟨0x00100820, 16, 16⟩
/-- `CFG_BRIDGE` bits 4:0 PAIRS_ACTIVE, RO, reset 0 (01_stack.md R48). -/
def Fld.CFG_BRIDGE_PAIRS_ACTIVE : Fld := ⟨0x00100820, 0, 5⟩
/-- Offset of `CFG_BRIDGE` (01_stack.md R48). -/
def Off.CFG_BRIDGE : Nat := 0x00100820
/-- `CFG_BRIDGE_RETRY` bits 31:0 REPLAY_COUNT, RO, reset 0 (01_stack.md R48). -/
def Fld.CFG_BRIDGE_RETRY_REPLAY_COUNT : Fld := ⟨0x00100824, 0, 32⟩
/-- Offset of `CFG_BRIDGE_RETRY` (01_stack.md R48). -/
def Off.CFG_BRIDGE_RETRY : Nat := 0x00100824
/-- `CFG_TIMEBASE_LO` bits 31:0 TB_LO, RO, reset 0 (01_stack.md R48). -/
def Fld.CFG_TIMEBASE_LO_TB_LO : Fld := ⟨0x00100830, 0, 32⟩
/-- Offset of `CFG_TIMEBASE_LO` (01_stack.md R48). -/
def Off.CFG_TIMEBASE_LO : Nat := 0x00100830
/-- `CFG_TIMEBASE_HI` bits 31:0 TB_HI, RO, reset 0 (01_stack.md R48). -/
def Fld.CFG_TIMEBASE_HI_TB_HI : Fld := ⟨0x00100834, 0, 32⟩
/-- Offset of `CFG_TIMEBASE_HI` (01_stack.md R48). -/
def Off.CFG_TIMEBASE_HI : Nat := 0x00100834
/-- `CFG_TB_STATUS` bits 7 RELOAD, W1C, reset 0 (01_stack.md R48). -/
def Fld.CFG_TB_STATUS_RELOAD : Fld := ⟨0x00100838, 7, 1⟩
/-- `CFG_TB_STATUS` bits 3 CD_B_OK, RO, reset 1 (01_stack.md R48). -/
def Fld.CFG_TB_STATUS_CD_B_OK : Fld := ⟨0x00100838, 3, 1⟩
/-- `CFG_TB_STATUS` bits 2 CD_A_OK, RO, reset 1 (01_stack.md R48). -/
def Fld.CFG_TB_STATUS_CD_A_OK : Fld := ⟨0x00100838, 2, 1⟩
/-- `CFG_TB_STATUS` bits 1 U1_B_OK, RO, reset 1 (01_stack.md R48). -/
def Fld.CFG_TB_STATUS_U1_B_OK : Fld := ⟨0x00100838, 1, 1⟩
/-- `CFG_TB_STATUS` bits 0 U1_A_OK, RO, reset 1 (01_stack.md R48). -/
def Fld.CFG_TB_STATUS_U1_A_OK : Fld := ⟨0x00100838, 0, 1⟩
/-- Offset of `CFG_TB_STATUS` (01_stack.md R48). -/
def Off.CFG_TB_STATUS : Nat := 0x00100838
/-- `PWR_CAD_CTL` bits 16 MIN_CLEAR, WO, reset 0 (01_stack.md R49). -/
def Fld.PWR_CAD_CTL_MIN_CLEAR : Fld := ⟨0x00200100, 16, 1⟩
/-- `PWR_CAD_CTL` bits 15:0 CAD_LOW, RW, reset 0x0000 (01_stack.md R49). -/
def Fld.PWR_CAD_CTL_CAD_LOW : Fld := ⟨0x00200100, 0, 16⟩
/-- Offset of `PWR_CAD_CTL` (01_stack.md R49). -/
def Off.PWR_CAD_CTL : Nat := 0x00200100
/-- `PWR_CAD_LOW` bits 15:0 LOW, W1C, reset 0x0000 (01_stack.md R49). -/
def Fld.PWR_CAD_LOW_LOW : Fld := ⟨0x00200104, 0, 16⟩
/-- Offset of `PWR_CAD_LOW` (01_stack.md R49). -/
def Off.PWR_CAD_LOW : Nat := 0x00200104
/-- `PWR_CAD_Cn` bits 31:16 CAD_MIN, RO, reset 0xFFFF (01_stack.md R49). -/
def Fld.PWR_CAD_CAD_MIN (n : Nat) : Fld := ⟨0x00200140 + 0x8 * n, 16, 16⟩
/-- `PWR_CAD_Cn` bits 15:0 CAD_NOW, RO, reset 0x0000 (01_stack.md R49). -/
def Fld.PWR_CAD_CAD_NOW (n : Nat) : Fld := ⟨0x00200140 + 0x8 * n, 0, 16⟩
/-- Offset of `PWR_CAD_Cn` (01_stack.md R49). -/
def Off.PWR_CAD (n : Nat) : Nat := 0x00200140 + 0x8 * n
/-- `PWR_BUSY_Cn` bits 15:0 BUSY, RO, reset 0x0000 (01_stack.md R49). -/
def Fld.PWR_BUSY_BUSY (n : Nat) : Fld := ⟨0x00200144 + 0x8 * n, 0, 16⟩
/-- Offset of `PWR_BUSY_Cn` (01_stack.md R49). -/
def Off.PWR_BUSY (n : Nat) : Nat := 0x00200144 + 0x8 * n
/-- `PWR_TSV_Cn` bits 15:8 U1_WEAK, RO, reset 0 (01_stack.md R49). -/
def Fld.PWR_TSV_U1_WEAK (n : Nat) : Fld := ⟨0x00200200 + 0x4 * n, 8, 8⟩
/-- `PWR_TSV_Cn` bits 7:0 U0_WEAK, RO, reset 0 (01_stack.md R49). -/
def Fld.PWR_TSV_U0_WEAK (n : Nat) : Fld := ⟨0x00200200 + 0x4 * n, 0, 8⟩
/-- Offset of `PWR_TSV_Cn` (01_stack.md R49). -/
def Off.PWR_TSV (n : Nat) : Nat := 0x00200200 + 0x4 * n
/-- `CFG_ARITH` bits 23:18 STERLING_FRAC, RO, reset 18 (02_numbers.md R77). -/
def Fld.CFG_ARITH_STERLING_FRAC : Fld := ⟨0x00100840, 18, 6⟩
/-- `CFG_ARITH` bits 15:9 MX_BLOCK, RO, reset 32 (02_numbers.md R77). -/
def Fld.CFG_ARITH_MX_BLOCK : Fld := ⟨0x00100840, 9, 7⟩
/-- `CFG_ARITH` bits 8 ULUVER, RO, reset 1 (02_numbers.md R77). -/
def Fld.CFG_ARITH_ULUVER : Fld := ⟨0x00100840, 8, 1⟩
/-- `CFG_ARITH` bits 7:0 LEVEL, RO, reset 0x01 (02_numbers.md R77). -/
def Fld.CFG_ARITH_LEVEL : Fld := ⟨0x00100840, 0, 8⟩
/-- Offset of `CFG_ARITH` (02_numbers.md R77). -/
def Off.CFG_ARITH : Nat := 0x00100840
/-- `PPL_TILE_MAP_Cn` bits 31:17 LVALID, RO, reset Start (03_tiles.md R103). -/
def Fld.PPL_TILE_MAP_LVALID (n : Nat) : Fld := ⟨0x00708000 + 0x20 * n, 17, 15⟩
/-- `PPL_TILE_MAP_Cn` bits 16 SPARE_OK, RO, reset Start (03_tiles.md R103). -/
def Fld.PPL_TILE_MAP_SPARE_OK (n : Nat) : Fld := ⟨0x00708000 + 0x20 * n, 16, 1⟩
/-- `PPL_TILE_MAP_Cn` bits 15:12 SPARE_PHYS, RO, reset Start (03_tiles.md R103). -/
def Fld.PPL_TILE_MAP_SPARE_PHYS (n : Nat) : Fld := ⟨0x00708000 + 0x20 * n, 12, 4⟩
/-- `PPL_TILE_MAP_Cn` bits 3:0 ACTIVE, RO, reset Start (03_tiles.md R103). -/
def Fld.PPL_TILE_MAP_ACTIVE (n : Nat) : Fld := ⟨0x00708000 + 0x20 * n, 0, 4⟩
/-- Offset of `PPL_TILE_MAP_Cn` (03_tiles.md R103). -/
def Off.PPL_TILE_MAP (n : Nat) : Nat := 0x00708000 + 0x20 * n
/-- `PPL_TILE_LMAP_Cn_LO` bits 31:0 L7–L0, RO, reset Start (03_tiles.md R103). -/
def Fld.PPL_TILE_LMAP_LO_L7_L0 (n : Nat) : Fld := ⟨0x00708004 + 0x20 * n, 0, 32⟩
/-- Offset of `PPL_TILE_LMAP_Cn_LO` (03_tiles.md R103). -/
def Off.PPL_TILE_LMAP_LO (n : Nat) : Nat := 0x00708004 + 0x20 * n
/-- `PPL_TILE_LMAP_Cn_HI` bits 27:0 L14–L8, RO, reset Start (03_tiles.md R103). -/
def Fld.PPL_TILE_LMAP_HI_L14_L8 (n : Nat) : Fld := ⟨0x00708008 + 0x20 * n, 0, 28⟩
/-- Offset of `PPL_TILE_LMAP_Cn_HI` (03_tiles.md R103). -/
def Off.PPL_TILE_LMAP_HI (n : Nat) : Nat := 0x00708008 + 0x20 * n
/-- `PPL_TILE_RET_Cn` bits 15:0 RETIRED, RO, reset Start (03_tiles.md R103). -/
def Fld.PPL_TILE_RET_RETIRED (n : Nat) : Fld := ⟨0x0070800C + 0x20 * n, 0, 16⟩
/-- Offset of `PPL_TILE_RET_Cn` (03_tiles.md R103). -/
def Off.PPL_TILE_RET (n : Nat) : Nat := 0x0070800C + 0x20 * n
/-- `PPL_CHK_Cn` bits 31:16 TRANSIENT, RO, reset 0 (03_tiles.md R103). -/
def Fld.PPL_CHK_TRANSIENT (n : Nat) : Fld := ⟨0x00708010 + 0x20 * n, 16, 16⟩
/-- `PPL_CHK_Cn` bits 15:0 SKIPPED, RO, reset 0 (03_tiles.md R103). -/
def Fld.PPL_CHK_SKIPPED (n : Nat) : Fld := ⟨0x00708010 + 0x20 * n, 0, 16⟩
/-- Offset of `PPL_CHK_Cn` (03_tiles.md R103). -/
def Off.PPL_CHK (n : Nat) : Nat := 0x00708010 + 0x20 * n
/-- `PPL_TILE_EVENTS` bits 31:16 CLUSTER, W1C, reset 0x0000 (03_tiles.md R103). -/
def Fld.PPL_TILE_EVENTS_CLUSTER : Fld := ⟨0x00708200, 16, 16⟩
/-- `PPL_TILE_EVENTS` bits 4 CLUSTER_RETIRED, W1C, reset 0 (03_tiles.md R103). -/
def Fld.PPL_TILE_EVENTS_CLUSTER_RETIRED : Fld := ⟨0x00708200, 4, 1⟩
/-- `PPL_TILE_EVENTS` bits 3 NO_SPARE, W1C, reset 0 (03_tiles.md R103). -/
def Fld.PPL_TILE_EVENTS_NO_SPARE : Fld := ⟨0x00708200, 3, 1⟩
/-- `PPL_TILE_EVENTS` bits 2 STEERED, W1C, reset 0 (03_tiles.md R103). -/
def Fld.PPL_TILE_EVENTS_STEERED : Fld := ⟨0x00708200, 2, 1⟩
/-- `PPL_TILE_EVENTS` bits 1 RETIRED, W1C, reset 0 (03_tiles.md R103). -/
def Fld.PPL_TILE_EVENTS_RETIRED : Fld := ⟨0x00708200, 1, 1⟩
/-- `PPL_TILE_EVENTS` bits 0 TRANSIENT, W1C, reset 0 (03_tiles.md R103). -/
def Fld.PPL_TILE_EVENTS_TRANSIENT : Fld := ⟨0x00708200, 0, 1⟩
/-- Offset of `PPL_TILE_EVENTS` (03_tiles.md R103). -/
def Off.PPL_TILE_EVENTS : Nat := 0x00708200
/-- `PPL_CHK_CTL` bits 15:0 TRANS_LIMIT, RW, reset Image; 16 if the image is silent (03_tiles.md R103). -/
def Fld.PPL_CHK_CTL_TRANS_LIMIT : Fld := ⟨0x00708204, 0, 16⟩
/-- Offset of `PPL_CHK_CTL` (03_tiles.md R103). -/
def Off.PPL_CHK_CTL : Nat := 0x00708204
/-- `PPL_OCC_Cn` bits 24:16 GROUPS, RO, reset 0 (04_thread_groups.md R135). -/
def Fld.PPL_OCC_GROUPS (n : Nat) : Fld := ⟨0x0070A000 + 0x10 * n, 16, 9⟩
/-- `PPL_OCC_Cn` bits 11:0 LAUNCHES, RO, reset 0 (04_thread_groups.md R135). -/
def Fld.PPL_OCC_LAUNCHES (n : Nat) : Fld := ⟨0x0070A000 + 0x10 * n, 0, 12⟩
/-- Offset of `PPL_OCC_Cn` (04_thread_groups.md R135). -/
def Off.PPL_OCC (n : Nat) : Nat := 0x0070A000 + 0x10 * n
/-- `PPL_TSERR_Cn` bits 31:16 CORRECTED, RO, reset 0 (04_thread_groups.md R135). -/
def Fld.PPL_TSERR_CORRECTED (n : Nat) : Fld := ⟨0x0070A004 + 0x10 * n, 16, 16⟩
/-- `PPL_TSERR_Cn` bits 15:8 UNCORRECTED, RO, reset 0 (04_thread_groups.md R135). -/
def Fld.PPL_TSERR_UNCORRECTED (n : Nat) : Fld := ⟨0x0070A004 + 0x10 * n, 8, 8⟩
/-- `PPL_TSERR_Cn` bits 7:0 CACHE_PARITY, RO, reset 0 (04_thread_groups.md R135). -/
def Fld.PPL_TSERR_CACHE_PARITY (n : Nat) : Fld := ⟨0x0070A004 + 0x10 * n, 0, 8⟩
/-- Offset of `PPL_TSERR_Cn` (04_thread_groups.md R135). -/
def Off.PPL_TSERR (n : Nat) : Nat := 0x0070A004 + 0x10 * n
/-- `PPL_WDOG_Cn` bits 19:0 TIMEOUT_US, RW, reset Image; 10,000 if the image is silent (04_thread_groups.md R135). -/
def Fld.PPL_WDOG_TIMEOUT_US (n : Nat) : Fld := ⟨0x0070A008 + 0x10 * n, 0, 20⟩
/-- Offset of `PPL_WDOG_Cn` (04_thread_groups.md R135). -/
def Off.PPL_WDOG (n : Nat) : Nat := 0x0070A008 + 0x10 * n
/-- `PPL_KFAULT_LO` bits 31:16 KERNEL_ID, RO, reset 0 (04_thread_groups.md R135). -/
def Fld.PPL_KFAULT_LO_KERNEL_ID : Fld := ⟨0x0070A100, 16, 16⟩
/-- `PPL_KFAULT_LO` bits 15:12 CLUSTER, RO, reset 0 (04_thread_groups.md R135). -/
def Fld.PPL_KFAULT_LO_CLUSTER : Fld := ⟨0x0070A100, 12, 4⟩
/-- `PPL_KFAULT_LO` bits 11:8 LTILE, RO, reset 0 (04_thread_groups.md R135). -/
def Fld.PPL_KFAULT_LO_LTILE : Fld := ⟨0x0070A100, 8, 4⟩
/-- `PPL_KFAULT_LO` bits 7:3 SLOT, RO, reset 0 (04_thread_groups.md R135). -/
def Fld.PPL_KFAULT_LO_SLOT : Fld := ⟨0x0070A100, 3, 5⟩
/-- `PPL_KFAULT_LO` bits 0 VALID, W1C, reset 0 (04_thread_groups.md R135). -/
def Fld.PPL_KFAULT_LO_VALID : Fld := ⟨0x0070A100, 0, 1⟩
/-- Offset of `PPL_KFAULT_LO` (04_thread_groups.md R135). -/
def Off.PPL_KFAULT_LO : Nat := 0x0070A100
/-- `PPL_KFAULT_HI` bits 31:24 CAUSE, RO, reset 0 (04_thread_groups.md R135). -/
def Fld.PPL_KFAULT_HI_CAUSE : Fld := ⟨0x0070A104, 24, 8⟩
/-- `PPL_KFAULT_HI` bits 23:0 PC, RO, reset 0 (04_thread_groups.md R135). -/
def Fld.PPL_KFAULT_HI_PC : Fld := ⟨0x0070A104, 0, 24⟩
/-- Offset of `PPL_KFAULT_HI` (04_thread_groups.md R135). -/
def Off.PPL_KFAULT_HI : Nat := 0x0070A104
/-- `PPL_KFAULT_COUNT` bits 31:0 COUNT, RO, reset 0 (04_thread_groups.md R135). -/
def Fld.PPL_KFAULT_COUNT_COUNT : Fld := ⟨0x0070A108, 0, 32⟩
/-- Offset of `PPL_KFAULT_COUNT` (04_thread_groups.md R135). -/
def Off.PPL_KFAULT_COUNT : Nat := 0x0070A108
/-- `PPL_STAGE_Cn` bits 31:28 ROLE, RO, reset Image (06_pipeline.md R191). -/
def Fld.PPL_STAGE_ROLE (n : Nat) : Fld := ⟨0x00700000 + 0x10 * n, 28, 4⟩
/-- `PPL_STAGE_Cn` bits 27:25 PART, RO, reset Image (06_pipeline.md R191). -/
def Fld.PPL_STAGE_PART (n : Nat) : Fld := ⟨0x00700000 + 0x10 * n, 25, 3⟩
/-- `PPL_STAGE_Cn` bits 24 RESERVE, RO, reset Image (06_pipeline.md R191). -/
def Fld.PPL_STAGE_RESERVE (n : Nat) : Fld := ⟨0x00700000 + 0x10 * n, 24, 1⟩
/-- `PPL_STAGE_Cn` bits 23 TWO_GEN, RO, reset 0 (06_pipeline.md R191). -/
def Fld.PPL_STAGE_TWO_GEN (n : Nat) : Fld := ⟨0x00700000 + 0x10 * n, 23, 1⟩
/-- `PPL_STAGE_Cn` bits 12 SENIOR, RO, reset 0 (06_pipeline.md R191). -/
def Fld.PPL_STAGE_SENIOR (n : Nat) : Fld := ⟨0x00700000 + 0x10 * n, 12, 1⟩
/-- `PPL_STAGE_Cn` bits 11:8 QUEUED, RO, reset 0 (06_pipeline.md R191). -/
def Fld.PPL_STAGE_QUEUED (n : Nat) : Fld := ⟨0x00700000 + 0x10 * n, 8, 4⟩
/-- `PPL_STAGE_Cn` bits 7:4 SWEEP, RO, reset 0 (06_pipeline.md R191). -/
def Fld.PPL_STAGE_SWEEP (n : Nat) : Fld := ⟨0x00700000 + 0x10 * n, 4, 4⟩
/-- Offset of `PPL_STAGE_Cn` (06_pipeline.md R191). -/
def Off.PPL_STAGE (n : Nat) : Nat := 0x00700000 + 0x10 * n
/-- `PPL_STAGE_DONE_Cn` bits 31:0 DONE, RO, reset 0 (06_pipeline.md R191). -/
def Fld.PPL_STAGE_DONE_DONE (n : Nat) : Fld := ⟨0x00700004 + 0x10 * n, 0, 32⟩
/-- Offset of `PPL_STAGE_DONE_Cn` (06_pipeline.md R191). -/
def Off.PPL_STAGE_DONE (n : Nat) : Nat := 0x00700004 + 0x10 * n
/-- `PPL_STAGE_FLT_Cn` bits 31:16 FAULTED, RO, reset 0 (06_pipeline.md R191). -/
def Fld.PPL_STAGE_FLT_FAULTED (n : Nat) : Fld := ⟨0x00700008 + 0x10 * n, 16, 16⟩
/-- Offset of `PPL_STAGE_FLT_Cn` (06_pipeline.md R191). -/
def Off.PPL_STAGE_FLT (n : Nat) : Nat := 0x00700008 + 0x10 * n
/-- `PPL_PART_Pp` bits 31:16 GEN, RO, reset Image (06_pipeline.md R191). -/
def Fld.PPL_PART_GEN (p : Nat) : Fld := ⟨0x00700200 + 0x10 * p, 16, 16⟩
/-- `PPL_PART_Pp` bits 15:0 CLUSTERS, RO, reset Image (06_pipeline.md R191). -/
def Fld.PPL_PART_CLUSTERS (p : Nat) : Fld := ⟨0x00700200 + 0x10 * p, 0, 16⟩
/-- Offset of `PPL_PART_Pp` (06_pipeline.md R191). -/
def Off.PPL_PART (p : Nat) : Nat := 0x00700200 + 0x10 * p
/-- `PPL_PART_STAT_Pp` bits 31:30 STATE, RO, reset 0b00 (06_pipeline.md R191). -/
def Fld.PPL_PART_STAT_STATE (p : Nat) : Fld := ⟨0x00700204 + 0x10 * p, 30, 2⟩
/-- `PPL_PART_STAT_Pp` bits 17 PIPE, RO, reset Image (06_pipeline.md R191). -/
def Fld.PPL_PART_STAT_PIPE (p : Nat) : Fld := ⟨0x00700204 + 0x10 * p, 17, 1⟩
/-- `PPL_PART_STAT_Pp` bits 16 DEGRADED, RO, reset 0 (06_pipeline.md R191). -/
def Fld.PPL_PART_STAT_DEGRADED (p : Nat) : Fld := ⟨0x00700204 + 0x10 * p, 16, 1⟩
/-- `PPL_PART_STAT_Pp` bits 15:0 GEN_NEW, RO, reset 0 (06_pipeline.md R191). -/
def Fld.PPL_PART_STAT_GEN_NEW (p : Nat) : Fld := ⟨0x00700204 + 0x10 * p, 0, 16⟩
/-- Offset of `PPL_PART_STAT_Pp` (06_pipeline.md R191). -/
def Off.PPL_PART_STAT (p : Nat) : Nat := 0x00700204 + 0x10 * p
/-- `PPL_CLASS_k` bits 31:24 FILL_SHARE, RW, reset Image; 32 if the image is silent (06_pipeline.md R191). -/
def Fld.PPL_CLASS_FILL_SHARE (k : Nat) : Fld := ⟨0x00700300 + 0x4 * k, 24, 8⟩
/-- `PPL_CLASS_k` bits 19:0 TOL_US, RW, reset Image; 2,000 if the image is silent (06_pipeline.md R191). -/
def Fld.PPL_CLASS_TOL_US (k : Nat) : Fld := ⟨0x00700300 + 0x4 * k, 0, 20⟩
/-- Offset of `PPL_CLASS_k` (06_pipeline.md R191). -/
def Off.PPL_CLASS (k : Nat) : Nat := 0x00700300 + 0x4 * k
/-- `PPL_ENTRY_CTL` bits 19:0 HOLD_MAX_US, RW, reset Image; 10,000 if the image is silent (06_pipeline.md R191). -/
def Fld.PPL_ENTRY_CTL_HOLD_MAX_US : Fld := ⟨0x00700400, 0, 20⟩
/-- Offset of `PPL_ENTRY_CTL` (06_pipeline.md R191). -/
def Off.PPL_ENTRY_CTL : Nat := 0x00700400
/-- `PPL_CHANGE` bits 31 ACTIVE, RO, reset 0 (06_pipeline.md R191). -/
def Fld.PPL_CHANGE_ACTIVE : Fld := ⟨0x00700404, 31, 1⟩
/-- `PPL_CHANGE` bits 30 HOLDING, RO, reset 0 (06_pipeline.md R191). -/
def Fld.PPL_CHANGE_HOLDING : Fld := ⟨0x00700404, 30, 1⟩
/-- `PPL_CHANGE` bits 29:28 LAST, RO, reset 0b00 (06_pipeline.md R191). -/
def Fld.PPL_CHANGE_LAST : Fld := ⟨0x00700404, 28, 2⟩
/-- `PPL_CHANGE` bits 23:16 SET, RO, reset 0 (06_pipeline.md R191). -/
def Fld.PPL_CHANGE_SET : Fld := ⟨0x00700404, 16, 8⟩
/-- `PPL_CHANGE` bits 15:8 SWITCHED, RO, reset 0 (06_pipeline.md R191). -/
def Fld.PPL_CHANGE_SWITCHED : Fld := ⟨0x00700404, 8, 8⟩
/-- Offset of `PPL_CHANGE` (06_pipeline.md R191). -/
def Off.PPL_CHANGE : Nat := 0x00700404
/-- `PPL_MESH` bits 31:24 RETRY, RO, reset 0 (06_pipeline.md R191). -/
def Fld.PPL_MESH_RETRY : Fld := ⟨0x00700410, 24, 8⟩
/-- `PPL_MESH` bits 23:0 RETIRED, RO, reset Start (06_pipeline.md R191). -/
def Fld.PPL_MESH_RETIRED : Fld := ⟨0x00700410, 0, 24⟩
/-- Offset of `PPL_MESH` (06_pipeline.md R191). -/
def Off.PPL_MESH : Nat := 0x00700410
/-- `PPL_RT_Pp_Ei_LO` bits 31:0 ENTRY_LO, RO, reset Image (06_pipeline.md R191). -/
def Fld.PPL_RT_LO_ENTRY_LO (p : Nat) (i : Nat) : Fld := ⟨0x00701000 + 0x800 * p + 0x8 * i, 0, 32⟩
/-- Offset of `PPL_RT_Pp_Ei_LO` (06_pipeline.md R191). -/
def Off.PPL_RT_LO (p : Nat) (i : Nat) : Nat := 0x00701000 + 0x800 * p + 0x8 * i
/-- `PPL_RT_Pp_Ei_HI` bits 31:0 ENTRY_HI, RO, reset Image (06_pipeline.md R191). -/
def Fld.PPL_RT_HI_ENTRY_HI (p : Nat) (i : Nat) : Fld := ⟨0x00701004 + 0x800 * p + 0x8 * i, 0, 32⟩
/-- Offset of `PPL_RT_Pp_Ei_HI` (06_pipeline.md R191). -/
def Off.PPL_RT_HI (p : Nat) (i : Nat) : Nat := 0x00701004 + 0x800 * p + 0x8 * i
/-- `KVL_POOL` bits 13:0 BLOCKS, RO, reset Image (07_kv_ledger.md R230). -/
def Fld.KVL_POOL_BLOCKS : Fld := ⟨0x00400000, 0, 14⟩
/-- Offset of `KVL_POOL` (07_kv_ledger.md R230). -/
def Off.KVL_POOL : Nat := 0x00400000
/-- `KVL_POOL_FREE` bits 31:28 LARGEST, RO, reset Start (07_kv_ledger.md R230). -/
def Fld.KVL_POOL_FREE_LARGEST : Fld := ⟨0x00400004, 28, 4⟩
/-- `KVL_POOL_FREE` bits 23:0 FREE, RO, reset Start (07_kv_ledger.md R230). -/
def Fld.KVL_POOL_FREE_FREE : Fld := ⟨0x00400004, 0, 24⟩
/-- Offset of `KVL_POOL_FREE` (07_kv_ledger.md R230). -/
def Off.KVL_POOL_FREE : Nat := 0x00400004
/-- `KVL_CTL` bits 23:20 DEF_MAX_CLASS, RW, reset Image; 10 if the image is silent (07_kv_ledger.md R230). -/
def Fld.KVL_CTL_DEF_MAX_CLASS : Fld := ⟨0x00400008, 20, 4⟩
/-- `KVL_CTL` bits 19:0 STALL_MAX_US, RW, reset Image; 50,000 if the image is silent (07_kv_ledger.md R230). -/
def Fld.KVL_CTL_STALL_MAX_US : Fld := ⟨0x00400008, 0, 20⟩
/-- Offset of `KVL_CTL` (07_kv_ledger.md R230). -/
def Off.KVL_CTL : Nat := 0x00400008
/-- `KVL_LIVE` bits 16:0 LIVE, RO, reset 0 (07_kv_ledger.md R230). -/
def Fld.KVL_LIVE_LIVE : Fld := ⟨0x0040000C, 0, 17⟩
/-- Offset of `KVL_LIVE` (07_kv_ledger.md R230). -/
def Off.KVL_LIVE : Nat := 0x0040000C
/-- `KVL_SWAP_BASE_LO` bits 31:24 BASE_LO, RW, reset 0 (07_kv_ledger.md R230). -/
def Fld.KVL_SWAP_BASE_LO_BASE_LO : Fld := ⟨0x00400010, 24, 8⟩
/-- Offset of `KVL_SWAP_BASE_LO` (07_kv_ledger.md R230). -/
def Off.KVL_SWAP_BASE_LO : Nat := 0x00400010
/-- `KVL_SWAP_BASE_HI` bits 31:0 BASE_HI, RW, reset 0 (07_kv_ledger.md R230). -/
def Fld.KVL_SWAP_BASE_HI_BASE_HI : Fld := ⟨0x00400014, 0, 32⟩
/-- Offset of `KVL_SWAP_BASE_HI` (07_kv_ledger.md R230). -/
def Off.KVL_SWAP_BASE_HI : Nat := 0x00400014
/-- `KVL_SWAP_SIZE` bits 31 EN, RW, reset 0 (07_kv_ledger.md R230). -/
def Fld.KVL_SWAP_SIZE_EN : Fld := ⟨0x00400018, 31, 1⟩
/-- `KVL_SWAP_SIZE` bits 30 BUSY, RO, reset 0 (07_kv_ledger.md R230). -/
def Fld.KVL_SWAP_SIZE_BUSY : Fld := ⟨0x00400018, 30, 1⟩
/-- `KVL_SWAP_SIZE` bits 15:0 BLOCKS, RW, reset 0 (07_kv_ledger.md R230). -/
def Fld.KVL_SWAP_SIZE_BLOCKS : Fld := ⟨0x00400018, 0, 16⟩
/-- Offset of `KVL_SWAP_SIZE` (07_kv_ledger.md R230). -/
def Off.KVL_SWAP_SIZE : Nat := 0x00400018
/-- `KVL_EVENTS` bits 5 POISON, W1C, reset 0 (07_kv_ledger.md R230). -/
def Fld.KVL_EVENTS_POISON : Fld := ⟨0x00400020, 5, 1⟩
/-- `KVL_EVENTS` bits 4 SWAP_FAIL, W1C, reset 0 (07_kv_ledger.md R230). -/
def Fld.KVL_EVENTS_SWAP_FAIL : Fld := ⟨0x00400020, 4, 1⟩
/-- `KVL_EVENTS` bits 3 REF_SAT, W1C, reset 0 (07_kv_ledger.md R230). -/
def Fld.KVL_EVENTS_REF_SAT : Fld := ⟨0x00400020, 3, 1⟩
/-- `KVL_EVENTS` bits 2 STARVE, W1C, reset 0 (07_kv_ledger.md R230). -/
def Fld.KVL_EVENTS_STARVE : Fld := ⟨0x00400020, 2, 1⟩
/-- `KVL_EVENTS` bits 1 PREEMPT, W1C, reset 0 (07_kv_ledger.md R230). -/
def Fld.KVL_EVENTS_PREEMPT : Fld := ⟨0x00400020, 1, 1⟩
/-- `KVL_EVENTS` bits 0 COPY, W1C, reset 0 (07_kv_ledger.md R230). -/
def Fld.KVL_EVENTS_COPY : Fld := ⟨0x00400020, 0, 1⟩
/-- Offset of `KVL_EVENTS` (07_kv_ledger.md R230). -/
def Off.KVL_EVENTS : Nat := 0x00400020
/-- `KVL_COUNTS` bits 31:16 PREEMPTS, RO, reset 0 (07_kv_ledger.md R230). -/
def Fld.KVL_COUNTS_PREEMPTS : Fld := ⟨0x00400024, 16, 16⟩
/-- `KVL_COUNTS` bits 15:0 COPIES, RO, reset 0 (07_kv_ledger.md R230). -/
def Fld.KVL_COUNTS_COPIES : Fld := ⟨0x00400024, 0, 16⟩
/-- Offset of `KVL_COUNTS` (07_kv_ledger.md R230). -/
def Off.KVL_COUNTS : Nat := 0x00400024
/-- `KVL_CLASS_k` bits 4 PROTECT, RW, reset Image; 0 if the image is silent (07_kv_ledger.md R230). -/
def Fld.KVL_CLASS_PROTECT (k : Nat) : Fld := ⟨0x00400040 + 0x4 * k, 4, 1⟩
/-- `KVL_CLASS_k` bits 3:0 PRIO, RW, reset Image; k if the image is silent (07_kv_ledger.md R230). -/
def Fld.KVL_CLASS_PRIO (k : Nat) : Fld := ⟨0x00400040 + 0x4 * k, 0, 4⟩
/-- Offset of `KVL_CLASS_k` (07_kv_ledger.md R230). -/
def Off.KVL_CLASS (k : Nat) : Nat := 0x00400040 + 0x4 * k
/-- `KVL_SHAPE_Pp` bits 31:24 LAYERS, RO, reset Image (07_kv_ledger.md R230). -/
def Fld.KVL_SHAPE_LAYERS (p : Nat) : Fld := ⟨0x00400080 + 0x4 * p, 24, 8⟩
/-- `KVL_SHAPE_Pp` bits 23:18 HEADS_M1, RO, reset Image (07_kv_ledger.md R230). -/
def Fld.KVL_SHAPE_HEADS_M1 (p : Nat) : Fld := ⟨0x00400080 + 0x4 * p, 18, 6⟩
/-- `KVL_SHAPE_Pp` bits 17:16 HEAD_DIM, RO, reset Image (07_kv_ledger.md R230). -/
def Fld.KVL_SHAPE_HEAD_DIM (p : Nat) : Fld := ⟨0x00400080 + 0x4 * p, 16, 2⟩
/-- `KVL_SHAPE_Pp` bits 15:14 KV_FMT, RO, reset Image (07_kv_ledger.md R230). -/
def Fld.KVL_SHAPE_KV_FMT (p : Nat) : Fld := ⟨0x00400080 + 0x4 * p, 14, 2⟩
/-- `KVL_SHAPE_Pp` bits 13 KLAYOUT, RO, reset Image (07_kv_ledger.md R230). -/
def Fld.KVL_SHAPE_KLAYOUT (p : Nat) : Fld := ⟨0x00400080 + 0x4 * p, 13, 1⟩
/-- `KVL_SHAPE_Pp` bits 12:9 MIN_CLASS, RO, reset Image (07_kv_ledger.md R230). -/
def Fld.KVL_SHAPE_MIN_CLASS (p : Nat) : Fld := ⟨0x00400080 + 0x4 * p, 9, 4⟩
/-- Offset of `KVL_SHAPE_Pp` (07_kv_ledger.md R230). -/
def Off.KVL_SHAPE (p : Nat) : Nat := 0x00400080 + 0x4 * p
/-- `KVL_SEQ_SEL` bits 15:0 INDEX, RW, reset 0 (07_kv_ledger.md R230). -/
def Fld.KVL_SEQ_SEL_INDEX : Fld := ⟨0x00400100, 0, 16⟩
/-- Offset of `KVL_SEQ_SEL` (07_kv_ledger.md R230). -/
def Off.KVL_SEQ_SEL : Nat := 0x00400100
/-- `KVL_SEQ_INFO0` bits 31:29 STATE, RO, reset 0 (07_kv_ledger.md R230). -/
def Fld.KVL_SEQ_INFO0_STATE : Fld := ⟨0x00400104, 29, 3⟩
/-- `KVL_SEQ_INFO0` bits 28:25 CLASS, RO, reset 0 (07_kv_ledger.md R230). -/
def Fld.KVL_SEQ_INFO0_CLASS : Fld := ⟨0x00400104, 25, 4⟩
/-- `KVL_SEQ_INFO0` bits 24:22 PIPE, RO, reset 0 (07_kv_ledger.md R230). -/
def Fld.KVL_SEQ_INFO0_PIPE : Fld := ⟨0x00400104, 22, 3⟩
/-- `KVL_SEQ_INFO0` bits 21 FED, RO, reset 0 (07_kv_ledger.md R230). -/
def Fld.KVL_SEQ_INFO0_FED : Fld := ⟨0x00400104, 21, 1⟩
/-- `KVL_SEQ_INFO0` bits 18:0 LEN, RO, reset 0 (07_kv_ledger.md R230). -/
def Fld.KVL_SEQ_INFO0_LEN : Fld := ⟨0x00400104, 0, 19⟩
/-- Offset of `KVL_SEQ_INFO0` (07_kv_ledger.md R230). -/
def Off.KVL_SEQ_INFO0 : Nat := 0x00400104
/-- `KVL_SEQ_INFO1` bits 31:28 FIRST_CLASS, RO, reset 0 (07_kv_ledger.md R230). -/
def Fld.KVL_SEQ_INFO1_FIRST_CLASS : Fld := ⟨0x00400108, 28, 4⟩
/-- `KVL_SEQ_INFO1` bits 27:24 MAX_CLASS, RO, reset 0 (07_kv_ledger.md R230). -/
def Fld.KVL_SEQ_INFO1_MAX_CLASS : Fld := ⟨0x00400108, 24, 4⟩
/-- `KVL_SEQ_INFO1` bits 18:0 RESV, RO, reset 0 (07_kv_ledger.md R230). -/
def Fld.KVL_SEQ_INFO1_RESV : Fld := ⟨0x00400108, 0, 19⟩
/-- Offset of `KVL_SEQ_INFO1` (07_kv_ledger.md R230). -/
def Off.KVL_SEQ_INFO1 : Nat := 0x00400108
/-- `KVL_SEQ_INFO2` bits 31:20 PAGES, RO, reset 0 (07_kv_ledger.md R230). -/
def Fld.KVL_SEQ_INFO2_PAGES : Fld := ⟨0x0040010C, 20, 12⟩
/-- `KVL_SEQ_INFO2` bits 18:0 GEN_LEFT, RO, reset 0 (07_kv_ledger.md R230). -/
def Fld.KVL_SEQ_INFO2_GEN_LEFT : Fld := ⟨0x0040010C, 0, 19⟩
/-- Offset of `KVL_SEQ_INFO2` (07_kv_ledger.md R230). -/
def Off.KVL_SEQ_INFO2 : Nat := 0x0040010C
/-- `ULC_MAP` bits 31:16 EPOCH, RO, reset 0 (08_underlayer.md R265). -/
def Fld.ULC_MAP_EPOCH : Fld := ⟨0x00300000, 16, 16⟩
/-- `ULC_MAP` bits 15:8 SLICES, RO, reset Start (08_underlayer.md R265). -/
def Fld.ULC_MAP_SLICES : Fld := ⟨0x00300000, 8, 8⟩
/-- `ULC_MAP` bits 7:0 CHANNELS, RO, reset Start (08_underlayer.md R265). -/
def Fld.ULC_MAP_CHANNELS : Fld := ⟨0x00300000, 0, 8⟩
/-- Offset of `ULC_MAP` (08_underlayer.md R265). -/
def Off.ULC_MAP : Nat := 0x00300000
/-- `ULC_HBM_BYTES_LO` bits 31:0 BYTES_LO, RO, reset Start (08_underlayer.md R265). -/
def Fld.ULC_HBM_BYTES_LO_BYTES_LO : Fld := ⟨0x00300008, 0, 32⟩
/-- Offset of `ULC_HBM_BYTES_LO` (08_underlayer.md R265). -/
def Off.ULC_HBM_BYTES_LO : Nat := 0x00300008
/-- `ULC_HBM_BYTES_HI` bits 15:0 BYTES_HI, RO, reset Start (08_underlayer.md R265). -/
def Fld.ULC_HBM_BYTES_HI_BYTES_HI : Fld := ⟨0x0030000C, 0, 16⟩
/-- Offset of `ULC_HBM_BYTES_HI` (08_underlayer.md R265). -/
def Off.ULC_HBM_BYTES_HI : Nat := 0x0030000C
/-- `ULC_SLICE_RET_i` bits 31:0 RETIRED, RO, reset Start (08_underlayer.md R265). -/
def Fld.ULC_SLICE_RET_RETIRED (i : Nat) : Fld := ⟨0x00300010 + 0x4 * i, 0, 32⟩
/-- Offset of `ULC_SLICE_RET_i` (08_underlayer.md R265). -/
def Off.ULC_SLICE_RET (i : Nat) : Nat := 0x00300010 + 0x4 * i
/-- `ULC_CHAN_RET_i` bits 31:0 RETIRED, RO, reset Start (08_underlayer.md R265). -/
def Fld.ULC_CHAN_RET_RETIRED (i : Nat) : Fld := ⟨0x00300020 + 0x4 * i, 0, 32⟩
/-- Offset of `ULC_CHAN_RET_i` (08_underlayer.md R265). -/
def Off.ULC_CHAN_RET (i : Nat) : Nat := 0x00300020 + 0x4 * i
/-- `ULC_EVENTS` bits 9 HBM_REPAIR, W1C, reset 0 (08_underlayer.md R265). -/
def Fld.ULC_EVENTS_HBM_REPAIR : Fld := ⟨0x00300040, 9, 1⟩
/-- `ULC_EVENTS` bits 8 TAG_REPAIRED, W1C, reset 0 (08_underlayer.md R265). -/
def Fld.ULC_EVENTS_TAG_REPAIRED : Fld := ⟨0x00300040, 8, 1⟩
/-- `ULC_EVENTS` bits 7 DEAD_OVERFLOW, W1C, reset 0 (08_underlayer.md R265). -/
def Fld.ULC_EVENTS_DEAD_OVERFLOW : Fld := ⟨0x00300040, 7, 1⟩
/-- `ULC_EVENTS` bits 6 PIN_LOST, W1C, reset 0 (08_underlayer.md R265). -/
def Fld.ULC_EVENTS_PIN_LOST : Fld := ⟨0x00300040, 6, 1⟩
/-- `ULC_EVENTS` bits 5 CHANNEL_RETIRED, W1C, reset 0 (08_underlayer.md R265). -/
def Fld.ULC_EVENTS_CHANNEL_RETIRED : Fld := ⟨0x00300040, 5, 1⟩
/-- `ULC_EVENTS` bits 4 SLICE_RETIRED, W1C, reset 0 (08_underlayer.md R265). -/
def Fld.ULC_EVENTS_SLICE_RETIRED : Fld := ⟨0x00300040, 4, 1⟩
/-- `ULC_EVENTS` bits 3 POISON, W1C, reset 0 (08_underlayer.md R265). -/
def Fld.ULC_EVENTS_POISON : Fld := ⟨0x00300040, 3, 1⟩
/-- `ULC_EVENTS` bits 2 REFETCH, W1C, reset 0 (08_underlayer.md R265). -/
def Fld.ULC_EVENTS_REFETCH : Fld := ⟨0x00300040, 2, 1⟩
/-- `ULC_EVENTS` bits 1 ROW_REPLACED, W1C, reset 0 (08_underlayer.md R265). -/
def Fld.ULC_EVENTS_ROW_REPLACED : Fld := ⟨0x00300040, 1, 1⟩
/-- `ULC_EVENTS` bits 0 CORRECTED, W1C, reset 0 (08_underlayer.md R265). -/
def Fld.ULC_EVENTS_CORRECTED : Fld := ⟨0x00300040, 0, 1⟩
/-- Offset of `ULC_EVENTS` (08_underlayer.md R265). -/
def Off.ULC_EVENTS : Nat := 0x00300040
/-- `ULC_ERR_UL` bits 31:16 CORRECTED, RO, reset 0 (08_underlayer.md R265). -/
def Fld.ULC_ERR_UL_CORRECTED : Fld := ⟨0x00300044, 16, 16⟩
/-- `ULC_ERR_UL` bits 15:8 REFETCHED, RO, reset 0 (08_underlayer.md R265). -/
def Fld.ULC_ERR_UL_REFETCHED : Fld := ⟨0x00300044, 8, 8⟩
/-- `ULC_ERR_UL` bits 7:0 POISONED, RO, reset 0 (08_underlayer.md R265). -/
def Fld.ULC_ERR_UL_POISONED : Fld := ⟨0x00300044, 0, 8⟩
/-- Offset of `ULC_ERR_UL` (08_underlayer.md R265). -/
def Off.ULC_ERR_UL : Nat := 0x00300044
/-- `ULC_ERR_HBM` bits 31:16 CORRECTED, RO, reset 0 (08_underlayer.md R265). -/
def Fld.ULC_ERR_HBM_CORRECTED : Fld := ⟨0x00300048, 16, 16⟩
/-- `ULC_ERR_HBM` bits 15:8 REPAIRED, RO, reset 0 (08_underlayer.md R265). -/
def Fld.ULC_ERR_HBM_REPAIRED : Fld := ⟨0x00300048, 8, 8⟩
/-- `ULC_ERR_HBM` bits 7:0 POISONED, RO, reset 0 (08_underlayer.md R265). -/
def Fld.ULC_ERR_HBM_POISONED : Fld := ⟨0x00300048, 0, 8⟩
/-- Offset of `ULC_ERR_HBM` (08_underlayer.md R265). -/
def Off.ULC_ERR_HBM : Nat := 0x00300048
/-- `ULC_DEAD` bits 31:16 OVERFLOWS, RO, reset 0 (08_underlayer.md R265). -/
def Fld.ULC_DEAD_OVERFLOWS : Fld := ⟨0x0030004C, 16, 16⟩
/-- `ULC_DEAD` bits 6:0 ENTRIES, RO, reset 0 (08_underlayer.md R265). -/
def Fld.ULC_DEAD_ENTRIES : Fld := ⟨0x0030004C, 0, 7⟩
/-- Offset of `ULC_DEAD` (08_underlayer.md R265). -/
def Off.ULC_DEAD : Nat := 0x0030004C
/-- `ULC_SCRUB_CTL` bits 31:16 HBM_MIN, RW, reset Image; 1,440 if the image is silent (08_underlayer.md R265). -/
def Fld.ULC_SCRUB_CTL_HBM_MIN : Fld := ⟨0x00300050, 16, 16⟩
/-- `ULC_SCRUB_CTL` bits 15:0 UL_MIN, RW, reset Image; 360 if the image is silent (08_underlayer.md R265). -/
def Fld.ULC_SCRUB_CTL_UL_MIN : Fld := ⟨0x00300050, 0, 16⟩
/-- Offset of `ULC_SCRUB_CTL` (08_underlayer.md R265). -/
def Off.ULC_SCRUB_CTL : Nat := 0x00300050
/-- `ULC_SCRUB_STAT` bits 31:16 HBM_PASSES, RO, reset 0 (08_underlayer.md R265). -/
def Fld.ULC_SCRUB_STAT_HBM_PASSES : Fld := ⟨0x00300054, 16, 16⟩
/-- `ULC_SCRUB_STAT` bits 15:0 UL_PASSES, RO, reset 0 (08_underlayer.md R265). -/
def Fld.ULC_SCRUB_STAT_UL_PASSES : Fld := ⟨0x00300054, 0, 16⟩
/-- Offset of `ULC_SCRUB_STAT` (08_underlayer.md R265). -/
def Off.ULC_SCRUB_STAT : Nat := 0x00300054
/-- `ULC_BKT_h_q` bits 31 VALID3, RO, reset Start (08_underlayer.md R265). -/
def Fld.ULC_BKT_VALID3 (h : Nat) (q : Nat) : Fld := ⟨0x00300100 + 0x100 * h + 0x4 * q, 31, 1⟩
/-- `ULC_BKT_h_q` bits 30:24 SLICE3, RO, reset Start (08_underlayer.md R265). -/
def Fld.ULC_BKT_SLICE3 (h : Nat) (q : Nat) : Fld := ⟨0x00300100 + 0x100 * h + 0x4 * q, 24, 7⟩
/-- `ULC_BKT_h_q` bits 23 VALID2, RO, reset Start (08_underlayer.md R265). -/
def Fld.ULC_BKT_VALID2 (h : Nat) (q : Nat) : Fld := ⟨0x00300100 + 0x100 * h + 0x4 * q, 23, 1⟩
/-- `ULC_BKT_h_q` bits 22:16 SLICE2, RO, reset Start (08_underlayer.md R265). -/
def Fld.ULC_BKT_SLICE2 (h : Nat) (q : Nat) : Fld := ⟨0x00300100 + 0x100 * h + 0x4 * q, 16, 7⟩
/-- `ULC_BKT_h_q` bits 15 VALID1, RO, reset Start (08_underlayer.md R265). -/
def Fld.ULC_BKT_VALID1 (h : Nat) (q : Nat) : Fld := ⟨0x00300100 + 0x100 * h + 0x4 * q, 15, 1⟩
/-- `ULC_BKT_h_q` bits 14:8 SLICE1, RO, reset Start (08_underlayer.md R265). -/
def Fld.ULC_BKT_SLICE1 (h : Nat) (q : Nat) : Fld := ⟨0x00300100 + 0x100 * h + 0x4 * q, 8, 7⟩
/-- `ULC_BKT_h_q` bits 7 VALID0, RO, reset Start (08_underlayer.md R265). -/
def Fld.ULC_BKT_VALID0 (h : Nat) (q : Nat) : Fld := ⟨0x00300100 + 0x100 * h + 0x4 * q, 7, 1⟩
/-- `ULC_BKT_h_q` bits 6:0 SLICE0, RO, reset Start (08_underlayer.md R265). -/
def Fld.ULC_BKT_SLICE0 (h : Nat) (q : Nat) : Fld := ⟨0x00300100 + 0x100 * h + 0x4 * q, 0, 7⟩
/-- Offset of `ULC_BKT_h_q` (08_underlayer.md R265). -/
def Off.ULC_BKT (h : Nat) (q : Nat) : Nat := 0x00300100 + 0x100 * h + 0x4 * q
/-- `ULC_WIN_w_BASE_LO` bits 31:21 BASE_LO, RO, reset Image (08_underlayer.md R265). -/
def Fld.ULC_WIN_BASE_LO_BASE_LO (w : Nat) : Fld := ⟨0x00301000 + 0x20 * w, 21, 11⟩
/-- Offset of `ULC_WIN_w_BASE_LO` (08_underlayer.md R265). -/
def Off.ULC_WIN_BASE_LO (w : Nat) : Nat := 0x00301000 + 0x20 * w
/-- `ULC_WIN_w_BASE_HI` bits 15:0 BASE_HI, RO, reset Image (08_underlayer.md R265). -/
def Fld.ULC_WIN_BASE_HI_BASE_HI (w : Nat) : Fld := ⟨0x00301004 + 0x20 * w, 0, 16⟩
/-- Offset of `ULC_WIN_w_BASE_HI` (08_underlayer.md R265). -/
def Off.ULC_WIN_BASE_HI (w : Nat) : Nat := 0x00301004 + 0x20 * w
/-- `ULC_WIN_w_ATTR` bits 31 VALID, RO, reset Image (08_underlayer.md R265). -/
def Fld.ULC_WIN_ATTR_VALID (w : Nat) : Fld := ⟨0x00301008 + 0x20 * w, 31, 1⟩
/-- `ULC_WIN_w_ATTR` bits 30:25 SIZE_LOG2, RO, reset Image (08_underlayer.md R265). -/
def Fld.ULC_WIN_ATTR_SIZE_LOG2 (w : Nat) : Fld := ⟨0x00301008 + 0x20 * w, 25, 6⟩
/-- `ULC_WIN_w_ATTR` bits 24:23 PERSIST, RO, reset Image (08_underlayer.md R265). -/
def Fld.ULC_WIN_ATTR_PERSIST (w : Nat) : Fld := ⟨0x00301008 + 0x20 * w, 23, 2⟩
/-- `ULC_WIN_w_ATTR` bits 22:18 QUOTA, RO, reset Image (08_underlayer.md R265). -/
def Fld.ULC_WIN_ATTR_QUOTA (w : Nat) : Fld := ⟨0x00301008 + 0x20 * w, 18, 5⟩
/-- `ULC_WIN_w_ATTR` bits 17 CODE, RO, reset Image (08_underlayer.md R265). -/
def Fld.ULC_WIN_ATTR_CODE (w : Nat) : Fld := ⟨0x00301008 + 0x20 * w, 17, 1⟩
/-- `ULC_WIN_w_ATTR` bits 16 STRICT_DEAD, RO, reset Image (08_underlayer.md R265). -/
def Fld.ULC_WIN_ATTR_STRICT_DEAD (w : Nat) : Fld := ⟨0x00301008 + 0x20 * w, 16, 1⟩
/-- `ULC_WIN_w_ATTR` bits 15 TRANSPOSE, RO, reset Image (08_underlayer.md R265). -/
def Fld.ULC_WIN_ATTR_TRANSPOSE (w : Nat) : Fld := ⟨0x00301008 + 0x20 * w, 15, 1⟩
/-- `ULC_WIN_w_ATTR` bits 14:12 OWNER, RO, reset Image (08_underlayer.md R265). -/
def Fld.ULC_WIN_ATTR_OWNER (w : Nat) : Fld := ⟨0x00301008 + 0x20 * w, 12, 3⟩
/-- `ULC_WIN_w_ATTR` bits 11:9 PART, RO, reset Image (08_underlayer.md R265). -/
def Fld.ULC_WIN_ATTR_PART (w : Nat) : Fld := ⟨0x00301008 + 0x20 * w, 9, 3⟩
/-- `ULC_WIN_w_ATTR` bits 8 DEVICE, RO, reset Image (08_underlayer.md R265). -/
def Fld.ULC_WIN_ATTR_DEVICE (w : Nat) : Fld := ⟨0x00301008 + 0x20 * w, 8, 1⟩
/-- Offset of `ULC_WIN_w_ATTR` (08_underlayer.md R265). -/
def Off.ULC_WIN_ATTR (w : Nat) : Nat := 0x00301008 + 0x20 * w
/-- `ULC_WIN_w_CLASS` bits 15:0 CLASSES, RO, reset Image (08_underlayer.md R265). -/
def Fld.ULC_WIN_CLASS_CLASSES (w : Nat) : Fld := ⟨0x0030100C + 0x20 * w, 0, 16⟩
/-- Offset of `ULC_WIN_w_CLASS` (08_underlayer.md R265). -/
def Off.ULC_WIN_CLASS (w : Nat) : Nat := 0x0030100C + 0x20 * w
/-- `ULC_WIN_w_TSRC_LO` bits 31:5 SRC_LO, RO, reset Image (08_underlayer.md R265). -/
def Fld.ULC_WIN_TSRC_LO_SRC_LO (w : Nat) : Fld := ⟨0x00301010 + 0x20 * w, 5, 27⟩
/-- Offset of `ULC_WIN_w_TSRC_LO` (08_underlayer.md R265). -/
def Off.ULC_WIN_TSRC_LO (w : Nat) : Nat := 0x00301010 + 0x20 * w
/-- `ULC_WIN_w_TSRC_HI` bits 31:16 STRIDE32, RO, reset Image (08_underlayer.md R265). -/
def Fld.ULC_WIN_TSRC_HI_STRIDE32 (w : Nat) : Fld := ⟨0x00301014 + 0x20 * w, 16, 16⟩
/-- `ULC_WIN_w_TSRC_HI` bits 15:0 SRC_HI, RO, reset Image (08_underlayer.md R265). -/
def Fld.ULC_WIN_TSRC_HI_SRC_HI (w : Nat) : Fld := ⟨0x00301014 + 0x20 * w, 0, 16⟩
/-- Offset of `ULC_WIN_w_TSRC_HI` (08_underlayer.md R265). -/
def Off.ULC_WIN_TSRC_HI (w : Nat) : Nat := 0x00301014 + 0x20 * w
/-- `ULC_WIN_w_TSHAPE` bits 31:30 ESIZE, RO, reset Image (08_underlayer.md R265). -/
def Fld.ULC_WIN_TSHAPE_ESIZE (w : Nat) : Fld := ⟨0x00301018 + 0x20 * w, 30, 2⟩
/-- `ULC_WIN_w_TSHAPE` bits 29:16 COLS8_M1, RO, reset Image (08_underlayer.md R265). -/
def Fld.ULC_WIN_TSHAPE_COLS8_M1 (w : Nat) : Fld := ⟨0x00301018 + 0x20 * w, 16, 14⟩
/-- `ULC_WIN_w_TSHAPE` bits 15:0 ROWS_M1, RO, reset Image (08_underlayer.md R265). -/
def Fld.ULC_WIN_TSHAPE_ROWS_M1 (w : Nat) : Fld := ⟨0x00301018 + 0x20 * w, 0, 16⟩
/-- Offset of `ULC_WIN_w_TSHAPE` (08_underlayer.md R265). -/
def Off.ULC_WIN_TSHAPE (w : Nat) : Nat := 0x00301018 + 0x20 * w
/-- `ULC_WIN_w_STAT` bits 31:30 PIN_STATE, RO, reset Start (08_underlayer.md R265). -/
def Fld.ULC_WIN_STAT_PIN_STATE (w : Nat) : Fld := ⟨0x0030101C + 0x20 * w, 30, 2⟩
/-- `ULC_WIN_w_STAT` bits 15:0 DEAD_READS, RO, reset 0 (08_underlayer.md R265). -/
def Fld.ULC_WIN_STAT_DEAD_READS (w : Nat) : Fld := ⟨0x0030101C + 0x20 * w, 0, 16⟩
/-- Offset of `ULC_WIN_w_STAT` (08_underlayer.md R265). -/
def Off.ULC_WIN_STAT (w : Nat) : Nat := 0x0030101C + 0x20 * w
/-- `ULC_SLICE_s` bits 31:30 STATE, RO, reset Start (08_underlayer.md R265). -/
def Fld.ULC_SLICE_STATE (s : Nat) : Fld := ⟨0x00302000 + 0x4 * s, 30, 2⟩
/-- `ULC_SLICE_s` bits 29:27 CAUSE, RO, reset Start (08_underlayer.md R265). -/
def Fld.ULC_SLICE_CAUSE (s : Nat) : Fld := ⟨0x00302000 + 0x4 * s, 27, 3⟩
/-- `ULC_SLICE_s` bits 24:16 BUCKETS, RO, reset Start (08_underlayer.md R265). -/
def Fld.ULC_SLICE_BUCKETS (s : Nat) : Fld := ⟨0x00302000 + 0x4 * s, 16, 9⟩
/-- `ULC_SLICE_s` bits 15:9 DISABLED, RO, reset Start (08_underlayer.md R265). -/
def Fld.ULC_SLICE_DISABLED (s : Nat) : Fld := ⟨0x00302000 + 0x4 * s, 9, 7⟩
/-- `ULC_SLICE_s` bits 8:0 SPARES_USED, RO, reset Start (08_underlayer.md R265). -/
def Fld.ULC_SLICE_SPARES_USED (s : Nat) : Fld := ⟨0x00302000 + 0x4 * s, 0, 9⟩
/-- Offset of `ULC_SLICE_s` (08_underlayer.md R265). -/
def Off.ULC_SLICE (s : Nat) : Nat := 0x00302000 + 0x4 * s
/-- `BLT_SCORE_CTL` bits 31:24 HW, RW, reset Image; 192 if the image is silent (09_belt_scoring.md R299). -/
def Fld.BLT_SCORE_CTL_HW : Fld := ⟨0x00500000, 24, 8⟩
/-- `BLT_SCORE_CTL` bits 23:16 LW, RW, reset Image; 64 if the image is silent (09_belt_scoring.md R299). -/
def Fld.BLT_SCORE_CTL_LW : Fld := ⟨0x00500000, 16, 8⟩
/-- `BLT_SCORE_CTL` bits 15:8 SHED_STEP_US, RW, reset Image; 50 if the image is silent (09_belt_scoring.md R299). -/
def Fld.BLT_SCORE_CTL_SHED_STEP_US : Fld := ⟨0x00500000, 8, 8⟩
/-- `BLT_SCORE_CTL` bits 3:0 MAX_REV, RW, reset Image; 3 if the image is silent (09_belt_scoring.md R299). -/
def Fld.BLT_SCORE_CTL_MAX_REV : Fld := ⟨0x00500000, 0, 4⟩
/-- Offset of `BLT_SCORE_CTL` (09_belt_scoring.md R299). -/
def Off.BLT_SCORE_CTL : Nat := 0x00500000
/-- `BLT_REV` bits 31:0 REV, RO, reset 0 (09_belt_scoring.md R299). -/
def Fld.BLT_REV_REV : Fld := ⟨0x00500004, 0, 32⟩
/-- Offset of `BLT_REV` (09_belt_scoring.md R299). -/
def Off.BLT_REV : Nat := 0x00500004
/-- `BLT_POS` bits 31:16 EPOCH, RO, reset 0 (09_belt_scoring.md R299). -/
def Fld.BLT_POS_EPOCH : Fld := ⟨0x00500008, 16, 16⟩
/-- `BLT_POS` bits 8 ADMIT_HOLD, RO, reset 0 (09_belt_scoring.md R299). -/
def Fld.BLT_POS_ADMIT_HOLD : Fld := ⟨0x00500008, 8, 1⟩
/-- `BLT_POS` bits 5:0 SEG, RO, reset 0 (09_belt_scoring.md R299). -/
def Fld.BLT_POS_SEG : Fld := ⟨0x00500008, 0, 6⟩
/-- Offset of `BLT_POS` (09_belt_scoring.md R299). -/
def Off.BLT_POS : Nat := 0x00500008
/-- `BLT_TAP` bits 31:16 PEAK, RO, reset 0 (09_belt_scoring.md R299). -/
def Fld.BLT_TAP_PEAK : Fld := ⟨0x0050000C, 16, 16⟩
/-- `BLT_TAP` bits 15:0 FILL, RO, reset 0 (09_belt_scoring.md R299). -/
def Fld.BLT_TAP_FILL : Fld := ⟨0x0050000C, 0, 16⟩
/-- Offset of `BLT_TAP` (09_belt_scoring.md R299). -/
def Off.BLT_TAP : Nat := 0x0050000C
/-- `BLT_QUEUE` bits 31:15 FREE, RO, reset Start (09_belt_scoring.md R299). -/
def Fld.BLT_QUEUE_FREE : Fld := ⟨0x00500010, 15, 17⟩
/-- `BLT_QUEUE` bits 12:0 PENDING, RO, reset 0 (09_belt_scoring.md R299). -/
def Fld.BLT_QUEUE_PENDING : Fld := ⟨0x00500010, 0, 13⟩
/-- Offset of `BLT_QUEUE` (09_belt_scoring.md R299). -/
def Off.BLT_QUEUE : Nat := 0x00500010
/-- `BLT_PROF_Cn` bits 31:28 RFMT, RO, reset Image (09_belt_scoring.md R299). -/
def Fld.BLT_PROF_RFMT (n : Nat) : Fld := ⟨0x00500040 + 0x4 * n, 28, 4⟩
/-- `BLT_PROF_Cn` bits 27:24 QFMT, RO, reset Image (09_belt_scoring.md R299). -/
def Fld.BLT_PROF_QFMT (n : Nat) : Fld := ⟨0x00500040 + 0x4 * n, 24, 4⟩
/-- `BLT_PROF_Cn` bits 23:19 DIM128, RO, reset Image (09_belt_scoring.md R299). -/
def Fld.BLT_PROF_DIM128 (n : Nat) : Fld := ⟨0x00500040 + 0x4 * n, 19, 5⟩
/-- `BLT_PROF_Cn` bits 10:0 OCCUPIED, RO, reset 0 (09_belt_scoring.md R299). -/
def Fld.BLT_PROF_OCCUPIED (n : Nat) : Fld := ⟨0x00500040 + 0x4 * n, 0, 11⟩
/-- Offset of `BLT_PROF_Cn` (09_belt_scoring.md R299). -/
def Off.BLT_PROF (n : Nat) : Nat := 0x00500040 + 0x4 * n
/-- `BLT_SHED_Cn` bits 31:25 SHED, RO, reset 0 (09_belt_scoring.md R299). -/
def Fld.BLT_SHED_SHED (n : Nat) : Fld := ⟨0x00500080 + 0x4 * n, 25, 7⟩
/-- `BLT_SHED_Cn` bits 24:12 RANGES, RO, reset 0 (09_belt_scoring.md R299). -/
def Fld.BLT_SHED_RANGES (n : Nat) : Fld := ⟨0x00500080 + 0x4 * n, 12, 13⟩
/-- `BLT_SHED_Cn` bits 11:0 ABANDONS, RO, reset 0 (09_belt_scoring.md R299). -/
def Fld.BLT_SHED_ABANDONS (n : Nat) : Fld := ⟨0x00500080 + 0x4 * n, 0, 12⟩
/-- Offset of `BLT_SHED_Cn` (09_belt_scoring.md R299). -/
def Off.BLT_SHED (n : Nat) : Nat := 0x00500080 + 0x4 * n
/-- `BLT_EVENTS` bits 8 SLOT_FAULT, W1C, reset 0 (09_belt_scoring.md R299). -/
def Fld.BLT_EVENTS_SLOT_FAULT : Fld := ⟨0x005000C0, 8, 1⟩
/-- `BLT_EVENTS` bits 7 DIR_MISMATCH, W1C, reset 0 (09_belt_scoring.md R299). -/
def Fld.BLT_EVENTS_DIR_MISMATCH : Fld := ⟨0x005000C0, 7, 1⟩
/-- `BLT_EVENTS` bits 6 TAKEOVER, W1C, reset 0 (09_belt_scoring.md R299). -/
def Fld.BLT_EVENTS_TAKEOVER : Fld := ⟨0x005000C0, 6, 1⟩
/-- `BLT_EVENTS` bits 5 LOST, W1C, reset 0 (09_belt_scoring.md R299). -/
def Fld.BLT_EVENTS_LOST : Fld := ⟨0x005000C0, 5, 1⟩
/-- `BLT_EVENTS` bits 4 INVALID_SCORE, W1C, reset 0 (09_belt_scoring.md R299). -/
def Fld.BLT_EVENTS_INVALID_SCORE : Fld := ⟨0x005000C0, 4, 1⟩
/-- `BLT_EVENTS` bits 3 TIMEOUT, W1C, reset 0 (09_belt_scoring.md R299). -/
def Fld.BLT_EVENTS_TIMEOUT : Fld := ⟨0x005000C0, 3, 1⟩
/-- `BLT_EVENTS` bits 2 ABANDON, W1C, reset 0 (09_belt_scoring.md R299). -/
def Fld.BLT_EVENTS_ABANDON : Fld := ⟨0x005000C0, 2, 1⟩
/-- `BLT_EVENTS` bits 1 SHED, W1C, reset 0 (09_belt_scoring.md R299). -/
def Fld.BLT_EVENTS_SHED : Fld := ⟨0x005000C0, 1, 1⟩
/-- `BLT_EVENTS` bits 0 LETPASS, W1C, reset 0 (09_belt_scoring.md R299). -/
def Fld.BLT_EVENTS_LETPASS : Fld := ⟨0x005000C0, 0, 1⟩
/-- Offset of `BLT_EVENTS` (09_belt_scoring.md R299). -/
def Off.BLT_EVENTS : Nat := 0x005000C0
/-- `BLT_DONE` bits 31:0 DONE, RO, reset 0 (09_belt_scoring.md R299). -/
def Fld.BLT_DONE_DONE : Fld := ⟨0x005000D0, 0, 32⟩
/-- Offset of `BLT_DONE` (09_belt_scoring.md R299). -/
def Off.BLT_DONE : Nat := 0x005000D0
/-- `BLT_INVALID` bits 31:0 INVALID, RO, reset 0 (09_belt_scoring.md R299). -/
def Fld.BLT_INVALID_INVALID : Fld := ⟨0x005000D4, 0, 32⟩
/-- Offset of `BLT_INVALID` (09_belt_scoring.md R299). -/
def Off.BLT_INVALID : Nat := 0x005000D4
/-- `BLT_RING` bits 31:30 ROLE, RO, reset Strap (10_rings.md R335). -/
def Fld.BLT_RING_ROLE : Fld := ⟨0x00500400, 30, 2⟩
/-- `BLT_RING` bits 29 FORMED, RO, reset 0 (10_rings.md R335). -/
def Fld.BLT_RING_FORMED : Fld := ⟨0x00500400, 29, 1⟩
/-- `BLT_RING` bits 28 BRAKED, RO, reset 0 (10_rings.md R335). -/
def Fld.BLT_RING_BRAKED : Fld := ⟨0x00500400, 28, 1⟩
/-- `BLT_RING` bits 27 ELASTIC, RO, reset 0 (10_rings.md R335). -/
def Fld.BLT_RING_ELASTIC : Fld := ⟨0x00500400, 27, 1⟩
/-- `BLT_RING` bits 23:12 SIZE, RO, reset 0 (10_rings.md R335). -/
def Fld.BLT_RING_SIZE : Fld := ⟨0x00500400, 12, 12⟩
/-- `BLT_RING` bits 11:0 POSITION, RO, reset 0xFFF (10_rings.md R335). -/
def Fld.BLT_RING_POSITION : Fld := ⟨0x00500400, 0, 12⟩
/-- Offset of `BLT_RING` (10_rings.md R335). -/
def Off.BLT_RING : Nat := 0x00500400
/-- `BLT_RING_ID` bits 31:16 RING_ID, RO, reset 0 (10_rings.md R335). -/
def Fld.BLT_RING_ID_RING_ID : Fld := ⟨0x00500404, 16, 16⟩
/-- `BLT_RING_ID` bits 11:0 PARENT_POS, RO, reset 0xFFF (10_rings.md R335). -/
def Fld.BLT_RING_ID_PARENT_POS : Fld := ⟨0x00500404, 0, 12⟩
/-- Offset of `BLT_RING_ID` (10_rings.md R335). -/
def Off.BLT_RING_ID : Nat := 0x00500404
/-- `BLT_RTT` bits 31:0 RTT, RO, reset 0 (10_rings.md R335). -/
def Fld.BLT_RTT_RTT : Fld := ⟨0x00500408, 0, 32⟩
/-- Offset of `BLT_RTT` (10_rings.md R335). -/
def Off.BLT_RTT : Nat := 0x00500408
/-- `BLT_SLOTS` bits 31:16 P, RO, reset 0 (10_rings.md R335). -/
def Fld.BLT_SLOTS_P : Fld := ⟨0x0050040C, 16, 16⟩
/-- `BLT_SLOTS` bits 11:0 STORE, RO, reset 0 (10_rings.md R335). -/
def Fld.BLT_SLOTS_STORE : Fld := ⟨0x0050040C, 0, 12⟩
/-- Offset of `BLT_SLOTS` (10_rings.md R335). -/
def Off.BLT_SLOTS : Nat := 0x0050040C
/-- `BLT_BRAKE` bits 27:16 ORIGINS, RO, reset 0 (10_rings.md R335). -/
def Fld.BLT_BRAKE_ORIGINS : Fld := ⟨0x00500410, 16, 12⟩
/-- `BLT_BRAKE` bits 11:0 LAST, RO, reset 0xFFF (10_rings.md R335). -/
def Fld.BLT_BRAKE_LAST : Fld := ⟨0x00500410, 0, 12⟩
/-- Offset of `BLT_BRAKE` (10_rings.md R335). -/
def Off.BLT_BRAKE : Nat := 0x00500410
/-- `BLT_BYPASS` bits 31 UP, RO, reset 0 (10_rings.md R335). -/
def Fld.BLT_BYPASS_UP : Fld := ⟨0x00500414, 31, 1⟩
/-- `BLT_BYPASS` bits 30 DOWN, RO, reset 0 (10_rings.md R335). -/
def Fld.BLT_BYPASS_DOWN : Fld := ⟨0x00500414, 30, 1⟩
/-- `BLT_BYPASS` bits 15:0 COUNT, RO, reset 0 (10_rings.md R335). -/
def Fld.BLT_BYPASS_COUNT : Fld := ⟨0x00500414, 0, 16⟩
/-- Offset of `BLT_BYPASS` (10_rings.md R335). -/
def Off.BLT_BYPASS : Nat := 0x00500414
/-- `BLT_RING_CTL` bits 31 LEAVE, WO, reset 0 (10_rings.md R335). -/
def Fld.BLT_RING_CTL_LEAVE : Fld := ⟨0x00500418, 31, 1⟩
/-- `BLT_RING_CTL` bits 30 FORCE, WO, reset 0 (10_rings.md R335). -/
def Fld.BLT_RING_CTL_FORCE : Fld := ⟨0x00500418, 30, 1⟩
/-- `BLT_RING_CTL` bits 23:16 RETRY_LIMIT, RW, reset Image; 64 if the image is silent (10_rings.md R335). -/
def Fld.BLT_RING_CTL_RETRY_LIMIT : Fld := ⟨0x00500418, 16, 8⟩
/-- `BLT_RING_CTL` bits 15:0 FORM_WAIT_S, RW, reset Image; 25 if the image is silent (10_rings.md R335). -/
def Fld.BLT_RING_CTL_FORM_WAIT_S : Fld := ⟨0x00500418, 0, 16⟩
/-- Offset of `BLT_RING_CTL` (10_rings.md R335). -/
def Off.BLT_RING_CTL : Nat := 0x00500418
/-- `BLT_RING_EVENTS` bits 15 ROOT_TAKEOVER, W1C, reset 0 (10_rings.md R335). -/
def Fld.BLT_RING_EVENTS_ROOT_TAKEOVER : Fld := ⟨0x0050041C, 15, 1⟩
/-- `BLT_RING_EVENTS` bits 14 STRAP_DIFFERS, W1C, reset 0 (10_rings.md R335). -/
def Fld.BLT_RING_EVENTS_STRAP_DIFFERS : Fld := ⟨0x0050041C, 14, 1⟩
/-- `BLT_RING_EVENTS` bits 13 FED_LOST, W1C, reset 0 (10_rings.md R335). -/
def Fld.BLT_RING_EVENTS_FED_LOST : Fld := ⟨0x0050041C, 13, 1⟩
/-- `BLT_RING_EVENTS` bits 12 RING_FAIL, W1C, reset 0 (10_rings.md R335). -/
def Fld.BLT_RING_EVENTS_RING_FAIL : Fld := ⟨0x0050041C, 12, 1⟩
/-- `BLT_RING_EVENTS` bits 11 STORE_HIGH, W1C, reset 0 (10_rings.md R335). -/
def Fld.BLT_RING_EVENTS_STORE_HIGH : Fld := ⟨0x0050041C, 11, 1⟩
/-- `BLT_RING_EVENTS` bits 10 SLOT_AUDIT, W1C, reset 0 (10_rings.md R335). -/
def Fld.BLT_RING_EVENTS_SLOT_AUDIT : Fld := ⟨0x0050041C, 10, 1⟩
/-- `BLT_RING_EVENTS` bits 9 DEMOTED, W1C, reset 0 (10_rings.md R335). -/
def Fld.BLT_RING_EVENTS_DEMOTED : Fld := ⟨0x0050041C, 9, 1⟩
/-- `BLT_RING_EVENTS` bits 8 TAKEOVER, W1C, reset 0 (10_rings.md R335). -/
def Fld.BLT_RING_EVENTS_TAKEOVER : Fld := ⟨0x0050041C, 8, 1⟩
/-- `BLT_RING_EVENTS` bits 7 ROLE_CONFLICT, W1C, reset 0 (10_rings.md R335). -/
def Fld.BLT_RING_EVENTS_ROLE_CONFLICT : Fld := ⟨0x0050041C, 7, 1⟩
/-- `BLT_RING_EVENTS` bits 6 MISPLACED, W1C, reset 0 (10_rings.md R335). -/
def Fld.BLT_RING_EVENTS_MISPLACED : Fld := ⟨0x0050041C, 6, 1⟩
/-- `BLT_RING_EVENTS` bits 5 LEFT, W1C, reset 0 (10_rings.md R335). -/
def Fld.BLT_RING_EVENTS_LEFT : Fld := ⟨0x0050041C, 5, 1⟩
/-- `BLT_RING_EVENTS` bits 4 JOINED, W1C, reset 0 (10_rings.md R335). -/
def Fld.BLT_RING_EVENTS_JOINED : Fld := ⟨0x0050041C, 4, 1⟩
/-- `BLT_RING_EVENTS` bits 3 GAP, W1C, reset 0 (10_rings.md R335). -/
def Fld.BLT_RING_EVENTS_GAP : Fld := ⟨0x0050041C, 3, 1⟩
/-- `BLT_RING_EVENTS` bits 2 BYPASS, W1C, reset 0 (10_rings.md R335). -/
def Fld.BLT_RING_EVENTS_BYPASS : Fld := ⟨0x0050041C, 2, 1⟩
/-- `BLT_RING_EVENTS` bits 1 LASTING, W1C, reset 0 (10_rings.md R335). -/
def Fld.BLT_RING_EVENTS_LASTING : Fld := ⟨0x0050041C, 1, 1⟩
/-- `BLT_RING_EVENTS` bits 0 HOP_RETRY, W1C, reset 0 (10_rings.md R335). -/
def Fld.BLT_RING_EVENTS_HOP_RETRY : Fld := ⟨0x0050041C, 0, 1⟩
/-- Offset of `BLT_RING_EVENTS` (10_rings.md R335). -/
def Off.BLT_RING_EVENTS : Nat := 0x0050041C
/-- `BLT_PORT_x_STAT` bits 31:29 STATE, RO, reset 0 (10_rings.md R335). -/
def Fld.BLT_PORT_STAT_STATE (x : Nat) : Fld := ⟨0x00500440 + 0x10 * x, 29, 3⟩
/-- `BLT_PORT_x_STAT` bits 28 LOCKED, RO, reset 0 (10_rings.md R335). -/
def Fld.BLT_PORT_STAT_LOCKED (x : Nat) : Fld := ⟨0x00500440 + 0x10 * x, 28, 1⟩
/-- `BLT_PORT_x_STAT` bits 19:16 BER_EXP, RO, reset 0 (10_rings.md R335). -/
def Fld.BLT_PORT_STAT_BER_EXP (x : Nat) : Fld := ⟨0x00500440 + 0x10 * x, 16, 4⟩
/-- `BLT_PORT_x_STAT` bits 11:0 PARTNER, RO, reset 0xFFF (10_rings.md R335). -/
def Fld.BLT_PORT_STAT_PARTNER (x : Nat) : Fld := ⟨0x00500440 + 0x10 * x, 0, 12⟩
/-- Offset of `BLT_PORT_x_STAT` (10_rings.md R335). -/
def Off.BLT_PORT_STAT (x : Nat) : Nat := 0x00500440 + 0x10 * x
/-- `BLT_PORT_x_ERR` bits 31:16 HOP_RETRIES, RO, reset 0 (10_rings.md R335). -/
def Fld.BLT_PORT_ERR_HOP_RETRIES (x : Nat) : Fld := ⟨0x00500444 + 0x10 * x, 16, 16⟩
/-- `BLT_PORT_x_ERR` bits 15:0 UNCORR, RO, reset 0 (10_rings.md R335). -/
def Fld.BLT_PORT_ERR_UNCORR (x : Nat) : Fld := ⟨0x00500444 + 0x10 * x, 0, 16⟩
/-- Offset of `BLT_PORT_x_ERR` (10_rings.md R335). -/
def Off.BLT_PORT_ERR (x : Nat) : Nat := 0x00500444 + 0x10 * x
/-- `BLT_PORT_x_CORR` bits 31:0 CORRECTED, RO, reset 0 (10_rings.md R335). -/
def Fld.BLT_PORT_CORR_CORRECTED (x : Nat) : Fld := ⟨0x00500448 + 0x10 * x, 0, 32⟩
/-- Offset of `BLT_PORT_x_CORR` (10_rings.md R335). -/
def Off.BLT_PORT_CORR (x : Nat) : Nat := 0x00500448 + 0x10 * x
/-- `BLT_FED` bits 31 MEMBER, RO, reset 0 (10_rings.md R335). -/
def Fld.BLT_FED_MEMBER : Fld := ⟨0x005004C0, 31, 1⟩
/-- `BLT_FED` bits 30 ROOT, RO, reset 0 (10_rings.md R335). -/
def Fld.BLT_FED_ROOT : Fld := ⟨0x005004C0, 30, 1⟩
/-- `BLT_FED` bits 29 ROOT_STANDBY, RO, reset Image (10_rings.md R335). -/
def Fld.BLT_FED_ROOT_STANDBY : Fld := ⟨0x005004C0, 29, 1⟩
/-- `BLT_FED` bits 19:0 FED_TIMEOUT_MS, RW, reset Image; 180,000 if the image is silent (10_rings.md R335). -/
def Fld.BLT_FED_FED_TIMEOUT_MS : Fld := ⟨0x005004C0, 0, 20⟩
/-- Offset of `BLT_FED` (10_rings.md R335). -/
def Off.BLT_FED : Nat := 0x005004C0
/-- `BLT_FGEN` bits 31:0 FGEN, RO, reset 0 (10_rings.md R335). -/
def Fld.BLT_FGEN_FGEN : Fld := ⟨0x005004C4, 0, 32⟩
/-- Offset of `BLT_FGEN` (10_rings.md R335). -/
def Off.BLT_FGEN : Nat := 0x005004C4
/-- `RGL_CTL` bits 31:16 HOLDOFF_MS, RW, reset Image; 1,000 if the image is silent (11_regulation.md R345). -/
def Fld.RGL_CTL_HOLDOFF_MS : Fld := ⟨0x00600000, 16, 16⟩
/-- `RGL_CTL` bits 15:12 BELT_CLASS, RW, reset Image; 15 if the image is silent (11_regulation.md R345). -/
def Fld.RGL_CTL_BELT_CLASS : Fld := ⟨0x00600000, 12, 4⟩
/-- `RGL_CTL` bits 11:8 SCRUB_CLASS, RW, reset Image; 0 if the image is silent (11_regulation.md R345). -/
def Fld.RGL_CTL_SCRUB_CLASS : Fld := ⟨0x00600000, 8, 4⟩
/-- `RGL_CTL` bits 7:0 VECTOR, RW, reset Image; 0 if the image is silent (11_regulation.md R345). -/
def Fld.RGL_CTL_VECTOR : Fld := ⟨0x00600000, 0, 8⟩
/-- Offset of `RGL_CTL` (11_regulation.md R345). -/
def Off.RGL_CTL : Nat := 0x00600000
/-- `RGL_EVENTS` bits 1 REJECT, W1C, reset 0 (11_regulation.md R345). -/
def Fld.RGL_EVENTS_REJECT : Fld := ⟨0x00600004, 1, 1⟩
/-- `RGL_EVENTS` bits 0 MISS, W1C, reset 0 (11_regulation.md R345). -/
def Fld.RGL_EVENTS_MISS : Fld := ⟨0x00600004, 0, 1⟩
/-- Offset of `RGL_EVENTS` (11_regulation.md R345). -/
def Off.RGL_EVENTS : Nat := 0x00600004
/-- `RGL_CAP_r` bits 31:0 CAP, RO, reset 0 (11_regulation.md R345). -/
def Fld.RGL_CAP_CAP (r : Nat) : Fld := ⟨0x00600080 + 0x4 * r, 0, 32⟩
/-- Offset of `RGL_CAP_r` (11_regulation.md R345). -/
def Off.RGL_CAP (r : Nat) : Nat := 0x00600080 + 0x4 * r
/-- `RGL_GRT_m_r` bits 23:16 WEIGHT, RW, reset Image; Table 11-1 if the image is silent (11_regulation.md R345). -/
def Fld.RGL_GRT_WEIGHT (m : Nat) (r : Nat) : Fld := ⟨0x00600100 + 0x10 * m + 0x4 * r, 16, 8⟩
/-- `RGL_GRT_m_r` bits 10:0 GUAR, RW, reset Image; Table 11-1 if the image is silent (11_regulation.md R345). -/
def Fld.RGL_GRT_GUAR (m : Nat) (r : Nat) : Fld := ⟨0x00600100 + 0x10 * m + 0x4 * r, 0, 11⟩
/-- Offset of `RGL_GRT_m_r` (11_regulation.md R345). -/
def Off.RGL_GRT (m : Nat) (r : Nat) : Nat := 0x00600100 + 0x10 * m + 0x4 * r
/-- `RGL_CLASS_k` bits 20:16 WAYS, RW, reset Image; 16 if the image is silent (11_regulation.md R345). -/
def Fld.RGL_CLASS_WAYS (k : Nat) : Fld := ⟨0x00600400 + 0x4 * k, 16, 5⟩
/-- `RGL_CLASS_k` bits 12:8 QSLOT_RSV, RW, reset Image; 2 if the image is silent (11_regulation.md R345). -/
def Fld.RGL_CLASS_QSLOT_RSV (k : Nat) : Fld := ⟨0x00600400 + 0x4 * k, 8, 5⟩
/-- `RGL_CLASS_k` bits 5:0 MSHR_RSV, RW, reset Image; 4 if the image is silent (11_regulation.md R345). -/
def Fld.RGL_CLASS_MSHR_RSV (k : Nat) : Fld := ⟨0x00600400 + 0x4 * k, 0, 6⟩
/-- Offset of `RGL_CLASS_k` (11_regulation.md R345). -/
def Off.RGL_CLASS (k : Nat) : Nat := 0x00600400 + 0x4 * k
/-- `RGL_MISS_m` bits 31:16 COUNT, RO, reset 0 (11_regulation.md R345). -/
def Fld.RGL_MISS_COUNT (m : Nat) : Fld := ⟨0x00600600 + 0x4 * m, 16, 16⟩
/-- `RGL_MISS_m` bits 3:0 RES, W1C, reset 0 (11_regulation.md R345). -/
def Fld.RGL_MISS_RES (m : Nat) : Fld := ⟨0x00600600 + 0x4 * m, 0, 4⟩
/-- Offset of `RGL_MISS_m` (11_regulation.md R345). -/
def Off.RGL_MISS (m : Nat) : Nat := 0x00600600 + 0x4 * m
/-- `RGL_LAST_MISS` bits 31 VALID, RO, reset 0 (11_regulation.md R345). -/
def Fld.RGL_LAST_MISS_VALID : Fld := ⟨0x00600700, 31, 1⟩
/-- `RGL_LAST_MISS` bits 15:11 MASTER, RO, reset 0 (11_regulation.md R345). -/
def Fld.RGL_LAST_MISS_MASTER : Fld := ⟨0x00600700, 11, 5⟩
/-- `RGL_LAST_MISS` bits 10:9 RESOURCE, RO, reset 0 (11_regulation.md R345). -/
def Fld.RGL_LAST_MISS_RESOURCE : Fld := ⟨0x00600700, 9, 2⟩
/-- `RGL_LAST_MISS` bits 3:0 CLASS, RO, reset 0 (11_regulation.md R345). -/
def Fld.RGL_LAST_MISS_CLASS : Fld := ⟨0x00600700, 0, 4⟩
/-- Offset of `RGL_LAST_MISS` (11_regulation.md R345). -/
def Off.RGL_LAST_MISS : Nat := 0x00600700
/-- `RGL_SERVED_m_r` bits 31:0 SERVED, RO, reset 0 (11_regulation.md R345). -/
def Fld.RGL_SERVED_SERVED (m : Nat) (r : Nat) : Fld := ⟨0x00601000 + 0x10 * m + 0x4 * r, 0, 32⟩
/-- Offset of `RGL_SERVED_m_r` (11_regulation.md R345). -/
def Off.RGL_SERVED (m : Nat) (r : Nat) : Nat := 0x00601000 + 0x10 * m + 0x4 * r
/-- `HIF_STATUS` bits 31 READY, RO, reset 0 (12_host.md R375). -/
def Fld.HIF_STATUS_READY : Fld := ⟨0x00000000, 31, 1⟩
/-- `HIF_STATUS` bits 30 RECOVERY, RO, reset 0 (12_host.md R375). -/
def Fld.HIF_STATUS_RECOVERY : Fld := ⟨0x00000000, 30, 1⟩
/-- `HIF_STATUS` bits 29:28 ROLE, RO, reset Strap (12_host.md R375). -/
def Fld.HIF_STATUS_ROLE : Fld := ⟨0x00000000, 28, 2⟩
/-- `HIF_STATUS` bits 27:26 TIER, RO, reset Start (12_host.md R375). -/
def Fld.HIF_STATUS_TIER : Fld := ⟨0x00000000, 26, 2⟩
/-- Offset of `HIF_STATUS` (12_host.md R375). -/
def Off.HIF_STATUS : Nat := 0x00000000
/-- `HIF_EVENTS` bits 4 DMA_ERR, W1C, reset 0 (12_host.md R375). -/
def Fld.HIF_EVENTS_DMA_ERR : Fld := ⟨0x00000004, 4, 1⟩
/-- `HIF_EVENTS` bits 3 FETCH_ERR, W1C, reset 0 (12_host.md R375). -/
def Fld.HIF_EVENTS_FETCH_ERR : Fld := ⟨0x00000004, 3, 1⟩
/-- `HIF_EVENTS` bits 2 DB_ERR, W1C, reset 0 (12_host.md R375). -/
def Fld.HIF_EVENTS_DB_ERR : Fld := ⟨0x00000004, 2, 1⟩
/-- `HIF_EVENTS` bits 1 REJECT, W1C, reset 0 (12_host.md R375). -/
def Fld.HIF_EVENTS_REJECT : Fld := ⟨0x00000004, 1, 1⟩
/-- `HIF_EVENTS` bits 0 WARM_RESET, W1C, reset 0 (12_host.md R375). -/
def Fld.HIF_EVENTS_WARM_RESET : Fld := ⟨0x00000004, 0, 1⟩
/-- Offset of `HIF_EVENTS` (12_host.md R375). -/
def Off.HIF_EVENTS : Nat := 0x00000004
/-- `HIF_LAT_TOL` bits 19:0 TOL_US, RW, reset Image; 0 if the image is silent (12_host.md R375). -/
def Fld.HIF_LAT_TOL_TOL_US : Fld := ⟨0x00000008, 0, 20⟩
/-- Offset of `HIF_LAT_TOL` (12_host.md R375). -/
def Off.HIF_LAT_TOL : Nat := 0x00000008
/-- `HIF_RSLOT_COUNT` bits 18:0 COUNT, RO, reset Image (12_host.md R375). -/
def Fld.HIF_RSLOT_COUNT_COUNT : Fld := ⟨0x0000000C, 0, 19⟩
/-- Offset of `HIF_RSLOT_COUNT` (12_host.md R375). -/
def Off.HIF_RSLOT_COUNT : Nat := 0x0000000C
/-- `HIF_DEFER` bits 31:23 IN_USE, RO, reset 0 (12_host.md R375). -/
def Fld.HIF_DEFER_IN_USE : Fld := ⟨0x00000010, 23, 9⟩
/-- `HIF_DEFER` bits 19:0 DEFER_MAX_MS, RW, reset Image; 60,000 if the image is silent (12_host.md R375). -/
def Fld.HIF_DEFER_DEFER_MAX_MS : Fld := ⟨0x00000010, 0, 20⟩
/-- Offset of `HIF_DEFER` (12_host.md R375). -/
def Off.HIF_DEFER : Nat := 0x00000010
/-- `HIF_SQ_q_BASE_LO` bits 31:12 BASE_LO, RW, reset 0 (12_host.md R375). -/
def Fld.HIF_SQ_BASE_LO_BASE_LO (q : Nat) : Fld := ⟨0x00001000 + 0x20 * q, 12, 20⟩
/-- Offset of `HIF_SQ_q_BASE_LO` (12_host.md R375). -/
def Off.HIF_SQ_BASE_LO (q : Nat) : Nat := 0x00001000 + 0x20 * q
/-- `HIF_SQ_q_BASE_HI` bits 31:0 BASE_HI, RW, reset 0 (12_host.md R375). -/
def Fld.HIF_SQ_BASE_HI_BASE_HI (q : Nat) : Fld := ⟨0x00001004 + 0x20 * q, 0, 32⟩
/-- Offset of `HIF_SQ_q_BASE_HI` (12_host.md R375). -/
def Off.HIF_SQ_BASE_HI (q : Nat) : Nat := 0x00001004 + 0x20 * q
/-- `HIF_SQ_q_CFG` bits 31 EN, RW, reset 0 (12_host.md R375). -/
def Fld.HIF_SQ_CFG_EN (q : Nat) : Fld := ⟨0x00001008 + 0x20 * q, 31, 1⟩
/-- `HIF_SQ_q_CFG` bits 30 BUSY, RO, reset 0 (12_host.md R375). -/
def Fld.HIF_SQ_CFG_BUSY (q : Nat) : Fld := ⟨0x00001008 + 0x20 * q, 30, 1⟩
/-- `HIF_SQ_q_CFG` bits 29:24 CQ, RW, reset 0 (12_host.md R375). -/
def Fld.HIF_SQ_CFG_CQ (q : Nat) : Fld := ⟨0x00001008 + 0x20 * q, 24, 6⟩
/-- `HIF_SQ_q_CFG` bits 23:20 WEIGHT, RW, reset 1 (12_host.md R375). -/
def Fld.HIF_SQ_CFG_WEIGHT (q : Nat) : Fld := ⟨0x00001008 + 0x20 * q, 20, 4⟩
/-- `HIF_SQ_q_CFG` bits 19:16 SIZE_LOG2, RW, reset 4 (12_host.md R375). -/
def Fld.HIF_SQ_CFG_SIZE_LOG2 (q : Nat) : Fld := ⟨0x00001008 + 0x20 * q, 16, 4⟩
/-- Offset of `HIF_SQ_q_CFG` (12_host.md R375). -/
def Off.HIF_SQ_CFG (q : Nat) : Nat := 0x00001008 + 0x20 * q
/-- `HIF_SQ_q_STAT` bits 31:20 HEAD, RO, reset 0 (12_host.md R375). -/
def Fld.HIF_SQ_STAT_HEAD (q : Nat) : Fld := ⟨0x0000100C + 0x20 * q, 20, 12⟩
/-- `HIF_SQ_q_STAT` bits 19:8 TAIL, RO, reset 0 (12_host.md R375). -/
def Fld.HIF_SQ_STAT_TAIL (q : Nat) : Fld := ⟨0x0000100C + 0x20 * q, 8, 12⟩
/-- `HIF_SQ_q_STAT` bits 0 FETCH_ERR, W1C, reset 0 (12_host.md R375). -/
def Fld.HIF_SQ_STAT_FETCH_ERR (q : Nat) : Fld := ⟨0x0000100C + 0x20 * q, 0, 1⟩
/-- Offset of `HIF_SQ_q_STAT` (12_host.md R375). -/
def Off.HIF_SQ_STAT (q : Nat) : Nat := 0x0000100C + 0x20 * q
/-- `HIF_CQ_q_BASE_LO` bits 31:12 BASE_LO, RW, reset 0 (12_host.md R375). -/
def Fld.HIF_CQ_BASE_LO_BASE_LO (q : Nat) : Fld := ⟨0x00002000 + 0x20 * q, 12, 20⟩
/-- Offset of `HIF_CQ_q_BASE_LO` (12_host.md R375). -/
def Off.HIF_CQ_BASE_LO (q : Nat) : Nat := 0x00002000 + 0x20 * q
/-- `HIF_CQ_q_BASE_HI` bits 31:0 BASE_HI, RW, reset 0 (12_host.md R375). -/
def Fld.HIF_CQ_BASE_HI_BASE_HI (q : Nat) : Fld := ⟨0x00002004 + 0x20 * q, 0, 32⟩
/-- Offset of `HIF_CQ_q_BASE_HI` (12_host.md R375). -/
def Off.HIF_CQ_BASE_HI (q : Nat) : Nat := 0x00002004 + 0x20 * q
/-- `HIF_CQ_q_CFG` bits 31 EN, RW, reset 0 (12_host.md R375). -/
def Fld.HIF_CQ_CFG_EN (q : Nat) : Fld := ⟨0x00002008 + 0x20 * q, 31, 1⟩
/-- `HIF_CQ_q_CFG` bits 29:22 VECTOR, RW, reset 0 (12_host.md R375). -/
def Fld.HIF_CQ_CFG_VECTOR (q : Nat) : Fld := ⟨0x00002008 + 0x20 * q, 22, 8⟩
/-- `HIF_CQ_q_CFG` bits 21 IEN, RW, reset 0 (12_host.md R375). -/
def Fld.HIF_CQ_CFG_IEN (q : Nat) : Fld := ⟨0x00002008 + 0x20 * q, 21, 1⟩
/-- `HIF_CQ_q_CFG` bits 19:16 SIZE_LOG2, RW, reset 4 (12_host.md R375). -/
def Fld.HIF_CQ_CFG_SIZE_LOG2 (q : Nat) : Fld := ⟨0x00002008 + 0x20 * q, 16, 4⟩
/-- `HIF_CQ_q_CFG` bits 15:8 AGG_COUNT, RW, reset 0 (12_host.md R375). -/
def Fld.HIF_CQ_CFG_AGG_COUNT (q : Nat) : Fld := ⟨0x00002008 + 0x20 * q, 8, 8⟩
/-- `HIF_CQ_q_CFG` bits 7:0 AGG_TIME, RW, reset 0 (12_host.md R375). -/
def Fld.HIF_CQ_CFG_AGG_TIME (q : Nat) : Fld := ⟨0x00002008 + 0x20 * q, 0, 8⟩
/-- Offset of `HIF_CQ_q_CFG` (12_host.md R375). -/
def Off.HIF_CQ_CFG (q : Nat) : Nat := 0x00002008 + 0x20 * q
/-- `HIF_CQ_q_STAT` bits 31:20 HEAD, RO, reset 0 (12_host.md R375). -/
def Fld.HIF_CQ_STAT_HEAD (q : Nat) : Fld := ⟨0x0000200C + 0x20 * q, 20, 12⟩
/-- `HIF_CQ_q_STAT` bits 19:8 TAIL, RO, reset 0 (12_host.md R375). -/
def Fld.HIF_CQ_STAT_TAIL (q : Nat) : Fld := ⟨0x0000200C + 0x20 * q, 8, 12⟩
/-- `HIF_CQ_q_STAT` bits 0 PHASE, RO, reset 1 (12_host.md R375). -/
def Fld.HIF_CQ_STAT_PHASE (q : Nat) : Fld := ⟨0x0000200C + 0x20 * q, 0, 1⟩
/-- Offset of `HIF_CQ_q_STAT` (12_host.md R375). -/
def Off.HIF_CQ_STAT (q : Nat) : Nat := 0x0000200C + 0x20 * q
/-- `CFG_UID_LO` bits 31:0 UID_LO, RO, reset Fuse (13_configuration.md R407). -/
def Fld.CFG_UID_LO_UID_LO : Fld := ⟨0x00100000, 0, 32⟩
/-- Offset of `CFG_UID_LO` (13_configuration.md R407). -/
def Off.CFG_UID_LO : Nat := 0x00100000
/-- `CFG_UID_HI` bits 31:0 UID_HI, RO, reset Fuse (13_configuration.md R407). -/
def Fld.CFG_UID_HI_UID_HI : Fld := ⟨0x00100004, 0, 32⟩
/-- Offset of `CFG_UID_HI` (13_configuration.md R407). -/
def Off.CFG_UID_HI : Nat := 0x00100004
/-- `CFG_IMAGE` bits 31 RECOVERY, RO, reset 0 (13_configuration.md R407). -/
def Fld.CFG_IMAGE_RECOVERY : Fld := ⟨0x00100008, 31, 1⟩
/-- `CFG_IMAGE` bits 30 NVM_BUSY, RO, reset 0 (13_configuration.md R407). -/
def Fld.CFG_IMAGE_NVM_BUSY : Fld := ⟨0x00100008, 30, 1⟩
/-- `CFG_IMAGE` bits 29 DEV_DIFFERS, RO, reset 0 (13_configuration.md R407). -/
def Fld.CFG_IMAGE_DEV_DIFFERS : Fld := ⟨0x00100008, 29, 1⟩
/-- `CFG_IMAGE` bits 28 START_BANK, RO, reset Start (13_configuration.md R407). -/
def Fld.CFG_IMAGE_START_BANK : Fld := ⟨0x00100008, 28, 1⟩
/-- `CFG_IMAGE` bits 27 RELOAD_BANK, RO, reset Start (13_configuration.md R407). -/
def Fld.CFG_IMAGE_RELOAD_BANK : Fld := ⟨0x00100008, 27, 1⟩
/-- `CFG_IMAGE` bits 26:25 KEY_ID, RO, reset Start (13_configuration.md R407). -/
def Fld.CFG_IMAGE_KEY_ID : Fld := ⟨0x00100008, 25, 2⟩
/-- `CFG_IMAGE` bits 24 HOSTLESS, RO, reset Image (13_configuration.md R407). -/
def Fld.CFG_IMAGE_HOSTLESS : Fld := ⟨0x00100008, 24, 1⟩
/-- `CFG_IMAGE` bits 23:16 LEVEL, RO, reset Start (13_configuration.md R407). -/
def Fld.CFG_IMAGE_LEVEL : Fld := ⟨0x00100008, 16, 8⟩
/-- `CFG_IMAGE` bits 15:8 SECTIONS, RO, reset Start (13_configuration.md R407). -/
def Fld.CFG_IMAGE_SECTIONS : Fld := ⟨0x00100008, 8, 8⟩
/-- Offset of `CFG_IMAGE` (13_configuration.md R407). -/
def Off.CFG_IMAGE : Nat := 0x00100008
/-- `CFG_IMAGE_GEN` bits 31:0 START_GEN, RO, reset Start (13_configuration.md R407). -/
def Fld.CFG_IMAGE_GEN_START_GEN : Fld := ⟨0x0010000C, 0, 32⟩
/-- Offset of `CFG_IMAGE_GEN` (13_configuration.md R407). -/
def Off.CFG_IMAGE_GEN : Nat := 0x0010000C
/-- `CFG_RELOAD_GEN` bits 31:0 RELOAD_GEN, RO, reset Start (13_configuration.md R407). -/
def Fld.CFG_RELOAD_GEN_RELOAD_GEN : Fld := ⟨0x00100010, 0, 32⟩
/-- Offset of `CFG_RELOAD_GEN` (13_configuration.md R407). -/
def Off.CFG_RELOAD_GEN : Nat := 0x00100010
/-- `CFG_BANK_STAT` bits 7:4 B_RESULT, RO, reset Start (13_configuration.md R407). -/
def Fld.CFG_BANK_STAT_B_RESULT : Fld := ⟨0x00100014, 4, 4⟩
/-- `CFG_BANK_STAT` bits 3:0 A_RESULT, RO, reset Start (13_configuration.md R407). -/
def Fld.CFG_BANK_STAT_A_RESULT : Fld := ⟨0x00100014, 0, 4⟩
/-- Offset of `CFG_BANK_STAT` (13_configuration.md R407). -/
def Off.CFG_BANK_STAT : Nat := 0x00100014
/-- `CFG_LICENCE` bits 31 VALID, RO, reset Start (13_configuration.md R407). -/
def Fld.CFG_LICENCE_VALID : Fld := ⟨0x00100018, 31, 1⟩
/-- `CFG_LICENCE` bits 30:29 TIER, RO, reset Start (13_configuration.md R407). -/
def Fld.CFG_LICENCE_TIER : Fld := ⟨0x00100018, 29, 2⟩
/-- `CFG_LICENCE` bits 28:27 OWNERS, RO, reset Start (13_configuration.md R407). -/
def Fld.CFG_LICENCE_OWNERS : Fld := ⟨0x00100018, 27, 2⟩
/-- `CFG_LICENCE` bits 15:0 ENABLED, RO, reset Start (13_configuration.md R407). -/
def Fld.CFG_LICENCE_ENABLED : Fld := ⟨0x00100018, 0, 16⟩
/-- Offset of `CFG_LICENCE` (13_configuration.md R407). -/
def Off.CFG_LICENCE : Nat := 0x00100018
/-- `CFG_LIC_SERIAL` bits 31:0 SERIAL, RO, reset Start (13_configuration.md R407). -/
def Fld.CFG_LIC_SERIAL_SERIAL : Fld := ⟨0x0010001C, 0, 32⟩
/-- Offset of `CFG_LIC_SERIAL` (13_configuration.md R407). -/
def Off.CFG_LIC_SERIAL : Nat := 0x0010001C
/-- `CFG_NVM_EVENTS` bits 4 FLASH_FAIL, W1C, reset 0 (13_configuration.md R407). -/
def Fld.CFG_NVM_EVENTS_FLASH_FAIL : Fld := ⟨0x00100020, 4, 1⟩
/-- `CFG_NVM_EVENTS` bits 3 LIC_FLOOR, W1C, reset 0 (13_configuration.md R407). -/
def Fld.CFG_NVM_EVENTS_LIC_FLOOR : Fld := ⟨0x00100020, 3, 1⟩
/-- `CFG_NVM_EVENTS` bits 2 RELOAD_MOVED, W1C, reset 0 (13_configuration.md R407). -/
def Fld.CFG_NVM_EVENTS_RELOAD_MOVED : Fld := ⟨0x00100020, 2, 1⟩
/-- `CFG_NVM_EVENTS` bits 1 NVM_DONE, W1C, reset 0 (13_configuration.md R407). -/
def Fld.CFG_NVM_EVENTS_NVM_DONE : Fld := ⟨0x00100020, 1, 1⟩
/-- `CFG_NVM_EVENTS` bits 0 NVM_FAIL, W1C, reset 0 (13_configuration.md R407). -/
def Fld.CFG_NVM_EVENTS_NVM_FAIL : Fld := ⟨0x00100020, 0, 1⟩
/-- Offset of `CFG_NVM_EVENTS` (13_configuration.md R407). -/
def Off.CFG_NVM_EVENTS : Nat := 0x00100020
/-- `JRN_STATUS` bits 31 ACTIVE, RO, reset Start (13_configuration.md R408). -/
def Fld.JRN_STATUS_ACTIVE : Fld := ⟨0x00800000, 31, 1⟩
/-- `JRN_STATUS` bits 30 COMPACTING, RO, reset 0 (13_configuration.md R408). -/
def Fld.JRN_STATUS_COMPACTING : Fld := ⟨0x00800000, 30, 1⟩
/-- `JRN_STATUS` bits 29 DEFECT_PENDING, RO, reset 0 (13_configuration.md R408). -/
def Fld.JRN_STATUS_DEFECT_PENDING : Fld := ⟨0x00800000, 29, 1⟩
/-- `JRN_STATUS` bits 23:16 FILL, RO, reset Start (13_configuration.md R408). -/
def Fld.JRN_STATUS_FILL : Fld := ⟨0x00800000, 16, 8⟩
/-- `JRN_STATUS` bits 10:0 QUEUED, RO, reset 0 (13_configuration.md R408). -/
def Fld.JRN_STATUS_QUEUED : Fld := ⟨0x00800000, 0, 11⟩
/-- Offset of `JRN_STATUS` (13_configuration.md R408). -/
def Off.JRN_STATUS : Nat := 0x00800000
/-- `JRN_SEG_GEN` bits 31:0 GEN, RO, reset Start (13_configuration.md R408). -/
def Fld.JRN_SEG_GEN_GEN : Fld := ⟨0x00800004, 0, 32⟩
/-- Offset of `JRN_SEG_GEN` (13_configuration.md R408). -/
def Off.JRN_SEG_GEN : Nat := 0x00800004
/-- `JRN_SEQ_LO` bits 31:0 SEQ_LO, RO, reset Start (13_configuration.md R408). -/
def Fld.JRN_SEQ_LO_SEQ_LO : Fld := ⟨0x00800008, 0, 32⟩
/-- Offset of `JRN_SEQ_LO` (13_configuration.md R408). -/
def Off.JRN_SEQ_LO : Nat := 0x00800008
/-- `JRN_SEQ_HI` bits 31:0 SEQ_HI, RO, reset Start (13_configuration.md R408). -/
def Fld.JRN_SEQ_HI_SEQ_HI : Fld := ⟨0x0080000C, 0, 32⟩
/-- Offset of `JRN_SEQ_HI` (13_configuration.md R408). -/
def Off.JRN_SEQ_HI : Nat := 0x0080000C
/-- `JRN_DEFECTS` bits 31:16 BOOT, RO, reset Start (13_configuration.md R408). -/
def Fld.JRN_DEFECTS_BOOT : Fld := ⟨0x00800010, 16, 16⟩
/-- `JRN_DEFECTS` bits 14:0 ENTRIES, RO, reset Start (13_configuration.md R408). -/
def Fld.JRN_DEFECTS_ENTRIES : Fld := ⟨0x00800010, 0, 15⟩
/-- Offset of `JRN_DEFECTS` (13_configuration.md R408). -/
def Off.JRN_DEFECTS : Nat := 0x00800010
/-- `JRN_LOSS` bits 31:16 DROPPED, RO, reset 0 (13_configuration.md R408). -/
def Fld.JRN_LOSS_DROPPED : Fld := ⟨0x00800014, 16, 16⟩
/-- `JRN_LOSS` bits 15:0 BAD, RO, reset Start (13_configuration.md R408). -/
def Fld.JRN_LOSS_BAD : Fld := ⟨0x00800014, 0, 16⟩
/-- Offset of `JRN_LOSS` (13_configuration.md R408). -/
def Off.JRN_LOSS : Nat := 0x00800014
/-- `JRN_EVENTS` bits 7 DEFECT_FULL, W1C, reset 0 (13_configuration.md R408). -/
def Fld.JRN_EVENTS_DEFECT_FULL : Fld := ⟨0x00800018, 7, 1⟩
/-- `JRN_EVENTS` bits 6 FAIL, W1C, reset 0 (13_configuration.md R408). -/
def Fld.JRN_EVENTS_FAIL : Fld := ⟨0x00800018, 6, 1⟩
/-- `JRN_EVENTS` bits 5 COMPACTED, W1C, reset 0 (13_configuration.md R408). -/
def Fld.JRN_EVENTS_COMPACTED : Fld := ⟨0x00800018, 5, 1⟩
/-- `JRN_EVENTS` bits 4 DROPPED, W1C, reset 0 (13_configuration.md R408). -/
def Fld.JRN_EVENTS_DROPPED : Fld := ⟨0x00800018, 4, 1⟩
/-- `JRN_EVENTS` bits 3 BAD, W1C, reset 0 (13_configuration.md R408). -/
def Fld.JRN_EVENTS_BAD : Fld := ⟨0x00800018, 3, 1⟩
/-- `JRN_EVENTS` bits 2 TORN, W1C, reset 0 (13_configuration.md R408). -/
def Fld.JRN_EVENTS_TORN : Fld := ⟨0x00800018, 2, 1⟩
/-- `JRN_EVENTS` bits 1 RECOVERED, W1C, reset 0 (13_configuration.md R408). -/
def Fld.JRN_EVENTS_RECOVERED : Fld := ⟨0x00800018, 1, 1⟩
/-- `JRN_EVENTS` bits 0 NEW, W1C, reset 0 (13_configuration.md R408). -/
def Fld.JRN_EVENTS_NEW : Fld := ⟨0x00800018, 0, 1⟩
/-- Offset of `JRN_EVENTS` (13_configuration.md R408). -/
def Off.JRN_EVENTS : Nat := 0x00800018
/-- `FLT_STATUS` bits 31:29 STATE, RO, reset 0 (14_startup_faults.md R436). -/
def Fld.FLT_STATUS_STATE : Fld := ⟨0x00900000, 29, 3⟩
/-- `FLT_STATUS` bits 27:24 STEP, RO, reset 0 (14_startup_faults.md R436). -/
def Fld.FLT_STATUS_STEP : Fld := ⟨0x00900000, 24, 4⟩
/-- `FLT_STATUS` bits 23:16 CAUSE, RO, reset 0 (14_startup_faults.md R436). -/
def Fld.FLT_STATUS_CAUSE : Fld := ⟨0x00900000, 16, 8⟩
/-- `FLT_STATUS` bits 15 FAULT_PIN, RO, reset 1 (14_startup_faults.md R436). -/
def Fld.FLT_STATUS_FAULT_PIN : Fld := ⟨0x00900000, 15, 1⟩
/-- `FLT_STATUS` bits 7:0 DEGRADED, RO, reset 0 (14_startup_faults.md R436). -/
def Fld.FLT_STATUS_DEGRADED : Fld := ⟨0x00900000, 0, 8⟩
/-- Offset of `FLT_STATUS` (14_startup_faults.md R436). -/
def Off.FLT_STATUS : Nat := 0x00900000
/-- `FLT_START` bits 31:16 TOTAL_MS, RO, reset 0 (14_startup_faults.md R436). -/
def Fld.FLT_START_TOTAL_MS : Fld := ⟨0x00900004, 16, 16⟩
/-- `FLT_START` bits 15:14 ATTEMPT, RO, reset 1 (14_startup_faults.md R436). -/
def Fld.FLT_START_ATTEMPT : Fld := ⟨0x00900004, 14, 2⟩
/-- `FLT_START` bits 13:12 KIND, RO, reset 0 (14_startup_faults.md R436). -/
def Fld.FLT_START_KIND : Fld := ⟨0x00900004, 12, 2⟩
/-- `FLT_START` bits 11:0 NEW_DEFECTS, RO, reset 0 (14_startup_faults.md R436). -/
def Fld.FLT_START_NEW_DEFECTS : Fld := ⟨0x00900004, 0, 12⟩
/-- Offset of `FLT_START` (14_startup_faults.md R436). -/
def Off.FLT_START : Nat := 0x00900004
/-- `FLT_CAPTURE_LO` bits 31:16 CODE, RO, reset 0 (14_startup_faults.md R436). -/
def Fld.FLT_CAPTURE_LO_CODE : Fld := ⟨0x00900008, 16, 16⟩
/-- `FLT_CAPTURE_LO` bits 10:8 SEVERITY, RO, reset 0 (14_startup_faults.md R436). -/
def Fld.FLT_CAPTURE_LO_SEVERITY : Fld := ⟨0x00900008, 8, 3⟩
/-- `FLT_CAPTURE_LO` bits 0 VALID, W1C, reset 0 (14_startup_faults.md R436). -/
def Fld.FLT_CAPTURE_LO_VALID : Fld := ⟨0x00900008, 0, 1⟩
/-- Offset of `FLT_CAPTURE_LO` (14_startup_faults.md R436). -/
def Off.FLT_CAPTURE_LO : Nat := 0x00900008
/-- `FLT_CAPTURE_HI` bits 31:0 UNIT, RO, reset 0 (14_startup_faults.md R436). -/
def Fld.FLT_CAPTURE_HI_UNIT : Fld := ⟨0x0090000C, 0, 32⟩
/-- Offset of `FLT_CAPTURE_HI` (14_startup_faults.md R436). -/
def Off.FLT_CAPTURE_HI : Nat := 0x0090000C
/-- `FLT_COUNTS` bits 31:16 CLUSTER_RESETS, RO, reset 0 (14_startup_faults.md R436). -/
def Fld.FLT_COUNTS_CLUSTER_RESETS : Fld := ⟨0x00900010, 16, 16⟩
/-- `FLT_COUNTS` bits 15:0 WARM_RESETS, RO, reset 0 (14_startup_faults.md R436). -/
def Fld.FLT_COUNTS_WARM_RESETS : Fld := ⟨0x00900010, 0, 16⟩
/-- Offset of `FLT_COUNTS` (14_startup_faults.md R436). -/
def Off.FLT_COUNTS : Nat := 0x00900010
/-- `FLT_EVENTS` bits 5 REJECT, W1C, reset 0 (14_startup_faults.md R436). -/
def Fld.FLT_EVENTS_REJECT : Fld := ⟨0x00900014, 5, 1⟩
/-- `FLT_EVENTS` bits 4 FAILED, W1C, reset 0 (14_startup_faults.md R436). -/
def Fld.FLT_EVENTS_FAILED : Fld := ⟨0x00900014, 4, 1⟩
/-- `FLT_EVENTS` bits 3 RESET, W1C, reset 0 (14_startup_faults.md R436). -/
def Fld.FLT_EVENTS_RESET : Fld := ⟨0x00900014, 3, 1⟩
/-- `FLT_EVENTS` bits 2 LOSS, W1C, reset 0 (14_startup_faults.md R436). -/
def Fld.FLT_EVENTS_LOSS : Fld := ⟨0x00900014, 2, 1⟩
/-- `FLT_EVENTS` bits 1 REPAIR, W1C, reset 0 (14_startup_faults.md R436). -/
def Fld.FLT_EVENTS_REPAIR : Fld := ⟨0x00900014, 1, 1⟩
/-- `FLT_EVENTS` bits 0 INFO, W1C, reset 0 (14_startup_faults.md R436). -/
def Fld.FLT_EVENTS_INFO : Fld := ⟨0x00900014, 0, 1⟩
/-- Offset of `FLT_EVENTS` (14_startup_faults.md R436). -/
def Off.FLT_EVENTS : Nat := 0x00900014
/-- `FLT_IRQ_CTL` bits 19:17 CAPTURE_MIN, RW, reset Image; 1 if the image is silent (14_startup_faults.md R436). -/
def Fld.FLT_IRQ_CTL_CAPTURE_MIN : Fld := ⟨0x00900018, 17, 3⟩
/-- `FLT_IRQ_CTL` bits 16 FAULT_DEGRADED, RW, reset Image; 0 if the image is silent (14_startup_faults.md R436). -/
def Fld.FLT_IRQ_CTL_FAULT_DEGRADED : Fld := ⟨0x00900018, 16, 1⟩
/-- `FLT_IRQ_CTL` bits 12:8 EN, RW, reset Image; 0b11110 if the image is silent (14_startup_faults.md R436). -/
def Fld.FLT_IRQ_CTL_EN : Fld := ⟨0x00900018, 8, 5⟩
/-- `FLT_IRQ_CTL` bits 7:0 VECTOR, RW, reset Image; 0 if the image is silent (14_startup_faults.md R436). -/
def Fld.FLT_IRQ_CTL_VECTOR : Fld := ⟨0x00900018, 0, 8⟩
/-- Offset of `FLT_IRQ_CTL` (14_startup_faults.md R436). -/
def Off.FLT_IRQ_CTL : Nat := 0x00900018
/-- `FLT_RESET_CTL` bits 31 WARM, WO, reset 0 (14_startup_faults.md R436). -/
def Fld.FLT_RESET_CTL_WARM : Fld := ⟨0x0090001C, 31, 1⟩
/-- `FLT_RESET_CTL` bits 23:16 KEY, WO, reset 0 (14_startup_faults.md R436). -/
def Fld.FLT_RESET_CTL_KEY : Fld := ⟨0x0090001C, 16, 8⟩
/-- `FLT_RESET_CTL` bits 15:0 CLUSTER, WO, reset 0 (14_startup_faults.md R436). -/
def Fld.FLT_RESET_CTL_CLUSTER : Fld := ⟨0x0090001C, 0, 16⟩
/-- Offset of `FLT_RESET_CTL` (14_startup_faults.md R436). -/
def Off.FLT_RESET_CTL : Nat := 0x0090001C
/-- `PWR_STATUS` bits 31:29 DSTATE, RO, reset 0 (15_power_thermal.md R467). -/
def Fld.PWR_STATUS_DSTATE : Fld := ⟨0x00200000, 29, 3⟩
/-- `PWR_STATUS` bits 28:26 ALLOWED, RO, reset 0 (15_power_thermal.md R467). -/
def Fld.PWR_STATUS_ALLOWED : Fld := ⟨0x00200000, 26, 3⟩
/-- `PWR_STATUS` bits 25:23 NOTICE, RO, reset 0b111 (15_power_thermal.md R467). -/
def Fld.PWR_STATUS_NOTICE : Fld := ⟨0x00200000, 23, 3⟩
/-- Offset of `PWR_STATUS` (15_power_thermal.md R467). -/
def Off.PWR_STATUS : Nat := 0x00200000
/-- `PWR_CTL` bits 31 Q4_EN, RW, reset Image; 1 if the image is silent (15_power_thermal.md R467). -/
def Fld.PWR_CTL_Q4_EN : Fld := ⟨0x00200004, 31, 1⟩
/-- `PWR_CTL` bits 23:16 BOARD_HOLD_MS, RW, reset Image; 1 if the image is silent (15_power_thermal.md R467). -/
def Fld.PWR_CTL_BOARD_HOLD_MS : Fld := ⟨0x00200004, 16, 8⟩
/-- `PWR_CTL` bits 7:0 IDLE_NOTICE_US, RW, reset Image; 10 if the image is silent (15_power_thermal.md R467). -/
def Fld.PWR_CTL_IDLE_NOTICE_US : Fld := ⟨0x00200004, 0, 8⟩
/-- Offset of `PWR_CTL` (15_power_thermal.md R467). -/
def Off.PWR_CTL : Nat := 0x00200004
/-- `PWR_EVENTS` bits 7 CAD_SHORT, W1C, reset 0 (15_power_thermal.md R467). -/
def Fld.PWR_EVENTS_CAD_SHORT : Fld := ⟨0x00200008, 7, 1⟩
/-- `PWR_EVENTS` bits 6 VIN_LIMIT, W1C, reset 0 (15_power_thermal.md R467). -/
def Fld.PWR_EVENTS_VIN_LIMIT : Fld := ⟨0x00200008, 6, 1⟩
/-- `PWR_EVENTS` bits 5 NEIGHBOUR_PAUSED, W1C, reset 0 (15_power_thermal.md R467). -/
def Fld.PWR_EVENTS_NEIGHBOUR_PAUSED : Fld := ⟨0x00200008, 5, 1⟩
/-- `PWR_EVENTS` bits 4 WAKE_DEFERRED, W1C, reset 0 (15_power_thermal.md R467). -/
def Fld.PWR_EVENTS_WAKE_DEFERRED : Fld := ⟨0x00200008, 4, 1⟩
/-- `PWR_EVENTS` bits 3 REGION_OFF, W1C, reset 0 (15_power_thermal.md R467). -/
def Fld.PWR_EVENTS_REGION_OFF : Fld := ⟨0x00200008, 3, 1⟩
/-- `PWR_EVENTS` bits 2 REGION_CAPPED, W1C, reset 0 (15_power_thermal.md R467). -/
def Fld.PWR_EVENTS_REGION_CAPPED : Fld := ⟨0x00200008, 2, 1⟩
/-- `PWR_EVENTS` bits 1 PHASE_FAILED, W1C, reset 0 (15_power_thermal.md R467). -/
def Fld.PWR_EVENTS_PHASE_FAILED : Fld := ⟨0x00200008, 1, 1⟩
/-- `PWR_EVENTS` bits 0 PHASE_TRANSIENT, W1C, reset 0 (15_power_thermal.md R467). -/
def Fld.PWR_EVENTS_PHASE_TRANSIENT : Fld := ⟨0x00200008, 0, 1⟩
/-- Offset of `PWR_EVENTS` (15_power_thermal.md R467). -/
def Off.PWR_EVENTS : Nat := 0x00200008
/-- `PWR_SUPPLY` bits 31:16 VIN_MV, RO, reset 0 (15_power_thermal.md R467). -/
def Fld.PWR_SUPPLY_VIN_MV : Fld := ⟨0x0020000C, 16, 16⟩
/-- `PWR_SUPPLY` bits 15:0 VIN_DA, RO, reset 0 (15_power_thermal.md R467). -/
def Fld.PWR_SUPPLY_VIN_DA : Fld := ⟨0x0020000C, 0, 16⟩
/-- Offset of `PWR_SUPPLY` (15_power_thermal.md R467). -/
def Off.PWR_SUPPLY : Nat := 0x0020000C
/-- `PWR_IDLE` bits 31:16 Q3_ENTRIES, RO, reset 0 (15_power_thermal.md R467). -/
def Fld.PWR_IDLE_Q3_ENTRIES : Fld := ⟨0x00200010, 16, 16⟩
/-- `PWR_IDLE` bits 15:0 Q4_ENTRIES, RO, reset 0 (15_power_thermal.md R467). -/
def Fld.PWR_IDLE_Q4_ENTRIES : Fld := ⟨0x00200010, 0, 16⟩
/-- Offset of `PWR_IDLE` (15_power_thermal.md R467). -/
def Off.PWR_IDLE : Nat := 0x00200010
/-- `PWR_REGION_n` bits 31 MODE, RW, reset Image; 0 if the image is silent (15_power_thermal.md R467). -/
def Fld.PWR_REGION_MODE (n : Nat) : Fld := ⟨0x00200040 + 0x4 * n, 31, 1⟩
/-- `PWR_REGION_n` bits 27:16 TARGET, RW, reset Image; 0 if the image is silent (15_power_thermal.md R467). -/
def Fld.PWR_REGION_TARGET (n : Nat) : Fld := ⟨0x00200040 + 0x4 * n, 16, 12⟩
/-- `PWR_REGION_n` bits 15:8 VSET, RW, reset Image; 156 if the image is silent (15_power_thermal.md R467). -/
def Fld.PWR_REGION_VSET (n : Nat) : Fld := ⟨0x00200040 + 0x4 * n, 8, 8⟩
/-- Offset of `PWR_REGION_n` (15_power_thermal.md R467). -/
def Off.PWR_REGION (n : Nat) : Nat := 0x00200040 + 0x4 * n
/-- `PWR_REGION_STAT_n` bits 31:29 STATE, RO, reset Start (15_power_thermal.md R467). -/
def Fld.PWR_REGION_STAT_STATE (n : Nat) : Fld := ⟨0x00200080 + 0x4 * n, 29, 3⟩
/-- `PWR_REGION_STAT_n` bits 28:24 CAP, RO, reset Start (15_power_thermal.md R467). -/
def Fld.PWR_REGION_STAT_CAP (n : Nat) : Fld := ⟨0x00200080 + 0x4 * n, 24, 5⟩
/-- `PWR_REGION_STAT_n` bits 23:16 PHASE_OK, RO, reset Start (15_power_thermal.md R467). -/
def Fld.PWR_REGION_STAT_PHASE_OK (n : Nat) : Fld := ⟨0x00200080 + 0x4 * n, 16, 8⟩
/-- `PWR_REGION_STAT_n` bits 15:12 LOST, RO, reset Start (15_power_thermal.md R467). -/
def Fld.PWR_REGION_STAT_LOST (n : Nat) : Fld := ⟨0x00200080 + 0x4 * n, 12, 4⟩
/-- `PWR_REGION_STAT_n` bits 11:8 LEVEL, RO, reset 0 (15_power_thermal.md R467). -/
def Fld.PWR_REGION_STAT_LEVEL (n : Nat) : Fld := ⟨0x00200080 + 0x4 * n, 8, 4⟩
/-- `PWR_REGION_STAT_n` bits 7:0 VNOW, RO, reset 0 (15_power_thermal.md R467). -/
def Fld.PWR_REGION_STAT_VNOW (n : Nat) : Fld := ⟨0x00200080 + 0x4 * n, 0, 8⟩
/-- Offset of `PWR_REGION_STAT_n` (15_power_thermal.md R467). -/
def Off.PWR_REGION_STAT (n : Nat) : Nat := 0x00200080 + 0x4 * n
/-- `THM_TEMP` bits 31:16 T_U1, RO, reset 0 (15_power_thermal.md R468). -/
def Fld.THM_TEMP_T_U1 : Fld := ⟨0x00280000, 16, 16⟩
/-- `THM_TEMP` bits 15:0 T_CD, RO, reset 0 (15_power_thermal.md R468). -/
def Fld.THM_TEMP_T_CD : Fld := ⟨0x00280000, 0, 16⟩
/-- Offset of `THM_TEMP` (15_power_thermal.md R468). -/
def Off.THM_TEMP : Nat := 0x00280000
/-- `THM_STATUS` bits 31 WARN, RO, reset 0 (15_power_thermal.md R468). -/
def Fld.THM_STATUS_WARN : Fld := ⟨0x00280004, 31, 1⟩
/-- `THM_STATUS` bits 30 THROTTLE, RO, reset 0 (15_power_thermal.md R468). -/
def Fld.THM_STATUS_THROTTLE : Fld := ⟨0x00280004, 30, 1⟩
/-- `THM_STATUS` bits 29 GUARD, RO, reset 0 (15_power_thermal.md R468). -/
def Fld.THM_STATUS_GUARD : Fld := ⟨0x00280004, 29, 1⟩
/-- `THM_STATUS` bits 28 SENSOR_FAULT, RO, reset 0 (15_power_thermal.md R468). -/
def Fld.THM_STATUS_SENSOR_FAULT : Fld := ⟨0x00280004, 28, 1⟩
/-- `THM_STATUS` bits 27 SHUTDOWN, RO, reset Start (15_power_thermal.md R468). -/
def Fld.THM_STATUS_SHUTDOWN : Fld := ⟨0x00280004, 27, 1⟩
/-- `THM_STATUS` bits 20:16 DUTY, RO, reset 16 (15_power_thermal.md R468). -/
def Fld.THM_STATUS_DUTY : Fld := ⟨0x00280004, 16, 5⟩
/-- `THM_STATUS` bits 15:0 PEAK, RO, reset 0 (15_power_thermal.md R468). -/
def Fld.THM_STATUS_PEAK : Fld := ⟨0x00280004, 0, 16⟩
/-- Offset of `THM_STATUS` (15_power_thermal.md R468). -/
def Off.THM_STATUS : Nat := 0x00280004
/-- `THM_COEF` bits 31:16 K_UL, RO, reset Image (15_power_thermal.md R468). -/
def Fld.THM_COEF_K_UL : Fld := ⟨0x00280008, 16, 16⟩
/-- `THM_COEF` bits 15:0 K_CD, RO, reset Image (15_power_thermal.md R468). -/
def Fld.THM_COEF_K_CD : Fld := ⟨0x00280008, 0, 16⟩
/-- Offset of `THM_COEF` (15_power_thermal.md R468). -/
def Off.THM_COEF : Nat := 0x00280008
/-- `THM_GUARD` bits 31:16 GUARD_RATE, RW, reset Image; 256 if the image is silent (15_power_thermal.md R468). -/
def Fld.THM_GUARD_GUARD_RATE : Fld := ⟨0x0028000C, 16, 16⟩
/-- `THM_GUARD` bits 15:0 OFFSET, RO, reset Image (15_power_thermal.md R468). -/
def Fld.THM_GUARD_OFFSET : Fld := ⟨0x0028000C, 0, 16⟩
/-- Offset of `THM_GUARD` (15_power_thermal.md R468). -/
def Off.THM_GUARD : Nat := 0x0028000C
/-- `THM_EVENTS` bits 3 SENSOR_FAULT, W1C, reset 0 (15_power_thermal.md R468). -/
def Fld.THM_EVENTS_SENSOR_FAULT : Fld := ⟨0x00280010, 3, 1⟩
/-- `THM_EVENTS` bits 2 GUARD, W1C, reset 0 (15_power_thermal.md R468). -/
def Fld.THM_EVENTS_GUARD : Fld := ⟨0x00280010, 2, 1⟩
/-- `THM_EVENTS` bits 1 THROTTLE, W1C, reset 0 (15_power_thermal.md R468). -/
def Fld.THM_EVENTS_THROTTLE : Fld := ⟨0x00280010, 1, 1⟩
/-- `THM_EVENTS` bits 0 WARNING, W1C, reset 0 (15_power_thermal.md R468). -/
def Fld.THM_EVENTS_WARNING : Fld := ⟨0x00280010, 0, 1⟩
/-- Offset of `THM_EVENTS` (15_power_thermal.md R468). -/
def Off.THM_EVENTS : Nat := 0x00280010
/-- `THM_HK_n` bits 15:0 VALUE, RO, reset 0 (15_power_thermal.md R468). -/
def Fld.THM_HK_VALUE (n : Nat) : Fld := ⟨0x00280100 + 0x4 * n, 0, 16⟩
/-- Offset of `THM_HK_n` (15_power_thermal.md R468). -/
def Off.THM_HK (n : Nat) : Nat := 0x00280100 + 0x4 * n

end Sys2Proof.Machine
end

