-- ==== Sys2Proof/Machine/Tab.lean ====
section
/-! DEFINITION. Sparse tables in one canonical form: keys strictly rising, and (for a table with a default) no entry
equal to the default, so that equal contents are equal lists. -/

namespace Sys2Proof.Machine

/-- The entry of a key, if the table lists one. -/
def tabFind {α : Type} : Tab α → Nat → Option α
  | [], _ => none
  | (k', v) :: t, k => if k = k' then some v else if k < k' then none else tabFind t k

/-- The entry of a key, or the default where the table lists none. -/
def tabGet {α : Type} (d : α) (t : Tab α) (k : Nat) : α :=
  (tabFind t k).getD d

/-- The table with one entry set; keys stay strictly rising. -/
def tabInsert {α : Type} : Tab α → Nat → α → Tab α
  | [], k, v => [(k, v)]
  | (k', v') :: t, k, v =>
    if k = k' then (k, v) :: t
    else if k < k' then (k, v) :: (k', v') :: t
    else (k', v') :: tabInsert t k v

/-- The table without the entry of a key. -/
def tabErase {α : Type} : Tab α → Nat → Tab α
  | [], _ => []
  | (k', v') :: t, k =>
    if k = k' then t
    else if k < k' then (k', v') :: t
    else (k', v') :: tabErase t k

/-- Write one entry of a table with a default; writing the default removes the entry. -/
def tabPut {α : Type} [DecidableEq α] (d : α) (t : Tab α) (k : Nat) (v : α) : Tab α :=
  if v = d then tabErase t k else tabInsert t k v

/-- Change the entry of a key of a table with a default. -/
def tabMod {α : Type} [DecidableEq α] (d : α) (t : Tab α) (k : Nat) (f : α → α) : Tab α :=
  tabPut d t k (f (tabGet d t k))

/-- The keys are strictly rising, each above the bound. -/
def tabRisingFrom {α : Type} : Nat → Tab α → Bool
  | _, [] => true
  | lo, (k, _) :: t => decide (lo ≤ k) && tabRisingFrom (k + 1) t

/-- The canonical form of a table with a default. -/
def tabWf {α : Type} [DecidableEq α] (d : α) (t : Tab α) : Bool :=
  tabRisingFrom 0 t && t.all (fun e => decide (e.2 ≠ d))

end Sys2Proof.Machine
end

