-- ==== Sys2Proof/Machine/State.lean ====
section
/-! DEFINITION. The state of the block: everything the specification gives it, as plain data. A register field has one
home, the register file `State.regs`; what the rules name and no register shows is in the typed records below. -/

namespace Sys2Proof.Machine

/-! ## Pins, supplies, start-up -/

/-- Pins and supplies (16_pins_test.md R469 to R475): what the board drives, and what the device drives beside FAULT#
(whose home is FLT_STATUS FAULT_PIN) and LOAD_NOTICE (PWR_STATUS NOTICE): THERM_ALERT#, the strobes of NOTICE_STB so far,
how many
50 µs pulses NVM_RESET# has carried; whether the rails of the package are up. -/
structure Pins where
  vaux : Bool
  vinIb : Bool
  refclk : Bool
  resetLow : Bool
  roleStrap : BitVec 2
  thermAlertLow : Bool
  noticeStrobes : Nat
  nvmResets : Nat
  vddUp : Bool
deriving DecidableEq, Repr

/-- Where a start stands: waiting for a supply or for REFCLK with what the start finds, or not running. -/
inductive StartRun
  | idle
  | waitVin (env : StartEnv)
  | waitRefclk (env : StartEnv)
deriving DecidableEq, Repr

/-- Start-up and reset state (14_startup_faults.md R409 to R432): a cold start is due; a warm device reset is asked for,
with its cause; cluster resets asked for, with their causes; where a start stands, its attempt; the latch of a thermal
shut-down (R463); device-scope faults of the last 24 h; whether the start that is due answers DEVICE_RESET# after such a
shut-down; ROLE[1:0] as last sampled (R10). -/
structure Boot where
  coldReq : Bool
  warmReq : Option Nat
  clusterReq : List (Nat × Nat)
  run : StartRun
  attempt : Nat
  thermLatch : Bool
  devFaults : List (Nat × Nat)
  shutStart : Bool
  strap : BitVec 2
deriving DecidableEq, Repr

/-! ## Stack and bridges -/

/-- One end of a bridge pair (01_stack.md R35 to R39): the replay buffer (SEQ and units of each flit not acknowledged), the
SEQ to send next and the one expected, a flit discarded whose replay has not come, a NAK to send, slot credits spent and
credits to return for VC0 to VC3, units that wait to be sent, flits on the wire to the other end, the units of the last flit
accepted. -/
structure BridgePair where
  replay : List (Nat × List BridgeUnit)
  nextSeq : Nat
  expectSeq : Nat
  discarded : Bool
  nakDue : Bool
  spent : List Nat
  freed : List Nat
  outbox : List BridgeUnit
  wire : List (List Byte)
  inbox : List (Nat × List Byte)
deriving DecidableEq, Repr

/-- The stack's hidden state (01_stack.md): timebase master and followers, sideband copies, groups under wire test,
unlocated events with their times, vertical sites found bad, weakened sense groups, the bridge's steering table and pairs. -/
structure Stack where
  tbMaster : W64
  tbIod : W64
  tbU1 : W64
  tbCd : W64
  sidebandA : Bool
  sidebandB : Bool
  vifUnderTest : List (Nat × Nat)
  vifUnlocated : List ((Nat × Nat) × Nat)
  sitesBad : List (Nat × Nat × Nat)
  weak : List SenseGroup
  steering : List Nat
  pairs : Tab BridgePair
deriving DecidableEq, Repr

/-! ## Journal, defect list, flash -/

/-- A journal record (Table 13-9); the payload is bytes 24 to 59, byte 24 lowest. -/
structure JRec where
  type : Nat
  boot : Nat
  source : Nat
  snap : Bool
  seq : Nat
  tb : Nat
  payload : BitVec 288
deriving DecidableEq, Repr

/-- A used slot of a journal segment: an intact record, or one whose CRC fails. -/
inductive JSlot
  | good (r : JRec)
  | bad
deriving DecidableEq, Repr

/-- A defect list entry (13_configuration.md R401). -/
structure Defect where
  kind : Nat
  unit : BitVec 48
  origin : Nat
  cause : Nat
deriving DecidableEq, Repr

/-- Where a compaction stands (Table 13-12): the step it is in; snapshot records still to write. -/
structure Compaction where
  phase : Nat
  todo : List JRec
  written : Nat
deriving DecidableEq, Repr

/-- The journal (13_configuration.md R399 to R406): queue, tail and how many records ever entered it, next number, segments,
defect list and the part of it that awaits a snapshot, records dropped since the last DROPPED record, compaction; whether
the last page operation failed once, a second failure ended the active segment, the target of a compaction failed too. -/
structure Journal where
  queue : List JRec
  tail : List JRec
  tailCount : Nat
  nextSeq : Nat
  seg0 : List JSlot
  seg1 : List JSlot
  defects : List Defect
  defectsPending : List Defect
  droppedSince : Nat
  compaction : Option Compaction
  failedOnce : Bool
  ended : Bool
  fail : Bool
deriving DecidableEq, Repr

/-- A flash operation (13_configuration.md R379): its priority class and what it is. -/
inductive FlashOpKind
  | reload (pmask : Nat)
  | erase (target : Nat)
  | program (target : Nat)
  | readBack (target : Nat)
  | segErase (seg : Nat)
  | compactStep
deriving DecidableEq, Repr

/-- A flash operation waiting or in progress, and whether it has failed once. -/
structure FlashOp where
  kind : FlashOpKind
  prio : Nat
  failedOnce : Bool
deriving DecidableEq, Repr

/-- An NVM_WRITE in progress, or waiting for the one before it (13_configuration.md R394, R395). -/
structure NvmRun where
  sq : Nat
  cid : Nat
  target : Nat
  content : NvmContent
deriving DecidableEq, Repr

/-- The flash (13_configuration.md R377): banks, licence area, operations. -/
structure Flash where
  bankA : Option Image
  bankB : Option Image
  licences : List LicenceRec
  ops : List FlashOp
  nvm : List NvmRun
  startImage : Option Image
deriving DecidableEq, Repr

/-! ## The underlayer cache and regulation -/

/-- A line of a slice (08_underlayer.md R235): tag (the device line number), per-sector valid, dirty and poison, data,
window, class, and whether the class filter placed it as STREAM (R240). -/
structure Line where
  tag : Nat
  valid : BitVec 8
  dirty : BitVec 8
  poison : BitVec 8
  data : BitVec 2048
  win : Option Nat
  cls : Nat
  filtered : Bool
deriving DecidableEq, Repr

/-- What a request asks of a line. -/
inductive UlKind
  | read
  | store
  | reduce
deriving DecidableEq, Repr

/-- A request and its kind. -/
structure UlOp where
  kind : UlKind
  r : UlReq
deriving DecidableEq, Repr

/-- A miss-status entry (R236, R250): its line, the class that opened it, sectors asked of the channel, the requests
it answers in order of acceptance, and whether its reduction falls through to the channel controller. -/
structure Mshr where
  line : Nat
  cls : Nat
  asked : BitVec 8
  ops : List UlOp
  falling : Bool
deriving DecidableEq, Repr

/-- An arbitration point of a slice, read port or write port (11_regulation.md R339): credits in 1/1,024 B, virtual
times in units of `vtUnit`, requests waiting in order of arrival. -/
structure UlPoint where
  credit : Tab Nat
  vt : Tab Nat
  waiting : List UlOp
deriving DecidableEq, Repr

/-- A slice that retires (Table 8-7): the cause's event code, the buckets whose requests are held. -/
structure Drain where
  slice : Nat
  cause : Nat
  buckets : List Nat
deriving DecidableEq, Repr

/-- A range operation in progress (R245, R246): its code, range, class, the command or the group it is for, the stores and
reductions of the group before it, whether it has taken effect. -/
structure RangeRec where
  id : Nat
  op : Nat
  base : Nat
  size : Nat
  cls : Nat
  cmd : Option (Nat × Nat)
  group : Option GroupRef
  after : List Nat
  applied : Bool
deriving DecidableEq, Repr

/-- What a slice answers to a read: the line, the sectors, their data, poison and dead statuses. -/
structure UlReply where
  id : Nat
  master : Nat
  line : Nat
  sectors : BitVec 8
  data : BitVec 2048
  poison : BitVec 8
  dead : BitVec 8
deriving DecidableEq, Repr

/-- The underlayer (08_underlayer.md): the channel list, HBM bytes and poisoned HBM sectors, lines keyed by
(slice × 8,192 + set) × 16 + way, recency lists, miss-status entries, input queues and arbitration points, correction
logs, disabled rows, row replacements in progress, dead-range table, retirements, range operations, residency
recompute due, retirements to journal after it, scrub positions, the replies of the last command. -/
structure Underlayer where
  chans : List Nat
  hbm : Tab Byte
  hbmPoison : Tab Bool
  lines : Tab Line
  lru : Tab (List Nat)
  mshr : Tab (List Mshr)
  inq : Tab (List UlOp)
  points : Tab UlPoint
  nextId : Nat
  corrLog : Tab (List ((Nat × Nat × Nat) × Nat))
  hbmLog : List ((Nat × Nat × Nat) × Nat)
  rowsOff : List (Nat × Nat × Nat)
  rowJobs : List (Nat × Nat × Nat)
  dead : List (Nat × Nat)
  drains : List Drain
  ranges : List RangeRec
  pinDue : Bool
  retirements : List (Nat × Nat)
  scrubUl : Nat
  scrubHbm : Nat
  out : List UlReply
deriving DecidableEq, Repr

/-- Regulation (11_regulation.md): guarantee and weight words still in force until the window boundary (R344), runs of
short windows, when each pair last raised its event; the points of channel controllers and of the endpoint (R339); of the
window in progress (R342): bytes granted to each pair, samples at which it had a request waiting, samples taken, the class of
its oldest waiting request at the last of them, what was out of service in part of it (a cluster; 16 the device, 17 the host
link), its start, and whether it is the longer one. Pairs are numbered master × 4 + resource. -/
structure Regulation where
  old : Tab W32
  runs : Tab Nat
  lastEvent : Tab Nat
  points : Tab UlPoint
  served : Tab Nat
  demand : Tab Nat
  samples : Nat
  oldest : Tab Nat
  dark : List Nat
  winStart : Nat
  odd : Bool
deriving DecidableEq, Repr

/-! ## Thread groups and tiles -/

/-- An entry of the mask stack (04_thread_groups.md R121): pending path, or reconvergence point. -/
structure MaskEntry where
  pending : Bool
  pc : BitVec 24
  mask : BitVec 64
deriving DecidableEq, Repr

/-- A resident thread group (R104, R108, R110, R111): its launch's number on the tile and its index there, width,
active mask, threads left, pc, vector registers keyed thread × 256 + register, scalar registers, predicates, ASW, mask
stack (top first), private area, barrier it waits at, whether it has ended, global stores and reductions issued. -/
structure Group where
  launch : Nat
  index : Nat
  width : Nat
  active : BitVec 64
  live : BitVec 64
  pc : BitVec 24
  vregs : Tab W32
  sregs : Tab W64
  preds : Tab W64
  asw : W32
  stack : List MaskEntry
  priv : Nat
  atBar : Option Nat
  ended : Bool
  stores : List Nat
deriving DecidableEq, Repr

/-- A launch in progress (R104, R107, R115): number, kernel descriptor, block handle, generation of its program, groups,
whether it is fresh, has executed SHREADY, or has faulted. -/
structure Launch where
  num : Nat
  kernel : List W64
  handle : W64
  gen : Nat
  nGroups : Nat
  fresh : Bool
  shready : Bool
  faulted : Bool
deriving DecidableEq, Repr

/-- Progress of one sub-problem of a matrix operation (03_tiles.md R88, R97). -/
structure SubRun where
  fold : Nat
  pass : Nat
  rerun : Bool
  done : Bool
deriving DecidableEq, Repr

/-- A queued matrix operation (R83, R88, R91). -/
structure MatOp where
  slot : Nat
  launch : Nat
  descs : List (List W64)
  packed : Bool
  offset : Nat
  scaleA : W32
  scaleB : W32
  subs : List SubRun
deriving DecidableEq, Repr

/-- A held lock (R127): the word, the group's slot and thread that hold it, their launch. -/
structure Lock where
  addr : Nat
  slot : Nat
  thread : Nat
  launch : Nat
deriving DecidableEq, Repr

/-- What a commit-buffer entry releases (R100): an in-cache reduction, or a KVPUT of a sequence, position and layer
with its source bytes. -/
inductive CommitOp
  | red (r : UlReq)
  | kvput (seq pos layer : Nat) (bytes : List Byte)
deriving DecidableEq, Repr

/-- A commit-buffer entry: the launch that placed it and its block. -/
structure Commit where
  launch : Nat
  slot : Nat
  handle : W64
  op : CommitOp
deriving DecidableEq, Repr

/-- A global load in progress (R117): destination, element size, addresses by thread, sectors still to come, sectors
received, whether it goes past L1, its requests, the sectors that enter L1 at its end: those requested that no store of the
tile and no invalidation has met meanwhile. -/
structure PendLoad where
  slot : Nat
  reg : Nat
  size : Nat
  addrs : List (Nat × Nat)
  need : List Nat
  got : Tab (BitVec 256)
  nc : Bool
  ids : List Nat
  fill : List Nat
deriving DecidableEq, Repr

/-- A tile (03_tiles.md, 04_thread_groups.md): local store, L1 sectors, the kernel that holds it (KERNEL_ID, L1_SHARE,
SHARED4K), whether the next launch is fresh, launches, groups by slot, array queue, held locks, commit buffer, loads,
times of transient mismatches (R98), time of the last uncorrectable error (R133). -/
structure Tile where
  ls : Tab Byte
  l1 : Tab (BitVec 256)
  current : Option (Nat × Nat × Nat)
  fresh : Bool
  launches : List Launch
  launchSeq : Nat
  groups : Tab Group
  queue : List MatOp
  locks : List Lock
  commit : List Commit
  loads : List PendLoad
  transients : List Nat
  eccAt : Option Nat
deriving DecidableEq, Repr

/-! ## Blocks, stages, pipelines -/

/-- A row descriptor (Table 6-4), with the number of the command that supplied the row and the row's index in it. -/
structure RowDesc where
  valid : Bool
  first : Bool
  last : Bool
  kind : Nat
  seq : Nat
  pos : Nat
  origin : Nat
  uid : Nat
  index : Nat
deriving DecidableEq, Repr

/-- A block (06_pipeline.md R173): header, row table, row data; a training block's number. -/
structure Block where
  handle : W64
  pipe : Nat
  cls : Nat
  layer : Nat
  step : Nat
  row32 : Nat
  entryTb : Nat
  genv : List Nat
  carry : List W64
  rows : List RowDesc
  data : Tab Byte
  train : Option Nat
deriving DecidableEq, Repr

/-- A queue entry of a cluster (R171, R177): its block, whether it is the senior entry, in the current sweep, done with
its step; rows still to exit; whether a tile that it ran on was lost and it has to be dispatched again (R99). -/
structure QEntry where
  block : Block
  senior : Bool
  sweep : Bool
  done : Bool
  exits : List Nat
  again : Bool
deriving DecidableEq, Repr

/-- A cluster as a stage: queue, resident programs by generation, programs loaded beside them (R187), load notice
given, when its last operation started or ended, retired, read-only cache errors (R132) and entries off,
descriptor spares used, the cluster whose role it takes (R184), the logical tile whose spare attaches (R99), the
generation whose first block still has L1 to invalidate. -/
structure Cluster where
  queue : List QEntry
  progs : List (Nat × Program)
  newProgs : List (Nat × Program)
  noticeAt : Option Nat
  lastOp : Nat
  retired : Bool
  cacheErr : List ((Nat × Nat × Nat) × Nat)
  cacheOff : List (Nat × Nat × Nat)
  descSpares : Nat
  moveFrom : Option Nat
  attaching : Option Nat
  runGen : Nat
deriving DecidableEq, Repr

/-- A forming block (R175, R176): rows with their data, when its first row was placed, its timeout in ticks, when its
closing condition was met. -/
structure Forming where
  rows : List (RowDesc × List Byte)
  firstTb : Nat
  timeout : Nat
  cond : Option Nat
  train : Option Nat
deriving DecidableEq, Repr

/-- What a partition section fixes (13_configuration.md R383). -/
structure PartCfg where
  pipe : Bool
  reserve : Option Nat
  clusters : Nat
  blockWin : Nat
  plen32 : Nat
  inBytes : Nat
  train : Option (Nat × Nat × Nat)
  roles : List (Nat × Nat × Nat)
  programs : List Program
  sect : ImgSection
deriving DecidableEq, Repr

/-- A change set in progress (R186 to R189): its command, partitions still to apply, sections, those switched, where
entry hold began, clusters that drain old blocks, clusters that restore, whether it aborts. -/
structure ChangeSet where
  sq : Nat
  cid : Nat
  todo : List Nat
  sects : List (Nat × PartCfg)
  staged : Bool
  switched : List Nat
  draining : List Nat
  restoring : List Nat
  aborting : Nat
deriving DecidableEq, Repr

/-- A TRAIN_STEP in progress (R192 to R199): its command, pairs by first row and length, blocks formed and exited, the
reduction started, readers held. -/
structure Train where
  sq : Nat
  cid : Nat
  uid : Nat
  cuts : List Nat
  closed : Nat
  exited : Nat
  holding : Bool
  drained : Bool
  lossRows : Nat
deriving DecidableEq, Repr

/-- Stages and pipelines (06_pipeline.md). -/
structure Pipelines where
  cfg : Tab PartCfg
  banks : Tab (List (Nat × List W64))
  clusters : Tab Cluster
  forming : Tab Forming
  entryQ : Tab (List Block)
  nextHandle : Nat
  change : Option ChangeSet
  trains : Tab Train
  objects : List (Nat × Program)
  reserveUsed : List (Nat × Nat × Nat)
deriving DecidableEq, Repr

/-! ## The KV ledger -/

/-- A page entry (Table 7-3). -/
structure PageEntry where
  unit : Nat
  cls : Nat
  swapped : Bool
  crc : W32
deriving DecidableEq, Repr

/-- A sequence (07_kv_ledger.md R205 to R213): state code, pipeline, class, a, m, MAX_LEN, LEN, RESV, ORDER, GEN_LEFT,
list page, pages, waiting fed-back row (its token and the number of its command), generating command's number, positions
exited validly beyond LEN with their commands' numbers, parent pages a fork has still to copy (R218), swap blocks reserved (R224), pool blocks of a resume, and the command that waits for
its close, pre-emption or resume. -/
structure Seq where
  state : Nat
  pipe : Nat
  cls : Nat
  first : Nat
  max : Nat
  maxLen : Nat
  len : Nat
  resv : Nat
  order : Nat
  genLeft : Nat
  list : Option Nat
  pages : List PageEntry
  fed : Option (Nat × Nat)
  gen : Option Nat
  exited : List (Nat × Nat)
  fork : Option (List PageEntry)
  swapResv : List (Nat × Nat)
  taken : List (Nat × Nat)
  waitCmd : Option (Nat × Nat)
deriving DecidableEq, Repr

/-- An entry of the reference table (R203) for the block that starts at a unit: REFS, POISON, copies that read it (SOURCE
while there are any), its class, and the underlayer rows (slice, die, row) whose failure poisoned it. -/
structure PageRef where
  refs : Nat
  poison : Bool
  source : Nat
  cls : Nat
  rows : List (Nat × Nat × Nat)
deriving DecidableEq, Repr

/-- What a wait for blocks serves (R211, R218, R225): the list page of a sequence just opened, its fork's copies, the
row of a command or a fed-back row, a resume. -/
inductive WaitKind
  | list
  | fork
  | row
  | fedBack
  | resume
deriving DecidableEq, Repr

/-- A wait for ledger blocks: the sequence served, the command it belongs to. -/
structure LWait where
  kind : WaitKind
  seq : Nat
  sq : Nat
  cid : Nat
deriving DecidableEq, Repr

/-- A copy in progress (R218, R219). -/
structure KvCopy where
  id : Nat
  seq : Nat
  page : Nat
  old : Nat
  new : Nat
  cls : Nat
  upto : Nat
  fork : Bool
deriving DecidableEq, Repr

/-- The ledger: sequences, free blocks of the pool and of the swap area (first unit → class), references, waits,
copies, the ledger's own victim being swapped out, and poisoned blocks handed to the underlayer for row replacement (R220):
first unit, class, rows. -/
structure Ledger where
  seqs : Tab Seq
  free : Tab Nat
  refs : Tab PageRef
  swapFree : Tab Nat
  nextOrder : Nat
  nextCopy : Nat
  waits : List LWait
  copies : List KvCopy
  victim : Option Nat
  handed : List (Nat × Nat × List (Nat × Nat × Nat))
deriving DecidableEq, Repr

/-! ## Host -/

/-- Where a command stands (12_host.md R358, R359): fetched, deferred, or started. -/
inductive CmdStage
  | ready
  | deferred
  | running
deriving DecidableEq, Repr

/-- A fetched command that has not completed (12_host.md R354, R358 to R363). -/
structure Cmd where
  uid : Nat
  sq : Nat
  cid : Nat
  w : List W64
  sqHead : Nat
  stage : CmdStage
  since : Nat
  rows : Nat
  placed : Nat
  exited : Nat
  valid : Nat
  faulted : Bool
  nextIndex : Nat
  recs : List (Nat × List W64)
  late : Bool
deriving DecidableEq, Repr

/-- A completion waiting for room in its CQ (12_host.md R351). -/
structure Completion where
  cq : Nat
  info : W64
  cid : Nat
  sq : Nat
  sqHead : Nat
  status : Nat
  state : Nat
deriving DecidableEq, Repr

/-- A reserved or ready result slot (Table 12-13); a slot that its command's result did not need keeps the result's RSEQ
until the result is released. -/
structure Slot where
  ready : Bool
  status : Nat
  cid : Nat
  sq : Nat
  rseq : Nat
  part : Nat
  nslots : Nat
  length : Nat
  data : List Byte
deriving DecidableEq, Repr

/-- The host interface's hidden state (12_host.md). -/
structure HostIf where
  mem : Tab Byte
  cmds : List Cmd
  cqWait : List Completion
  cqNew : Tab Nat
  msix : Tab Nat
  slots : Tab Slot
  rseq : Nat
  nextUid : Nat
  rrSq : Nat
  rrCount : Nat
  tolFrame : Option Nat
  hostless : Bool
  linkDown : Option Nat
  rdata : W32
deriving DecidableEq, Repr

/-! ## Power and temperature -/

/-- A phase under R449: off after its first mismatch, or on again for its 1 ms check. -/
structure PhaseTrial where
  region : Nat
  phase : Nat
  retried : Bool
deriving DecidableEq, Repr

/-- A region's wake under R452: waiting for its slot, or ramping; the regions paused for it. -/
structure Wake where
  region : Nat
  ramping : Bool
  paused : List Nat
deriving DecidableEq, Repr

/-- Power and temperature state that no register shows (15_power_thermal.md); the last is the state that a wake leaves. -/
structure Power where
  trials : List PhaseTrial
  wakes : List Wake
  leftV : Tab Nat
  demand : Nat
  boardRaised : Bool
  vinLimiting : Bool
  warnRun : Nat
  throttleRun : Nat
  shutRun : Nat
  sensorGood : Nat
  u1Corrections : Nat
  guardQuiet : Nat
  wakeFrom : Nat
deriving DecidableEq, Repr

/-! ## I3C and the test access port -/

/-- The I3C target (16_pins_test.md R480 to R482): dynamic address, index, the captured journal-tail slot, events
enabled by ENEC, the bytes the last read returned. -/
structure I3c where
  addr : Option Nat
  index : BitVec 16
  captured : Option (Nat × List Byte)
  events : Bool
  out : List Byte
deriving DecidableEq, Repr

/-- What the boundary cells do to the lands (16_pins_test.md R486). -/
inductive Lands
  | functional
  | extest
  | pulse
  | train
  | clamp
  | highz
deriving DecidableEq, Repr

/-- The test access port (16_pins_test.md R483 to R486). -/
structure Tap where
  ir : BitVec 8
  boundary : BitVec 334
  lands : Lands
deriving DecidableEq, Repr

/-! ## The belt -/

/-- A shard of the directory (09_belt_scoring.md R270). -/
structure Shard where
  id : Nat
  gen : Nat
  records : Nat
deriving DecidableEq, Repr

/-- A home of the directory: position, shadow, owned slots, shards in order. -/
structure Home where
  pos : Nat
  shadow : Nat
  slots : Nat
  shards : List Shard
deriving DecidableEq, Repr

/-- The shard directory (R270). -/
structure Directory where
  gen : Nat
  homes : List Home
deriving DecidableEq, Repr

/-- A shard this device holds in HBM, for a home and as home or shadow; a record that cannot be read is none; a shadow's
copy is whole once its last frame has arrived (R271, R295, R297). -/
structure HeldShard where
  id : Nat
  gen : Nat
  home : Nat
  asHome : Bool
  whole : Bool
  recs : List (Option BeltRec)
deriving DecidableEq, Repr

/-- A frame of the tap buffer (R287): the clusters that have neither consumed nor taken it, and those whose round has
taken it; whether its tally counted it; whether its entry has been overwritten, so that only the copies taken remain. -/
structure TapFrame where
  rev : Nat
  seg : Nat
  home : Nat
  seq : Nat
  counted : Bool
  recs : List BeltRec
  left : List Nat
  taken : List Nat
  out : Bool
deriving DecidableEq, Repr

/-- A tally (R277): counts by home, records in the frames counted by home; homes whose shadow's frames alone count. -/
structure Tally where
  rev : Nat
  seg : Nat
  maxRev : Nat
  counts : Tab Nat
  recs : Tab Nat
  shadowed : List Nat
deriving DecidableEq, Repr

/-- An entry of a list (R285): score as a 64-bit Sterling value. -/
structure Entry where
  score : W64
  doc : Nat
  chunk : Nat
deriving DecidableEq, Repr

/-- Where a query came from: a host command of this device, a QUERY frame of this ring (its sender). -/
inductive QSource
  | host (uid : Nat)
  | frame (sender : Nat)
deriving DecidableEq, Repr

/-- A query (Table 9-7): vector as 128 words. -/
structure Query where
  qnum : W64
  par : W64
  vec : List W64
  src : QSource
deriving DecidableEq, Repr

/-- An occupied query slot (R280): the admitting marker, the revolution each segment designates, need, the list, records
lost, whether it is cancelled at the next round boundary, and whether its result has been written (it is then free at that
boundary). -/
structure QSlot where
  q : Query
  rev0 : Nat
  seg0 : Nat
  maxRev : Nat
  desig : List Nat
  need : BitVec 64
  list : List Entry
  lost : Nat
  cancelled : Bool
  done : Bool
deriving DecidableEq, Repr

/-- A range of let-passed frames (R288): origin, home, bounds, make-up revolution, re-let bound. -/
structure LetRange where
  rev : Nat
  seg : Nat
  home : Nat
  lo : Nat
  hi : Nat
  makeup : Nat
  relet : Option (Nat × Nat)
deriving DecidableEq, Repr

/-- A SCORE cluster's belt state (R287, R288): ranges oldest first, shed homes oldest first, the home added last, the
backlog at the last check, the candidate queue (R286): the slot and the entry offered to it. -/
structure ScoreCl where
  ranges : List LetRange
  shed : List Nat
  lastShed : Option Nat
  backlog : Nat
  cand : List (Nat × Entry)
deriving DecidableEq, Repr

/-- A part of a segment still to be injected: next SEQ and the first SEQ beyond it (R271, R273). -/
structure InjPart where
  rev : Nat
  seg : Nat
  next : Nat
  hi : Nat
deriving DecidableEq, Repr

/-- The injection of one home's frames by this device, as home or as shadow (R273, R292): parts in order, frames to be
injected again, with their LOST (R306), HOME_BEHIND outstanding. -/
structure Inject where
  home : Nat
  shadow : Bool
  parts : List InjPart
  again : List (Nat × Nat × Nat × Bool)
  behind : Bool
deriving DecidableEq, Repr

/-- A frame asked for by FILL_IN, or to be injected for it or with LOST (R297, R298). -/
structure FillIn where
  home : Nat
  rev : Nat
  seg : Nat
  seq : Nat
deriving DecidableEq, Repr

/-- A STAGED report, and a completed pair of them (R295), by order of completion. -/
structure StagedRep where
  id : Nat
  gen : Nat
  home : Nat
  sender : Nat
  asHome : Bool
  records : Nat
deriving DecidableEq, Repr

/-- A shard generation reported by its home and a shadow. -/
structure StagedPair where
  id : Nat
  gen : Nat
  home : Nat
  shadow : Nat
  records : Nat
deriving DecidableEq, Repr

/-- An epoch switch at the manager (Table 9-11): the SHARD_LOAD that started it, where there is one, the directory once
it has been sent, and whether a marker has carried ADMIT_HOLD. -/
structure EpochSwitch where
  uid : Option Nat
  holding : Bool
  dir : Option Directory
deriving DecidableEq, Repr

/-- A query the manager placed by QUERY frame (R364): the internal number, its submitter's query, the position it was
sent to, the positions that refused it; for a member of a federation, the root's number and position. -/
structure Placed where
  qnum : W64
  q : Query
  dest : Option Nat
  tried : List Nat
  fed : Bool
deriving DecidableEq, Repr

/-- A federated query at the root (R330, R331): children expected, results received as words by child. -/
structure FedQuery where
  qnum : W64
  q : Query
  expected : List Nat
  results : List (Nat × List W64)
deriving DecidableEq, Repr

/-- The belt (09_belt_scoring.md): directory, the staged directory a DIRECTORY message brought, shards held, tap
buffer, tallies, pending queries, slots keyed cluster × 1,024 + slot, SCORE clusters, injections, FILL_INs sent, frames
to inject for a FILL_IN, those injected for one already, frames to inject with LOST, other frames to inject again (R306),
homes without a source from a marker on, SHARD frames to inject, SHARD_LOAD commands waiting for the shadow, whether
admission waits for a directory; whether this device has rejoined since the last epoch switch (R324). -/
structure Belt where
  dir : Directory
  nextDir : Option Directory
  held : List HeldShard
  tap : List TapFrame
  tallies : List Tally
  pend : List Query
  slots : Tab QSlot
  score : Tab ScoreCl
  inject : List Inject
  fillSent : List FillIn
  fillDue : List FillIn
  fillDone : List FillIn
  lostDue : List FillIn
  redo : List Frame
  noSource : List (Nat × Nat × Nat)
  shardQ : List Frame
  loads : List (Nat × Nat × Nat)
  needDir : Bool
  rejoined : Bool
deriving DecidableEq, Repr

/-! ## The rings -/

/-- A link operation in a slot delimiter (Table 10-4). -/
inductive Lop
  | none
  | retry
  | brake
  | release
  | bypass
  | pos
deriving DecidableEq, Repr

/-- A slot the device sends (R302): port, kind of Table 10-3, HSEQ, link operation, argument, frame. -/
structure TxSlot where
  port : Nat
  kind : Nat
  hseq : Nat
  lop : Lop
  larg : Nat
  frame : Option Frame
deriving DecidableEq, Repr

/-- A port's link state (R307, R308, R321): HSEQ expected, HSEQ to send, the last 512 frames sent with their HSEQ, the
last 4,096 frames sent, RETRYs outstanding with how often each was sent, when transient errors of the last second were mended, the
last intact frame received and when; of its sending direction the elastic FIFO, the replays due, the frames sent since the
last ALIGN (R303, R307). -/
structure Port where
  expect : Option Nat
  next : Nat
  replay : List (Nat × Frame)
  hist : List Frame
  asked : List (Nat × Nat)
  transients : List Nat
  lastRx : Option Frame
  lastRxTb : Nat
  fifo : List Frame
  due : List (Nat × Frame)
  run : Nat
deriving DecidableEq, Repr

/-- A return frame whose effect is awaited (R310): its number, ring, frame. -/
structure Resend where
  id : Nat
  net : Nat
  frame : Frame
deriving DecidableEq, Repr

/-- A CONTROL message not yet whole (R310): the pieces received. -/
structure Pieces where
  sender : Nat
  sub : Nat
  seq : Nat
  got : List (Nat × Frame)
deriving DecidableEq, Repr

/-- What a REPORT gives the manager of a device (Table 10-7): position, unique ID, strap role, profiles, free slots. -/
structure DevReport where
  pos : Nat
  uid : W64
  role : Nat
  profiles : List Nat
  free : Nat
deriving DecidableEq, Repr

/-- Formation at the manager (Table 10-10). -/
inductive FormPhase
  | idle
  | discover
  | confirm
  | reports
  | formed
deriving DecidableEq, Repr

/-- A RING_BRAKE or RING_RELEASE in progress at its origin: the command's number, whether the operation has come
back. -/
structure BrakeOp where
  uid : Nat
  release : Bool
  back : Bool
deriving DecidableEq, Repr

/-- The rings (10_rings.md): ports, slots the last command sent, brake set, brakes in progress, bypassed positions,
positions recorded as bypassed on the parent ring, bypass of the parent's skip links, elastic store, running count of
frames sent, return frames awaiting their effect, messages being reassembled; formation, MGR_UID of the ring, reports,
HOME_BEHIND outstanding, STAGED reports and pairs, QUIET reports, epoch switch, LINK_READY reports, the position
rejoining, planned removal (its FORCE) and whether the device has stopped injecting for it, the time of the last marker
and the last marker seen or sent; whether this device acts as manager after a takeover; queries placed, federated
queries, child pairs, next internal query number; the parent ring's size and round trip; whether the image names it root
or standby root; RING_ID of the image; positions that ask to leave, and whether their TAKEOVER has been sent; homes whose
shadow holds no copy (R491); EMPTY frames of an owner still to be absorbed after an audit (R316); the position that holds
the elastic store, as this device knows it; positions bypassed since the last epoch switch, rejoined ones too (R324); EMPTY
frames absorbed into the store; frames the store of a takeover still lacks (R328); the audit in progress, its end and the
frames counted by owner; return messages seen, by ring, sender, subtype, piece and SEQ (R310); whether a marker is due and
waits for a slot; the circulation length last measured; whether STORE_HIGH awaits
an epoch switch (R315); the parent ring's root. -/
structure RingSt where
  ports : Tab Port
  tx : List TxSlot
  brakes : List Nat
  brakeOps : List BrakeOp
  gone : List Nat
  parentGone : List Nat
  parentUp : Bool
  parentDown : Bool
  store : List Frame
  sendSeq : Nat
  resend : List Resend
  nextId : Nat
  pieces : List Pieces
  phase : FormPhase
  parentPhase : FormPhase
  formTb : Nat
  mgrUid : W64
  reports : List DevReport
  behind : List Nat
  staged : List StagedRep
  pairs : List StagedPair
  quiet : List (Nat × Nat × Nat)
  sw : Option EpochSwitch
  linkReady : List (Nat × Nat)
  joining : Option Nat
  leaving : Option Bool
  leaveReady : Bool
  lastMarkTb : Nat
  mark : Option (Nat × Nat)
  acting : Bool
  placed : List Placed
  fed : List FedQuery
  childPairs : List (Nat × Nat × Nat)
  nextQnum : Nat
  parentSize : Nat
  parentRtt : Nat
  imageRoot : Bool
  imageRootStandby : Bool
  imageRingId : Nat
  leavers : List (Nat × Bool)
  unheld : List Nat
  surplus : List (Nat × Nat)
  holder : Nat
  exHomes : List Nat
  spare : List Frame
  fillTo : Nat
  audit : Option (Nat × Tab Nat)
  seen : List (List Nat)
  markDue : Bool
  circ : Nat
  storeHigh : Bool
  rootPos : Nat
deriving DecidableEq, Repr

/-! ## The state -/

/-- The state of the block. -/
structure State where
  regs : Tab W32
  pairCap : Tab W32
  pairLo : Tab W32
  pins : Pins
  boot : Boot
  stack : Stack
  jrn : Journal
  flash : Flash
  host : HostIf
  power : Power
  i3c : I3c
  tap : Tap
  ul : Underlayer
  rgl : Regulation
  tiles : Tab Tile
  ppl : Pipelines
  kvl : Ledger
  belt : Belt
  ring : RingSt
  free : Nat
  pending : List Instr
deriving DecidableEq, Repr

/-- Why the block stops: no rule of the specification stops it, so there is no such reason. -/
inductive Fault
deriving DecidableEq, Repr

/-- Why the model refuses a command. -/
inductive Refusal
  /-- Raised by Dispatch for a command that has no meaning yet (safe). -/
  | notModelled (mnemonic : String)
deriving DecidableEq, Repr

def State.reset : State where
  regs := []
  pairCap := []
  pairLo := []
  pins := ⟨true, true, true, false, 0#2, false, 0, 0, false⟩
  boot := ⟨true, none, [], .idle, 1, false, [], false, 0#2⟩
  stack := ⟨0#64, 0#64, 0#64, 0#64, true, true, [], [], [], [], List.range 16, []⟩
  jrn := ⟨[], [], 0, 1, [], [], [], [], 0, none, false, false, false⟩
  flash := ⟨none, none, [], [], [], none⟩
  host := ⟨[], [], [], [], [], [], 0, 0, 0, 0, none, false, none, 0#32⟩
  power := ⟨[], [], [], 0, false, false, 0, 0, 0, 0, 0, 0, 0⟩
  i3c := ⟨none, 0#16, none, false, []⟩
  tap := ⟨1#8, 0#334, .functional⟩
  ul := ⟨[], [], [], [], [], [], [], [], 0, [], [], [], [], [], [], [], false, [], 0, 0, []⟩
  rgl := ⟨[], [], [], [], [], [], 0, [], [], 0, false⟩
  tiles := []
  ppl := ⟨[], [], [], [], [], 0, none, [], [], []⟩
  kvl := ⟨[], [], [], [], 0, 0, [], [], none, []⟩
  belt := { dir := ⟨0, []⟩, nextDir := none, held := [], tap := [], tallies := [], pend := [], slots := [], score := [],
            inject := [], fillSent := [], fillDue := [], fillDone := [], lostDue := [], redo := [], noSource := [],
            shardQ := [], loads := [], needDir := false, rejoined := false }
  ring := { ports := [], tx := [], brakes := [], brakeOps := [], gone := [], parentGone := [], parentUp := false,
            parentDown := false, store := [], sendSeq := 0, resend := [], nextId := 0, pieces := [], phase := .idle,
            parentPhase := .idle, formTb := 0, mgrUid := 0#64, reports := [], behind := [], staged := [], pairs := [],
            quiet := [], sw := none, linkReady := [], joining := none, leaving := none, leaveReady := false,
            lastMarkTb := 0, mark := none, acting := false, placed := [], fed := [], childPairs := [], nextQnum := 0,
            parentSize := 0, parentRtt := 0, imageRoot := false, imageRootStandby := false, imageRingId := 0,
            leavers := [], unheld := [], surplus := [], holder := 0, exHomes := [], spare := [], fillTo := 0, audit := none,
            seen := [], markDue := false, circ := 0, storeHigh := false, rootPos := 0 }
  free := 0
  pending := []

end Sys2Proof.Machine
end

