-- ==== Sys2Proof/Machine/Access.lean ====
section
/-! DEFINITION. Reading and writing registers and their fields (00_scope.md R13 to R15): the one way to the register
file. -/

namespace Sys2Proof.Machine

/-- Whether a register row covers an offset. -/
def RegRow.covers (r : RegRow) (off : Nat) : Bool :=
  if off < r.base then false
  else
    let d := off - r.base
    let i := if r.stride1 = 0 then 0 else d / r.stride1
    let d1 := d - i * r.stride1
    let j := if r.stride2 = 0 then 0 else d1 / r.stride2
    decide (i < r.count1) && decide (j < r.count2) && decide (d1 = j * r.stride2)

/-- The register row of an offset, if a register lies there (R14). -/
def regRow? (off : Nat) : Option RegRow := regRows.find? (fun r => r.covers off)

/-- Default guarantee and weight of master m on resource r (Table 11-1). -/
def grtDefault (m r : Nat) : Nat × Nat :=
  if m < 16 then (match r with | 0 => 40 | 1 => 24 | 2 => 48 | _ => 0, 16)
  else
    match m with
    | 16 => (match r with | 0 => 64 | 1 => 64 | 3 => 512 | _ => 0, 16)
    | 17 => (match r with | 0 => 32 | 1 => 16 | _ => 0, 32)
    | 18 => (match r with | 0 => 16 | 1 => 32 | _ => 0, 32)
    | 19 => (match r with | 0 => 32 | 1 => 32 | 3 => 384 | _ => 0, 16)
    | 20 => (match r with | 0 => 8 | 1 => 8 | _ => 0, 1)
    | 21 => (match r with | 0 => 32 | 1 => 16 | 2 => 64 | _ => 0, 16)
    | _ => (0, 0)

/-- The reset value of a register: its table's, with the index-dependent rows of KVL_CLASS_k and RGL_GRT_m_r. -/
def regReset (off : Nat) : W32 :=
  if 0x00400040 ≤ off ∧ off < 0x00400080 then BitVec.ofNat 32 ((off - 0x00400040) / 4)
  else if 0x00600100 ≤ off ∧ off < 0x00600100 + 0x160 then
    let m := (off - 0x00600100) / 16
    let r := (off - 0x00600100) / 4 % 4
    BitVec.ofNat 32 ((grtDefault m r).2 * 65536 + (grtDefault m r).1)
  else
    match regRow? off with
    | some r => r.reset
    | none => 0#32

/-- The register at an offset; an offset with no register reads zero (R14). -/
def State.regAt (s : State) (off : Nat) : W32 :=
  match tabFind s.regs off with
  | some v => v
  | none => regReset off

/-- The device's own write of a register; the file stays canonical. -/
def State.setReg (s : State) (off : Nat) (v : W32) : State :=
  { s with regs := if v = regReset off then tabErase s.regs off else tabInsert s.regs off v }

/-- The value of a field. -/
def State.fld (s : State) (f : Fld) : Nat :=
  ((s.regAt f.off).toNat >>> f.lo) % 2 ^ f.width

/-- A field replaced inside a word. -/
def Fld.put (f : Fld) (w : W32) (v : Nat) : W32 :=
  let old := (w.toNat >>> f.lo) % 2 ^ f.width
  BitVec.ofNat 32 (w.toNat - old * 2 ^ f.lo + (v % 2 ^ f.width) * 2 ^ f.lo)

/-- The device's own write of a field. -/
def State.setFld (s : State) (f : Fld) (v : Nat) : State :=
  s.setReg f.off (f.put (s.regAt f.off) v)

/-- A flag field. -/
def State.flag (s : State) (f : Fld) : Bool := s.fld f ≠ 0

/-- Set a flag field. -/
def State.raise (s : State) (f : Fld) : State := s.setFld f 1

/-- Bit i of a field of flags. -/
def State.fbit (s : State) (f : Fld) (i : Nat) : Bool := (s.fld f).testBit i

/-- Set bit i of a field of flags. -/
def State.setBit (s : State) (f : Fld) (i : Nat) : State :=
  s.setFld f (s.fld f ||| 2 ^ i)

/-- Clear bit i of a field of flags. -/
def State.clrBit (s : State) (f : Fld) (i : Nat) : State :=
  if s.fbit f i then s.setFld f (s.fld f - 2 ^ i) else s

/-- Write bit i of a field of flags. -/
def State.putBit (s : State) (f : Fld) (i : Nat) (b : Bool) : State :=
  if b then s.setBit f i else s.clrBit f i

/-- A count that saturates at its field's maximum (R48, R408, R436 and their like). -/
def State.addFld (s : State) (f : Fld) (n : Nat) : State :=
  s.setFld f (min (s.fld f + n) (2 ^ f.width - 1))

/-- One more on a saturating count. -/
def State.incFld (s : State) (f : Fld) : State := s.addFld f 1

/-- The host's write of a register: RW fields are set, W1C bits written 1 are cleared, the rest ignores it (R13, R14). -/
def State.hostWrite (s : State) (off : Nat) (v : W32) : State :=
  match regRow? off with
  | none => s
  | some r =>
    let old := s.regAt off
    s.setReg off ((((old &&& ~~~ r.rw) ||| (v &&& r.rw))) &&& ~~~ (v &&& r.w1c))

/-- Whether an offset is one of n offsets from b with a stride. -/
def inStride (off b n st : Nat) : Bool :=
  decide (b ≤ off) && decide ((off - b) % st = 0) && decide ((off - b) / st < n)

/-- Whether an offset holds the _LO half of a 64-bit pair (R15). -/
def isPairLow (off : Nat) : Bool :=
  [Off.CFG_TIMEBASE_LO, Off.PPL_KFAULT_LO, Off.KVL_SWAP_BASE_LO, Off.ULC_HBM_BYTES_LO, Off.CFG_UID_LO,
    Off.JRN_SEQ_LO, Off.FLT_CAPTURE_LO].contains off
  || inStride off (Off.PPL_TILE_LMAP_LO 0) 16 0x20 || inStride off (Off.PPL_RT_LO 0 0) 2048 8
  || inStride off (Off.ULC_WIN_BASE_LO 0) 32 0x20 || inStride off (Off.ULC_WIN_TSRC_LO 0) 32 0x20
  || inStride off (Off.HIF_SQ_BASE_LO 0) 64 0x20 || inStride off (Off.HIF_CQ_BASE_LO 0) 64 0x20

/-- A write of the _LO half of any pair is held until _HI is written (R15). -/
def isHeldLow (off : Nat) : Bool := isPairLow off

/-- The cluster whose stage, tile or occupancy register lies at an offset (R103, R135, R191). -/
def clusterAt (off : Nat) : Option Nat :=
  if Off.PPL_STAGE 0 ≤ off ∧ off < Off.PPL_STAGE 16 then some ((off - Off.PPL_STAGE 0) / 0x10)
  else if Off.PPL_TILE_MAP 0 ≤ off ∧ off < Off.PPL_TILE_MAP 16 then some ((off - Off.PPL_TILE_MAP 0) / 0x20)
  else if Off.PPL_OCC 0 ≤ off ∧ off < Off.PPL_OCC 16 then some ((off - Off.PPL_OCC 0) / 0x10)
  else none

/-- Whether an offset belongs to a cluster that the licence leaves unpowered: every field of it reads zero. -/
def State.unpoweredAt (s : State) (off : Nat) : Bool :=
  match clusterAt off with
  | some c => !s.fbit Fld.CFG_LICENCE_ENABLED c
  | none => false

/-- A register as a read returns it: registers that mirror a counter of the state are read from it (R32, R400, R402),
an offset that no register occupies reads as zero (R14), as do those of a cluster that the licence leaves unpowered. -/
def State.regView (s : State) (off : Nat) : W32 :=
  if off = Off.CFG_TIMEBASE_LO then BitVec.ofNat 32 (s.stack.tbIod.toNat % 2 ^ 32)
  else if off = Off.CFG_TIMEBASE_HI then BitVec.ofNat 32 (s.stack.tbIod.toNat / 2 ^ 32)
  else if off = Off.JRN_SEQ_LO then BitVec.ofNat 32 (s.jrn.nextSeq % 2 ^ 32)
  else if off = Off.JRN_SEQ_HI then BitVec.ofNat 32 (s.jrn.nextSeq / 2 ^ 32)
  else if off = Off.JRN_STATUS then Fld.JRN_STATUS_QUEUED.put (s.regAt off) s.jrn.queue.length
  else
    match regRow? off with
    | some _ => if s.unpoweredAt off then 0#32 else s.regAt off
    | none => 0#32

/-- A read of BAR0 as the host makes it (R15): a read of _LO captures the upper half, the next read of _HI of the pair
returns what was captured; any other read returns the register. -/
def State.readReg (s : State) (off : Nat) : State × W32 :=
  if isPairLow off then ({ s with pairCap := tabInsert s.pairCap off (s.regView (off + 4)) }, s.regView off)
  else if 4 ≤ off ∧ isPairLow (off - 4) then
    match tabFind s.pairCap (off - 4) with
    | some v => ({ s with pairCap := tabErase s.pairCap (off - 4) }, v)
    | none => (s, s.regView off)
  else (s, s.regView off)

/-! ## Time -/

/-- The timebase the device stamps with: the IOD counter (R32). -/
def State.now (s : State) : Nat := s.stack.tbIod.toNat

/-- Ticks of 6.4 ns in n µs, truncated. -/
def usTicks (n : Nat) : Nat := n * 625 / 4

/-- Ticks in n ms. -/
def msTicks (n : Nat) : Nat := n * 156250

/-- Ticks in 24 h. -/
def dayTicks : Nat := 13500000000000

end Sys2Proof.Machine
end

