-- ==== Sys2Proof/Machine/Arbiter.lean ====
section
/-! DEFINITION. Bandwidth regulation's arbitration (11_regulation.md R337, R339, R344): guarantees and weights in force,
one grant cycle of a point, bytes served, and a transfer that has a point of the endpoint to itself. -/

namespace Sys2Proof.Machine

/-- The first master of a list with the best score, lowest index at ties. -/
def bestBy (score : Nat → Int) : List Nat → Option Nat
  | [] => none
  | m :: t =>
    match bestBy score t with
    | none => some m
    | some n => if score m > score n ∨ (score m = score n ∧ m < n) then some m else some n

/-- The unit of virtual time: every weight divides it. -/
def vtUnit : Nat := (List.range 255).foldl (fun n i => Nat.lcm n (i + 1)) 1

/-- The guarantee and weight of a pair in force: the word before the last window boundary's writes (R344). -/
def State.grtInForce (s : State) (m r : Nat) : W32 :=
  (tabFind s.rgl.old (Off.RGL_GRT m r)).getD (s.regAt (Off.RGL_GRT m r))

def State.guar (s : State) (m r : Nat) : Nat := bitsOf (s.grtInForce m r) 10 0
def State.weight (s : State) (m r : Nat) : Nat := bitsOf (s.grtInForce m r) 23 16

/-- Credits after a number of cycles without a grant, u bytes a cycle, in 1/1,024 B: at most 64 cycles' worth. -/
def State.accrue (s : State) (r u cycles : Nat) (credit : Tab Nat) : Tab Nat :=
  (List.range 22).foldl (fun c m =>
    tabPut 0 c m (min (tabGet 0 c m + cycles * s.guar m r * u) (64 * s.guar m r * u))) credit

/-- A master pays for what it is granted. -/
def payCredit (credit : Tab Nat) (m n : Nat) : Tab Nat := tabPut 0 credit m (tabGet 0 credit m - n * 1024)

/-- One grant cycle (R339): the credits and virtual times after it, the master granted. `size m` is what the master asks,
none where it has no request that may go. -/
def State.arbitrate (s : State) (r u : Nat) (credit vt : Tab Nat) (size : Nat → Option Nat) : Tab Nat × Tab Nat × Option Nat :=
  let credit := s.accrue r u 1 credit
  let cand := (List.range 22).filter (fun m => (size m).isSome)
  let n := fun m => (size m).getD 0
  match bestBy (fun m => Int.ofNat (tabGet 0 credit m)) (cand.filter (fun m => n m * 1024 ≤ tabGet 0 credit m)) with
  | some m => (payCredit credit m (n m), vt, some m)
  | none =>
    match bestBy (fun m => -Int.ofNat (tabGet 0 vt m)) (cand.filter (fun m => s.weight m r > 0)) with
    | some m => (payCredit credit m (n m), tabPut 0 vt m (tabGet 0 vt m + n m * (vtUnit / s.weight m r)), some m)
    | none => (credit, vt, none)

/-! ## Points (Table 11-2) -/

/-- An arbitration point of a slice: its read port, its write port. -/
def pointNo (slice : Nat) (write : Bool) : Nat := 2 * slice + (if write then 1 else 0)

/-- A direction of the equator link, named by the half it leads to; a direction of the endpoint, 0 to the host. -/
def eqPoint (half : Nat) : Nat := 384 + half
def pciePoint (dir : Nat) : Nat := 386 + dir
def chanPoint (ch : Nat) : Nat := 256 + ch

def emptyPoint : UlPoint := ⟨[], [], []⟩

/-- A request arrives at a point: a master that had none waiting has its virtual time raised to the least there. -/
def UlPoint.arrive (p : UlPoint) (o : UlOp) : UlPoint :=
  let ms := p.waiting.map (fun q => q.r.master)
  let vt := if ms.contains o.r.master then p.vt else
    match ms.map (fun m => tabGet 0 p.vt m) with
    | [] => p.vt
    | v :: t => tabPut 0 p.vt o.r.master (max (tabGet 0 p.vt o.r.master) (t.foldl min v))
  { p with vt := vt, waiting := p.waiting ++ [o] }

/-- One grant cycle of a point: its credits and virtual times, and the request that is granted, still among those that
wait. Each master's oldest request that may go competes. -/
def State.cycle (s : State) (r u : Nat) (p : UlPoint) (may : UlOp → Bool) (size : UlOp → Nat) : UlPoint × Option UlOp :=
  let first := fun m => p.waiting.find? (fun o => decide (o.r.master = m) && may o)
  let x := s.arbitrate r u p.credit p.vt (fun m => (first m).map size)
  ({ p with credit := x.1, vt := x.2.1 }, x.2.2.bind first)

/-- Bytes granted to a master on a resource in this window (R342). -/
def State.noteServed (s : State) (m r n : Nat) : State :=
  let k := m * 4 + r
  { s with rgl := { s.rgl with served := tabPut 0 s.rgl.served k (tabGet 0 s.rgl.served k + n) } }

/-- The points of channel controllers and of the endpoint. -/
def State.rglPoint (s : State) (i : Nat) : UlPoint := tabGet emptyPoint s.rgl.points i

def State.setRglPoint (s : State) (i : Nat) (p : UlPoint) : State :=
  { s with rgl := { s.rgl with points := tabPut emptyPoint s.rgl.points i p } }

/-! ## The endpoint -/

/-- Of n whole units that a master asks of a resource alone, how many its guarantee carries before its credit falls below
one; `c` is its credit in the first cycle. -/
def guaranteedUnits (gain cost c n : Nat) : Nat :=
  if c < cost then 0 else if cost ≤ gain then n else min n ((c - cost) / (cost - gain) + 1)

/-- n units of u bytes, asked by one master with no other waiting, in as many grant cycles of a point. -/
def State.aloneAt (s : State) (r u m n : Nat) (p : UlPoint) : UlPoint :=
  let gain := s.guar m r * u
  let cost := u * 1024
  let c := min (tabGet 0 p.credit m + gain) (64 * gain)
  let k := guaranteedUnits gain cost c n
  let left := if k < n then 0 else c - (n - 1) * (cost - gain) - cost
  if n = 0 then p
  else
    { p with credit := tabPut 0 (s.accrue r u n p.credit) m left
             vt := if k < n then tabPut 0 p.vt m (tabGet 0 p.vt m + (n - k) * u * (vtUnit / s.weight m r)) else p.vt }

/-- Bytes that a master moves through the endpoint, in TLPs of up to 256 B. -/
def State.throughPcie (s : State) (m dir bytes : Nat) : State :=
  let p := s.aloneAt 3 256 m (bytes / 256) (s.rglPoint (pciePoint dir))
  let last := bytes % 256
  let p := if last = 0 then p
    else
      let x := s.arbitrate 3 256 p.credit p.vt (fun i => if i = m then some last else none)
      { p with credit := x.1, vt := x.2.1 }
  (s.setRglPoint (pciePoint dir) p).noteServed m 3 bytes

/-- Host DMA (master 16) and KV swap (master 19) to the host and from it. -/
def State.dmaOut (s : State) (bytes : Nat) : State := s.throughPcie 16 0 bytes
def State.dmaIn (s : State) (bytes : Nat) : State := s.throughPcie 16 1 bytes
def State.swapDma (s : State) (dir bytes : Nat) : State := s.throughPcie 19 dir bytes

end Sys2Proof.Machine
end

