-- ==== Sys2Proof/Machine/Ops.lean ====
section
/-! DEFINITION. Operations every family shares: the journal queue (R402), event codes (R434, R435), completions and
results (R351, R352, R368 to R370), the defect list (R401), FAULT# (R417), entering FAILED (R413). -/

namespace Sys2Proof.Machine

/-! ## Event codes (Table 14-11) -/

def Ev.VIF_STEERED : Nat := 0x0101
def Ev.VIF_UNLOCATED : Nat := 0x0102
def Ev.VIF_SLICE_RETIRED : Nat := 0x0103
def Ev.TSV_WEAKENED : Nat := 0x0104
def Ev.TB_RELOAD : Nat := 0x0105
def Ev.TB_DISAGREE : Nat := 0x0106
def Ev.TB_PATH_LOST : Nat := 0x0107
def Ev.SIDEBAND_COPY_LOST : Nat := 0x0108
def Ev.BRIDGE_PAIR_RETIRED : Nat := 0x0109
def Ev.HBM_CHANNEL_RETIRED : Nat := 0x010A
def Ev.CADENCE_LOW : Nat := 0x010B
def Ev.REFCLK_LOST : Nat := 0x010C
def Ev.STRAP_INVALID : Nat := 0x010D
def Ev.TILE_TRANSIENT : Nat := 0x0201
def Ev.TILE_RETIRED : Nat := 0x0202
def Ev.TILE_SPARE_STEERED : Nat := 0x0203
def Ev.CLUSTER_RETIRED : Nat := 0x0204
def Ev.KERNEL_FAULT : Nat := 0x0205
def Ev.CACHE_LASTING : Nat := 0x0206
def Ev.TILE_STORE_UNCORRECTED : Nat := 0x0207
def Ev.BLOCK_FAULT : Nat := 0x0208
def Ev.ROLE_MOVED : Nat := 0x0209
def Ev.PARTITION_DEGRADED : Nat := 0x020A
def Ev.MESH_LINK_RETIRED : Nat := 0x020B
def Ev.CHANGE_COMPLETED : Nat := 0x020C
def Ev.CHANGE_ABORTED : Nat := 0x020D
def Ev.UL_WORD_LASTING : Nat := 0x0301
def Ev.UL_ROW_REPLACED : Nat := 0x0302
def Ev.UL_ROW_DISABLED : Nat := 0x0303
def Ev.UL_POISON : Nat := 0x0304
def Ev.UL_TAG_LOST : Nat := 0x0305
def Ev.PIN_DEMOTED : Nat := 0x0306
def Ev.PIN_READMITTED : Nat := 0x0307
def Ev.DEAD_OVERFLOW : Nat := 0x0308
def Ev.SLICE_RETIRED : Nat := 0x0309
def Ev.HBM_REPAIR : Nat := 0x030A
def Ev.HBM_REPAIR_EXHAUSTED : Nat := 0x030B
def Ev.KV_PREEMPT : Nat := 0x0401
def Ev.KV_SWAP_FAIL : Nat := 0x0402
def Ev.KV_POISON : Nat := 0x0403
def Ev.KV_STARVE : Nat := 0x0404
def Ev.BELT_SHED : Nat := 0x0501
def Ev.BELT_ABANDON : Nat := 0x0502
def Ev.BELT_TAKEOVER : Nat := 0x0503
def Ev.BELT_FILL_IN : Nat := 0x0504
def Ev.BELT_LOST_RECORD : Nat := 0x0505
def Ev.BELT_QUERY_FAULT : Nat := 0x0506
def Ev.BELT_DIR_MISMATCH : Nat := 0x0507
def Ev.BELT_TAP_LOST : Nat := 0x0508
def Ev.LINK_LASTING : Nat := 0x0601
def Ev.RING_BYPASS : Nat := 0x0602
def Ev.RING_GAP : Nat := 0x0603
def Ev.RING_JOIN : Nat := 0x0604
def Ev.RING_LEAVE : Nat := 0x0605
def Ev.MGR_TAKEOVER : Nat := 0x0606
def Ev.MGR_DEMOTED : Nat := 0x0607
def Ev.SLOT_AUDIT : Nat := 0x0608
def Ev.FED_LOST : Nat := 0x0609
def Ev.RING_FAIL : Nat := 0x060A
def Ev.ROLE_CONFLICT : Nat := 0x060B
def Ev.BELT_PORT_RETIRED : Nat := 0x060C
def Ev.ROLE_STRAP_DIFFERS : Nat := 0x060D
def Ev.ROOT_TAKEOVER : Nat := 0x060E
def Ev.HOME_UNSHADOWED : Nat := 0x060F
def Ev.GUARANTEE_MISS : Nat := 0x0701
def Ev.PHASE_FAILED : Nat := 0x0702
def Ev.REGION_OFF : Nat := 0x0703
def Ev.WAKE_DEFERRED : Nat := 0x0704
def Ev.THERM_WARNING : Nat := 0x0705
def Ev.THERM_THROTTLE : Nat := 0x0706
def Ev.THERM_SHUTDOWN : Nat := 0x0707
def Ev.UL_THERMAL_GUARD : Nat := 0x0708
def Ev.FLASH_FAIL : Nat := 0x0801
def Ev.LICENCE_FLOOR : Nat := 0x0802
def Ev.JOURNAL_FAIL : Nat := 0x0803
def Ev.DEFECT_FULL : Nat := 0x0804
def Ev.PCIE_RETIRED : Nat := 0x0805
def Ev.CLUSTER_RESET : Nat := 0x0901
def Ev.WARM_RESET : Nat := 0x0902
def Ev.START_TRANSIENT : Nat := 0x0903
def Ev.START_STEP_FAIL : Nat := 0x0904
def Ev.RECOVERY_ENTERED : Nat := 0x0905
def Ev.DEVICE_FAILED : Nat := 0x0906

/-- Severities of the event codes (Table 14-11). -/
def evSeverities : List (Nat × Nat) := [
  (Ev.VIF_STEERED, 1),
  (Ev.VIF_UNLOCATED, 0),
  (Ev.VIF_SLICE_RETIRED, 1),
  (Ev.TSV_WEAKENED, 1),
  (Ev.TB_RELOAD, 0),
  (Ev.TB_DISAGREE, 0),
  (Ev.TB_PATH_LOST, 1),
  (Ev.SIDEBAND_COPY_LOST, 1),
  (Ev.BRIDGE_PAIR_RETIRED, 1),
  (Ev.HBM_CHANNEL_RETIRED, 2),
  (Ev.CADENCE_LOW, 0),
  (Ev.REFCLK_LOST, 3),
  (Ev.STRAP_INVALID, 4),
  (Ev.TILE_TRANSIENT, 0),
  (Ev.TILE_RETIRED, 1),
  (Ev.TILE_SPARE_STEERED, 1),
  (Ev.CLUSTER_RETIRED, 1),
  (Ev.KERNEL_FAULT, 2),
  (Ev.CACHE_LASTING, 1),
  (Ev.TILE_STORE_UNCORRECTED, 0),
  (Ev.BLOCK_FAULT, 2),
  (Ev.ROLE_MOVED, 1),
  (Ev.PARTITION_DEGRADED, 2),
  (Ev.MESH_LINK_RETIRED, 1),
  (Ev.CHANGE_COMPLETED, 0),
  (Ev.CHANGE_ABORTED, 0),
  (Ev.UL_WORD_LASTING, 0),
  (Ev.UL_ROW_REPLACED, 1),
  (Ev.UL_ROW_DISABLED, 1),
  (Ev.UL_POISON, 2),
  (Ev.UL_TAG_LOST, 2),
  (Ev.PIN_DEMOTED, 0),
  (Ev.PIN_READMITTED, 0),
  (Ev.DEAD_OVERFLOW, 0),
  (Ev.SLICE_RETIRED, 1),
  (Ev.HBM_REPAIR, 1),
  (Ev.HBM_REPAIR_EXHAUSTED, 0),
  (Ev.KV_PREEMPT, 0),
  (Ev.KV_SWAP_FAIL, 2),
  (Ev.KV_POISON, 2),
  (Ev.KV_STARVE, 2),
  (Ev.BELT_SHED, 0),
  (Ev.BELT_ABANDON, 0),
  (Ev.BELT_TAKEOVER, 1),
  (Ev.BELT_FILL_IN, 1),
  (Ev.BELT_LOST_RECORD, 2),
  (Ev.BELT_QUERY_FAULT, 2),
  (Ev.BELT_DIR_MISMATCH, 0),
  (Ev.BELT_TAP_LOST, 0),
  (Ev.LINK_LASTING, 1),
  (Ev.RING_BYPASS, 1),
  (Ev.RING_GAP, 0),
  (Ev.RING_JOIN, 0),
  (Ev.RING_LEAVE, 0),
  (Ev.MGR_TAKEOVER, 1),
  (Ev.MGR_DEMOTED, 0),
  (Ev.SLOT_AUDIT, 0),
  (Ev.FED_LOST, 2),
  (Ev.RING_FAIL, 2),
  (Ev.ROLE_CONFLICT, 0),
  (Ev.BELT_PORT_RETIRED, 1),
  (Ev.ROLE_STRAP_DIFFERS, 0),
  (Ev.ROOT_TAKEOVER, 1),
  (Ev.HOME_UNSHADOWED, 1),
  (Ev.GUARANTEE_MISS, 0),
  (Ev.PHASE_FAILED, 1),
  (Ev.REGION_OFF, 1),
  (Ev.WAKE_DEFERRED, 0),
  (Ev.THERM_WARNING, 0),
  (Ev.THERM_THROTTLE, 0),
  (Ev.THERM_SHUTDOWN, 3),
  (Ev.UL_THERMAL_GUARD, 0),
  (Ev.FLASH_FAIL, 0),
  (Ev.LICENCE_FLOOR, 0),
  (Ev.JOURNAL_FAIL, 0),
  (Ev.DEFECT_FULL, 4),
  (Ev.PCIE_RETIRED, 1),
  (Ev.CLUSTER_RESET, 3),
  (Ev.WARM_RESET, 3),
  (Ev.START_TRANSIENT, 0),
  (Ev.START_STEP_FAIL, 3),
  (Ev.RECOVERY_ENTERED, 2),
  (Ev.DEVICE_FAILED, 4)]

/-- The severity of an event code. -/
def evSev (code : Nat) : Nat :=
  ((evSeverities.find? (fun e => e.1 = code)).map (·.2)).getD 0

/-- The SOURCE of an event code (R434). -/
def evSource (code : Nat) : Nat :=
  if code = Ev.TSV_WEAKENED ∨ code = Ev.CADENCE_LOW then 2
  else if code = Ev.HBM_CHANNEL_RETIRED then 4
  else
    match code / 256 with
    | 1 => 1
    | 2 => 8
    | 3 => 4
    | 4 => 5
    | 5 => 6
    | 6 => 6
    | 7 => if code = Ev.GUARANTEE_MISS then 7
           else if code = Ev.PHASE_FAILED ∨ code = Ev.REGION_OFF ∨ code = Ev.WAKE_DEFERRED then 2 else 3
    | 8 => if code = Ev.JOURNAL_FAIL ∨ code = Ev.DEFECT_FULL then 9 else if code = Ev.PCIE_RETIRED then 0 else 1
    | _ => 10

/-! ## Units (Table 14-10) -/

def unitTile (c phys : Nat) : Nat := c * 16 + phys
def unitVif (iface group site : Nat) : Nat := iface * 2 ^ 31 + group * 2 ^ 16 + site
def senseOf (u : Nat) : SenseGroup := ⟨u / 2 ^ 31 % 2, u / 2 ^ 29 % 4, u / 2 ^ 24 % 16, u % 2 ^ 16⟩
def unitSense (g : SenseGroup) : Nat := g.die * 2 ^ 31 + g.rail * 2 ^ 29 + g.region * 2 ^ 24 + g.group
def unitPath (die : Nat) (b : Bool) : Nat := die + b2n b * 16
def unitHbm (ch row : Nat) : Nat := ch + row * 256
def unitRow (slice die row : Nat) : Nat := slice + die * 256 + row * 2 ^ 16
def unitPos (pos parent : Nat) : Nat := pos + parent * 2 ^ 16
def unitPair (m r : Nat) : Nat := m + r * 256
def unitPhase (r ph : Nat) : Nat := r * 16 + ph

/-! ## The journal queue (R402) -/

/-- Record types (Table 13-10). -/
def JT.SEG_HEAD : Nat := 0x0001
def JT.BOOT : Nat := 0x0002
def JT.EVENT : Nat := 0x0003
def JT.DEFECT : Nat := 0x0004
def JT.CONFIG : Nat := 0x0005
def JT.PEER : Nat := 0x0006
def JT.FGEN : Nat := 0x0007
def JT.DROPPED : Nat := 0x0008
def JT.SNAP_BEGIN : Nat := 0x00F0
def JT.COMMIT : Nat := 0x00F1

/-- BOOT, DEFECT and CONFIG records: those the reserved entries serve. -/
def JRec.reserved (r : JRec) : Bool := r.type = JT.BOOT || r.type = JT.DEFECT || r.type = JT.CONFIG

/-- Entries of the queue that a record of another type leaves free: 1,024 less the 128 reserved. -/
def jrnOpen : Nat := 896

/-- Whether a record of a type without reserved entries finds the queue full. -/
def jrnFullFor (q : List JRec) : Bool :=
  decide (q.length - min 128 (q.filter JRec.reserved).length ≥ jrnOpen)

/-- A record enters the queue: it takes the next sequence number and its place in the 64-record tail. -/
def State.jrnPush (s : State) (r : JRec) : State :=
  let r' := { r with seq := s.jrn.nextSeq }
  { s with jrn := { s.jrn with
      queue := s.jrn.queue ++ [r']
      tail := (s.jrn.tail ++ [r']).drop ((s.jrn.tail.length + 1) - 64)
      tailCount := s.jrn.tailCount + 1
      nextSeq := s.jrn.nextSeq + 1 } }

/-- A record is dropped and counted (R402). -/
def State.jrnDrop (s : State) (n : Nat) : State :=
  ({ s with jrn := { s.jrn with droppedSince := s.jrn.droppedSince + n } }.addFld Fld.JRN_LOSS_DROPPED n).raise
    Fld.JRN_EVENTS_DROPPED

/-- The list without its first element of a kind. -/
def dropFirst {α : Type} (p : α → Bool) : List α → List α
  | [] => []
  | a :: t => if p a then t else a :: dropFirst p t

/-- A new record, stamped. -/
def State.jrec (s : State) (type source : Nat) (payload : BitVec 288) : JRec :=
  ⟨type, s.fld Fld.JRN_DEFECTS_BOOT, source, false, 0, s.now, payload⟩

/-- The DROPPED record that the next record to enter is preceded by, once there is room (R402). -/
def State.jrnReportDropped (s : State) : State :=
  if s.jrn.droppedSince = 0 ∨ jrnFullFor s.jrn.queue then s
  else
    let r := s.jrec JT.DROPPED 9 (BitVec.ofNat 288 s.jrn.droppedSince)
    { s with jrn := { s.jrn with droppedSince := 0 } }.jrnPush r

/-- A record of any type enters the journal queue under the rules of R402. -/
def State.journal (s : State) (type source : Nat) (payload : BitVec 288) : State :=
  let r := s.jrec type source payload
  if r.reserved then
    if s.jrn.queue.length < 1024 then s.jrnPush r
    else if type = JT.DEFECT then s.raise Fld.JRN_STATUS_DEFECT_PENDING
    else if s.jrn.queue.any (fun q => !q.reserved) then
      ({ s with jrn := { s.jrn with queue := dropFirst (fun q => !q.reserved) s.jrn.queue } }.jrnDrop 1).jrnPush r
    else s.jrnDrop 1
  else
    let s := s.jrnReportDropped
    if jrnFullFor s.jrn.queue then s.jrnDrop 1 else s.jrnPush r

/-- The payload of an EVENT record (R434): code, unit, repeat count, severity, cause, arguments from byte 36. -/
def evPayload (code unit repeats sev cause args : Nat) : BitVec 288 :=
  BitVec.ofNat 288 (code + unit * 2 ^ 16 + repeats * 2 ^ 48 + sev * 2 ^ 64 + cause * 2 ^ 80 + args * 2 ^ 96)

/-- Whether a queued record merges with a new event of this code and unit (R402: within 1 s of its TB). -/
def JRec.merges (r : JRec) (boot now code unit : Nat) : Bool :=
  r.type = JT.EVENT && r.boot = boot && decide (r.payload.toNat % 2 ^ 48 = code + unit % 2 ^ 32 * 2 ^ 16)
    && decide (now < r.tb + 156250000)

/-- One more repeat in the record's count (bytes 30 and 31, saturating). -/
def JRec.bump (r : JRec) : JRec :=
  if r.payload.toNat / 2 ^ 48 % 2 ^ 16 = 0xFFFF then r
  else { r with payload := r.payload + BitVec.ofNat 288 (2 ^ 48) }

/-- The event's EVENT record, merged where R402 merges it. -/
def State.jrnEvent (s : State) (code unit cause args : Nat) : State :=
  let boot := s.fld Fld.JRN_DEFECTS_BOOT
  match s.jrn.queue.find? (fun r => r.merges boot s.now code unit) with
  | some r =>
    let up := fun (q : JRec) => if q.seq = r.seq then q.bump else q
    { s with jrn := { s.jrn with queue := s.jrn.queue.map up, tail := s.jrn.tail.map up } }
  | none =>
    s.journal JT.EVENT (evSource code) (evPayload code (unit % 2 ^ 32) 1 (evSev code) cause args)

/-- Send an MSI-X message: counted per vector; pending while its vector is masked (log entry 101); none from a hostless
device (R374). -/
def State.msi (s : State) (vector : Nat) : State :=
  if s.host.hostless then s
  else if s.flag (Fld.MSIX_MASK vector) then s.raise (Fld.MSIX_PENDING vector)
  else { s with host := { s.host with msix := tabMod 0 s.host.msix vector (· + 1) } }

/-- An event shows (R434, R435): journalled, its severity's bit set, its interrupt sent, its capture taken. -/
def State.event (s : State) (code unit : Nat) (cause : Nat := 0) (args : Nat := 0) : State :=
  let sev := evSev code
  let s := s.jrnEvent code unit cause args
  let s := s.setReg Off.FLT_EVENTS (s.regAt Off.FLT_EVENTS ||| BitVec.ofNat 32 (2 ^ sev))
  let s := if s.fbit Fld.FLT_IRQ_CTL_EN sev then s.msi (s.fld Fld.FLT_IRQ_CTL_VECTOR) else s
  if s.fld Fld.FLT_IRQ_CTL_CAPTURE_MIN ≤ sev ∧ ¬ s.flag Fld.FLT_CAPTURE_LO_VALID then
    (((s.setFld Fld.FLT_CAPTURE_LO_CODE code).setFld Fld.FLT_CAPTURE_LO_SEVERITY sev).setFld
      Fld.FLT_CAPTURE_HI_UNIT unit).raise Fld.FLT_CAPTURE_LO_VALID
  else s

/-! ## Device state, FAULT# (R417) -/

/-- Values of FLT_STATUS STATE (Table 14-13). -/
def DS.STARTING : Nat := 0
def DS.READY : Nat := 1
def DS.RECOVERY : Nat := 2
def DS.FAILED : Nat := 3
def DS.WARM : Nat := 4

def State.dstate (s : State) : Nat := s.fld Fld.FLT_STATUS_STATE
def State.ready (s : State) : Bool := s.dstate = DS.READY

/-- FAULT# is low outside READY, while DEVICE_RESET# is low, and for a degraded partition where FAULT_DEGRADED is 1
(R417, R471). -/
def State.updFault (s : State) : State :=
  let low := !s.ready || s.pins.resetLow || (s.flag Fld.FLT_IRQ_CTL_FAULT_DEGRADED && s.flag Fld.FLT_STATUS_DEGRADED)
    || !s.pins.refclk
  s.setFld Fld.FLT_STATUS_FAULT_PIN (b2n low)

/-- The device takes a state: FLT_STATUS, HIF_STATUS READY and FAULT# follow. -/
def State.setDstate (s : State) (d : Nat) : State :=
  ((s.setFld Fld.FLT_STATUS_STATE d).setFld Fld.HIF_STATUS_READY (b2n (d = DS.READY))).updFault

/-! ## Completions (R351, R352, R355) -/

/-- Bytes of a word, least significant first (R490). -/
def leBytes (n v : Nat) : List Byte :=
  (List.range n).map (fun i => BitVec.ofNat 8 (v / 2 ^ (8 * i)))

/-- Write bytes into a byte memory from an address. -/
def putBytes (m : Tab Byte) (a : Nat) : List Byte → Tab Byte
  | [] => m
  | b :: t => putBytes (tabPut 0#8 m a b) (a + 1) t

/-- n bytes of a byte memory from an address. -/
def getBytes (m : Tab Byte) (a n : Nat) : List Byte :=
  (List.range n).map (fun i => tabGet 0#8 m (a + i))

/-- The number that bytes spell, least significant first. -/
def leNat : List Byte → Nat
  | [] => 0
  | b :: t => b.toNat + 256 * leNat t

/-- n 64-bit words of a byte memory from an address. -/
def getWords (m : Tab Byte) (a n : Nat) : List W64 :=
  (List.range n).map (fun i => BitVec.ofNat 64 (leNat (getBytes m (a + 8 * i) 8)))

/-- Entries of a queue: 2^SIZE_LOG2, limits 4 and 12 (Table 12-18). -/
def queueSize (log2 : Nat) : Nat := 2 ^ max 4 (min 12 log2)

def State.cqBase (s : State) (q : Nat) : Nat :=
  (s.regAt (Off.HIF_CQ_BASE_HI q)).toNat * 2 ^ 32 + (s.regAt (Off.HIF_CQ_BASE_LO q)).toNat / 4096 * 4096

def State.cqSize (s : State) (q : Nat) : Nat := queueSize (s.fld (Fld.HIF_CQ_CFG_SIZE_LOG2 q))

/-- A CQ is full when its tail is one below its head, modulo size. -/
def State.cqFull (s : State) (q : Nat) : Bool :=
  decide ((s.fld (Fld.HIF_CQ_STAT_TAIL q) + 1) % s.cqSize q = s.fld (Fld.HIF_CQ_STAT_HEAD q))

/-- The two words of a completion (Table 12-4). -/
def Completion.word1 (c : Completion) (phase : Nat) : Nat :=
  c.cid * 2 ^ 48 + c.sq * 2 ^ 42 + c.sqHead * 2 ^ 30 + c.status * 2 ^ 22 + c.state * 2 ^ 14 + phase

/-- Send a CQ's message and start a new accumulation (R352). -/
def State.cqMessage (s : State) (q : Nat) : State :=
  { s with host := { s.host with cqNew := tabErase s.host.cqNew q } }.msi (s.fld (Fld.HIF_CQ_CFG_VECTOR q))

/-- Count a new entry of a CQ, and send the message when AGG_COUNT entries have accumulated (R352). -/
def State.cqNote (s : State) (q : Nat) : State :=
  let n := tabGet 0 s.host.cqNew q + 1
  let s := { s with host := { s.host with cqNew := tabInsert s.host.cqNew q n } }
  if s.flag (Fld.HIF_CQ_CFG_IEN q) ∧ (s.fld (Fld.HIF_CQ_CFG_AGG_COUNT q)) ≤ n then s.cqMessage q else s

/-- COMPLETION_WRITE: the entry is written at the CQ tail with the current phase (R351). -/
def State.cqWrite (s : State) (c : Completion) : State :=
  let q := c.cq
  let tail := s.fld (Fld.HIF_CQ_STAT_TAIL q)
  let bytes := leBytes 8 c.info.toNat ++ leBytes 8 (c.word1 (s.fld (Fld.HIF_CQ_STAT_PHASE q)))
  let s := { s with host := { s.host with mem := putBytes s.host.mem (s.cqBase q + 16 * tail) bytes } }
  let s := s.dmaOut 16
  let tail' := (tail + 1) % s.cqSize q
  let s := s.setFld (Fld.HIF_CQ_STAT_TAIL q) tail'
  let s := if tail' = 0 then s.setFld (Fld.HIF_CQ_STAT_PHASE q) (1 - s.fld (Fld.HIF_CQ_STAT_PHASE q)) else s
  s.cqNote q

/-- Post a completion: written at once, or waiting in order while its CQ is full (R351). -/
def State.cqPost (s : State) (c : Completion) : State :=
  if s.cqFull c.cq || s.host.cqWait.any (fun w => w.cq = c.cq) then
    { s with host := { s.host with cqWait := s.host.cqWait ++ [c] } }
  else s.cqWrite c

/-- BUSY of an SQ: it has commands whose completions are not yet written (R353). -/
def State.updBusy (s : State) (sq : Nat) : State :=
  s.setFld (Fld.HIF_SQ_CFG_BUSY sq)
    (b2n (s.host.cmds.any (fun c => c.sq = sq) || s.host.cqWait.any (fun c => c.sq = sq)))

/-- Write the waiting completions of a CQ while there is room; the fuel is their number. -/
def State.cqDrain : Nat → State → Nat → State
  | 0, s, _ => s
  | n + 1, s, q =>
    match s.host.cqWait.find? (fun w => w.cq = q) with
    | none => s
    | some c =>
      if s.cqFull q then s
      else
        let s := { s with host := { s.host with cqWait := dropFirst (fun w => w.cq = q) s.host.cqWait } }
        State.cqDrain n ((s.cqWrite c).updBusy c.sq) q

/-! ## Commands -/

/-- Status codes (Table 12-5). -/
def St.OK : Nat := 0x00
def St.INVALID : Nat := 0x01
def St.STATE : Nat := 0x02
def St.NO_RESOURCE : Nat := 0x03
def St.LICENCE : Nat := 0x04
def St.FAULT : Nat := 0x05
def St.ABORTED : Nat := 0x06
def St.TIMEOUT : Nat := 0x07
def St.PREEMPTED : Nat := 0x08

/-- Bits of a command's word. -/
def Cmd.f (c : Cmd) (k hi lo : Nat) : Nat := bitsOf (c.w.getD k 0#64) hi lo

def Cmd.opcode (c : Cmd) : Nat := c.f 0 63 56
def Cmd.defer (c : Cmd) : Bool := c.f 0 55 55 = 1
def Cmd.fence (c : Cmd) : Bool := c.f 0 54 54 = 1
def Cmd.rdest (c : Cmd) : Nat := c.f 0 53 52
def Cmd.cls (c : Cmd) : Nat := c.f 0 51 48
def Cmd.raddr (c : Cmd) : Nat := c.f 1 63 0
def Cmd.rlen (c : Cmd) : Nat := c.f 7 63 32

def Cmd.is (c : Cmd) (sq cid : Nat) : Bool := c.sq = sq && c.cid = cid

/-- The oldest command of this SQ and CID that has not completed. -/
def State.cmd? (s : State) (sq cid : Nat) : Option Cmd := s.host.cmds.find? (fun c => c.is sq cid)

/-- The first element of a kind replaced. -/
def modFirst {α : Type} (p : α → Bool) (f : α → α) : List α → List α
  | [] => []
  | a :: t => if p a then f a :: t else a :: modFirst p f t

/-- Change the oldest command of this SQ and CID. -/
def State.modCmd (s : State) (sq cid : Nat) (f : Cmd → Cmd) : State :=
  { s with host := { s.host with cmds := modFirst (fun c => c.is sq cid) f s.host.cmds } }

/-- IN_USE of HIF_DEFER: deferred commands (Table 12-17). -/
def State.updDefer (s : State) : State :=
  s.setFld Fld.HIF_DEFER_IN_USE ((s.host.cmds.filter (fun c => c.stage = .deferred)).length)

/-- A slot that is reserved and belongs to no result. -/
def Slot.bare (e : Slot) : Bool := !e.ready && e.rseq = 0

/-- Slots reserved for a command that got no result are freed. -/
def State.freeReserved (s : State) (sq cid : Nat) : State :=
  { s with host := { s.host with
      slots := s.host.slots.filter (fun e => !(e.2.bare && e.2.sq = sq && e.2.cid = cid)) } }

/-- A command completes with one status (R356): its reserved slots that hold no result are freed, its CID is
outstanding no more. -/
def State.complete (s : State) (sq cid status : Nat) (info : Nat := 0) (stateCode : Nat := 0) : State :=
  match s.cmd? sq cid with
  | none => s
  | some c =>
    let s := { s with host := { s.host with cmds := dropFirst (fun k => k.is sq cid) s.host.cmds } }
    let s := (s.freeReserved sq cid).updDefer
    (s.cqPost ⟨s.fld (Fld.HIF_SQ_CFG_CQ sq), BitVec.ofNat 64 info, cid, sq, c.sqHead, status, stateCode⟩).updBusy sq

/-- Complete every command of a list, in order. -/
def State.completeAll (s : State) (status : Nat) : List Cmd → State
  | [] => s
  | c :: t => (s.complete c.sq c.cid status).completeAll status t

/-- Every accepted command ends without a completion (R356); reserved slots that hold no result are freed. -/
def State.endCommands (s : State) : State :=
  let s := { s with host := { s.host with cmds := [], cqWait := [],
                                          slots := s.host.slots.filter (fun e => !e.2.bare) } }
  (List.range 64).foldl (fun s q => s.setFld (Fld.HIF_SQ_CFG_BUSY q) 0) s.updDefer

/-! ## Results (R368 to R370) -/

/-- The capacity of a command's result destination, in bytes. -/
def Cmd.capacity (c : Cmd) : Nat :=
  if c.rdest = 1 then c.rlen else if c.rdest = 2 then c.rlen * 4032 else 0

/-- The slots of a result stored in BAR2: slot i holds bytes 4,032 i onward (R370), READY set (R369). -/
def storeSlots (slots : Tab Slot) (c : Cmd) (rseq n len : Nat) (bytes : List Byte) : Nat → Tab Slot
  | 0 => slots
  | k + 1 =>
    let i := n - (k + 1)
    let data := ((bytes.drop (4032 * i)).take 4032)
    storeSlots (tabInsert slots (c.f 1 17 0 + i) ⟨true, St.OK, c.cid, c.sq, rseq, i, n % 65536, len, data⟩)
      c rseq n len bytes k

/-- Write a command's result at its destination, with the status it will carry (R368 to R370). A result of 0 bytes
makes no slot ready. -/
def State.writeResult (s : State) (c : Cmd) (status : Nat) (bytes : List Byte) : State :=
  let b := bytes.take c.capacity
  if c.rdest = 1 then ({ s with host := { s.host with mem := putBytes s.host.mem c.raddr b } }).dmaOut b.length
  else if c.rdest = 2 ∧ b.length > 0 then
    let n := (b.length + 4031) / 4032
    let rseq := s.host.rseq % (2 ^ 32 - 1) + 1
    let mine := s.host.slots.map (fun (e : Nat × Slot) =>
      if e.2.bare ∧ e.2.sq = c.sq ∧ e.2.cid = c.cid then (e.1, { e.2 with rseq := rseq }) else e)
    let slots := (storeSlots mine c rseq n b.length b n).map
      (fun e => (e.1, if e.2.rseq = rseq then { e.2 with status := status } else e.2))
    { s with host := { s.host with slots := slots, rseq := rseq } }
  else s

/-- Write a result and complete with OK: INFO has LENGTH in bits 63:32, the second value below, TRUNC in bit 31. -/
def State.finish (s : State) (c : Cmd) (bytes : List Byte) (second : Nat := 0) (two : Bool := false) : State :=
  let len := min bytes.length c.capacity
  let trunc := decide (bytes.length > c.capacity)
  let info := if two then len * 2 ^ 32 + b2n trunc * 2 ^ 31 + second else len + b2n trunc * 2 ^ 31
  (s.writeResult c St.OK bytes).complete c.sq c.cid St.OK info

/-! ## FAILED (R413) and the defect list (R401) -/

/-- Belt ports down: every port that is not retired or disabled by role (Table of BLT_PORT_x_STAT). -/
def State.portsDown (s : State) : State :=
  (List.range 8).foldl (fun s x =>
    if s.fld (Fld.BLT_PORT_STAT_STATE x) = 4 ∨ s.fld (Fld.BLT_PORT_STAT_STATE x) = 5 then s
    else (s.setFld (Fld.BLT_PORT_STAT_STATE x) 0).setFld (Fld.BLT_PORT_STAT_LOCKED x) 0) s

/-- The device enters FAILED, or reports itself failed in service (R413): FAULT# low, ports down, commands refused
from then on; those accepted end with FAULT. -/
def State.failDevice (s : State) (cause : Nat) : State :=
  let s := s.event Ev.DEVICE_FAILED 0 cause
  let s := (s.setDstate DS.FAILED).setFld Fld.FLT_STATUS_CAUSE (cause % 256)
  (s.portsDown).completeAll St.FAULT s.host.cmds

/-- Whether the defect list holds a unit. -/
def State.hasDefect (s : State) (kind : Nat) (unit : Nat) : Bool :=
  s.jrn.defects.any (fun d => d.kind = kind && d.unit = BitVec.ofNat 48 unit)

/-- The units of one kind in the defect list. -/
def State.defectsOf (s : State) (kind : Nat) : List Nat :=
  (s.jrn.defects.filter (fun d => d.kind = kind)).map (fun d => d.unit.toNat)

/-- A unit enters the defect list (R401), found by a test of a start or a warm reset, or in service: entries are only added, once each; a full
list fails the device. -/
def State.addDefect (s : State) (kind unit cause : Nat) : State :=
  let origin := b2n (decide (s.dstate ≠ DS.STARTING ∧ s.dstate ≠ DS.WARM))
  if s.hasDefect kind unit then s
  else if s.jrn.defects.length ≥ 16384 then
    ((s.raise Fld.JRN_EVENTS_DEFECT_FULL).event Ev.DEFECT_FULL 0 cause).failDevice Ev.DEFECT_FULL
  else
    let d : Defect := ⟨kind, BitVec.ofNat 48 unit, origin, cause⟩
    let s := { s with jrn := { s.jrn with
        defects := s.jrn.defects ++ [d]
        defectsPending := if s.jrn.queue.length < 1024 then s.jrn.defectsPending else s.jrn.defectsPending ++ [d] } }
    let s := s.setFld Fld.JRN_DEFECTS_ENTRIES s.jrn.defects.length
    s.journal JT.DEFECT (evSource cause)
      (BitVec.ofNat 288 (kind + origin * 2 ^ 8 + unit % 2 ^ 48 * 2 ^ 16 + cause * 2 ^ 64))

/-- A CONFIG record (Table 13-10): its kind and the fields of that kind from byte 25. -/
def State.jrnConfig (s : State) (kind source fields : Nat) : State :=
  s.journal JT.CONFIG source (BitVec.ofNat 288 (kind + fields * 2 ^ 8))

/-- A PEER record (Table 13-10): sender's position and UID, subtype, payload. -/
def State.jrnPeer (s : State) (pos : Nat) (uid : W64) (sub payload : Nat) : State :=
  s.journal JT.PEER 6 (BitVec.ofNat 288 (pos + uid.toNat * 2 ^ 16 + sub * 2 ^ 80 + payload * 2 ^ 88))

/-- The role in force (R10, R375): BLT_RING and HIF_STATUS show it. -/
def State.setRole (s : State) (r : Nat) : State := (s.setFld Fld.BLT_RING_ROLE r).setFld Fld.HIF_STATUS_ROLE r

/-! ## Device-scope faults (R410, R424) -/

/-- A device-scope fault asks for a warm device reset; a second one with the same code within 24 h, or one during a
warm device reset, asks for a cold start (R424). -/
def State.deviceScope (s : State) (code : Nat) : State :=
  let again := s.boot.devFaults.any (fun e => e.1 = code && decide (s.now < e.2 + dayTicks))
  let s := { s with boot := { s.boot with
      devFaults := (code, s.now) :: s.boot.devFaults.filter (fun e => e.1 ≠ code) } }
  if again ∨ s.dstate = DS.WARM then { s with boot := { s.boot with coldReq := true } }
  else { s with boot := { s.boot with warmReq := some code } }

/-- Whether a host reaches the device. -/
def State.linked (s : State) : Bool := !s.host.hostless && s.host.linkDown.isNone

end Sys2Proof.Machine
end

