-- ==== Sys2Proof/Machine/Bytes.lean ====
section
/-! DEFINITION. Records as bytes, and the cyclic redundancy checks: CRC-32C of journal records (Table 13-9), CRC-16 of
bridge flits (01_stack.md R37). -/

namespace Sys2Proof.Machine

/-- n steps of the reflected CRC-32C register. -/
def crc32Bits : Nat → Nat → Nat
  | 0, c => c
  | n + 1, c => crc32Bits n (if c % 2 = 1 then (c / 2) ^^^ 0x82F63B78 else c / 2)

/-- CRC-32C over bytes, from a register value. -/
def crc32Run : Nat → List Byte → Nat
  | c, [] => c
  | c, b :: t => crc32Run (crc32Bits 8 (c ^^^ b.toNat)) t

/-- CRC-32C of bytes. -/
def crc32c (bytes : List Byte) : Nat := crc32Run 0xFFFFFFFF bytes ^^^ 0xFFFFFFFF

/-- A number as n bytes, most significant first. -/
def beBytes (n v : Nat) : List Byte := (leBytes n v).reverse

/-- n steps of the CRC-16 register: polynomial 0x8BB7, most significant bit first. -/
def crc16Bits : Nat → Nat → Nat
  | 0, c => c
  | n + 1, c => crc16Bits n (if c ≥ 0x8000 then (c * 2 % 0x10000) ^^^ 0x8BB7 else c * 2)

/-- The CRC-16 register after one more byte. -/
def crc16Byte (c : Nat) (b : Byte) : Nat := crc16Bits 8 (c ^^^ (b.toNat * 256))

/-- CRC-16 of a flit's bytes (R37): initial value 0, no reflection, no final inversion. -/
def crc16 (bytes : List Byte) : Nat := bytes.foldl crc16Byte 0

/-- The 60 bytes of a journal record that its CRC covers (Table 13-9). -/
def JRec.body (r : JRec) : List Byte :=
  leBytes 2 r.type ++ leBytes 2 r.boot ++ leBytes 1 r.source ++ leBytes 1 (b2n r.snap) ++ leBytes 2 0
    ++ leBytes 8 r.seq ++ leBytes 8 r.tb ++ leBytes 36 r.payload.toNat

/-- The 64 bytes of a journal record. -/
def JRec.bytes (r : JRec) : List Byte := r.body ++ leBytes 4 (crc32c r.body)

end Sys2Proof.Machine
end

