-- ==== Sys2Proof/Machine/UlOps.lean ====
section
/-! DEFINITION. The underlayer cache (08_underlayer.md): the address map, windows, allocation, fills, write-back,
coherent access, miss-status entries, retirement of slices and rows. -/

namespace Sys2Proof.Machine

/-! ## The address map (R231 to R234) -/

def mix (r : Nat) : Nat := (r * 0x9E37) % 65536

/-- The last row of a channel (R233). -/
def maxRow : Nat := 1464842

/-- Where R232 places a line number. -/
structure Place where
  ch : Nat
  q : Nat
  half : Nat
  bucket : Nat
  slice : Nat
  set : Nat
deriving DecidableEq, Repr

/-- Entry b of half h's bucket table: in use, slice (R234, Table 8-20). -/
def State.bkt (s : State) (h b : Nat) : Bool × Nat :=
  let w := ((s.regAt (Off.ULC_BKT h (b / 4))).toNat >>> (8 * (b % 4))) % 256
  (decide (128 ≤ w), w % 128)

def State.setBkt (s : State) (h b : Nat) (valid : Bool) (slice : Nat) : State :=
  s.setFld ⟨Off.ULC_BKT h (b / 4), 8 * (b % 4), 8⟩ (b2n valid * 128 + slice % 128)

/-- HBM_BYTES (R233). -/
def State.hbmBytes (s : State) : Nat := 1464843 * s.ul.chans.length * 1024

/-- The map of R232 for line number l. -/
def State.place (s : State) (l : Nat) : Option Place :=
  let c := s.ul.chans.length
  if c = 0 then none
  else
    let n := 4 * c
    let r := l / n
    let p := (l % n + mix r) % n
    let ch := s.ul.chans.getD (p % c) 0
    let q := p / c
    let b := 4 * (ch % 64) + q
    some ⟨ch, q, ch / 64, b, (s.bkt (ch / 64) b).2, (r + 2048 * q) % 8192⟩

def viewBase : Nat := 0x100000000000
def viewEnd : Nat := 0x110000000000

/-! ## Windows (R238 to R242) -/

def State.winValid (s : State) (w : Nat) : Bool := s.flag (Fld.ULC_WIN_ATTR_VALID w)
def State.winBase (s : State) (w : Nat) : Nat :=
  (s.fld (Fld.ULC_WIN_BASE_HI_BASE_HI w)) * 2 ^ 32 + (s.fld (Fld.ULC_WIN_BASE_LO_BASE_LO w)) * 2 ^ 21
def State.winSize (s : State) (w : Nat) : Nat := 2 ^ (s.fld (Fld.ULC_WIN_ATTR_SIZE_LOG2 w))

/-- The window an address lies in. -/
def State.winAt (s : State) (a : Nat) : Option Nat :=
  (List.range 32).find? (fun w => s.winValid w && decide (s.winBase w ≤ a) && decide (a < s.winBase w + s.winSize w))

/-- The persistence a window gives: a PIN window that is not resident counts as KEEP (R241). -/
def State.winPersist (s : State) (w : Option Nat) : Nat :=
  match w with
  | none => 1
  | some w =>
    let p := s.fld (Fld.ULC_WIN_ATTR_PERSIST w)
    if p = 3 then (if s.fld (Fld.ULC_WIN_STAT_PIN_STATE w) = 1 then 3 else 2) else p

/-- The line number a line's placement uses: its view offset's in a view (R243). -/
def State.mapLine (s : State) (l : Nat) : Option Nat :=
  if l * 256 < s.hbmBytes then some l
  else if viewBase ≤ l * 256 then
    match s.winAt (l * 256) with
    | some w => if s.flag (Fld.ULC_WIN_ATTR_TRANSPOSE w) then some (l - s.winBase w / 256) else none
    | none => none
  else none

/-- The place of a device line. -/
def State.home (s : State) (l : Nat) : Option Place := (s.mapLine l).bind s.place

/-- Whether an address lies in a region of Table 8-1. -/
def State.addrOk (s : State) (a : Nat) : Bool := (s.mapLine (a / 256)).isSome

/-- Whether n bytes from a lie in HBM. -/
def State.hbmRange (s : State) (a n : Nat) : Bool := decide (a + n ≤ s.hbmBytes)

def State.isView (s : State) (l : Nat) : Bool := decide (s.hbmBytes ≤ l * 256)

/-- Whether the line's home channel is in service (R261). -/
def State.backed (s : State) (l : Nat) : Bool :=
  match s.place l with
  | some p => !s.fbit (Fld.ULC_CHAN_RET_RETIRED (p.ch / 32)) (p.ch % 32)
  | none => false

/-! ## Sectors -/

def secGet (d : BitVec 2048) (i : Nat) : BitVec 256 := d.extractLsb' (256 * i) 256

def secPut (d : BitVec 2048) (i : Nat) (v : BitVec 256) : BitVec 2048 :=
  (d &&& ~~~((BitVec.allOnes 256).setWidth 2048 <<< (256 * i))) ||| (v.setWidth 2048 <<< (256 * i))

/-- Sector number sec of HBM: its data and whether it reads as poisoned; an unbacked line is poisoned (R257, R261). -/
def State.hbmSector (s : State) (sec : Nat) : BitVec 256 × Bool :=
  if s.backed (sec / 8) then
    (BitVec.ofNat 256 (leNat (getBytes s.ul.hbm (32 * sec) 32)), tabGet false s.ul.hbmPoison sec)
  else (0#256, true)

/-- A write of a sector to its channel; discarded where the line is unbacked (R261). -/
def State.hbmPutSector (s : State) (sec : Nat) (v : BitVec 256) (poison : Bool) : State :=
  if s.backed (sec / 8) then
    { s with ul := { s.ul with hbm := putBytes s.ul.hbm (32 * sec) (leBytes 32 v.toNat),
                               hbmPoison := tabPut false s.ul.hbmPoison sec poison } }
  else s

/-! ## Lines -/

/-- The cached line of a line number: its key and content. -/
def State.lineOf (s : State) (l : Nat) : Option (Nat × Line) := s.ul.lines.find? (fun e => e.2.tag = l)

def lineKey (slice set way : Nat) : Nat := (slice * 8192 + set) * 16 + way
def keySlice (k : Nat) : Nat := k / 16 / 8192
def keySet (k : Nat) : Nat := k / 16 % 8192
def keyWay (k : Nat) : Nat := k % 16

/-- The row of a line position (R254): die, row of that die. -/
def rowOf (set way : Nat) : Nat × Nat := (way / 8, (way % 8) * 2048 + set / 4)

def State.setLine (s : State) (k : Nat) (l : Line) : State :=
  { s with ul := { s.ul with lines := tabInsert s.ul.lines k l } }

/-- A line position's place in the recency list of its set: most recent, or least recent. -/
def State.touch (s : State) (k : Nat) (recent : Bool := true) : State :=
  let l := (tabGet [] s.ul.lru (k / 16)).filter (fun w => w ≠ k % 16)
  { s with ul := { s.ul with lru := tabPut [] s.ul.lru (k / 16) (if recent then k % 16 :: l else l ++ [k % 16]) } }

/-- The line leaves its position. -/
def State.dropLine (s : State) (k : Nat) : State :=
  let l := (tabGet [] s.ul.lru (k / 16)).filter (fun w => w ≠ k % 16)
  { s with ul := { s.ul with lines := tabErase s.ul.lines k, lru := tabPut [] s.ul.lru (k / 16) l } }

/-- Dirty sectors go to HBM, a poisoned one with the poison pattern (R237, R257). -/
def State.writeSectors (s : State) (l : Nat) (dirty poison : BitVec 8) (data : BitVec 2048) : State :=
  (List.range 8).foldl (fun s i =>
    if dirty.getLsbD i then s.hbmPutSector (l * 8 + i) (secGet data i) (poison.getLsbD i) else s) s

/-- Write a line back; it stays valid and clean. -/
def State.writeBack (s : State) (k : Nat) : State :=
  match tabFind s.ul.lines k with
  | some l => (s.writeSectors l.tag l.dirty l.poison l.data).setLine k { l with dirty := 0#8 }
  | none => s

/-- The sectors of a mask. -/
def secCount (m : BitVec 8) : Nat := ((List.range 8).filter (fun i => m.getLsbD i)).length

/-- Evict a line: written back, then dropped. -/
def State.evict (s : State) (k : Nat) : State := (s.writeBack k).dropLine k

/-! ## Allocation (R239, R240) -/

/-- Persistence of a cached line. -/
def State.linePersist (s : State) (l : Line) : Nat := if l.filtered then 0 else s.winPersist l.win

/-- A line with a reduction pending, in its miss-status entry or in the slice's input queue, is held (R250). -/
def State.lineHeld (s : State) (slice tag : Nat) : Bool :=
  (tabGet [] s.ul.mshr slice).any (fun m => m.line = tag && m.ops.any (fun o => o.kind = .reduce))
    || (tabGet [] s.ul.inq slice).any (fun o => o.r.line = tag && o.kind = .reduce)

/-- The outcome of the choice of a way. -/
inductive WayChoice
  | way (w : Nat)
  | bypass
  | wait
deriving DecidableEq, Repr

/-- What a persistence may evict (Table 8-2). -/
def mayEvict (p q : Nat) : Bool := decide (q ≤ 1) || (decide (2 ≤ p) && decide (q = 2))

/-- WAYS of a class; 0 acts as 1 (R340). -/
def State.wayShare (s : State) (k : Nat) : Nat := max 1 (s.fld (Fld.RGL_CLASS_WAYS k))

/-- Whether the window's filter keeps a class out (R240). -/
def State.filteredOut (s : State) (w : Option Nat) (k : Nat) : Bool :=
  match w with
  | some w => !s.fbit (Fld.ULC_WIN_CLASS_CLASSES w) k
  | none => false

/-- The way R239 gives a line of window w and class k in a set of a slice. -/
def State.chooseWay (s : State) (slice set : Nat) (w : Option Nat) (k : Nat) : WayChoice :=
  let at? := fun way => tabFind s.ul.lines (lineKey slice set way)
  let filt := s.filteredOut w k
  let pst := if filt then 0 else s.winPersist w
  let usable := (List.range 16).filter (fun way =>
    !s.ul.rowsOff.contains (slice, (rowOf set way).1, (rowOf set way).2))
  let isWin := fun way => match at? way with | some l => decide (l.win = w) | none => false
  let isCls := fun way => match at? way with
    | some l => decide (l.cls = k) && decide (s.linePersist l ≠ 3)
    | none => false
  let isFilt := fun way => match at? way with
    | some l => l.filtered && decide (l.cls = k) && decide (l.win = w)
    | none => false
  let cand := usable.filter (fun way => match at? way with
    | some l => decide (s.linePersist l ≠ 3) && !s.lineHeld slice l.tag
    | none => true)
  let quota := match w with | some w => s.fld (Fld.ULC_WIN_ATTR_QUOTA w) | none => 16
  if w.isSome ∧ quota = 0 then .bypass
  else
    let cand := if w.isSome ∧ quota ≤ ((List.range 16).filter isWin).length then cand.filter isWin else cand
    let share := if pst = 3 then 16 else s.wayShare k
    let cand := if share ≤ ((List.range 16).filter isCls).length then cand.filter isCls else cand
    let cand := if filt ∧ (List.range 16).any isFilt then cand.filter isFilt else cand
    let cand := cand.filter (fun way => match at? way with
      | some l => mayEvict pst (s.linePersist l)
      | none => true)
    match cand.find? (fun way => (at? way).isNone) with
    | some way => .way way
    | none =>
      let per := fun way => match at? way with | some l => s.linePersist l | none => 0
      let least := cand.foldl (fun m way => min m (per way)) 3
      let order := tabGet [] s.ul.lru (slice * 8192 + set)
      match order.reverse.find? (fun way => cand.contains way && decide (per way = least)) with
      | some way => .way way
      | none => if pst = 3 then .wait else .bypass

/-! ## Requests on a line (R236, R237, R248, R249) -/

/-- The sectors of a line as a slice works on them. -/
structure Work where
  valid : BitVec 8
  dirty : BitVec 8
  poison : BitVec 8
  data : BitVec 2048
deriving DecidableEq, Repr

/-- A byte mask as a bit mask. -/
def byteMask (m : BitVec 256) : BitVec 2048 :=
  (List.range 256).foldl (fun acc i => if m.getLsbD i then acc ||| ((0xFF#2048) <<< (8 * i)) else acc) 0#2048

/-- The bytes a request names in sector i. -/
def secBytes (m : BitVec 256) (i : Nat) : BitVec 32 := m.extractLsb' (32 * i) 32

/-- The sectors a byte mask touches. -/
def touched (m : BitVec 256) : BitVec 8 :=
  BitVec.ofNat 8 ((List.range 8).foldl (fun n i => if secBytes m i = 0#32 then n else n + 2 ^ i) 0)

/-- The sectors a byte mask covers whole. -/
def covered (m : BitVec 256) : BitVec 8 :=
  BitVec.ofNat 8 ((List.range 8).foldl (fun n i => if secBytes m i = BitVec.allOnes 32 then n + 2 ^ i else n) 0)

/-- A store into the working line; a sector covered whole is valid and no longer poisoned. -/
def Work.store (w : Work) (r : UlReq) : Work :=
  let bm := byteMask r.bytes
  { valid := w.valid ||| touched r.bytes
    dirty := w.dirty ||| touched r.bytes
    poison := w.poison &&& ~~~(covered r.bytes)
    data := (w.data &&& ~~~bm) ||| (r.data &&& bm) }

def isNan32 (x : Nat) : Bool := decide (x % 2 ^ 31 > 0x7F800000)

/-- FP32 bits in order, −0 below +0. -/
def ord32 (x : Nat) : Int := if x ≥ 2 ^ 31 then -((x % 2 ^ 31 : Nat) : Int) - 1 else (x : Int)

/-- One element of an in-cache reduction (Table 8-4): the code, 16 added for 64-bit AND and OR. -/
def redElem (code e v : Nat) : Nat :=
  match code % 16 with
  | 0 => (e + v) % 2 ^ 32
  | 1 | 2 => (e + v) % 2 ^ 64
  | 3 => if isNan32 v then e else if isNan32 e then v else if ord32 e < ord32 v then v else e
  | 4 => if isNan32 v then e else if isNan32 e then v else if ord32 v < ord32 e then v else e
  | 5 => Nat.land e v
  | 6 => Nat.lor e v
  | _ => e

def UlOp.isRead (o : UlOp) : Bool := o.kind = .read

/-- Bytes of an element of a reduction code. -/
def redSize (code : Nat) : Nat :=
  match code % 16 with
  | 1 | 2 => 8
  | 5 | 6 => if code / 16 = 1 then 8 else 4
  | _ => 4

/-- A reduction on the working line: each masked element of the sectors named. -/
def Work.reduce (w : Work) (r : UlReq) : Work :=
  let sz := redSize r.red
  let bits := 8 * sz
  let data := (List.range (256 / sz)).foldl (fun (d : BitVec 2048) i =>
    if r.bytes.getLsbD (i * sz) then
      let e := d.toNat / 2 ^ (bits * i) % 2 ^ bits
      let v := r.data.toNat / 2 ^ (bits * i) % 2 ^ bits
      BitVec.ofNat 2048 (d.toNat - e * 2 ^ (bits * i) + redElem r.red e v * 2 ^ (bits * i))
    else d) w.data
  { w with data := data, dirty := w.dirty ||| touched r.bytes }

/-- The sectors of a line that lie in recorded dead ranges (R248). -/
def State.deadSectors (s : State) (l : Nat) : BitVec 8 :=
  BitVec.ofNat 8 ((List.range 8).foldl (fun n i =>
    let a := l * 256 + 32 * i
    if s.ul.dead.any (fun d => decide (d.1 ≤ a) && decide (a < d.1 + d.2)) then n + 2 ^ i else n) 0)

/-- Sectors as a 2,048-bit mask. -/
def secMask (m : BitVec 8) : BitVec 2048 :=
  (List.range 8).foldl (fun acc i => if m.getLsbD i then secPut acc i (BitVec.allOnes 256) else acc) 0#2048

/-- The answer to a read: zeros and DEAD_READ in a dead range, else the data with its poison (R248, R257). -/
def State.replyTo (s : State) (w : Work) (r : UlReq) : UlReply :=
  let dead := s.deadSectors r.line &&& r.sectors
  ⟨r.id, r.master, r.line, r.sectors, w.data &&& secMask (r.sectors &&& ~~~dead), w.poison &&& r.sectors &&& ~~~dead, dead⟩

/-- Count a dead read of the window of a line (R248). -/
def State.countDead (s : State) (l : Nat) : State :=
  match s.winAt (l * 256) with
  | some w => s.incFld (Fld.ULC_WIN_STAT_DEAD_READS w)
  | none => s

/-- A reply goes out; a dead one is counted. -/
def State.noteReply (s : State) (r : UlReq) (p : UlReply) : State :=
  let s := if p.dead = 0#8 then s else s.countDead r.line
  { s with ul := { s.ul with out := s.ul.out ++ [p] } }

/-- Requests in the order the slice accepted them (R237). -/
def State.runOps (s : State) (w : Work) : List UlOp → State × Work
  | [] => (s, w)
  | o :: t =>
    match o.kind with
    | .read => State.runOps (s.noteReply o.r (s.replyTo w o.r)) w t
    | .store => State.runOps s (w.store o.r) t
    | .reduce => State.runOps s (w.reduce o.r) t

/-! ## Fills -/

/-- Aligned pairs of sectors (R236). -/
def pairsOf (m : BitVec 8) : BitVec 8 :=
  BitVec.ofNat 8 ((List.range 8).foldl (fun n i =>
    if m.getLsbD (i / 2 * 2) || m.getLsbD (i / 2 * 2 + 1) then n + 2 ^ i else n) 0)

/-- Install the sectors asked that are not valid, from what the channel returned. -/
def Work.install (w : Work) (asked : BitVec 8) (src : Nat → BitVec 256 × Bool) : Work :=
  (List.range 8).foldl (fun (w : Work) i =>
    if asked.getLsbD i && !w.valid.getLsbD i then
      let v := src i
      { w with valid := w.valid ||| BitVec.ofNat 8 (2 ^ i)
               poison := if v.2 then w.poison ||| BitVec.ofNat 8 (2 ^ i) else w.poison &&& ~~~(BitVec.ofNat 8 (2 ^ i))
               data := secPut w.data i v.1 }
    else w) w

/-- The place where a fill of a line goes: while a slice drains, requests that it has accepted end in it (R262, R263). -/
def State.fillPlace (s : State) (l : Nat) : Option Place :=
  (s.home l).map (fun p => match s.ul.drains.find? (fun d => d.buckets.contains (p.half * 256 + p.bucket)) with
    | some d => { p with slice := d.slice }
    | none => p)

/-- Put a worked line where R239 places it: a way, or the channel where it bypasses; none where it must wait. An
unbacked line is nowhere (R261). -/
def State.settle (s : State) (l cls : Nat) (w : Work) : Option State :=
  match s.lineOf l with
  | some (k, ln) =>
    some ((s.setLine k { ln with valid := w.valid, dirty := w.dirty, poison := w.poison, data := w.data }).touch k)
  | none =>
    match s.fillPlace l with
    | none => some s
    | some p =>
      let win := s.winAt (l * 256)
      if !s.isView l && !s.backed l then some s
      else match s.chooseWay p.slice p.set win cls with
      | .wait => none
      | .bypass => some (s.writeSectors l w.dirty w.poison w.data)
      | .way way =>
        let k := lineKey p.slice p.set way
        let filt := s.filteredOut win cls
        let s := s.evict k
        let s := s.setLine k ⟨l, w.valid, w.dirty, w.poison, w.data, win, cls, filt⟩
        some (s.touch k (decide ((if filt then 0 else s.winPersist win) ≠ 0)))

/-- The working copy of a line: its cached sectors, or none. -/
def State.workOf (s : State) (l : Nat) : Work :=
  match s.lineOf l with
  | some (_, ln) => ⟨ln.valid, ln.dirty, ln.poison, ln.data⟩
  | none => ⟨0#8, 0#8, 0#8, 0#2048⟩

/-- A fill of an HBM line, and the requests it answers. -/
def State.fillHbm (s : State) (l cls : Nat) (asked : BitVec 8) (ops : List UlOp) : Option State :=
  let w := (s.workOf l).install (pairsOf asked) (fun i => s.hbmSector (l * 8 + i))
  let (s, w) := s.runOps w ops
  s.settle l cls w

/-- A sector read through its own slice: its data and poison, the line filled. -/
def State.readSector (s : State) (sec cls : Nat) : State × (BitVec 256 × Bool) :=
  match s.lineOf (sec / 8) with
  | some (k, ln) =>
    if ln.valid.getLsbD (sec % 8) then
      (s.touch k, (secGet ln.data (sec % 8), ln.poison.getLsbD (sec % 8)))
    else
      let v := s.hbmSector sec
      ((s.fillHbm (sec / 8) cls (BitVec.ofNat 8 (2 ^ (sec % 8))) []).getD s, v)
  | none =>
    let v := s.hbmSector sec
    ((s.fillHbm (sec / 8) cls (BitVec.ofNat 8 (2 ^ (sec % 8))) []).getD s, v)

/-- One source sector of a view fill, an ordinary read (R244): zeros in a dead range, and counted (R248). -/
def State.sourceSector (s : State) (sec cls : Nat) : State × (BitVec 256 × Bool) :=
  if (s.deadSectors (sec / 8)).getLsbD (sec % 8) then (((s.readSector sec cls).1).countDead (sec / 8), (0#256, false))
  else s.readSector sec cls

/-- Element bits of a view. -/
def State.viewBits (s : State) (w : Nat) : Nat :=
  match s.fld (Fld.ULC_WIN_TSHAPE_ESIZE w) with | 0 => 4 | 1 => 8 | _ => 16

/-- The source base of a view. -/
def State.viewSrc (s : State) (w : Nat) : Nat :=
  (s.fld (Fld.ULC_WIN_TSRC_HI_SRC_HI w)) * 2 ^ 32 + (s.fld (Fld.ULC_WIN_TSRC_LO_SRC_LO w)) * 32

/-- The address of columns 8b to 8b + 7 of row i of a view's source. -/
def State.viewAddr (s : State) (w e b i : Nat) : Nat :=
  s.viewSrc w + i * (s.fld (Fld.ULC_WIN_TSRC_HI_STRIDE32 w) * 32) + 8 * b * e / 8

/-- A row of a view's source joins a line's data and poison: eight elements of e bits from byte o of its sector. -/
def viewPart (e o u : Nat) (v : BitVec 256 × Bool) (acc : BitVec 2048 × BitVec 8) : BitVec 2048 × BitVec 8 :=
  let bits := v.1.toNat / 2 ^ (8 * o)
  ((List.range 8).foldl (fun (d : BitVec 2048) j =>
    d ||| (BitVec.ofNat 2048 (bits / 2 ^ (e * j) % 2 ^ e) <<< (256 * j + e * u))) acc.1, if v.2 then 0xFF#8 else acc.2)

/-- Row i of a view's source, as the part u of a line of 8 columns from 8b on: its elements of e bits go where the line holds
them, and a poisoned sector poisons the line. -/
def State.viewRow (s : State) (w cls e b i u : Nat) (acc : BitVec 2048 × BitVec 8) : State × BitVec 2048 × BitVec 8 :=
  let a := s.viewAddr w e b i
  let r := s.sourceSector (a / 32) cls
  (r.1, viewPart e (a % 32) u r.2 acc)

/-- Part u of a view line, the row from + u of the source; there is nothing beyond the last row. -/
def State.viewStep (w cls e b lo rows : Nat) (acc : State × BitVec 2048 × BitVec 8) (u : Nat) :
    State × BitVec 2048 × BitVec 8 :=
  if rows ≤ lo + u then acc else acc.1.viewRow w cls e b (lo + u) u acc.2

/-- The source sectors that a fill of a view line reads. -/
def State.viewSources (s : State) (w l : Nat) : List Nat :=
  let e := s.viewBits w
  let ne := 256 / e
  let rows := s.fld (Fld.ULC_WIN_TSHAPE_ROWS_M1 w) + 1
  let secs := (rows + ne - 1) / ne
  let off := l * 256 - s.winBase w
  let b := off / 256 / secs
  if (s.fld (Fld.ULC_WIN_TSHAPE_COLS8_M1 w) + 1) * 8 ≤ 8 * b then []
  else ((List.range ne).filter (fun u => ne * (off / 256 % secs) + u < rows)).map
    (fun u => s.viewAddr w e b (ne * (off / 256 % secs) + u) / 32)

/-- The whole of a view line, assembled from its source rows (R243, R244). -/
def State.viewLine (s : State) (w l cls : Nat) : State × BitVec 2048 × BitVec 8 :=
  let e := s.viewBits w
  let ne := 256 / e
  let rows := s.fld (Fld.ULC_WIN_TSHAPE_ROWS_M1 w) + 1
  let cols := (s.fld (Fld.ULC_WIN_TSHAPE_COLS8_M1 w) + 1) * 8
  let secs := (rows + ne - 1) / ne
  let off := l * 256 - s.winBase w
  let b := off / 256 / secs
  let k := off / 256 % secs
  if cols ≤ 8 * b then (s, 0#2048, 0#8)
  else
    (List.range ne).foldl (fun acc u => State.viewStep w cls e b (ne * k) rows acc u) (s, 0#2048, 0#8)

/-- A fill of a line of a view window and the requests it answers. -/
def State.fillView (s : State) (w l cls : Nat) (ops : List UlOp) : Option State :=
  let r := s.viewLine w l cls
  let q := r.1.runOps ((r.1.workOf l).install 0xFF#8 (fun i => (secGet r.2.1 i, r.2.2.getLsbD i))) ops
  q.1.settle l cls q.2

/-- A fill of any line and the requests it answers; none where a resident PIN window's fill must wait (R239). -/
def State.fillLine (s : State) (l cls : Nat) (asked : BitVec 8) (ops : List UlOp) : Option State :=
  if s.isView l then
    match s.winAt (l * 256) with
    | none => some s
    | some w => s.fillView w l cls ops
  else s.fillHbm l cls asked ops

/-! ## Coherent access by the device's own movers -/

/-- Data and poison of a sector as every master sees it. -/
def State.sector (s : State) (sec : Nat) : BitVec 256 × Bool :=
  match s.lineOf (sec / 8) with
  | some (_, ln) =>
    if ln.valid.getLsbD (sec % 8) then (secGet ln.data (sec % 8), ln.poison.getLsbD (sec % 8)) else s.hbmSector sec
  | none => s.hbmSector sec

/-- The sectors that a read of a whole line reads in HBM. -/
def State.readSecs (s : State) (l : Nat) : List Nat :=
  if ¬ s.isView l then (List.range 8).map (fun i => l * 8 + i)
  else
    match s.lineOf l, s.winAt (l * 256) with
    | none, some w => s.viewSources w l
    | _, _ => []

/-- A line's bytes, and whether one is poisoned. -/
def lineOut (x : BitVec 2048 × BitVec 8) : List Byte × Bool := (leBytes 256 x.1.toNat, decide (x.2 ≠ 0#8))

/-- The bytes of a line of HBM, zeros for its dead sectors, and whether a live one is poisoned. -/
def State.hbmOut (s : State) (l : Nat) (dead : BitVec 8) : List Byte × Bool :=
  let live := fun (i : Nat) => !dead.getLsbD i
  ((List.range 8).flatMap (fun i => if live i then leBytes 32 (s.sector (l * 8 + i)).1.toNat else List.replicate 32 0#8),
    (List.range 8).any (fun i => live i && (s.sector (l * 8 + i)).2))

/-- A whole line as a read of the host returns it: its bytes, zeros in a dead range (R248), and whether one is lost. A view
line that is not cached is assembled. -/
def State.readLine (s : State) (l cls : Nat) : State × List Byte × Bool :=
  if s.isView l then
    match s.lineOf l, s.winAt (l * 256) with
    | some (_, ln), _ => (s, lineOut (ln.data, ln.poison))
    | none, some w => let r := s.viewLine w l cls; (r.1, lineOut r.2)
    | none, none => (s, List.replicate 256 0#8, false)
  else (if s.deadSectors l = 0#8 then s else s.countDead l, s.hbmOut l (s.deadSectors l))

/-- The lines of a range, in order. -/
def State.readLines (s : State) (l cls : Nat) : Nat → State × List Byte × Bool
  | 0 => (s, [], false)
  | n + 1 =>
    let x := s.readLines l cls n
    let y := x.1.readLine (l + n) cls
    (y.1, x.2.1 ++ y.2.1, x.2.2 || y.2.2)

/-- Replace a sector where it lives: its cached copy if one is valid, else HBM. -/
def State.putSector (s : State) (sec : Nat) (v : BitVec 256) (poison : Bool) : State :=
  match s.lineOf (sec / 8) with
  | some (k, ln) =>
    if ln.valid.getLsbD (sec % 8) then
      let b := BitVec.ofNat 8 (2 ^ (sec % 8))
      s.setLine k { ln with data := secPut ln.data (sec % 8) v, dirty := ln.dirty ||| b,
                            poison := if poison then ln.poison ||| b else ln.poison &&& ~~~b }
    else s.hbmPutSector sec v poison
  | none => s.hbmPutSector sec v poison

/-- The byte at an address. -/
def State.devByte (s : State) (a : Nat) : Byte := (s.sector (a / 32)).1.extractLsb' (8 * (a % 32)) 8

/-- n bytes from an address. -/
def State.devRead (s : State) (a n : Nat) : List Byte := (List.range n).map (fun i => s.devByte (a + i))

/-- Whether any sector of a range is poisoned. -/
def State.devPoison (s : State) (a n : Nat) : Bool :=
  (List.range ((a + n + 31) / 32 - a / 32)).any (fun i => (s.sector (a / 32 + i)).2)

/-- Write bytes from an address, sector by sector; the fuel is the number of sectors. A store that covers a whole
sector ends its poison. -/
def State.devWriteGo : Nat → State → Nat → List Byte → State
  | 0, s, _, _ => s
  | n + 1, s, a, bs =>
    match bs with
    | [] => s
    | _ =>
      let o := a % 32
      let m := min bs.length (32 - o)
      let old := s.sector (a / 32)
      let v := (leBytes 32 old.1.toNat).take o ++ bs.take m ++ (leBytes 32 old.1.toNat).drop (o + m)
      State.devWriteGo n (s.putSector (a / 32) (BitVec.ofNat 256 (leNat v)) (old.2 && decide (m < 32))) (a + m)
        (bs.drop m)

def State.devWrite (s : State) (a : Nat) (bs : List Byte) : State := State.devWriteGo (bs.length / 32 + 2) s a bs

/-- The little-endian number at an address. -/
def State.devNat (s : State) (a n : Nat) : Nat := leNat (s.devRead a n)

/-! ## Arbitration at slices and at the equator (R339) -/

/-- Bytes a request asks of a port. -/
def UlOp.bytes (o : UlOp) : Nat :=
  let m := if o.kind = .read then o.r.sectors else touched o.r.bytes
  32 * ((List.range 8).filter (fun i => m.getLsbD i)).length

def State.point (s : State) (i : Nat) : UlPoint := tabGet emptyPoint s.ul.points i

def State.setPoint (s : State) (i : Nat) (p : UlPoint) : State :=
  { s with ul := { s.ul with points := tabPut emptyPoint s.ul.points i p } }

def State.inPoint (s : State) (i : Nat) (o : UlOp) : State := s.setPoint i ((s.point i).arrive o)

/-- The resource of a point at a slice or at the equator, and its grant unit; at the equator that is one request, at most a
line. -/
def pointRes (i : Nat) : Nat × Nat := if i < 256 then (0, 128) else (2, 256)

/-- One grant cycle at a point among the waiting requests that may go: the request granted leaves the point. -/
def State.grant (s : State) (i : Nat) (may : UlOp → Bool) : State × Option UlOp :=
  let r := pointRes i
  match s.cycle r.1 r.2 (s.point i) may UlOp.bytes with
  | (p, none) => (s.setPoint i p, none)
  | (p, some o) =>
    ((s.setPoint i { p with waiting := dropFirst (fun q => q = o) p.waiting }).noteServed o.r.master r.1 o.bytes, some o)

/-! ## Arbitration at a channel controller (R339) -/

/-- The lowest sector of a mask left out. -/
def dropLowest (m : BitVec 8) : BitVec 8 := m &&& (m - 1#8)

/-- What is left of a channel request once a clock has moved 64 B of it. -/
def UlOp.rest (o : UlOp) : UlOp := { o with r := { o.r with sectors := dropLowest (dropLowest o.r.sectors) } }

/-- The sectors of a line asked of its channel controller, for the master and with the class of the request that causes it. -/
def State.askChannel (s : State) (r : UlReq) (sectors : BitVec 8) : State :=
  match s.place r.line with
  | some p =>
    if sectors = 0#8 ∨ s.isView r.line then s
    else s.setRglPoint (chanPoint p.ch) ((s.rglPoint (chanPoint p.ch)).arrive
      ⟨.read, ⟨r.id, r.master, r.cls, r.line, sectors, 0#2048, 0#256, 0⟩⟩)
  | none => s

/-- One clock of a channel controller: 64 B of a request. -/
def State.channelClock (s : State) (ch : Nat) : State :=
  match s.cycle 1 64 (s.rglPoint (chanPoint ch)) (fun _ => true) (fun o => min 64 o.bytes) with
  | (p, none) => s.setRglPoint (chanPoint ch) p
  | (p, some o) =>
    let w := if o.rest.r.sectors = 0#8 then dropFirst (fun q => q = o) p.waiting
      else modFirst (fun q => q = o) UlOp.rest p.waiting
    (s.setRglPoint (chanPoint ch) { p with waiting := w }).noteServed o.r.master 1 (min 64 o.bytes)

/-- Clocks of a channel controller until none of the requests named waits there; none where the fuel ends first. -/
def State.channelRun (s : State) (ch : Nat) (mine : UlOp → Bool) : Nat → Option State
  | 0 => if (s.rglPoint (chanPoint ch)).waiting.any mine then none else some s
  | n + 1 =>
    if (s.rglPoint (chanPoint ch)).waiting.any mine then (s.channelClock ch).channelRun ch mine n else some s

/-- The channel of a line serves the requests named; none where regulation never lets them go (weight 0 and a guarantee whose
capped credit is below a unit). In 64 clocks any other master gathers the credit of a unit. -/
def State.channelTurn (s : State) (line : Nat) (mine : UlOp → Bool) : Option State :=
  match s.place line with
  | some p =>
    let units := ((s.rglPoint (chanPoint p.ch)).waiting.map (fun o => (o.bytes + 63) / 64)).sum
    s.channelRun p.ch mine (64 * units)
  | none => some s

/-! ## Miss-status entries and input queues (R236, R341) -/

def State.mshrOf (s : State) (slice : Nat) : List Mshr := tabGet [] s.ul.mshr slice

def State.setMshr (s : State) (slice : Nat) (l : List Mshr) : State :=
  { s with ul := { s.ul with mshr := tabPut [] s.ul.mshr slice l } }

def State.inqOf (s : State) (slice : Nat) : List UlOp := tabGet [] s.ul.inq slice

def State.setInq (s : State) (slice : Nat) (l : List UlOp) : State :=
  { s with ul := { s.ul with inq := tabPut [] s.ul.inq slice l } }

/-- Whether a class finds a reserved or a shared unit: `rsv` the reservations, `used` the units each class holds. -/
def rsvFree (total : Nat) (rsv used : Nat → Nat) (k : Nat) : Bool :=
  let sum := (List.range 16).foldl (fun n j => n + rsv j) 0
  let shared := (List.range 16).foldl (fun n j => n + (used j - rsv j)) 0
  decide (used k < rsv k) || decide (shared < total - sum)

def State.mshrFree (s : State) (slice k : Nat) : Bool :=
  rsvFree 256 (fun j => s.fld (Fld.RGL_CLASS_MSHR_RSV j))
    (fun j => ((s.mshrOf slice).filter (fun m => m.cls = j)).length) k

def State.inqFree (s : State) (slice k : Nat) : Bool :=
  rsvFree 128 (fun j => s.fld (Fld.RGL_CLASS_QSLOT_RSV j))
    (fun j => ((s.inqOf slice).filter (fun o => o.r.cls = j)).length) k

/-- Open or merge a miss-status entry for a request (R236), the sectors it adds asked of the line's channel: none where it
must wait. -/
def State.missReq (s : State) (slice : Nat) (o : UlOp) (need : BitVec 8) : Option State :=
  let l := s.mshrOf slice
  match l.find? (fun m => m.line = o.r.line) with
  | some m =>
    if m.ops.length < 64 then
      some ((s.setMshr slice (modFirst (fun m => m.line = o.r.line)
        (fun m => { m with asked := m.asked ||| need, ops := m.ops ++ [o] }) l)).askChannel o.r (need &&& ~~~m.asked))
    else none
  | none =>
    if s.mshrFree slice o.r.cls then
      some ((s.setMshr slice (l ++ [⟨o.r.line, o.r.cls, need, [o], false⟩])).askChannel o.r need)
    else none

/-- Whether every usable way of a reduction's set is held (R250). -/
def State.allHeld (s : State) (p : Place) : Bool :=
  (List.range 16).all (fun way =>
    s.ul.rowsOff.contains (p.slice, (rowOf p.set way).1, (rowOf p.set way).2) ||
    (match tabFind s.ul.lines (lineKey p.slice p.set way) with
     | some l => s.lineHeld p.slice l.tag
     | none => false))

/-- The sectors of a request the line lacks: sectors read or reduced and not valid, or stored in part and not valid. -/
def UlOp.lacks (o : UlOp) (valid : BitVec 8) : BitVec 8 :=
  match o.kind with
  | .read => o.r.sectors &&& ~~~valid
  | .store => touched o.r.bytes &&& ~~~(covered o.r.bytes) &&& ~~~valid
  | .reduce => touched o.r.bytes &&& ~~~valid

/-- A slice takes a granted request (R236, R237, R249, R250): served at once, or merged into or given a miss-status
entry; none where it must wait in the input queue. A store or reduction into a view has no effect here (R244); a read of an
unbacked line returns POISON, a store to one is discarded (R261). -/
def State.takeReq (s : State) (p : Place) (o : UlOp) : Option State :=
  if s.isView o.r.line ∧ ¬ o.isRead then some s
  else if !s.isView o.r.line && !s.backed o.r.line then
    some (if o.isRead then s.noteReply o.r (s.replyTo ⟨0xFF#8, 0#8, 0xFF#8, 0#2048⟩ o.r) else s)
  else
    let w := s.workOf o.r.line
    let ent := (s.mshrOf p.slice).find? (fun m => m.line = o.r.line)
    let ordered := match ent with
      | some m => !o.isRead || m.ops.any (fun q => !q.isRead)
      | none => false
    if ordered then s.missReq p.slice o (o.lacks w.valid)
    else if o.lacks w.valid = 0#8 ∧ ((s.lineOf o.r.line).isSome ∨ o.kind = UlKind.store) then
      let (s', w') := s.runOps w [o]
      s'.settle o.r.line o.r.cls w'
    else
      match s.missReq p.slice o (o.lacks w.valid) with
      | none => none
      | some s' =>
        if o.kind = UlKind.reduce ∧ ent.isNone ∧ (s.lineOf o.r.line).isNone ∧ s.allHeld p then
          some (s'.setMshr p.slice (modFirst (fun m => m.line = o.r.line) (fun m => { m with falling := true })
            (s'.mshrOf p.slice)))
        else some s'

/-- Queued requests that can now proceed, in order, those of one line in the order they came; other classes pass one
that waits (R237, R341). -/
def State.retryInq (s : State) (slice : Nat) : List UlOp → State
  | [] => s
  | o :: t =>
    let q := s.inqOf slice
    let rest := s.setInq slice (dropFirst (fun x => x = o) q)
    match s.home o.r.line with
    | none => rest.retryInq slice t
    | some p =>
      if (q.takeWhile (fun x => x ≠ o)).any (fun x => x.r.line = o.r.line) then s.retryInq slice t
      else
        match rest.takeReq { p with slice := slice } o with
        | some s' => s'.retryInq slice t
        | none => s.retryInq slice t

/-- Run the input queue of a slice again. -/
def State.drainInq (s : State) (slice : Nat) : State := s.retryInq slice (s.inqOf slice)

/-! ## Retirement of slices (R261, R262, Table 8-7) -/

def State.sliceState (s : State) (x : Nat) : Nat := s.fld (Fld.ULC_SLICE_STATE x)

/-- Slices in service of a half. -/
def State.slicesIn (s : State) (h : Nat) : List Nat :=
  (List.range 64).map (fun i => 64 * h + i) |>.filter (fun x => s.sliceState x = 0)

def State.setBuckets (s : State) (x n : Nat) : State := s.setFld (Fld.ULC_SLICE_BUCKETS x) n

/-- The slice of a half with the fewest buckets, the lowest-numbered among equals. -/
def State.fewestBuckets (s : State) (h : Nat) : Option Nat :=
  bestBy (fun x => -Int.ofNat (s.fld (Fld.ULC_SLICE_BUCKETS x))) (s.slicesIn h)

/-- One bucket moves from a slice to the one with the fewest. -/
def State.moveBucket (s : State) (h x b : Nat) : State :=
  match s.fewestBuckets h with
  | none => s
  | some y =>
    let s := s.setBkt h b (s.bkt h b).1 y
    (s.setBuckets y (s.fld (Fld.ULC_SLICE_BUCKETS y) + 1)).setBuckets x (s.fld (Fld.ULC_SLICE_BUCKETS x) - 1)

/-- The buckets of a slice. -/
def State.bucketsOf (s : State) (x : Nat) : List Nat :=
  (List.range 256).filter (fun b => (s.bkt (x / 64) b).1 && (s.bkt (x / 64) b).2 = x)

/-- R421: too few slices or channels in a half fail the device. -/
def State.checkSlices (s : State) : State :=
  let few := fun h => decide ((s.slicesIn h).length < 48) ||
    decide (((List.range 64).filter (fun i =>
      !s.fbit (Fld.ULC_CHAN_RET_RETIRED (2 * h + i / 32)) (i % 32))).length < 48)
  if s.dstate ≠ DS.FAILED ∧ (few 0 ∨ few 1) then s.failDevice Ev.SLICE_RETIRED else s

/-- A slice is retired (steps 1 and 2 of Table 8-7): its buckets move, the epoch advances; CAUSE is that of
ULC_SLICE_s. Requests to the buckets are held until the drain completes. -/
def State.retireSlice (s : State) (x cause causeEv : Nat) : State :=
  if s.sliceState x ≠ 0 then s
  else
    let bs := s.bucketsOf x
    let s := (s.setFld (Fld.ULC_SLICE_STATE x) 1).setFld (Fld.ULC_SLICE_CAUSE x) cause
    let s := bs.foldl (fun s b => s.moveBucket (x / 64) x b) s
    let s := s.setFld Fld.ULC_MAP_EPOCH (s.fld Fld.ULC_MAP_EPOCH + 1)
    let s := s.setFld Fld.ULC_MAP_SLICES (s.fld Fld.ULC_MAP_SLICES - 1)
    { s with ul := { s.ul with
        drains := s.ul.drains ++ [⟨x, causeEv, bs.map (fun b => x / 64 * 256 + b)⟩]
        rowJobs := s.ul.rowJobs.filter (fun j => j.1 ≠ x) } }

/-- The keys of a slice's lines. -/
def State.keysOf (s : State) (x : Nat) : List Nat :=
  (s.ul.lines.filter (fun e => keySlice e.1 = x)).map (·.1)

/-- A request arrives at the point of its line's slice. -/
def State.atPort (s : State) (o : UlOp) : State :=
  match s.home o.r.line with
  | some p => s.inPoint (pointNo p.slice (!o.isRead)) o
  | none => s

/-- Whether a master's request crosses to the other half: a cluster's to a slice that is not of its own, and whatever a slice
sends there (Table 11-1). Clusters 0 to 7 stand over half 0. -/
def crosses (m half : Nat) : Bool := if m < 16 then m / 8 ≠ half else m = 21

/-- A request is issued: to the equator link where it crosses, else to its slice. -/
def State.submit (s : State) (o : UlOp) : State :=
  match s.home o.r.line with
  | some p => if crosses o.r.master p.half then s.inPoint (eqPoint p.half) o else s.atPort o
  | none => s

/-- Requests that waited for a slice go to the points of their lines' new slices, in order (R262); the scrubber's visit of
the slice that is gone is dropped. -/
def State.rehome (s : State) (x : Nat) : State :=
  let l := (s.point (pointNo x false)).waiting ++ (s.point (pointNo x true)).waiting
  let s := (s.setPoint (pointNo x false) { s.point (pointNo x false) with waiting := [] }).setPoint (pointNo x true)
    { s.point (pointNo x true) with waiting := [] }
  (l.filter (fun o => o.r.master ≠ 20)).foldl (fun s o => s.atPort o) s

/-- Steps 4 and 5: the slice is retired, its held requests go on; the recompute is due, and after it the record. -/
def State.endRetire (s : State) (x : Nat) : State :=
  match s.ul.drains.find? (fun d => d.slice = x) with
  | none => s
  | some d =>
    let s := (s.setFld (Fld.ULC_SLICE_STATE x) 2).setBit (Fld.ULC_SLICE_RET_RETIRED (x / 32)) (x % 32)
    let s := s.raise Fld.ULC_EVENTS_SLICE_RETIRED
    let s := { s with ul := { s.ul with
        drains := s.ul.drains.filter (fun d => d.slice ≠ x)
        corrLog := tabErase s.ul.corrLog x
        pinDue := true
        retirements := s.ul.retirements ++ [(x, d.cause)] } }
    (s.rehome x).checkSlices

/-- Step 7: the record and the defect list entry of each retired slice. -/
def State.journalRetirements (s : State) : State :=
  let l := s.ul.retirements
  let s := { s with ul := { s.ul with retirements := [] } }
  l.foldl (fun s e =>
    (s.event Ev.SLICE_RETIRED e.1 e.2).addDefect 0x04 (e.1 + s.fld (Fld.ULC_SLICE_CAUSE e.1) * 2 ^ 40) Ev.SLICE_RETIRED) s

/-- Spare rows of a die of a slice in use, or being steered in. -/
def State.sparesUsed (s : State) (slice die : Nat) : Nat :=
  ((s.defectsOf 0x08).filter (fun u => u % 128 = slice && decide (u / 256 % 2 = die))).length
    + (s.ul.rowJobs.filter (fun j => j.1 = slice && j.2.1 = die)).length

/-- The lines of a row are written back and dropped, its positions taken out of use. -/
def State.rowOut (s : State) (slice die row : Nat) : State :=
  let ks := (s.keysOf slice).filter (fun k => rowOf (keySet k) (keyWay k) = (die, row))
  let s : State := ks.foldl (fun (s : State) k => s.evict k) s
  { s with ul := { s.ul with rowsOff := s.ul.rowsOff ++ [(slice, die, row)], pinDue := true } }

/-- A row's four way positions are disabled (R255); more than 64 disabled rows retire the slice. -/
def State.disableRow (s : State) (slice die row : Nat) : State :=
  let u := unitRow slice die row
  let s := ((s.rowOut slice die row).incFld (Fld.ULC_SLICE_DISABLED slice)).raise Fld.ULC_EVENTS_ROW_REPLACED
  let s := (s.event Ev.UL_ROW_DISABLED u).addDefect 0x09 u Ev.UL_ROW_DISABLED
  if 64 < s.fld (Fld.ULC_SLICE_DISABLED slice) then s.retireSlice slice 3 Ev.UL_ROW_DISABLED else s

/-- A row is replaced from the die's 128 spares, or disabled (R254, R255). -/
def State.replaceRow (s : State) (slice die row : Nat) : State :=
  if s.ul.rowJobs.contains (slice, die, row) ∨ s.ul.rowsOff.contains (slice, die, row) then s
  else if s.sparesUsed slice die < 128 then
    { s with ul := { s.ul with rowJobs := s.ul.rowJobs ++ [(slice, die, row)] } }
  else s.disableRow slice die row

/-- A request held at its requester: its bucket moves from a slice that still drains (R262), or a group of its slice is
under wire test (R25). -/
def State.heldBucket (s : State) (p : Place) : Bool :=
  s.ul.drains.any (fun d => d.buckets.contains (p.half * 256 + p.bucket))
    || s.stack.vifUnderTest.any (fun g => g.2 / 76 = p.slice)

/-! ## PIN residency (R241) -/

/-- Lines of a window that map to a set of a slice, counted from R232. -/
def State.pinCount (s : State) (w slice set : Nat) : Nat :=
  let c := s.ul.chans.length
  if c = 0 then 0
  else
    let n := 4 * c
    let l0 := if s.flag (Fld.ULC_WIN_ATTR_TRANSPOSE w) then 0 else s.winBase w / 256
    let l1 := l0 + s.winSize w / 256
    let h := slice / 64
    (s.bucketsOf slice).foldl (fun sum b =>
      let ch := 64 * h + b / 4
      let q := b % 4
      let i0 := s.ul.chans.idxOf ch
      if i0 < c then
        let first := l0 / n + (set + 8192 * 2 - (l0 / n + 2048 * q) % 8192) % 8192
        (List.range (((l1 - 1) / n - l0 / n) / 8192 + 1)).foldl (fun sum t =>
          let r := first + 8192 * t
          let p := q * c + i0
          let l := r * n + (p + n * 65536 - mix r) % n
          if r ≤ maxRow ∧ l0 ≤ l ∧ l < l1 then sum + 1 else sum) sum
      else sum) 0

/-- Usable ways of a set. -/
def State.usableWays (s : State) (slice set : Nat) : Nat :=
  ((List.range 16).filter (fun way => !s.ul.rowsOff.contains (slice, (rowOf set way).1, (rowOf set way).2))).length

/-- Whether a PIN window fits beside those admitted, in every set of every slice in service. -/
def State.pinFits (s : State) (adm : List Nat) (w : Nat) : Bool :=
  (s.slicesIn 0 ++ s.slicesIn 1).all (fun slice => (List.range 8192).all (fun set =>
    let n := s.pinCount w slice set
    decide (n ≤ s.fld (Fld.ULC_WIN_ATTR_QUOTA w)) &&
    decide (adm.foldl (fun sum v => sum + s.pinCount v slice set) n ≤ s.usableWays slice set - 1)))

/-- The windows admitted, in ascending number. -/
def State.pinAdmit (s : State) : List Nat :=
  ((List.range 32).filter (fun w => s.winValid w && s.fld (Fld.ULC_WIN_ATTR_PERSIST w) = 3)).foldl
    (fun adm w => if s.pinFits adm w then adm ++ [w] else adm) []

/-- The recompute: PIN_STATE of every window; a change is journalled, a demotion sets PIN_LOST. Windows are admitted in
ascending number, and demoted in descending number (R263). At a start the first decision of a window that fits is no
re-admission. -/
def State.pinRecompute (s : State) (start : Bool) : State :=
  let adm := s.pinAdmit
  let s := (List.range 32).foldl (fun s w =>
    if s.winValid w && s.fld (Fld.ULC_WIN_ATTR_PERSIST w) = 3 then
      if adm.contains w then
        let old := s.fld (Fld.ULC_WIN_STAT_PIN_STATE w)
        let s' := s.setFld (Fld.ULC_WIN_STAT_PIN_STATE w) 1
        if old = 2 ∧ ¬ start then s'.event Ev.PIN_READMITTED w else s'
      else s
    else s.setFld (Fld.ULC_WIN_STAT_PIN_STATE w) 0) s
  (List.range 32).reverse.foldl (fun s w =>
    if s.winValid w && s.fld (Fld.ULC_WIN_ATTR_PERSIST w) = 3 && !adm.contains w then
      let old := s.fld (Fld.ULC_WIN_STAT_PIN_STATE w)
      let s' := s.setFld (Fld.ULC_WIN_STAT_PIN_STATE w) 2
      if old = 2 then s' else (s'.raise Fld.ULC_EVENTS_PIN_LOST).event Ev.PIN_DEMOTED w
    else s) s

/-! ## Range operations (R245 to R248) -/

/-- The keys of cached lines in a range. -/
def State.keysIn (s : State) (base size : Nat) : List Nat :=
  (s.ul.lines.filter (fun e => decide (base / 256 ≤ e.2.tag) && decide (e.2.tag < (base + size) / 256))).map (·.1)

/-- Whether a range has a held line (R246), or one whose open miss-status entry has accepted a store. -/
def State.rangeHeld (s : State) (base size : Nat) : Bool :=
  let inside := fun l => decide (base / 256 ≤ l) && decide (l < (base + size) / 256)
  s.ul.mshr.any (fun e => e.2.any (fun m => m.ops.any (fun o => !o.isRead) && inside m.line))
    || s.ul.inq.any (fun e => e.2.any (fun o => decide (o.kind = .reduce) && inside o.r.line))

/-- Whether view windows cover a range from a to e; the fuel is the number of windows. -/
def State.viewCovered (s : State) : Nat → Nat → Nat → Bool
  | 0, a, e => decide (e ≤ a)
  | n + 1, a, e =>
    if e ≤ a then true
    else
      match s.winAt a with
      | some w => s.flag (Fld.ULC_WIN_ATTR_TRANSPOSE w) && s.viewCovered n (s.winBase w + s.winSize w) e
      | none => false

/-- Base and size are multiples of 256, the size is not zero, every line lies in HBM or in a view window; DEAD and LIVE
name a range within one window. -/
def State.rangeOk (s : State) (op base size : Nat) : Bool :=
  decide (base % 256 = 0) && decide (size % 256 = 0) && decide (size > 0) && decide (op ≤ 4) &&
  (decide (base + size ≤ s.hbmBytes) ||
    (decide (viewBase ≤ base) && decide (base + size ≤ viewEnd) && s.viewCovered 32 base (base + size))) &&
  (decide (op < 3) || ((s.winAt base).isSome && s.winAt base = s.winAt (base + size - 1)))

/-- PREFETCH of one line: filled under R239, never bypassing; a line that an open miss-status entry fills needs none. -/
def State.prefetchLine (s : State) (l cls : Nat) : State :=
  match s.lineOf l, s.fillPlace l with
  | none, some p =>
    if (s.mshrOf p.slice).any (fun m => m.line = l) then s
    else
      match s.chooseWay p.slice p.set (s.winAt (l * 256)) cls with
      | .way _ => (s.fillLine l cls 0xFF#8 []).getD s
      | _ => s
  | _, _ => s

/-- The dead-range table without a range (LIVE). -/
def deadMinus (base size : Nat) : List (Nat × Nat) → List (Nat × Nat)
  | [] => []
  | (b, n) :: t =>
    let lo := if b < base then [(b, min n (base - b))] else []
    let hi := if base + size < b + n then [(max b (base + size), b + n - max b (base + size))] else []
    (if base + size ≤ b ∨ b + n ≤ base then [(b, n)] else lo ++ hi) ++ deadMinus base size t

def State.setDead (s : State) (l : List (Nat × Nat)) : State :=
  ({ s with ul := { s.ul with dead := l } }).setFld Fld.ULC_DEAD_ENTRIES l.length

/-- A range that finds the table full is written to zeros instead (R248). -/
def State.deadOverflow (s : State) (w base size : Nat) : State :=
  let s := (List.range (size / 32)).foldl (fun s i => s.hbmPutSector (base / 32 + i) 0#256 false) s
  ((s.incFld Fld.ULC_DEAD_OVERFLOWS).raise Fld.ULC_EVENTS_DEAD_OVERFLOW).event Ev.DEAD_OVERFLOW w

/-- DEAD: lines dropped without write-back; in a strict-dead window the range is recorded, or, with the table full,
written to zeros (R248). -/
def State.deadRange (s : State) (base size : Nat) : State :=
  let s := (s.keysIn base size).foldl (fun s k => s.dropLine k) s
  match s.winAt base with
  | none => s
  | some w =>
    if s.flag (Fld.ULC_WIN_ATTR_STRICT_DEAD w) then
      if s.ul.dead.length < 64 then s.setDead (s.ul.dead ++ [(base, size)])
      else s.deadOverflow w base size
    else s

/-- LIVE: the range leaves the table of a strict-dead window. The rest of a range recorded wider stays recorded; where
that needs more entries than 64, it is written to zeros as with a full table (DEDUCED). -/
def State.liveRange (s : State) (base size : Nat) : State :=
  match s.winAt base with
  | none => s
  | some w =>
    if s.flag (Fld.ULC_WIN_ATTR_STRICT_DEAD w) then
      let l := deadMinus base size s.ul.dead
      (l.drop 64).foldl (fun s d => s.deadOverflow w d.1 d.2) (s.setDead (l.take 64))
    else s

/-- The effect of a range operation on each line of its range (Table 8-3). -/
def State.applyRange (s : State) (op base size cls : Nat) : State :=
  match op with
  | 0 => (List.range (size / 256)).foldl (fun s i => s.prefetchLine (base / 256 + i) cls) s
  | 1 => (s.keysIn base size).foldl (fun s k => s.writeBack k) s
  | 2 => (s.keysIn base size).foldl (fun s k => s.evict k) s
  | 3 => s.deadRange base size
  | _ => s.liveRange base size

end Sys2Proof.Machine
end

