-- ==== Sys2Proof/Machine/KvOps.lean ====
section
/-! DEFINITION. The KV ledger (07_kv_ledger.md): shapes, the buddy allocator, references, reservation, pre-emption,
swap, faults and the end of sequence commands. -/

namespace Sys2Proof.Machine

/-! ## KV shapes (R200, R201) -/

/-- A pipeline's KV shape as R200 derives it. -/
structure Shape where
  layers : Nat
  heads : Nat
  dim : Nat
  e : Nat
  dimMajor : Bool
  tl : Nat
  t : Nat
  lt2 : Nat
  minClass : Nat
deriving DecidableEq, Repr

/-- ⌈log2 n⌉. -/
def clog2 (n : Nat) : Nat := if n ≤ 1 then 0 else Nat.log2 (n - 1) + 1

/-- The shape of a KVL_SHAPE_Pp value; MIN_CLASS is derived. -/
def shapeOf (w : W32) : Shape :=
  let layers := bitsOf w 31 24
  let heads := bitsOf w 23 18 + 1
  let dim := 32 * 2 ^ bitsOf w 17 16
  let e := if bitsOf w 15 14 = 2 then 2 else 1
  let tl := 2 * heads * dim * e
  let lt2 := clog2 (layers * tl)
  ⟨layers, heads, dim, e, bitsOf w 13 13 = 1, tl, layers * tl, lt2, lt2 - 14⟩

def State.shape (s : State) (p : Nat) : Shape := shapeOf (s.regAt (Off.KVL_SHAPE p))

/-- Whether a pipeline keeps KV state. -/
def State.keepsKv (s : State) (p : Nat) : Bool := s.fld (Fld.KVL_SHAPE_LAYERS p) ≠ 0

/-- TPP(c): positions of a page of class c (R201). -/
def Shape.tpp (h : Shape) (c : Nat) : Nat := 2 ^ (c + 14 - h.lt2)

/-! ## Pages of a sequence (R206, R207) -/

/-- The class of page i. -/
def Seq.pageClass (q : Seq) (i : Nat) : Nat := if i < 2 then q.first else min (q.first + i - 1) q.max

/-- i(p): the page of position p. -/
def pageIndex (t tm k p : Nat) : Nat :=
  if p < t then 0 else if p < 2 * tm then 1 + Nat.log2 (p / t) else k + p / tm

def Seq.pageOf (q : Seq) (h : Shape) (p : Nat) : Nat :=
  pageIndex (h.tpp q.first) (h.tpp q.max) (q.max - q.first) p

/-- The first position of page i. -/
def Seq.pageFirst (q : Seq) (h : Shape) (i : Nat) : Nat :=
  if i = 0 then 0
  else if i ≤ q.max - q.first + 1 then h.tpp q.first * 2 ^ (i - 1)
  else (i - (q.max - q.first)) * h.tpp q.max

/-- Pages a sequence of a length holds. -/
def Seq.pagesFor (q : Seq) (h : Shape) (len : Nat) : Nat := if len = 0 then 0 else q.pageOf h (len - 1) + 1

/-- First and maximum class of a new sequence (R206): a and m. -/
def State.seqClasses (s : State) (h : Shape) (hint req : Nat) : Nat × Nat :=
  let req := if req = 15 then min 10 (s.fld Fld.KVL_CTL_DEF_MAX_CLASS) else req
  let m := max h.minClass (min 10 req)
  let a := Nat.log2 (max 1 (hint / 8)) + h.lt2 - 14
  (max h.minClass (min m a), m)

/-! ## The buddy lists (R204) -/

/-- Lowest free block of exactly class k. -/
def lowestOf (f : Tab Nat) (k : Nat) : Option Nat := (f.find? (fun e => e.2 = k)).map (·.1)

/-- The smallest class at or above c with a free block, and its lowest block. -/
def smallestFit (f : Tab Nat) (c : Nat) : Option (Nat × Nat) :=
  (List.range 11).findSome? (fun k => if k < c then none else (lowestOf f k).map (fun u => (u, k)))

/-- Take a block of class c: the lower half kept at each split, the upper halves returned. -/
def buddyTake (f : Tab Nat) (c : Nat) : Option (Nat × Tab Nat) :=
  match smallestFit f c with
  | none => none
  | some (u, k) =>
    some (u, (List.range (k - c)).foldl (fun f j => tabInsert f (u + 2 ^ (c + j)) (c + j)) (tabErase f u))

/-- Free a block; it merges with its buddy whenever the buddy is free. The fuel is the classes above. -/
def buddyFreeGo : Nat → Tab Nat → Nat → Nat → Tab Nat
  | 0, f, u, c => tabInsert f u c
  | n + 1, f, u, c =>
    let b := u ^^^ 2 ^ c
    if c < 10 ∧ tabFind f b = some c then buddyFreeGo n (tabErase f b) (min u b) (c + 1) else tabInsert f u c

def buddyFree (f : Tab Nat) (u c : Nat) : Tab Nat := buddyFreeGo 11 f u c

/-- Take a block of each class of a list, or none. -/
def buddyTakeAll : Tab Nat → List Nat → Option (List (Nat × Nat) × Tab Nat)
  | f, [] => some ([], f)
  | f, c :: t =>
    match buddyTake f c with
    | none => none
    | some (u, f') =>
      match buddyTakeAll f' t with
      | none => none
      | some (l, f'') => some ((u, c) :: l, f'')

/-- Whole 16 MiB blocks, all free. -/
def buddyInit (blocks : Nat) : Tab Nat := (List.range blocks).map (fun i => (1024 * i, 10))

/-! ## Where the ledger's data lies (R203, R205) -/

/-- Word k of the image's DEVICE record (Table 13-5). -/
def State.deviceWord (s : State) (k : Nat) : W64 :=
  match s.flash.startImage with
  | none => 0#64
  | some i =>
    match (i.sections.flatMap (fun x => x.records)).find? (fun r => r.type = 0x0001) with
    | some r => r.body.getD (k - 1) 0#64
    | none => 0#64

/-- Bytes of a pool unit. -/
def unitBytes : Nat := 16384

/-- POOL_BASE, and the device address of a pool unit. -/
def State.poolBase (s : State) : Nat := (s.deviceWord 4).toNat
def State.unitAddr (s : State) (u : Nat) : Nat := s.poolBase + u * unitBytes

/-- The metadata window: the first of the DEVICE owner, PIN and STRONG that holds 4 MiB and 4 KiB for each pool block
(DEDUCED, entry 132). -/
def State.metaWin (s : State) : Option Nat :=
  (List.range 32).find? (fun w => s.winValid w && s.fld (Fld.ULC_WIN_ATTR_OWNER w) = 0 && s.fld (Fld.ULC_WIN_ATTR_PERSIST w) = 3
    && s.fld (Fld.ULC_WIN_ATTR_CODE w) = 1
    && decide (4194304 + 4096 * s.fld Fld.KVL_POOL_BLOCKS ≤ s.winSize w))

/-- A reference entry as its 32 bits. -/
def PageRef.word (r : PageRef) : W32 := BitVec.ofNat 32 (b2n r.poison * 2 ^ 31 + b2n (r.source ≠ 0) * 2 ^ 30 + r.refs % 2 ^ 16)

/-- A page entry as its 64 bits (Table 7-3). -/
def PageEntry.word (e : PageEntry) : W64 :=
  BitVec.ofNat 64 (e.unit * 2 ^ 37 + e.cls * 2 ^ 33 + b2n e.swapped * 2 ^ 32 + e.crc.toNat)

/-- The reference table, after the sequence table in the window, takes a unit's entry. -/
def State.writeRef (s : State) (u : Nat) (w : W32) : State :=
  match s.metaWin with
  | some m => s.devWrite (s.winBase m + 4194304 + 4 * u) (leBytes 4 w.toNat)
  | none => s

/-- A list page takes the entries of its sequence. -/
def State.writeList (s : State) (list : Option Nat) (pages : List PageEntry) : State :=
  match list with
  | some u => s.devWrite (s.unitAddr u) (pages.flatMap (fun e => leBytes 8 e.word.toNat))
  | none => s

/-! ## The ledger's registers (R226, R230) -/

def State.seq? (s : State) (n : Nat) : Option Seq := tabFind s.kvl.seqs n

/-- A sequence's record is replaced; its list page follows (R205). -/
def State.setSeq (s : State) (n : Nat) (q : Seq) : State :=
  let old := s.seq? n
  let s := { s with kvl := { s.kvl with seqs := tabInsert s.kvl.seqs n q } }
  if old.map (fun o => (o.list, o.pages)) = some (q.list, q.pages) then s else s.writeList q.list q.pages

def State.modSeq (s : State) (n : Nat) (f : Seq → Seq) : State :=
  match s.seq? n with
  | some q => s.setSeq n (f q)
  | none => s

/-- State code of Table 7-4; 0 where the sequence is FREE. -/
def State.seqState (s : State) (n : Nat) : Nat := match s.seq? n with | some q => q.state | none => 0

/-- POOL_FREE, LIVE and BUSY follow the ledger. -/
def State.syncKv (s : State) : State :=
  let units := s.kvl.free.foldl (fun n e => n + 2 ^ e.2) 0
  let largest := s.kvl.free.foldl (fun n e => max n (e.2 + 1)) 0
  let s := s.setFld Fld.KVL_POOL_FREE_FREE units
  let s := s.setFld Fld.KVL_POOL_FREE_LARGEST (if largest = 0 then 15 else largest - 1)
  let s := s.setFld Fld.KVL_LIVE_LIVE s.kvl.seqs.length
  s.setFld Fld.KVL_SWAP_SIZE_BUSY (b2n (s.kvl.seqs.any (fun e => e.2.state = 2 || e.2.state = 3 || e.2.state = 4)))

/-- The ledger after a start or a warm reset (R229): no sequence, the whole pool free, EN 0. -/
def State.clearLedger (s : State) : State :=
  let s := s.kvl.refs.foldl (fun s e => s.writeRef e.1 0#32) s
  let s := { s with kvl := ⟨[], buddyInit (s.fld Fld.KVL_POOL_BLOCKS), [], [], s.kvl.nextOrder, s.kvl.nextCopy, [], [],
    none, []⟩ }
  (s.setFld Fld.KVL_SWAP_SIZE_EN 0).syncKv

/-! ## References (R203, R220) -/

def State.pageRef (s : State) (u : Nat) : PageRef := (tabFind s.kvl.refs u).getD ⟨0, false, 0, 0, []⟩

/-- A unit's reference entry is replaced, in the window too. -/
def State.setRef (s : State) (u : Nat) (r : PageRef) : State :=
  ({ s with kvl := { s.kvl with refs := tabInsert s.kvl.refs u r } }).writeRef u r.word

/-- Blocks whose rows the underlayer has replaced return to the lists (R220). -/
def State.returnHanded (s : State) : State :=
  let due := fun (e : Nat × Nat × List (Nat × Nat × Nat)) => !e.2.2.any (fun j => s.ul.rowJobs.contains j)
  { s with kvl := { s.kvl with
      free := (s.kvl.handed.filter due).foldl (fun (f : Tab Nat) e => buddyFree f e.1 e.2.1) s.kvl.free
      handed := s.kvl.handed.filter (fun e => !due e) } }

/-- A page with no reference and no copy reading it returns to the lists: a poisoned one once its rows are replaced (R220). -/
def State.maybeFree (s : State) (u : Nat) : State :=
  let r := s.pageRef u
  if r.refs = 0 ∧ r.source = 0 then
    let s := ({ s with kvl := { s.kvl with refs := tabErase s.kvl.refs u } }).writeRef u 0#32
    let s := (if r.poison then r.rows else []).foldl (fun (s : State) j => s.replaceRow j.1 j.2.1 j.2.2) s
    ({ s with kvl := { s.kvl with handed := s.kvl.handed ++ [(u, r.cls, if r.poison then r.rows else [])] } }).returnHanded
  else s

/-- Drop one reference. -/
def State.dropRef (s : State) (u : Nat) : State :=
  let r := s.pageRef u
  (s.setRef u { r with refs := r.refs - 1 }).maybeFree u

/-- Take a pool block of class c with one reference. -/
def State.takePage (s : State) (c : Nat) : Option (Nat × State) :=
  match buddyTake s.kvl.free c with
  | none => none
  | some (u, f) =>
    some (u, ({ s with kvl := { s.kvl with free := f } }).setRef u ⟨1, false, 0, c, []⟩)

/-- Take a class-0 list page (R205). -/
def State.takeList (s : State) : Option (Nat × State) :=
  match buddyTake s.kvl.free 0 with
  | none => none
  | some (u, f) => some (u, { s with kvl := { s.kvl with free := f } })

def State.freeList (s : State) (u : Option Nat) : State :=
  match u with
  | some u => { s with kvl := { s.kvl with free := buddyFree s.kvl.free u 0 } }
  | none => s

def State.freeSwap (s : State) (l : List (Nat × Nat)) : State :=
  { s with kvl := { s.kvl with swapFree := l.foldl (fun (f : Tab Nat) (e : Nat × Nat) => buddyFree f e.1 e.2) s.kvl.swapFree } }

/-! ## Commands of a sequence -/

/-- The sequences a command names: word 2 bits 63:48, and a fork's child. -/
def Cmd.seqs (c : Cmd) : List Nat :=
  if 0x21 ≤ c.opcode ∧ c.opcode ≤ 0x26 then
    c.f 2 63 48 :: (if c.opcode = 0x23 then [c.f 2 47 32] else [])
  else []

/-- The sequence whose rows a command supplies. -/
def Cmd.rowSeq (c : Cmd) : Option Nat :=
  match c.opcode with
  | 0x21 => some (c.f 2 63 48)
  | 0x22 => some (c.f 2 63 48)
  | 0x23 => some (c.f 2 47 32)
  | _ => none

def State.cmdU (s : State) (uid : Nat) : Option Cmd := s.host.cmds.find? (fun c => c.uid = uid)

def State.modCmdU (s : State) (uid : Nat) (f : Cmd → Cmd) : State :=
  { s with host := { s.host with cmds := modFirst (fun c => c.uid = uid) f s.host.cmds } }

/-- The command of a number ends (R356). -/
def State.completeU (s : State) (uid status info : Nat) (stateCode : Nat := 0) : State :=
  match s.cmdU uid with
  | none => s
  | some c =>
    let s := { s with host := { s.host with cmds := s.host.cmds.filter (fun k => k.uid ≠ uid) } }
    let s := (s.freeReserved c.sq c.cid).updDefer
    (s.cqPost ⟨s.fld (Fld.HIF_SQ_CFG_CQ c.sq), BitVec.ofNat 64 info, c.cid, c.sq, c.sqHead, status, stateCode⟩).updBusy c.sq

/-- The exit records of a command in ascending INDEX, those that would cross the capacity dropped (R368). -/
def recordBytes (recs : List (Nat × List W64)) (cap : Nat) : List Byte × Bool :=
  let l := recs.mergeSort (fun a b => a.1 ≤ b.1)
  l.foldl (fun acc r =>
    let b := r.2.flatMap (fun w => leBytes 8 w.toNat)
    if acc.2 ∨ acc.1.length + b.length > cap then (acc.1, true) else (acc.1 ++ b, false)) ([], false)

/-- A command that supplies rows ends: its records written, INFO LENGTH and a count (R362, R368). -/
def State.endRows (s : State) (uid status count : Nat) : State :=
  match s.cmdU uid with
  | none => s
  | some c =>
    let (b, tr) := recordBytes c.recs c.capacity
    let tr := tr && decide (c.rdest ≠ 0)
    let s := s.writeResult c status b
    s.completeU uid status (b.length * 2 ^ 32 + b2n tr * 2 ^ 31 + count % 2 ^ 31)

/-- Whether a waiting fed-back row belongs to a command. -/
def Seq.fedBy (q : Seq) (uid : Nat) : Bool := match q.fed with | some f => f.2 = uid | none => false

/-- Rows of a command that have exited validly beyond LEN's run. -/
def State.beyondLen (s : State) (c : Cmd) : Nat :=
  match c.rowSeq.bind s.seq? with
  | some q => (q.exited.filter (fun e => e.2 = c.uid)).length
  | none => 0

/-- A sequence command ends: its count is the tokens committed (rows that have exited validly, but for those beyond LEN)
after a pre-emption or a generation cut short, else those placed; a generating command that ends without OK ends generation (R363); its waits end. -/
def State.endSeqCmd (s : State) (uid status : Nat) : State :=
  match s.cmdU uid with
  | none => s
  | some c =>
    let s := match c.rowSeq with
      | some n => s.modSeq n (fun q =>
          let q := if q.fedBy uid ∧ status ≠ St.OK then { q with fed := none } else q
          if q.gen = some uid then { q with gen := none, genLeft := if status = St.OK then q.genLeft else 0 } else q)
      | none => s
    let s := { s with kvl := { s.kvl with
        waits := s.kvl.waits.filter (fun w => !(w.sq = c.sq && w.cid = c.cid)) } }
    s.endRows uid status (if status = St.PREEMPTED ∨ c.late then c.valid - s.beyondLen c else c.placed)

/-- Complete a sequence command whose rows, and whose generated tokens, have all exited (R363). -/
def State.checkSeqCmd (s : State) (uid : Nat) : State :=
  match s.cmdU uid with
  | none => s
  | some c =>
    match c.rowSeq with
    | none => s
    | some n =>
      match s.seq? n with
      | none => s
      | some q =>
        let held := q.list.isNone || q.fork.isSome || s.kvl.copies.any (fun k => k.fork && k.seq = n)
        let gen := (q.gen = some uid && decide (q.genLeft > 0)) || q.fedBy uid
        if c.stage = .running ∧ ¬ held ∧ c.exited = c.nextIndex ∧ (c.late ∨ (c.placed = c.rows ∧ ¬ gen)) then
          s.endSeqCmd uid (if c.late then St.NO_RESOURCE else St.OK)
        else s

/-- Every command that supplies rows of a sequence ends with a status. -/
def State.endSeqCmds (s : State) (n status : Nat) : State :=
  (s.host.cmds.filter (fun c => c.rowSeq = some n && c.stage = .running)).foldl (fun s c => s.endSeqCmd c.uid status) s

/-! ## Rows in flight (R209, R212) -/

/-- The rows of a sequence that are placed or in flight: in forming blocks, entry queues and stage queues. -/
def State.rowsOfSeq (s : State) (n : Nat) : Nat :=
  let count := fun (l : List RowDesc) => (l.filter (fun r => r.seq = n && decide (r.kind ≤ 1))).length
  let f := s.ppl.forming.foldl (fun k e => k + count (e.2.rows.map (·.1))) 0
  let e := s.ppl.entryQ.foldl (fun k e => k + (e.2.foldl (fun k b => k + count b.rows) 0)) 0
  s.ppl.clusters.foldl (fun k c => k + (c.2.queue.foldl (fun k q =>
    k + (if q.exits = [] then count q.block.rows
         else count (q.exits.filterMap (fun i => q.block.rows[i]?)))) 0)) (f + e)

/-- VALID cleared in the rows of a sequence (R173). -/
def clearValid (n : Nat) (r : RowDesc) : RowDesc := if r.seq = n ∧ r.kind ≤ 1 then { r with valid := false } else r

def Block.clearSeq (b : Block) (n : Nat) : Block := { b with rows := b.rows.map (clearValid n) }

def State.invalidateSeq (s : State) (n : Nat) : State :=
  { s with ppl := { s.ppl with
      forming := s.ppl.forming.map (fun e => (e.1, { e.2 with rows := e.2.rows.map (fun r => (clearValid n r.1, r.2)) }))
      entryQ := s.ppl.entryQ.map (fun e => (e.1, e.2.map (fun b => b.clearSeq n)))
      clusters := s.ppl.clusters.map (fun e => (e.1, { e.2 with
        queue := e.2.queue.map (fun q => { q with block := q.block.clearSeq n }) })) } }

/-! ## The end of a sequence (R212, R220, R227) -/

/-- The sequence becomes FREE: pages, swap blocks and list page returned. -/
def State.releaseSeq (s : State) (n : Nat) : State :=
  match s.seq? n with
  | none => s
  | some q =>
    let s := q.pages.foldl (fun s p =>
      if p.swapped then s.freeSwap [(p.unit, p.cls)] else s.dropRef p.unit) s
    let s := (s.freeSwap q.swapResv).freeList q.list
    let s := { s with kvl := { s.kvl with
        free := q.taken.foldl (fun (f : Tab Nat) (e : Nat × Nat) => buddyFree f e.1 e.2) s.kvl.free
        seqs := tabErase s.kvl.seqs n
        waits := s.kvl.waits.filter (fun w => w.seq ≠ n)
        victim := if s.kvl.victim = some n then none else s.kvl.victim } }
    s.syncKv

/-- The SEQ_CLOSE, SEQ_PREEMPT or SEQ_RESUME that waits on a sequence completes; INFO is LEN. -/
def State.endWaitCmd (s : State) (n status : Nat) : State :=
  match s.seq? n with
  | none => s
  | some q =>
    match q.waitCmd with
    | none => s
    | some (sq, cid) => (s.setSeq n { q with waitCmd := none }).complete sq cid status q.len

/-- R212 for a sequence that is not OPEN and has no row left: reserved positions dropped; a close ends. -/
def State.trimSeq (s : State) (n : Nat) : State :=
  match s.seq? n with
  | none => s
  | some q =>
    if q.state = 1 ∨ q.state = 3 ∨ q.state = 4 ∨ s.rowsOfSeq n ≠ 0 ∨ s.kvl.copies.any (fun k => k.seq = n) then s
    else
      let keep := q.pagesFor (s.shape q.pipe) q.len
      let s := (q.pages.drop keep).foldl (fun s p => s.dropRef p.unit) s
      let s := s.freeSwap (q.swapResv.drop keep)
      let s := s.setSeq n { q with resv := q.len, pages := q.pages.take keep, exited := [],
                                   swapResv := q.swapResv.take keep }
      if q.state = 5 then (s.endWaitCmd n St.OK).releaseSeq n else s.syncKv

/-- SOURCE is held, or let go, on a page that a copy reads (R203, R219). -/
def State.holdSource (s : State) (u : Nat) : State :=
  let r := s.pageRef u
  s.setRef u { r with source := r.source + 1 }

def State.dropSource (s : State) (u : Nat) : State :=
  let r := s.pageRef u
  (s.setRef u { r with source := r.source - 1 }).maybeFree u

/-- The pages that a fork has still to copy are given up. -/
def State.dropFork (s : State) (n : Nat) : State :=
  match s.seq? n with
  | none => s
  | some q =>
    match q.fork with
    | none => s
    | some l =>
      let s := l.foldl (fun s e => s.dropSource e.unit) s
      s.setSeq n { q with fork := none, pages := q.pages.filter (fun e => !(l.any (fun x => x.unit = e.unit))) }

/-- A sequence is marked FAULTED (R183, R228): its commands end with FAULT. -/
def State.faultSeq (s : State) (n : Nat) : State :=
  let st := s.seqState n
  if st = 1 ∨ st = 2 ∨ st = 3 ∨ st = 4 then
    let s := (s.endSeqCmds n St.FAULT).dropFork n
    let s := s.endWaitCmd n St.FAULT
    let s := s.modSeq n (fun q => { q with state := 6, fed := none, genLeft := 0 })
    let s := { s with kvl := { s.kvl with waits := s.kvl.waits.filter (fun w => w.seq ≠ n),
                                          victim := if s.kvl.victim = some n then none else s.kvl.victim } }
    s.trimSeq n
  else s

/-! ## Pre-emption (R221 to R223) -/

def State.prio (s : State) (k : Nat) : Nat := s.fld (Fld.KVL_CLASS_PRIO k)

/-- v ranks below q (R221). -/
def State.ranksBelow (s : State) (v q : Seq) : Bool :=
  decide (s.prio v.cls < s.prio q.cls) || (s.prio v.cls = s.prio q.cls && decide (v.order > q.order))

/-- Whether the swap area is enabled and can hold the pages of a sequence. -/
def State.swapHolds (s : State) (v : Seq) : Bool :=
  s.flag Fld.KVL_SWAP_SIZE_EN && (buddyTakeAll s.kvl.swapFree (v.pages.map (·.cls))).isSome

/-- v is eligible for a requester q (R222). -/
def State.eligible (s : State) (n : Nat) (v q : Seq) : Bool :=
  v.state = 1 && v.resv = v.len && v.list.isSome && v.fork.isNone && !s.kvl.copies.any (fun k => k.seq = n)
    && !s.flag (Fld.KVL_CLASS_PROTECT v.cls) && s.ranksBelow v q && s.swapHolds v

/-- The victim for a requester: the lowest PRIO, and among those the largest ORDER. -/
def State.chooseVictim (s : State) (q : Seq) : Option Nat :=
  (s.kvl.seqs.filter (fun e => s.eligible e.1 e.2 q)).foldl (fun (best : Option Nat) e =>
    match best with
    | none => some e.1
    | some b =>
      match s.seq? b with
      | some vb =>
        if s.prio e.2.cls < s.prio vb.cls ∨ (s.prio e.2.cls = s.prio vb.cls ∧ e.2.order > vb.order) then some e.1
        else best
      | none => some e.1) none

/-- The ledger pre-empts a sequence (R222, R223): PREEMPTING, its commands not yet started end with PREEMPTED, swap
blocks taken. -/
def State.preempt (s : State) (n : Nat) : State :=
  match s.seq? n with
  | none => s
  | some q =>
    match buddyTakeAll s.kvl.swapFree (q.pages.map (·.cls)) with
    | none => s
    | some (l, f) =>
      let s := s.setSeq n { q with state := 2, swapResv := l }
      let s := { s with kvl := { s.kvl with swapFree := f, victim := some n } }
      let s := (s.host.cmds.filter (fun c => c.seqs.contains n && c.placed = 0 && decide (q.gen ≠ some c.uid)
          && (c.stage ≠ .running || c.rowSeq = some n))).foldl
        (fun s c => if c.stage = .running then s.endSeqCmd c.uid St.PREEMPTED else s.completeU c.uid St.PREEMPTED 0) s
      let s := (s.raise Fld.KVL_EVENTS_PREEMPT).incFld Fld.KVL_COUNTS_PREEMPTS
      (s.event Ev.KV_PREEMPT n).syncKv

/-- The sequence a wait serves. -/
def State.waitSeq (s : State) (w : LWait) : Option Seq := s.seq? w.seq

/-- One victim at a time, for the first wait that has an eligible one. -/
def State.reclaim (s : State) : State :=
  if s.kvl.victim.isSome then s
  else
    match s.kvl.waits.findSome? (fun w => (s.waitSeq w).bind s.chooseVictim) with
    | some v => s.preempt v
    | none => s

/-- A wait for blocks begins (R211). -/
def State.waitFor (s : State) (w : LWait) : State :=
  let s := if s.kvl.waits.contains w then s
    else { s with kvl := { s.kvl with waits := s.kvl.waits ++ [w] } }
  s.reclaim

/-- The wait of a sequence ends. -/
def State.endWait (s : State) (n : Nat) : State :=
  { s with kvl := { s.kvl with waits := s.kvl.waits.filter (fun w => w.seq ≠ n) } }

/-! ## Page data (R202) -/

/-- Byte runs (offset from the block, length) of positions from..to−1 of every layer in a page of TPP positions that
starts at position f. -/
def Shape.runs (h : Shape) (tpp f lo hi : Nat) : List (Nat × Nat) :=
  let part := h.heads * tpp * h.dim * h.e
  let n := hi - lo
  if n = 0 then []
  else
    (List.range h.layers).flatMap (fun l =>
      let base := l * tpp * h.tl
      let v := (List.range h.heads).map (fun x => (base + part + (x * tpp + lo - f) * h.dim * h.e, n * h.dim * h.e))
      let k := if h.dimMajor then
          (List.range (h.heads * h.dim)).map (fun y => (base + (y * tpp + lo - f) * h.e, n * h.e))
        else (List.range h.heads).map (fun x => (base + (x * tpp + lo - f) * h.dim * h.e, n * h.dim * h.e))
      k ++ v)

/-- Copy byte runs from one device address to another. -/
def State.copyRuns (s : State) (src dst : Nat) (runs : List (Nat × Nat)) : State :=
  runs.foldl (fun s r => s.devWrite (dst + r.1) (s.devRead (src + r.1) r.2)) s

/-- Address of K element (0, p, 0) of a layer in a page, and of V element (0, p, 0) (R202, R214). -/
def Shape.kAddr (h : Shape) (base tpp f layer p : Nat) : Nat :=
  base + layer * tpp * h.tl + (if h.dimMajor then (p - f) * h.e else (p - f) * h.dim * h.e)

end Sys2Proof.Machine
end

