-- ==== Sys2Proof/Machine/Flags.lean ====
section
/-! DEFINITION. The flags of the arithmetic status word of a thread group (02_numbers.md R56). -/

namespace Sys2Proof.Machine

/-! ## ASW flags (Table 2-3) -/

/-- Bits of the arithmetic status word. -/
abbrev AswBits := BitVec 32

def asw.NV : AswBits := 1#32
def asw.OF : AswBits := 2#32
def asw.UF : AswBits := 4#32
def asw.NX : AswBits := 8#32
def asw.NANIN : AswBits := 16#32
def asw.STINV : AswBits := 32#32
def asw.CHKSKIP : AswBits := 64#32

/-- A flag where a condition holds. -/
def flagIf (c : Bool) (f : AswBits) : AswBits := if c then f else 0#32

end Sys2Proof.Machine
end

