-- ==== Sys2Proof/Machine/Num.lean ====
section
/-! DEFINITION. Numbers: the element formats (Table 2-1), exact values, the one rounding (R55), FP32 arithmetic (R66)
and the pairwise tree (R64, R67). -/

namespace Sys2Proof.Machine

/-! ## Exact values -/

/-- An exact value: NaN, an infinity, or (−1)^neg × m × 2^e; zero keeps its sign. -/
inductive FV
  | nan
  | inf (neg : Bool)
  | fin (neg : Bool) (m : Nat) (e : Int)
deriving DecidableEq, Repr

/-- The parameters of a floating-point format: width, mantissa bits, exponent of the least subnormal, magnitude codes
of the largest finite value, of infinity (where it has one) and of canonical NaN (where it has one). -/
structure FloatFmt where
  width : Nat
  mbits : Nat
  qmin : Int
  maxFin : Nat
  infMag : Option Nat
  nanMag : Option Nat
deriving DecidableEq, Repr

def ff32 : FloatFmt := ⟨32, 23, -149, 0x7F7FFFFF, some 0x7F800000, some 0x7FC00000⟩
def ffBf16 : FloatFmt := ⟨16, 7, -133, 0x7F7F, some 0x7F80, some 0x7FC0⟩
def ffFp16 : FloatFmt := ⟨16, 10, -24, 0x7BFF, some 0x7C00, some 0x7E00⟩
def ffE5m2 : FloatFmt := ⟨8, 2, -16, 0x7B, some 0x7C, some 0x7E⟩
def ffE4m3 : FloatFmt := ⟨8, 3, -9, 0x7E, none, some 0x7F⟩
def ffE3m2 : FloatFmt := ⟨6, 2, -4, 0x1F, none, none⟩
def ffE2m3 : FloatFmt := ⟨6, 3, -3, 0x1F, none, none⟩
def ffE2m1 : FloatFmt := ⟨4, 1, -1, 0x7, none, none⟩

/-- A format's floating-point parameters; integer and Sterling formats have none. -/
def floatFmt : NumFmt → Option FloatFmt
  | .fp32 => some ff32
  | .bf16 => some ffBf16
  | .fp16 => some ffFp16
  | .e5m2 => some ffE5m2
  | .e4m3 => some ffE4m3
  | .e3m2 => some ffE3m2
  | .e2m3 => some ffE2m3
  | .e2m1 => some ffE2m1
  | _ => none

/-- The value of a code (R50, R52). -/
def FloatFmt.decode (f : FloatFmt) (code : Nat) : FV :=
  let neg := decide (code / 2 ^ (f.width - 1) % 2 = 1)
  let mag := code % 2 ^ (f.width - 1)
  if mag ≤ f.maxFin then
    if mag < 2 ^ f.mbits then .fin neg mag f.qmin
    else .fin neg (2 ^ f.mbits + mag % 2 ^ f.mbits) (f.qmin + (mag / 2 ^ f.mbits : Nat) - 1)
  else if f.infMag = some mag then .inf neg
  else .nan

/-- The code of a sign and a magnitude code. -/
def FloatFmt.encode (f : FloatFmt) (neg : Bool) (mag : Nat) : Nat := b2n neg * 2 ^ (f.width - 1) + mag

/-- A two's-complement number of n bits. -/
def signedOf (n code : Nat) : Int :=
  let c := code % 2 ^ n
  if 2 * c < 2 ^ n then (c : Int) else (c : Int) - (2 ^ n : Nat)

/-- n bits of an integer in two's complement. -/
def wrapInt (n : Nat) (i : Int) : Nat := (i % (2 ^ n : Nat)).toNat

/-- The value of an integer. -/
def FV.ofInt (i : Int) (e : Int := 0) : FV := .fin (decide (i < 0)) i.natAbs e

/-- The value of a code of any element format; the Sterling invalid value reads as NaN (R58). -/
def decodeFmt (f : NumFmt) (code : Nat) : FV :=
  match f with
  | .int8 => .ofInt (signedOf 8 code)
  | .int4 => .ofInt (signedOf 4 code)
  | .int32 => .ofInt (signedOf 32 code)
  | .sterling => if code % 2 ^ 64 = 2 ^ 63 then .nan else .ofInt (signedOf 64 code) (-18)
  | .fp32 => ff32.decode code
  | .bf16 => ffBf16.decode code
  | .fp16 => ffFp16.decode code
  | .e5m2 => ffE5m2.decode code
  | .e4m3 => ffE4m3.decode code
  | .e3m2 => ffE3m2.decode code
  | .e2m3 => ffE2m3.decode code
  | .e2m1 => ffE2m1.decode code

def FV.isNan : FV → Bool
  | .nan => true
  | _ => false

def FV.isInf : FV → Bool
  | .inf _ => true
  | _ => false

def FV.isFin : FV → Bool
  | .fin _ _ _ => true
  | _ => false

def FV.isZero : FV → Bool
  | .fin _ m _ => m = 0
  | _ => false

def FV.neg? : FV → Bool
  | .nan => false
  | .inf n => n
  | .fin n _ _ => n

def FV.negate : FV → FV
  | .nan => .nan
  | .inf n => .inf !n
  | .fin n m e => .fin (!n) m e

/-- The signed integer that a finite value is at exponent e, for e at or below its own. -/
def FV.at (v : FV) (e : Int) : Int :=
  match v with
  | .fin n m x => let k := (m * 2 ^ (x - e).toNat : Nat); if n then -(k : Int) else (k : Int)
  | _ => 0

/-- The exponent of a finite value's representation. -/
def FV.expo : FV → Int
  | .fin _ _ e => e
  | _ => 0

/-- The exact sum of two finite values; an exact zero is +0 unless both are −0. -/
def FV.addFin (a b : FV) : FV :=
  let e := min a.expo b.expo
  let i := a.at e + b.at e
  if i = 0 then .fin (a.isZero && b.isZero && a.neg? && b.neg?) 0 0 else .ofInt i e

/-- The exact product of two finite values. -/
def FV.mulFin (a b : FV) : FV :=
  match a, b with
  | .fin n m e, .fin n' m' e' => .fin (n != n') (m * m') (e + e')
  | _, _ => .nan

/-- Compare two values that are not NaN: a < b as numbers (−0 equals +0). -/
def FV.lt (a b : FV) : Bool :=
  match a, b with
  | .nan, _ => false
  | _, .nan => false
  | .inf n, .inf n' => n && !n'
  | .inf n, _ => n
  | _, .inf n' => !n'
  | a, b => let e := min a.expo b.expo; decide (a.at e < b.at e)

def FV.eqNum (a b : FV) : Bool :=
  match a, b with
  | .nan, _ => false
  | _, .nan => false
  | .inf n, .inf n' => n == n'
  | .inf _, _ => false
  | _, .inf _ => false
  | a, b => let e := min a.expo b.expo; decide (a.at e = b.at e)

/-! ## The one rounding (R55) -/

/-- floor(log2) of num/den × 2^e, for num and den positive. -/
def floorLog2 (num den : Nat) (e : Int) : Int :=
  let k : Int := (Nat.log2 num : Int) - Nat.log2 den
  let ge := if k ≥ 0 then decide (den * 2 ^ k.toNat ≤ num) else decide (den ≤ num * 2 ^ (-k).toNat)
  (if ge then k else k - 1) + e

/-- num/den × 2^e over 2^q, rounded to the nearest integer, ties to even; and whether that is inexact. -/
def roundAt (num den : Nat) (e q : Int) : Nat × Bool :=
  let s := e - q
  let a := if s ≥ 0 then num * 2 ^ s.toNat else num
  let b := if s ≥ 0 then den else den * 2 ^ (-s).toNat
  let k := a / b
  let r := a % b
  if 2 * r > b ∨ (2 * r = b ∧ k % 2 = 1) then (k + 1, true) else (k, decide (r ≠ 0))

/-- A positive value num/den × 2^e rounded to a format with its exponent unbounded above: the magnitude code, whether
it is inexact, whether the value lies below the smallest normal. -/
def FloatFmt.roundMag (f : FloatFmt) (num den : Nat) (e : Int) : Nat × Bool × Bool :=
  let l := floorLog2 num den e
  let q := max (l - f.mbits) f.qmin
  let (r, inexact) := roundAt num den e q
  ((q - f.qmin).toNat * 2 ^ f.mbits + r, inexact, decide (l < f.qmin + f.mbits))

/-- Round a value (−1)^neg × num/den × 2^e once to a floating-point format, with the overflow rule of Table 2-2. -/
def FloatFmt.roundRat (f : FloatFmt) (sat neg : Bool) (num den : Nat) (e : Int) : Nat × AswBits :=
  if num = 0 then (f.encode neg 0, 0#32)
  else
    let (mag, inexact, tiny) := f.roundMag num den e
    if mag > f.maxFin then
      let out := match f.infMag with
        | some i => if sat then f.maxFin else i
        | none => f.maxFin
      (f.encode neg out, asw.OF ||| asw.NX)
    else (f.encode neg mag, flagIf inexact asw.NX ||| flagIf (inexact && tiny) asw.UF)

/-- Convert an exact value to a floating-point format (Table 2-2). The flags of a NaN or an infinite source are those
of its row; `fresh` marks a NaN made within the same instruction, which adds no flag (R55). -/
def FloatFmt.convert (f : FloatFmt) (sat fresh : Bool) (v : FV) : Nat × AswBits :=
  match v with
  | .nan =>
    match f.nanMag with
    | some m => (m, flagIf (!fresh) asw.NANIN)
    | none => (0, asw.NV)
  | .inf n =>
    match f.infMag with
    | some m => (f.encode n m, 0#32)
    | none => (f.encode n f.maxFin, asw.NV)
  | .fin n m e => f.roundRat sat n m 1 e

/-- Convert an exact value to a two's-complement integer of n bits (R55, Table 2-2). -/
def convertInt (n : Nat) (v : FV) : Nat × AswBits :=
  match v with
  | .nan => (0, asw.NV)
  | .inf neg => (if neg then 2 ^ (n - 1) else 2 ^ (n - 1) - 1, asw.NV)
  | .fin neg m e =>
    let (k, inexact) := roundAt m 1 e 0
    if neg ∧ k > 2 ^ (n - 1) then (2 ^ (n - 1), asw.OF ||| asw.NX)
    else if ¬ neg ∧ k > 2 ^ (n - 1) - 1 then (2 ^ (n - 1) - 1, asw.OF ||| asw.NX)
    else (wrapInt n (if neg then -(k : Int) else k),
      flagIf inexact asw.NX ||| flagIf (inexact && decide (k = 0)) asw.UF)

/-- The Sterling word of an exact value, or the invalid value (R58, R60). -/
def sterlingOf (v : FV) : W64 :=
  match v with
  | .fin neg m e =>
    let (k, _) := roundAt m 1 e (-18)
    if k < 2 ^ 63 then BitVec.ofNat 64 (wrapInt 64 (if neg then -(k : Int) else k)) else BitVec.ofNat 64 (2 ^ 63)
  | _ => BitVec.ofNat 64 (2 ^ 63)

/-- Convert an exact value to any element format; the Sterling value as a target sets STINV alone (DEDUCED, entry 118). -/
def convertFmt (f : NumFmt) (sat fresh : Bool) (v : FV) : Nat × AswBits :=
  match f with
  | .int8 => convertInt 8 v
  | .int4 => convertInt 4 v
  | .int32 => convertInt 32 v
  | .sterling => ((sterlingOf v).toNat, flagIf (sterlingOf v = BitVec.ofNat 64 (2 ^ 63)) asw.STINV)
  | .fp32 => ff32.convert sat fresh v
  | .bf16 => ffBf16.convert sat fresh v
  | .fp16 => ffFp16.convert sat fresh v
  | .e5m2 => ffE5m2.convert sat fresh v
  | .e4m3 => ffE4m3.convert sat fresh v
  | .e3m2 => ffE3m2.convert sat fresh v
  | .e2m3 => ffE2m3.convert sat fresh v
  | .e2m1 => ffE2m1.convert sat fresh v

/-- Convert a code of one element format to another; the Sterling invalid value sets NV and STINV (R55, R62). -/
def convertCode (dst src : NumFmt) (sat : Bool) (code : Nat) : Nat × AswBits :=
  let v := decodeFmt src code
  let r := convertFmt dst sat false v
  if src = .sterling ∧ v.isNan then (r.1, asw.NV ||| asw.STINV) else r

/-! ## FP32 arithmetic (R66) -/

/-- An FP32 result with the flags it sets. -/
abbrev F32R := W32 × AswBits

def nan32 : W32 := 0x7FC00000#32
def inf32 (neg : Bool) : W32 := if neg then 0xFF800000#32 else 0x7F800000#32
def one32 : W32 := 0x3F800000#32
def maxFin32 (neg : Bool) : W32 := if neg then 0xFF7FFFFF#32 else 0x7F7FFFFF#32

def fv32 (w : W32) : FV := ff32.decode w.toNat

/-- round32 of an exact value. -/
def rnd32 (v : FV) (sat : Bool := false) : F32R :=
  let (c, f) := ff32.convert sat true v
  (BitVec.ofNat 32 c, f)

/-- The exact sum of two values, with NV for opposite infinities. -/
def FV.add (a b : FV) : FV × AswBits :=
  match a, b with
  | .nan, _ => (.nan, 0#32)
  | _, .nan => (.nan, 0#32)
  | .inf n, .inf n' => if n = n' then (.inf n, 0#32) else (.nan, asw.NV)
  | .inf n, _ => (.inf n, 0#32)
  | _, .inf n => (.inf n, 0#32)
  | a, b => (a.addFin b, 0#32)

/-- The exact product of two values, with NV for 0 × ∞. -/
def FV.mul (a b : FV) : FV × AswBits :=
  match a, b with
  | .nan, _ => (.nan, 0#32)
  | _, .nan => (.nan, 0#32)
  | .inf n, b => if b.isZero then (.nan, asw.NV) else (.inf (n != b.neg?), 0#32)
  | a, .inf n => if a.isZero then (.nan, asw.NV) else (.inf (n != a.neg?), 0#32)
  | a, b => (a.mulFin b, 0#32)

/-- NANIN where an operand is NaN. -/
def naninOf (vs : List FV) : AswBits := flagIf (vs.any FV.isNan) asw.NANIN

/-- An operation's rounded result: its exact value and flag, the operands' NANIN. -/
def roundOp (vs : List FV) (r : FV × AswBits) (sat : Bool := false) : F32R :=
  let (w, f) := rnd32 r.1 sat
  (w, f ||| r.2 ||| naninOf vs)

def add32 (a b : W32) : F32R := roundOp [fv32 a, fv32 b] ((fv32 a).add (fv32 b))
def neg32 (a : W32) : W32 := a ^^^ 0x80000000#32
def sub32 (a b : W32) : F32R := roundOp [fv32 a, fv32 b] ((fv32 a).add (fv32 b).negate)
def mul32 (a b : W32) : F32R := roundOp [fv32 a, fv32 b] ((fv32 a).mul (fv32 b))

/-- a × b + c with one rounding; zero times infinity plus a NaN sets no NV (DESIGN CHOICE, entry 119). -/
def fma32 (a b c : W32) : F32R :=
  let vs := [fv32 a, fv32 b, fv32 c]
  if vs.any FV.isNan then (nan32, asw.NANIN)
  else
    let p := (fv32 a).mul (fv32 b)
    let r := p.1.add (fv32 c)
    roundOp vs (r.1, p.2 ||| r.2)

/-- The total order of minimum and maximum: −0 below +0. -/
def lessOrd (a b : FV) : Bool :=
  a.lt b || (a.isZero && b.isZero && a.neg? && !b.neg?)

def min32 (a b : W32) : F32R :=
  if (fv32 a).isNan || (fv32 b).isNan then (nan32, asw.NANIN)
  else (if lessOrd (fv32 b) (fv32 a) then b else a, 0#32)

def max32 (a b : W32) : F32R :=
  if (fv32 a).isNan || (fv32 b).isNan then (nan32, asw.NANIN)
  else (if lessOrd (fv32 a) (fv32 b) then b else a, 0#32)

/-- Compare two FP32 values; a NaN operand compares false and sets NANIN. -/
def cmp32 (op : CmpOp) (a b : W32) : Bool × AswBits :=
  let x := fv32 a
  let y := fv32 b
  (match op with
    | .eq => x.eqNum y
    | .lt => x.lt y
    | .le => x.lt y || x.eqNum y, naninOf [x, y])

/-- a / b correctly rounded (R137, Table 5-2). -/
def div32 (a b : W32) (sat : Bool := false) : F32R :=
  match fv32 a, fv32 b with
  | .nan, _ => (nan32, asw.NANIN)
  | _, .nan => (nan32, asw.NANIN)
  | .inf _, .inf _ => (nan32, asw.NV)
  | .inf n, .fin n' _ _ => (inf32 (n != n'), 0#32)
  | .fin n _ _, .inf n' => (if n != n' then 0x80000000#32 else 0#32, 0#32)
  | .fin n m e, .fin n' m' e' =>
    if m' = 0 then (if m = 0 then (nan32, asw.NV) else (inf32 (n != n'), 0#32))
    else
      let (c, f) := ff32.roundRat sat (n != n') m m' (e - e')
      (BitVec.ofNat 32 c, f)

/-- The integer square root, bit by bit from bit i − 1 down. -/
def isqrtGo (n : Nat) : Nat → Nat → Nat
  | 0, acc => acc
  | i + 1, acc => isqrtGo n i (if (acc + 2 ^ i) * (acc + 2 ^ i) ≤ n then acc + 2 ^ i else acc)

/-- The integer square root. -/
def isqrt (n : Nat) : Nat := isqrtGo n (Nat.log2 n / 2 + 1) 0

/-- √x correctly rounded (Table 5-2): the root to twice the needed bits, with a sticky bit. -/
def sqrt32 (a : W32) : F32R :=
  match fv32 a with
  | .nan => (nan32, asw.NANIN)
  | .inf n => if n then (nan32, asw.NV) else (inf32 false, 0#32)
  | .fin n m e =>
    if m = 0 then (a, 0#32)
    else if n then (nan32, asw.NV)
    else
      let odd := decide (e % 2 ≠ 0)
      let mm := (if odd then m * 2 else m) * 2 ^ 60
      let ee := (if odd then e - 1 else e) - 60
      let r := isqrt mm
      rnd32 (.fin false (2 * r + b2n (r * r ≠ mm)) (ee / 2 - 1))

/-! ## The tree (R64, R67) -/

/-- One level of the tree: each element is added to its right-hand neighbour, an odd last one passes on. -/
def treeLevel : List W32 → List W32 × AswBits
  | a :: b :: t =>
    let (s, f) := add32 a b
    let (rest, g) := treeLevel t
    (s :: rest, f ||| g)
  | l => (l, 0#32)

/-- Levels until one element is left; the fuel is the number of leaves. -/
def treeGo : Nat → List W32 → W32 × AswBits
  | 0, l => (l.headD 0#32, 0#32)
  | n + 1, l =>
    if l.length ≤ 1 then (l.headD 0#32, 0#32)
    else
      let (l', f) := treeLevel l
      let (r, g) := treeGo n l'
      (r, f ||| g)

/-- A value on its own: a NaN becomes the canonical one (R52, R65). -/
def canon32 (v : W32) : F32R := if (fv32 v).isNan then (nan32, asw.NANIN) else (v, 0#32)

/-- The tree over leaves, without an accumulator input. -/
def tree32 (leaves : List W32) : F32R :=
  match leaves with
  | [v] => canon32 v
  | l => treeGo l.length l

/-- The exact sum of finite values; NaN or an infinity where an operand is (opposite infinities: NaN and NV). A sum of zeros
is +0, and opposite infinities before a NaN set no NV (DESIGN CHOICE, entry 119). -/
def exactSum : List FV → FV × AswBits
  | [] => (.fin false 0 0, 0#32)
  | v :: t =>
    let (s, f) := exactSum t
    let (r, g) := v.add s
    (match r with | .fin _ 0 _ => .fin false 0 0 | r => r, f ||| g)

/-! ## MX quantisation (R55) -/

/-- The largest exponent of an MX element format. -/
def mxEmax : NumFmt → Int
  | .e4m3 => 8
  | .e5m2 => 15
  | .e3m2 => 4
  | .e2m3 => 2
  | .e2m1 => 2
  | _ => 0

/-- The larger of two magnitudes. -/
def FV.maxMag (a b : FV) : FV :=
  let a' := if a.neg? then a.negate else a
  let b' := if b.neg? then b.negate else b
  if a'.lt b' then b' else a'

/-- The E8M0 scale code of a block, and its flags (R55). -/
def mxScaleCode (f : NumFmt) (vs : List FV) : Nat × AswBits :=
  if vs.any FV.isNan then (0xFF, asw.NANIN)
  else
    match (vs.filter FV.isFin).foldl FV.maxMag (.fin false 0 0) with
    | .fin _ m e =>
      if m = 0 then (if vs.any FV.isInf then 0xFE else 0x00, 0#32)
      else ((max (-127) (min 127 (floorLog2 m 1 e - mxEmax f)) + 127).toNat, 0#32)
    | _ => (0x00, 0#32)

/-- An MX element quantised under a scale code: the value divided by the scale, converted (MXINT8: six fraction
bits); under 0xFF by 2^128 (DESIGN CHOICE, entry 117). -/
def mxElement (f : NumFmt) (scale : Nat) (v : FV) : Nat × AswBits :=
  let sh : Int := (scale : Int) - 127
  let v' := match v with
    | .fin n m e => FV.fin n m (e - sh + (if f = .int8 then 6 else 0))
    | v => v
  convertFmt f false true v'

/-- The value of an MX element under its scale code (R53, R54). -/
def mxValue (f : NumFmt) (scale elem : Nat) : FV :=
  if scale = 0xFF then .nan
  else
    match decodeFmt f elem with
    | .fin n m e => .fin n m (e + (scale : Int) - 127 - (if f = .int8 then 6 else 0))
    | v => v

end Sys2Proof.Machine
end

