-- ==== Sys2Proof/Machine/Reals.lean ====
section
/-! DEFINITION. Enclosures of the real functions that the special-function unit approximates (05_special_functions.md R138,
R142, R144): integer arithmetic with 512 fraction bits, far below the ulp that the bounds are stated in. -/

namespace Sys2Proof.Machine

/-! ## Enclosures -/

/-- A real number known to lie between two dyadic ones, lo × 2^q and hi × 2^q. -/
structure Encl where
  lo : Int
  hi : Int
  q : Int
deriving DecidableEq, Repr

/-- Fraction bits of the fixed-point arithmetic. -/
def fracBits : Nat := 512

/-- floor(π × 2^512). -/
def piFix : Int := 0x3243f6a8885a308d313198a2e03707344a4093822299f31d0082efa98ec4e6c89452821e638d01377be5466cf34e90c6cc0ac29b7c97c50dd3f84d5b5b5470917

/-- floor(ln 2 × 2^512). -/
def ln2Fix : Int := 0xb17217f7d1cf79abc9e3b39803f2f6af40f343267298b62d8a0d175b8baafa2be7b876206debac98559552fb4afa1b10ed2eae35c138214427573b291169b825

/-- An integer shifted left, or right towards −∞. -/
def shiftInt (i k : Int) : Int := if k ≥ 0 then i * (2 ^ k.toNat : Nat) else i / (2 ^ (-k).toNat : Nat)

/-- A finite value in fixed point, rounded down. -/
def FV.fix (v : FV) : Int :=
  match v with
  | .fin n m e => shiftInt (if n then -(m : Int) else m) (e + fracBits)
  | _ => 0

/-- The product of two fixed-point numbers, rounded down. -/
def mulFix (a b : Int) : Int := a * b / (2 ^ fracBits : Nat)

/-- A fixed-point number that is right to within 2^20 units of its last place. -/
def nearFix (i : Int) (q : Int := -fracBits) : Encl := ⟨i - 2 ^ 20, i + 2 ^ 20, q⟩

def Encl.ofFV (v : FV) : Encl :=
  match v with
  | .fin n m e => let i : Int := if n then -(m : Int) else m; ⟨i, i, e⟩
  | _ => ⟨0, 0, 0⟩

def Encl.neg (x : Encl) : Encl := ⟨-x.hi, -x.lo, x.q⟩

/-- The sum, at the lower exponent. -/
def Encl.add (x y : Encl) : Encl :=
  let q := min x.q y.q
  ⟨shiftInt x.lo (x.q - q) + shiftInt y.lo (y.q - q), shiftInt x.hi (x.q - q) + shiftInt y.hi (y.q - q), q⟩

/-- The product of two numbers that are not negative. -/
def Encl.mulPos (x y : Encl) : Encl := ⟨x.lo * y.lo, x.hi * y.hi, x.q + y.q⟩

/-- The reciprocal of a positive number. -/
def Encl.inv (x : Encl) : Encl :=
  let k := 2 * Nat.log2 x.hi.toNat + fracBits
  ⟨(2 ^ k : Nat) / x.hi, (2 ^ k : Nat) / x.lo + 1, -x.q - k⟩

/-- A quotient of a number that is not negative and a positive one. -/
def Encl.div (x y : Encl) : Encl := x.mulPos y.inv

/-! ## Exponential -/

/-- The sum of a term t^k / k! and those after it; the fuel is their number. -/
def expTerms (t : Int) : Nat → Nat → Int → Int
  | 0, _, x => x
  | n + 1, k, x => x + expTerms t n (k + 1) (mulFix x t / (k + 1 : Nat))

/-- e^v, for v up to 1,000; below −1,000 it lies under 2^−1,000. -/
def expEncl (v : FV) : Encl :=
  if v.lt (.ofInt (-1000)) then ⟨0, 1, -1000⟩
  else
    let n := v.fix / ln2Fix
    nearFix (expTerms (v.fix - n * ln2Fix) 140 0 (2 ^ fracBits)) (n - fracBits)

/-- floor of a finite value. -/
def FV.floorInt : FV → Int
  | .fin n m e => shiftInt (if n then -(m : Int) else m) e
  | _ => 0

/-- 2^v, for v up to 1,000; below −1,000 it lies under 2^−1,000. -/
def exp2Encl (v : FV) : Encl :=
  if v.lt (.ofInt (-1000)) then ⟨0, 1, -1000⟩
  else
    let n := v.floorInt
    nearFix (expTerms (mulFix (v.fix - n * (2 ^ fracBits : Nat)) ln2Fix) 140 0 (2 ^ fracBits)) (n - fracBits)

/-! ## Logarithms -/

/-- The sum of a term s^j / j and those after it, j odd, given s^j and s²; the fuel is their number. -/
def atanhTerms (s2 : Int) : Nat → Nat → Int → Int
  | 0, _, _ => 0
  | n + 1, j, x => x / (j : Nat) + atanhTerms s2 n (j + 2) (mulFix x s2)

/-- ln(m × 2^e), for m positive: of the mantissa u in [1, 2) by its series in (u − 1)/(u + 1). -/
def lnEncl (m : Nat) (e : Int) : Encl :=
  let k := Nat.log2 m
  let s : Int := (m - 2 ^ k : Nat) * (2 ^ fracBits : Nat) / (m + 2 ^ k : Nat)
  nearFix ((e + k) * ln2Fix + 2 * atanhTerms (mulFix s s) 180 1 s)

/-- log2(m × 2^e), for m positive. -/
def log2Encl (m : Nat) (e : Int) : Encl :=
  let x := lnEncl m e
  let r := (Encl.mk ln2Fix (ln2Fix + 1) (-fracBits)).inv
  if x.lo ≥ 0 then x.mulPos r else (x.neg.mulPos r).neg

/-! ## Circular functions -/

/-- The alternating sum of a term t^j / j! and those after it, j odd, given the term and t²; the fuel is their number. -/
def sinTerms (t2 : Int) : Nat → Nat → Int → Int
  | 0, _, _ => 0
  | n + 1, j, x => x - sinTerms t2 n (j + 2) (mulFix x t2 / ((j + 1) * (j + 2) : Nat))

/-- sin(πv): v is reduced to the nearest integer exactly. -/
def sinpiEncl (v : FV) : Encl :=
  let k := (v.addFin (.fin false 1 (-1))).floorInt
  let r := v.addFin (.ofInt (-k))
  let t := mulFix r.fix piFix
  let x := nearFix (sinTerms (mulFix t t) 90 1 t)
  if k % 2 = 0 then x else x.neg

/-- cos(πv) = sin(π(v + ½)). -/
def cospiEncl (v : FV) : Encl := sinpiEncl (v.addFin (.fin false 1 (-1)))

/-! ## Logistic function, hyperbolic tangent, normal distribution -/

/-- The magnitude of a finite value. -/
def FV.magn : FV → FV
  | .fin _ m e => .fin false m e
  | v => v

/-- Twice a finite value. -/
def FV.dbl : FV → FV
  | .fin n m e => .fin n m (e + 1)
  | v => v

def oneEncl : Encl := ⟨1, 1, 0⟩

/-- σ(v) = 1/(1 + e^−v). -/
def sigmoidEncl (v : FV) : Encl :=
  let e := expEncl v.magn.negate
  if v.neg? then e.div (oneEncl.add e) else (oneEncl.add e).inv

/-- tanh v = (1 − e^−2|v|)/(1 + e^−2|v|), with the sign of v. -/
def tanhEncl (v : FV) : Encl :=
  let e := expEncl v.magn.dbl.negate
  let x := (oneEncl.add e.neg).div (oneEncl.add e)
  if v.neg? then x.neg else x

/-- The sum of a term g^k / k!! and those after it, k odd, given the term and g²; the fuel is their number. -/
def phiTerms (g2 : Int) : Nat → Nat → Int → Int
  | 0, _, x => x
  | n + 1, k, x => x + phiTerms g2 n (k + 2) (mulFix x g2 / (k + 2 : Nat))

/-- Φ(v), the normal distribution: ½ ± e^(−v²/2)/√(2π) × Σ |v|^k/k!! over odd k; beyond 26 it lies within 2^−400 of its
limit. -/
def phiEncl (v : FV) : Encl :=
  if (FV.ofInt 26).lt v.magn then (if v.neg? then ⟨0, 1, -400⟩ else ⟨2 ^ 400 - 1, 2 ^ 400, -400⟩)
  else
    let w := v.magn
    let s := phiTerms (w.mulFin w).fix 2000 1 w.fix
    let d : Int := s / (2 ^ 460 : Nat) + 2 ^ 20
    let sum : Encl := ⟨max 0 (s - d), s + d, -fracBits⟩
    let root : Int := isqrt (2 * piFix * (2 ^ fracBits : Nat)).toNat
    let x := (sum.mulPos (expEncl ((w.mulFin w).mulFin (.fin true 1 (-1))))).div ⟨root, root + 2, -fracBits⟩
    (Encl.mk 1 1 (-1)).add (if v.neg? then x.neg else x)

/-! ## Reciprocals and roots of exact values -/

/-- 1/(m × 2^e), for m positive; exact where it can be. -/
def rcpEncl (m : Nat) (e : Int) : Encl :=
  let a : Nat := 2 ^ 600 / m
  ⟨a, if a * m = 2 ^ 600 then a else (a : Int) + 1, -600 - e⟩

/-- 1/√(m × 2^e), for m positive; exact where it can be. -/
def rsqrtEncl (m : Nat) (e : Int) : Encl :=
  let m' := if e % 2 = 0 then m else 2 * m
  let e' := if e % 2 = 0 then e else e - 1
  let a := isqrt (2 ^ 1200 / m')
  ⟨a, if a * a * m' = 2 ^ 1200 then a else (a : Int) + 1, -600 - e' / 2⟩

/-! ## FP32 keys

FP32 codes as integers in the order of their values: a code without its sign, negated for a negative one; infinity stands
for 2^128. -/

/-- FP32 codes as an ordered number: negative codes below positive ones. -/
def ordKey (w : W32) : Int :=
  let mag : Int := (w.toNat % 2 ^ 31 : Nat)
  if w.toNat ≥ 2 ^ 31 then -mag else mag

/-- The code of a key; a zero takes the sign given. -/
def keyCode (neg : Bool) (k : Int) : W32 :=
  if k < 0 ∨ (k = 0 ∧ neg) then BitVec.ofNat 32 (2 ^ 31 + k.natAbs) else BitVec.ofNat 32 k.natAbs

/-- A positive value m × 2^e in units of the FP32 spacing at it: the exponent of that spacing. -/
def spacing (m : Nat) (e : Int) : Int := max (floorLog2 m 1 e - 23) (-149)

/-- The greatest magnitude key at or below m × 2^e. -/
def magFloor (m : Nat) (e : Int) : Int :=
  if m = 0 then 0
  else if floorLog2 m 1 e ≥ 128 then 0x7F800000
  else let t := spacing m e; (t + 149) * 2 ^ 23 + shiftInt m (e - t)

/-- The least magnitude key at or above m × 2^e. -/
def magCeil (m : Nat) (e : Int) : Int :=
  if m = 0 then 0
  else if floorLog2 m 1 e ≥ 128 then 0x7F800000
  else let t := spacing m e; (t + 149) * 2 ^ 23 - shiftInt (-(m : Int)) (e - t)

/-- The greatest key at or below i × 2^e, and the least at or above. -/
def keyDown (i e : Int) : Int := if i ≥ 0 then magFloor i.toNat e else -(magCeil i.natAbs e)
def keyUp (i e : Int) : Int := if i ≥ 0 then magCeil i.toNat e else -(magFloor i.natAbs e)

/-- The exponent of ulp(y) (R138) of an enclosed number. -/
def Encl.ulpExp (x : Encl) : Int :=
  let m := min x.lo.natAbs x.hi.natAbs
  if m = 0 then -149 else max (floorLog2 m 1 x.q) (-126) - 23

/-- Whether the magnitude of an enclosed number that is not a power of two lies below 2^e. -/
def Encl.below (x : Encl) (e : Int) : Bool :=
  decide (shiftInt (if x.hi ≤ 0 then -x.hi else x.lo) (x.q - e) < 1)

/-- Keys within h half ulps of an enclosed number, or within 2^a of it where that is wider (R138, Table 5-5). -/
def Encl.keys (x : Encl) (h : Nat) (a : Option Int := none) : Int × Int :=
  let u := x.ulpExp - 1
  let wide : Bool := match a with
    | some b => decide ((h : Int) < shiftInt 1 (b - u))
    | none => false
  let (d, e) : Int × Int := if wide then (1, a.getD 0) else ((h : Int), u)
  let q := min x.q e
  (keyUp (shiftInt x.lo (x.q - q) - shiftInt d (e - q)) q, keyDown (shiftInt x.hi (x.q - q) + shiftInt d (e - q)) q)

/-- A key kept between two. -/
def clampKey (lo hi k : Int) : Int := if k < lo then lo else if hi < k then hi else k

/-! ## Monotonic choices (R139) -/

/-- The greatest value up to an index, and the least. -/
def runMax (v : Nat → Int) : Nat → Int
  | 0 => v 0
  | n + 1 => max (v (n + 1)) (runMax v n)
def runMin (v : Nat → Int) : Nat → Int
  | 0 => v 0
  | n + 1 => min (v (n + 1)) (runMin v n)

/-- Free values kept between limits and made non-decreasing over the indices 0 to n: the running maximum of what the
limits leave of them, kept under the upper limits, then its running minimum from the far end. Every non-decreasing choice
inside the limits is such a value. -/
def inOrder (n : Nat) (lo hi r : Nat → Int) (i : Nat) : Int :=
  let m := fun j => min (runMax (fun x => clampKey (lo x) (hi x) (r x)) j) (hi j)
  runMin (fun j => m (n - j)) (n - i)

end Sys2Proof.Machine
end

