-- ==== Sys2Proof/Machine/SfuMath.lean ====
section
/-! DEFINITION. Special functions, activations and row algorithms on numbers (05_special_functions.md). Where only the
reference model holds the bits (R138, R144), the value is free, kept inside the bounds, the special values and the order
that this specification states (entry 5). -/

namespace Sys2Proof.Machine

/-- The functions whose bits the reference model holds; the number names the free value. -/
inductive SfuFn
  | rcp
  | rsqrt
  | exp2
  | exp
  | log2
  | ln
  | sinpi
  | cospi
  | tanh
  | sigmoid
deriving DecidableEq, Repr

def SfuFn.num : SfuFn → Nat
  | .rcp => 0
  | .rsqrt => 1
  | .exp2 => 2
  | .exp => 3
  | .log2 => 4
  | .ln => 5
  | .sinpi => 6
  | .cospi => 7
  | .tanh => 8
  | .sigmoid => 9

/-- The exact value of a power of two. -/
def pow2 (e : Int) : FV := .fin false 1 e

/-- Whether a finite value is an integer. -/
def FV.isInt (v : FV) : Bool :=
  match v with
  | .fin _ m e => decide (e ≥ 0) || decide (m % 2 ^ (-e).toNat = 0)
  | _ => false

/-- Whether a finite non-zero value is a power of two, and its exponent. -/
def FV.log2Exact? (v : FV) : Option Int :=
  match v with
  | .fin _ m e => if m ≠ 0 ∧ m = 2 ^ Nat.log2 m then some (Nat.log2 m + e) else none
  | _ => none

/-- FP32 of an exact value (which is in range). -/
def w32Of (v : FV) : W32 := (rnd32 v).1

/-- An exact power 2^k as FP32, with the flags of its rounding. -/
def exactPow2 (k : Int) : F32R := rnd32 (pow2 k)

/-- Special inputs (Table 5-2): result and flags where the table fixes them. -/
def SfuFn.special (f : SfuFn) (x : W32) : Option F32R :=
  match fv32 x with
  | .nan => some (nan32, asw.NANIN)
  | .inf n =>
    match f with
    | .rcp => some (if n then 0x80000000#32 else 0#32, 0#32)
    | .rsqrt => some (if n then (nan32, asw.NV) else (0#32, 0#32))
    | .exp2 => some (if n then 0#32 else inf32 false, 0#32)
    | .exp => some (if n then 0#32 else inf32 false, 0#32)
    | .log2 => some (if n then (nan32, asw.NV) else (inf32 false, 0#32))
    | .ln => some (if n then (nan32, asw.NV) else (inf32 false, 0#32))
    | .sinpi => some (nan32, asw.NV)
    | .cospi => some (nan32, asw.NV)
    | .tanh => some (if n then 0xBF800000#32 else one32, 0#32)
    | .sigmoid => some (if n then 0#32 else one32, 0#32)
  | .fin n m e =>
    if m = 0 then
      match f with
      | .rcp => some (inf32 n, 0#32)
      | .rsqrt => some (inf32 n, 0#32)
      | .exp2 => some (one32, 0#32)
      | .exp => some (one32, 0#32)
      | .log2 => some (inf32 true, 0#32)
      | .ln => some (inf32 true, 0#32)
      | .sinpi => some (x, 0#32)
      | .cospi => some (one32, 0#32)
      | .tanh => some (x, 0#32)
      | .sigmoid => some (0x3F000000#32, 0#32)
    else
      let v := FV.fin n m e
      match f with
      | .rsqrt => if n then some (nan32, asw.NV) else none
      | .exp2 => if v.isInt ∧ -149 ≤ v.floorInt ∧ v.floorInt ≤ 127 then some (exactPow2 v.floorInt) else none
      | .log2 =>
        if n then some (nan32, asw.NV)
        else
          match v.log2Exact? with
          | some k => some (w32Of (.ofInt k), 0#32)
          | none => none
      | .ln => if n then some (nan32, asw.NV) else if x = one32 then some (0#32, 0#32) else none
      | .sinpi =>
        if v.isInt then some (if n then 0x80000000#32 else 0#32, 0#32)
        else if v.dbl.isInt then some (if v.floorInt % 2 = 0 then one32 else 0xBF800000#32, 0#32)
        else none
      | .cospi =>
        if v.isInt then some (if v.floorInt % 2 = 0 then one32 else 0xBF800000#32, 0#32)
        else if v.dbl.isInt then some (0#32, 0#32)
        else none
      | _ => none

/-- A saturation threshold row (Table 5-3): low threshold, high threshold, as FP32 values. -/
def SfuFn.thresholds (f : SfuFn) (out : NumFmt) : Option (W32 × W32) :=
  match f, out with
  | .tanh, .fp32 => some (0xC1102CB3#32, 0x41102CB3#32)
  | .tanh, .bf16 => some (0xC05DCE9E#32, 0x405DCE9E#32)
  | .tanh, .fp16 => some (0xC0902CB4#32, 0x40902CB4#32)
  | .sigmoid, .fp32 => some (0xC2CFF1B4#32, 0x418AA123#32)
  | .sigmoid, .bf16 => some (0xC2B9C371#32, 0x40C7A05C#32)
  | .sigmoid, .fp16 => some (0xC18AA123#32, 0x41051592#32)
  | .exp, .fp32 => some (0xC2CFF1B4#32, 0x42B17218#32)
  | .exp, .bf16 => some (0xC2B9C371#32, 0x42B17117#32)
  | .exp, .fp16 => some (0xC18AA123#32, 0x41317117#32)
  | .exp2, .fp32 => some (0xC3160000#32, 0x43000000#32)
  | .exp2, .bf16 => some (0xC3060000#32, 0x42FFFE8E#32)
  | .exp2, .fp16 => some (0xC1C80000#32, 0x417FFE91#32)
  | _, _ => none

/-- The output format of an option. -/
def optOut (o : SfuOpt) : NumFmt := o.narrow.getD .fp32

/-- Convert an FP32 result to the output format; a NaN adds no flag (R137). -/
def narrow32 (o : SfuOpt) (r : F32R) : W32 × AswBits :=
  match o.narrow with
  | none => r
  | some f =>
    let (c, g) := convertFmt f o.sat true (fv32 r.1)
    let tinyIn := match floatFmt f with
      | some ff => (fv32 r.1).isFin && !(fv32 r.1).isZero && (fv32 r.1).lt (pow2 (ff.qmin + ff.mbits))
          && ((fv32 r.1).negate).lt (pow2 (ff.qmin + ff.mbits))
      | none => false
    let all := r.2 ||| g
    (BitVec.ofNat 32 c, all ||| flagIf (tinyIn && (all &&& asw.NX) ≠ 0#32) asw.UF)

/-- The limit of a saturated argument (Table 5-3), in the output format. -/
def SfuFn.saturate (f : SfuFn) (o : SfuOpt) (high : Bool) : W32 × AswBits :=
  let one (neg : Bool) : W32 := BitVec.ofNat 32 (convertFmt (optOut o) false true (.fin neg 1 0)).1
  if high then
    if f = .tanh ∨ f = .sigmoid then (one false, asw.NX)
    else
      match floatFmt (optOut o) with
      | some ff => (BitVec.ofNat 32 (if o.sat then ff.maxFin else ff.infMag.getD ff.maxFin), asw.OF ||| asw.NX)
      | none => (0#32, 0#32)
  else if f = .tanh then (one true, asw.NX)
  else (0#32, asw.UF ||| asw.NX)

/-- The result of an operation on generic operands from its FP32 bits (R137, R140): SAT's overflow, the narrow conversion,
NX where the output is not the exact value, UF where that value also lies below the output format's smallest normal.
`exact` tells whether a value is the exact one, `tiny e` whether the exact one lies below 2^e. -/
def settleSfu (o : SfuOpt) (exact : FV → Bool) (tiny : Int → Bool) (r : W32) : W32 × AswBits :=
  let isOver := (fv32 r).isInf
  let r := if o.sat && isOver then maxFin32 (fv32 r).neg? else r
  let (c, g) : Nat × AswBits := match o.narrow with
    | none => (r.toNat, 0#32)
    | some f => convertFmt f o.sat true (fv32 r)
  let nx := !exact (decodeFmt (optOut o) c)
  let low := match floatFmt (optOut o) with
    | some ff => tiny (ff.qmin + ff.mbits)
    | none => false
  (BitVec.ofNat 32 c, (g &&& ~~~ (asw.NX ||| asw.UF)) ||| flagIf isOver asw.OF |||
    flagIf nx asw.NX ||| flagIf (nx && low) asw.UF)

/-- Whether a value is finite and not zero. -/
def FV.generic (v : FV) : Bool := v.isFin && !v.isZero

/-! ## Native values (R138 to R141) -/

/-- A base function's exact value at a generic argument that no special value covers; arguments whose value overflows FP32
take 2^129. -/
def SfuFn.encl (f : SfuFn) (x : W32) : Encl :=
  let v := fv32 x
  let (m, e) := match v with | .fin _ m e => (m, e) | _ => (1, 0)
  match f with
  | .rcp => if v.neg? then (rcpEncl m e).neg else rcpEncl m e
  | .rsqrt => rsqrtEncl m e
  | .exp2 => if v.lt (.ofInt 129) then exp2Encl v else ⟨1, 1, 129⟩
  | .exp => if v.lt (.ofInt 90) then expEncl v else ⟨1, 1, 129⟩
  | .log2 => log2Encl m e
  | .ln => lnEncl m e
  | .sinpi => sinpiEncl v
  | .cospi => cospiEncl v
  | .tanh => tanhEncl v
  | .sigmoid => sigmoidEncl v

/-- Whether a value is a base function's exact one at a generic argument: only a reciprocal or a root can be. -/
def SfuFn.exact (f : SfuFn) (x : W32) (r : FV) : Bool :=
  match f with
  | .rcp => ((fv32 x).mulFin r).eqNum (pow2 0)
  | .rsqrt => ((fv32 x).mulFin (r.mulFin r)).eqNum (pow2 0)
  | _ => false

/-- Whether a base function's exact magnitude at a generic argument lies below 2^e. -/
def SfuFn.tiny (f : SfuFn) (x : W32) (e : Int) : Bool := (f.encl x).below e

/-- The native bound in half ulps (Table 5-1). -/
def SfuFn.bound : SfuFn → Nat
  | .rcp => 2
  | .rsqrt => 2
  | .exp2 => 2
  | .log2 => 2
  | _ => 4

/-- The keys a native FP32 result may have at the argument of key k: one, at a special value or from a threshold on; else
those within the bound. -/
def SfuFn.range (f : SfuFn) (k : Int) : Int × Int :=
  let x := keyCode false k
  let sat (high : Bool) : Int := ordKey (f.saturate ⟨none, false⟩ high).1
  match f.special x with
  | some r => (ordKey r.1, ordKey r.1)
  | none =>
    match f.thresholds .fp32 with
    | some (lo, hi) =>
      if k ≤ ordKey lo then (sat false, sat false)
      else if ordKey hi ≤ k then (sat true, sat true)
      else (f.encl x).keys f.bound
    | none => (f.encl x).keys f.bound

/-- A free native result in the order of R139 over n + 1 arguments, in the order in which the function does not decrease. -/
def SfuFn.along (f : SfuFn) (n : Nat) (arg : Nat → Int) (i : Nat) : Int :=
  inOrder n (fun j => (f.range (arg j)).1) (fun j => (f.range (arg j)).2)
    (fun j => ordKey (Config.nativeBits f.num (keyCode false (arg j)) 0#32)) i

/-- The greatest finite key. -/
def topKey : Nat := 0x7F7FFFFF

/-- The key of a function's native FP32 result: free, within the bound (R138) and monotonic (R139); the circular functions
have no order. -/
def SfuFn.nativeKey (f : SfuFn) (k : Int) : Int :=
  let falling := f.along (topKey - 1) (fun j => (topKey : Int) - j) ((topKey : Int) - k).toNat
  match f with
  | .rcp => if k > 0 then falling else f.along (topKey - 1) (fun j => -1 - (j : Int)) (-1 - k).toNat
  | .rsqrt => falling
  | .log2 => f.along (topKey - 1) (fun j => (j : Int) + 1) (k - 1).toNat
  | .ln => f.along (topKey - 1) (fun j => (j : Int) + 1) (k - 1).toNat
  | .sinpi => clampKey (f.range k).1 (f.range k).2 (ordKey (Config.nativeBits f.num (keyCode false k) 0#32))
  | .cospi => clampKey (f.range k).1 (f.range k).2 (ordKey (Config.nativeBits f.num (keyCode false k) 0#32))
  | _ => f.along (2 * topKey) (fun j => (j : Int) - topKey) (k + topKey).toNat

/-- A function's native FP32 bits at a generic argument that no special value or threshold covers; a zero has the sign of
the exact value. -/
def SfuFn.native (f : SfuFn) (x : W32) : W32 := keyCode (decide ((f.encl x).hi ≤ 0)) (f.nativeKey (ordKey x))

/-- A special function in native mode (R137, R140, R141), at its output format. -/
def sfuNative (f : SfuFn) (o : SfuOpt) (x : W32) : W32 × AswBits :=
  let eval : Unit → W32 × AswBits := fun _ =>
    match f.special x with
    | some r => narrow32 o r
    | none => settleSfu o (f.exact x) (f.tiny x) (f.native x)
  if (fv32 x).generic then
    match f.thresholds (optOut o) with
    | some (lo, hi) =>
      if ordKey x ≤ ordKey lo then f.saturate o false
      else if ordKey hi ≤ ordKey x then f.saturate o true
      else eval ()
    | none => eval ()
  else eval ()

/-- √x exact, and below 2^e. -/
def sqrtExact (x : W32) (r : FV) : Bool := !r.neg? && (r.mulFin r).eqNum (fv32 x)
def sqrtTiny (x : W32) (e : Int) : Bool := (fv32 x).lt (pow2 (2 * e))

/-- SQRT in native mode: correctly rounded. -/
def sqrtNative (o : SfuOpt) (x : W32) : W32 × AswBits :=
  if (fv32 x).generic && !(fv32 x).neg? then settleSfu o (sqrtExact x) (sqrtTiny x) (sqrt32 x).1 else narrow32 o (sqrt32 x)

/-- a/b exact, and below 2^e. -/
def divIsExact (a b : W32) (r : FV) : Bool := (r.mulFin (fv32 b)).eqNum (fv32 a)
def divTiny (a b : W32) (e : Int) : Bool := (fv32 a).magn.lt ((fv32 b).magn.mulFin (pow2 e))

/-- DIV in native mode: correctly rounded. -/
def divNative (o : SfuOpt) (a b : W32) : W32 × AswBits :=
  if (fv32 a).generic && (fv32 b).generic then settleSfu o (divIsExact a b) (divTiny a b) (div32 a b).1
  else narrow32 o (div32 a b)

/-! ## Uluver mode (R144, R145) -/

/-- A subnormal is zero of the same sign. -/
def ftz (x : W32) : W32 :=
  if x.toNat % 2 ^ 31 < 2 ^ 23 then BitVec.ofNat 32 (x.toNat / 2 ^ 31 * 2 ^ 31) else x

/-- Whether a code is a non-zero subnormal. -/
def isSub (x : W32) : Bool := decide (x.toNat % 2 ^ 31 < 2 ^ 23) && decide (x.toNat % 2 ^ 31 ≠ 0)

/-- A Uluver result: a subnormal is written as zero, with UF and NX. -/
def flushed (r : W32) (k : W32 → W32 × AswBits) : W32 × AswBits :=
  let y := k (ftz r)
  if isSub r then (y.1, y.2 ||| asw.UF ||| asw.NX) else y

/-- The U3 bound (Table 5-5): half ulps, and the absolute bound 2^a that holds where it is wider. -/
def SfuFn.u3Bound (f : SfuFn) (x : W32) : Nat × Option Int :=
  match f with
  | .rcp => (2, none)
  | .log2 => (4, if ordKey 0x3F000000#32 ≤ ordKey x ∧ ordKey x ≤ ordKey 0x40000000#32 then some (-22) else none)
  | .sinpi => (0, some (-22))
  | .cospi => (0, some (-22))
  | .tanh => (4, some (-24))
  | .sigmoid => (4, some (-24))
  | _ => (4, none)

/-- The U3 result of a base function before a subnormal is flushed: a special value, else free bits within the bound. -/
def u3Raw (f : SfuFn) (x : W32) : W32 :=
  let x := ftz x
  match f.special x with
  | some r => r.1
  | none =>
    let (lo, hi) := (f.encl x).keys (f.u3Bound x).1 (f.u3Bound x).2
    keyCode (decide ((f.encl x).hi ≤ 0)) (clampKey lo hi (ordKey (Config.u3Bits f.num x)))

/-- The U3 result of a base function. -/
def u3 (f : SfuFn) (x : W32) : W32 := ftz (u3Raw f x)

/-- A special function in Uluver mode (Table 5-5); special inputs as Table 5-2, flags from the inputs and the result. -/
def sfuUluver (f : SfuFn) (o : SfuOpt) (x : W32) : W32 × AswBits :=
  let x := ftz x
  match f.special x with
  | some r => flushed r.1 (fun y => narrow32 o (y, r.2))
  | none =>
    flushed
      (match f with
        | .exp => u3Raw .exp2 (mul32 x 0x3FB8AA3B#32).1
        | .ln => (mul32 (u3 .log2 x) 0x3F317218#32).1
        | f => u3Raw f x)
      (settleSfu o (f.exact x) (f.tiny x))

/-- SQRT in Uluver mode. -/
def sqrtUluver (o : SfuOpt) (x : W32) : W32 × AswBits :=
  let x := ftz x
  if (fv32 x).generic && !(fv32 x).neg? then
    flushed (mul32 x (u3 .rsqrt x)).1 (settleSfu o (sqrtExact x) (sqrtTiny x))
  else narrow32 o (sqrt32 x)

/-- DIV in Uluver mode; special operands as Table 5-2. -/
def divUluver (o : SfuOpt) (a b : W32) : W32 × AswBits :=
  let a := ftz a
  let b := ftz b
  if (fv32 a).generic && (fv32 b).generic then
    flushed (mul32 a (u3 .rcp b)).1 (settleSfu o (divIsExact a b) (divTiny a b))
  else narrow32 o (div32 a b)

/-! ## SFG (R142, R143) -/

def sfgNum : SfgAct → Nat
  | .relu => 16
  | .sigmoid => 17
  | .silu => 18
  | .geluT => 19
  | .geluE => 20

/-- The threshold at and above which the gating factor is not evaluated (R143). -/
def sfgThreshold : SfgAct → Option W32
  | .silu => some 0x418AA123#32
  | .geluT => some 0x40A1F3B6#32
  | .geluE => some 0x40AD6873#32
  | _ => none

/-- The bound of the final FP32 result in half ulps (Table 5-4). -/
def sfgBound : SfgAct → Nat
  | .relu => 1
  | .sigmoid => 5
  | .silu => 6
  | _ => 8

/-- The magnitude of act(g), for g generic (Table 5-4). -/
def actEncl (act : SfgAct) (g : FV) : Encl :=
  let m := Encl.ofFV g.magn
  match act with
  | .relu => if g.neg? then ⟨0, 0, 0⟩ else m
  | .sigmoid => sigmoidEncl g
  | .silu => m.mulPos (sigmoidEncl g)
  | .geluT =>
    let cubic := g.addFin ((fv32 0x3D372713#32).mulFin (g.mulFin (g.mulFin g)))
    m.mulPos (sigmoidEncl ((fv32 0x3F4C422A#32).mulFin cubic).dbl)
  | .geluE => m.mulPos (phiEncl g)

/-- act(g) where a rule fixes the unit's value: RELU, the limits at an infinity, the saturated factor, SIGMOID's thresholds
and its value at zero. -/
def gateFixed (act : SfgAct) (g : W32) : Option FV :=
  let v := fv32 g
  let zero := FV.fin false 0 0
  if act = .relu then some (if v.neg? || v.isZero then zero else v)
  else if v.isInf then some (if v.neg? then zero else if act = .sigmoid then pow2 0 else v)
  else if v.isZero then some (if act = .sigmoid then pow2 (-1) else v)
  else if act = .sigmoid then
    if ordKey 0x418AA123#32 ≤ ordKey g then some (pow2 0)
    else if ordKey g ≤ ordKey 0xC2CFF1B4#32 then some zero
    else none
  else
    match sfgThreshold act with
    | some t => if ordKey t ≤ ordKey g then some v else none
    | none => none

/-- The unit's internal value of act(g), not NaN: the fixed one, else free, with the sign of act(g); zero only where the
bound of every product with a finite u admits it. -/
def gateValue (act : SfgAct) (g : W32) : FV :=
  match gateFixed act g with
  | some a => a
  | none =>
    let m := Config.gateMant (sfgNum act) g
    let e := actEncl act (fv32 g)
    let vanishes := (FV.fin false e.lo.toNat e.q).lt (.fin false (sfgBound act) (-278))
    .fin (act ≠ .sigmoid && (fv32 g).neg?) (if m = 0 ∧ ¬ vanishes then 1 else m) (Config.gateExp (sfgNum act) g)

/-- The key of |a × u| rounded, for u generic. -/
def gateProduct (act : SfgAct) (g u : W32) : Int := ordKey (rnd32 ((gateValue act g).magn.mulFin (fv32 u).magn)).1

/-- The keys that |SFG.act g, u| may have, for g not infinite and u generic (Table 5-4). -/
def gateRange (act : SfgAct) (g u : W32) : Int × Int :=
  if (gateFixed act g).isSome then (gateProduct act g u, gateProduct act g u)
  else
    let k := ((actEncl act (fv32 g)).mulPos (Encl.ofFV (fv32 u).magn)).keys (sfgBound act)
    (max 0 k.1, k.2)

/-- The key of |SFG.act g, u|: the product of the unit's value, within the bound; in order of g for SIGMOID (R139). -/
def gateKey (act : SfgAct) (g u : W32) : Int :=
  let arg := fun (j : Nat) => keyCode false ((j : Int) - topKey)
  if act = .sigmoid then
    inOrder (2 * topKey) (fun j => (gateRange act (arg j) u).1) (fun j => (gateRange act (arg j) u).2)
      (fun j => gateProduct act (arg j) u) (ordKey g + topKey).toNat
  else clampKey (gateRange act g u).1 (gateRange act g u).2 (gateProduct act g u)

/-- The exact product a × u with one rounding, 0 × ∞ giving NaN and NV. -/
def gateMul (o : SfuOpt) (a : FV) (u : W32) : W32 × AswBits :=
  let (p, f) := a.mul (fv32 u)
  if p.generic then settleSfu o p.eqNum (fun e => p.magn.lt (pow2 e)) (rnd32 p).1 else narrow32 o ((rnd32 p).1, f)

/-- |act(g) × u| below 2^e, for both generic. -/
def sfgTiny (act : SfgAct) (g u : W32) (e : Int) : Bool := ((actEncl act (fv32 g)).mulPos (Encl.ofFV (fv32 u).magn)).below e

/-- SFG.act g, u in native mode (R142, R143). -/
def sfgNative (act : SfgAct) (o : SfuOpt) (g u : W32) : W32 × AswBits :=
  if (fv32 g).isNan || (fv32 u).isNan then narrow32 o (nan32, asw.NANIN)
  else
    let a := gateValue act g
    if act = .relu || !(fv32 g).generic || !(fv32 u).generic then gateMul o a u
    else
      let neg := a.neg? != (fv32 u).neg?
      let k := gateKey act g u
      settleSfu o (fun _ => false) (sfgTiny act g u) (keyCode neg (if neg then -k else k))

/-- SFG in Uluver mode (Table 5-5): an infinite gate has the limits of R143. -/
def sfgUluver (act : SfgAct) (o : SfuOpt) (g u : W32) : W32 × AswBits :=
  if act = .relu then sfgNative .relu o g u
  else if (fv32 g).isNan || (fv32 u).isNan then narrow32 o (nan32, asw.NANIN)
  else
    let g := ftz g
    let u := ftz u
    if (fv32 g).isInf then gateMul o (gateValue act g) u
    else
      let s := u3 .sigmoid g
      let a := if act = .sigmoid then s else (mul32 g s).1
      let (y, f) := mul32 a u
      flushed y (if (fv32 g).generic && (fv32 u).generic then settleSfu o (fun _ => false) (sfgTiny act g u)
        else fun r => narrow32 o (r, f))

/-! ## Row algorithms (R150 to R162) -/

/-- FP32 of a count. -/
def nat32 (n : Nat) : W32 := w32Of (.ofInt n)

/-- An exact sum divided by a count, rounded once. -/
def divExact (v : FV) (n : Nat) : F32R :=
  match v with
  | .fin neg m e =>
    if n = 0 then (nan32, asw.NV)
    else let (c, f) := ff32.roundRat false neg m n e; (BitVec.ofNat 32 c, f)
  | .inf neg => (inf32 neg, 0#32)
  | .nan => (nan32, 0#32)

/-- Rounded differences x[i] − c and their flags. -/
def mapFlags (f : W32 → F32R) : List W32 → List W32 × AswBits
  | [] => ([], 0#32)
  | x :: t =>
    let (y, g) := f x
    let (ys, h) := mapFlags f t
    (y :: ys, g ||| h)

/-- A row's statistics: mean, variance, flags. -/
structure RowStat where
  mean : W32
  var : W32
  flags : AswBits
deriving DecidableEq, Repr

/-- A variance that is negative or −0 is +0. -/
def cleanVar (w : W32) : W32 := if w.toNat ≥ 2 ^ 31 ∧ ¬ (fv32 w).isNan then 0#32 else w

/-- RSTAT (R151, R152, R154). -/
def rowStat (xs : List W32) (unbiased : Bool) : RowStat :=
  let n := xs.length
  let vs := xs.map fv32
  if vs.any FV.isNan then ⟨nan32, nan32, asw.NANIN⟩
  else if vs.any FV.isInf then
    let negs := vs.any (fun v => v.isInf && v.neg?)
    let poss := vs.any (fun v => v.isInf && !v.neg?)
    ⟨if negs && poss then nan32 else inf32 negs, nan32, asw.NV⟩
  else if n ≤ 1 then
    let mu := xs.headD 0#32
    if unbiased then ⟨mu, nan32, asw.NV⟩ else ⟨mu, 0#32, 0#32⟩
  else
    let dv := if unbiased then n - 1 else n
    if n ≤ 65536 then
      let (s, _) := exactSum vs
      let (mu, f1) := divExact s n
      let (ds, f2) := mapFlags (fun x => sub32 x mu) xs
      let (qs, f3) := mapFlags (fun d => mul32 d d) ds
      if (qs.map fv32).any FV.isInf then
        ⟨mu, inf32 false, (f1 ||| f2 ||| f3 ||| asw.OF ||| asw.NX) &&& ~~~ asw.NV⟩
      else
        let (q, _) := exactSum (qs.map fv32)
        let (var, f4) := divExact q dv
        ⟨mu, cleanVar var, f1 ||| f2 ||| f3 ||| f4⟩
    else
      let c := xs.headD 0#32
      let (es, f1) := mapFlags (fun x => sub32 x c) xs
      let (s1, f2) := tree32 es
      let (qs, f3) := mapFlags (fun e => mul32 e e) es
      let (s2, f4) := tree32 qs
      let f := f1 ||| f2 ||| f3 ||| f4
      if (fv32 s1).isInf || (fv32 s1).isNan || (es.map fv32).any FV.isInf then
        let mu := if (fv32 s1).isInf then s1 else inf32 (fv32 s1).neg?
        ⟨mu, inf32 false, (f ||| asw.OF ||| asw.NX) &&& ~~~ asw.NV &&& ~~~ asw.NANIN⟩
      else
        let (m1, f5) := div32 s1 (nat32 n)
        let (mu, f6) := add32 c m1
        if (fv32 s2).isInf || (qs.map fv32).any FV.isInf then
          ⟨mu, inf32 false, (f ||| f5 ||| f6 ||| asw.OF ||| asw.NX) &&& ~~~ asw.NV⟩
        else
          let (p, f7) := mul32 s1 s1
          let (t, f8) := div32 p (nat32 n)
          let (d, f9) := sub32 s2 t
          let (var, f10) := div32 d (nat32 dv)
          ⟨mu, cleanVar var, f ||| f5 ||| f6 ||| f7 ||| f8 ||| f9 ||| f10⟩

/-- The mean square of RMSNORM and its flags (R156); an infinity in the row has the flags of R154. -/
def rowMeanSquare (xs : List W32) : F32R :=
  let n := xs.length
  let vs := xs.map fv32
  if vs.any FV.isNan then (nan32, asw.NANIN)
  else if vs.any FV.isInf then (inf32 false, asw.NV)
  else
    let (qs, f1) := mapFlags (fun x => mul32 x x) xs
    if n ≤ 65536 then
      if (qs.map fv32).any FV.isInf then (inf32 false, f1 ||| asw.OF ||| asw.NX)
      else let (r, f2) := divExact (exactSum (qs.map fv32)).1 n; (r, f1 ||| f2)
    else
      let (s, f2) := tree32 qs
      let (r, f3) := div32 s (nat32 n)
      (r, f1 ||| f2 ||| f3)

/-- Reciprocal square root once per row, native or Uluver. -/
def rowRsqrt (uluver : Bool) (v : W32) : F32R := if uluver then sfuUluver .rsqrt ⟨none, false⟩ v else sfuNative .rsqrt ⟨none, false⟩ v

/-- exp in a row instruction, native or Uluver. -/
def rowExp (uluver : Bool) (v : W32) : F32R := if uluver then sfuUluver .exp ⟨none, false⟩ v else sfuNative .exp ⟨none, false⟩ v

/-- Division in a row instruction: correctly rounded, or × U3RCP. -/
def rowDiv (uluver : Bool) (a b : W32) : F32R := if uluver then divUluver ⟨none, false⟩ a b else div32 a b

/-- One element of the normalisation loop (R155). Where v is +0, z is +0 and the output β, or +0 (R157): a scale that is not
finite takes no part. -/
def normElem (vZero : Bool) (r d : W32) (g b : Option W32) : F32R :=
  if vZero then
    match g, b with
    | some g, some b => if (fv32 g).isFin then fma32 0#32 g b else add32 0#32 b
    | none, some b => add32 0#32 b
    | _, none => (0#32, 0#32)
  else
    let (z, f) := mul32 d r
    match g, b with
    | some g, some b => let (y, h) := fma32 z g b; (y, f ||| h)
    | some g, none => let (y, h) := mul32 z g; (y, f ||| h)
    | none, some b => let (y, h) := add32 z b; (y, f ||| h)
    | none, none => (z, f)

/-- The maximum of FP32 values that are not NaN, from −∞. -/
def rowMax (xs : List W32) : W32 := xs.foldl (fun a b => (max32 a b).1) (inf32 true)

end Sys2Proof.Machine
end

