-- ==== Sys2Proof/Machine/MatMath.lean ====
section
/-! DEFINITION. Matrix descriptors (Table 3-2), operand ranges (R84, R85), and the arithmetic of a matrix operation:
Sterling and fixed order (R57 to R65), folding (R88), skipped compares (R70 to R72). -/

namespace Sys2Proof.Machine

/-! ## Descriptors -/

/-- A decoded matrix descriptor (Table 3-2). -/
structure MatDesc where
  fmtA : Nat
  fmtB : Nat
  fmtD : Nat
  sat : Bool
  mode : Nat
  cSrc : Nat
  bRead : Bool
  m : Nat
  n : Nat
  k : Nat
  resv : Bool
  aBase : Nat
  aStride : Nat
  ascBase : Nat
  bBase : Nat
  bStride : Nat
  bscBase : Nat
  cBase : Nat
  dBase : Nat
  cdStride : Nat
deriving DecidableEq, Repr

/-- The fields of four descriptor words. -/
def matDesc (w : List W64) : MatDesc :=
  let f := fun k hi lo => bitsOf (w.getD k 0#64) hi lo
  { fmtA := f 0 63 60, fmtB := f 0 59 56, fmtD := f 0 55 53, sat := f 0 52 52 = 1, mode := f 0 51 50, cSrc := f 0 49 48,
    bRead := f 0 47 47 = 1, m := f 0 46 37 + 1, n := f 0 36 23 + 1, k := f 0 22 7 + 1,
    resv := f 0 6 0 ≠ 0 || f 1 3 0 ≠ 0 || f 2 3 0 ≠ 0 || f 3 3 0 ≠ 0,
    aBase := f 1 63 44, aStride := f 1 43 24, ascBase := f 1 23 4,
    bBase := f 2 63 44, bStride := f 2 43 24, bscBase := f 2 23 4,
    cBase := f 3 63 44, dBase := f 3 43 24, cdStride := f 3 23 4 }

/-- The element format and whether it is block-scaled (Table 3-3). -/
def opFmt (code : Nat) : Option (NumFmt × Bool) :=
  match code with
  | 0 => some (.int8, false)
  | 1 => some (.int4, false)
  | 2 => some (.e4m3, false)
  | 3 => some (.e5m2, false)
  | 4 => some (.e3m2, false)
  | 5 => some (.e2m3, false)
  | 6 => some (.e2m1, false)
  | 7 => some (.bf16, false)
  | 8 => some (.fp16, false)
  | 9 => some (.e4m3, true)
  | 10 => some (.e5m2, true)
  | 11 => some (.e3m2, true)
  | 12 => some (.e2m3, true)
  | 13 => some (.e2m1, true)
  | 14 => some (.int8, true)
  | _ => none

/-- How a pair accumulates (Table 2-4). -/
inductive Accum
  | sterling
  | chunk
  | product
deriving DecidableEq, Repr

/-- The accumulation of an operand pair, if Table 2-4 has it. -/
def accumOf (a b : Nat) : Option Accum :=
  match opFmt a, opFmt b with
  | some (fa, ma), some (fb, mb) =>
    if ma ≠ mb then none
    else if ma then some .chunk
    else if fa = .bf16 ∨ fa = .fp16 ∨ fb = .bf16 ∨ fb = .fp16 then (if fa = fb then some .product else none)
    else if fa = .e5m2 ∨ fb = .e5m2 then some .chunk
    else some .sterling
  | _, _ => none

/-- Whether a pair is a 4-bit pair (R79). -/
def fourBit (d : MatDesc) : Bool :=
  let four := fun c => c = 1 || c = 6 || c = 13
  four d.fmtA && four d.fmtB

/-- Pass parameters K_pass, N_pass, R_pass (Table 3-6). -/
def passParams (d : MatDesc) (packed : Bool) : Nat × Nat × Nat :=
  let kp := if packed then 32 else 128
  (if fourBit d then 2 * kp else kp, kp, kp)

def ceilDiv (a b : Nat) : Nat := (a + b - 1) / b

/-- Passes of one fold block. -/
def MatDesc.passes (d : MatDesc) (packed : Bool) : Nat := ceilDiv d.k (passParams d packed).1

/-- Fold blocks of an operation (R88). -/
def MatDesc.folds (d : MatDesc) (packed : Bool) : Nat :=
  ceilDiv d.n (passParams d packed).2.1 * ceilDiv d.m (passParams d packed).2.2

/-- The result format (Table 3-4) as an element format, with its size; INT32 and Sterling stand apart. -/
inductive ResFmt
  | fmt (f : NumFmt)
  | int32
  | sterling
deriving DecidableEq, Repr

def resFmt (code : Nat) : ResFmt :=
  match code with
  | 0 => .fmt .fp32
  | 1 => .fmt .bf16
  | 2 => .fmt .fp16
  | 3 => .fmt .e5m2
  | 4 => .fmt .e4m3
  | 5 => .fmt .int8
  | 6 => .int32
  | _ => .sterling

/-- Bytes of one result element. -/
def resSize (code : Nat) : Nat :=
  match code with
  | 0 => 4
  | 1 => 2
  | 2 => 2
  | 3 => 1
  | 4 => 1
  | 5 => 1
  | 6 => 4
  | _ => 8

/-- Bytes of one accumulator-input element. -/
def cSize (d : MatDesc) : Nat := if d.cSrc = 2 then 8 else 4

/-- Bytes of a row of n elements of a format, with the packing of R51. -/
def rowBytes (f : NumFmt) (n : Nat) : Nat :=
  match f with
  | .int4 => ceilDiv n 2
  | .e2m1 => ceilDiv n 2
  | .e3m2 => ceilDiv n 4 * 3
  | .e2m3 => ceilDiv n 4 * 3
  | .bf16 => 2 * n
  | .fp16 => 2 * n
  | .fp32 => 4 * n
  | .sterling => 8 * n
  | _ => n

/-- The load-time checks of a matrix descriptor that make its program INVALID (R82). -/
def MatDesc.loadOk (d : MatDesc) : Bool :=
  match accumOf d.fmtA d.fmtB with
  | none => false
  | some acc =>
    let packed := decide (d.mode = 1)
    let aligned := [d.aBase, d.aStride, d.bBase, d.bStride, d.cBase, d.dBase, d.cdStride, d.ascBase, d.bscBase].all
      (fun x => x % 32 = 0)
    decide (d.mode ≤ 1) && decide (d.cSrc ≤ 2) && !d.resv && aligned
      && !(d.fmtD = 7 && acc ≠ .sterling)
      && !(d.cSrc = 2 && acc ≠ .sterling) && !(d.cSrc = 1 && acc = .sterling)
      && !(acc ≠ .sterling && d.passes packed > 255)

/-! ## Ranges (R84, R85) -/

/-- A byte range: first address and length. -/
abbrev Range := Nat × Nat

def Range.overlaps (a b : Range) : Bool := decide (a.1 < b.1 + b.2) && decide (b.1 < a.1 + a.2) && a.2 ≠ 0 && b.2 ≠ 0

/-- The bytes from the first row's start to the last row's end, those between strided rows among them (DEDUCED, entry 121). -/
def spanOf (base stride rows bytes : Nat) : Range := (base, if rows = 0 then 0 else (rows - 1) * stride + bytes)

def MatDesc.aRange (d : MatDesc) (off : Nat) : Range :=
  spanOf (d.aBase + off) d.aStride d.m (match opFmt d.fmtA with | some (f, _) => rowBytes f d.k | none => 0)

def MatDesc.bRange (d : MatDesc) (off : Nat) : Range :=
  let f := match opFmt d.fmtB with | some (f, _) => f | none => NumFmt.int8
  if d.bRead then spanOf (d.bBase + off) d.bStride d.n (rowBytes f d.k)
  else spanOf (d.bBase + off) d.bStride d.k (rowBytes f d.n)

def MatDesc.ascRange (d : MatDesc) (off : Nat) : Range :=
  match opFmt d.fmtA with
  | some (_, true) => (d.ascBase + off, d.m * ceilDiv d.k 32)
  | _ => (0, 0)

def MatDesc.bscRange (d : MatDesc) (off : Nat) : Range :=
  match opFmt d.fmtB with
  | some (_, true) => (d.bscBase + off, d.n * ceilDiv d.k 32)
  | _ => (0, 0)

def MatDesc.cRange (d : MatDesc) (off : Nat) : Range :=
  if d.cSrc = 0 then (0, 0) else spanOf (d.cBase + off) d.cdStride d.m (cSize d * d.n)

def MatDesc.dRange (d : MatDesc) (off : Nat) : Range :=
  spanOf (d.dBase + off) d.cdStride d.m (resSize d.fmtD * d.n)

/-- Operand and scale ranges other than D. -/
def MatDesc.inRanges (d : MatDesc) (off : Nat) : List Range :=
  ([d.aRange off, d.bRange off, d.ascRange off, d.bscRange off, d.cRange off]).filter (fun r => r.2 ≠ 0)

/-! ## Elements -/

/-- The code of element i of a packed row at an address (R51). -/
def elemCode (ls : Tab Byte) (f : NumFmt) (addr i : Nat) : Nat :=
  match f with
  | .int4 => (tabGet 0#8 ls (addr + i / 2)).toNat / 16 ^ (i % 2) % 16
  | .e2m1 => (tabGet 0#8 ls (addr + i / 2)).toNat / 16 ^ (i % 2) % 16
  | .e3m2 => leNat (getBytes ls (addr + i / 4 * 3) 3) / 64 ^ (i % 4) % 64
  | .e2m3 => leNat (getBytes ls (addr + i / 4 * 3) 3) / 64 ^ (i % 4) % 64
  | .bf16 => leNat (getBytes ls (addr + 2 * i) 2)
  | .fp16 => leNat (getBytes ls (addr + 2 * i) 2)
  | .fp32 => leNat (getBytes ls (addr + 4 * i) 4)
  | .sterling => leNat (getBytes ls (addr + 8 * i) 8)
  | _ => (tabGet 0#8 ls (addr + i)).toNat

/-- Element a_mk without its block scale. -/
def MatDesc.aElem (d : MatDesc) (ls : Tab Byte) (off mi ki : Nat) : FV :=
  match opFmt d.fmtA with
  | some (f, mx) =>
    let c := elemCode ls f (d.aBase + off + mi * d.aStride) ki
    if mx ∧ f = .int8 then mxValue f 127 c else decodeFmt f c
  | none => .nan

/-- Element b_kn without its block scale. -/
def MatDesc.bElem (d : MatDesc) (ls : Tab Byte) (off ki ni : Nat) : FV :=
  match opFmt d.fmtB with
  | some (f, mx) =>
    let c := if d.bRead then elemCode ls f (d.bBase + off + ni * d.bStride) ki
      else elemCode ls f (d.bBase + off + ki * d.bStride) ni
    if mx ∧ f = .int8 then mxValue f 127 c else decodeFmt f c
  | none => .nan

/-- A block scale as an exact value; 0xFF is NaN (R53, R54). -/
def scaleValue (code : Nat) : FV := if code = 0xFF then .nan else .fin false 1 ((code : Int) - 127)

def MatDesc.aScale (d : MatDesc) (ls : Tab Byte) (off mi blk : Nat) : FV :=
  scaleValue (tabGet 0#8 ls (d.ascBase + off + mi * ceilDiv d.k 32 + blk)).toNat

def MatDesc.bScale (d : MatDesc) (ls : Tab Byte) (off blk ni : Nat) : FV :=
  let a := if d.bRead then d.bscBase + off + ni * ceilDiv d.k 32 + blk else d.bscBase + off + blk * d.n + ni
  scaleValue (tabGet 0#8 ls a).toNat

def MatDesc.isMx (d : MatDesc) : Bool := match opFmt d.fmtA with | some (_, mx) => mx | none => false

/-! ## Leaves and results -/

/-- The exact products of indices k0 .. k0 + len − 1, with their flags. -/
def MatDesc.products (d : MatDesc) (ls : Tab Byte) (off mi ni k0 len : Nat) : List FV × AswBits :=
  let ps := (List.range len).map (fun i =>
    let a := d.aElem ls off mi (k0 + i)
    let b := d.bElem ls off (k0 + i) ni
    let r := a.mul b
    (r.1, r.2 ||| naninOf [a, b]))
  (ps.map (·.1), ps.foldl (fun f p => f ||| p.2) 0#32)

/-- A chunk leaf (R63): products summed exactly, multiplied exactly by the block scales, rounded once. -/
def MatDesc.chunkLeaf (d : MatDesc) (ls : Tab Byte) (off mi ni blk : Nat) : F32R :=
  let (ps, f) := d.products ls off mi ni (32 * blk) (min 32 (d.k - 32 * blk))
  let (s, g) := exactSum ps
  let (v, h) : FV × AswBits :=
    if d.isMx then
      let sa := d.aScale ls off mi blk
      let sb := d.bScale ls off blk ni
      let r1 := s.mul sa
      let r2 := r1.1.mul sb
      (r2.1, r1.2 ||| r2.2 ||| naninOf [sa, sb])
    else (s, 0#32)
  let (w, e) := rnd32 v
  (w, f ||| g ||| h ||| e)

/-- A product leaf (R63). -/
def MatDesc.productLeaf (d : MatDesc) (ls : Tab Byte) (off mi ni ki : Nat) : F32R :=
  let a := d.aElem ls off mi ki
  let b := d.bElem ls off ki ni
  roundOp [a, b] (a.mul b)

/-- Flags joined over leaves. -/
def joinFlags (l : List F32R) : AswBits := l.foldl (fun f r => f ||| r.2) 0#32

/-- The accumulator input c_mn: zero, FP32, or Sterling. -/
def MatDesc.cCode (d : MatDesc) (ls : Tab Byte) (off mi ni : Nat) : Nat :=
  if d.cSrc = 0 then 0
  else leNat (getBytes ls (d.cBase + off + mi * d.cdStride + cSize d * ni) (cSize d))

/-- One element of a fixed-order result as FP32 (R64). -/
def MatDesc.fixedElem (d : MatDesc) (ls : Tab Byte) (off : Nat) (sa sb : W32) (acc : Accum) (mi ni : Nat) : F32R :=
  let leaves := if acc = .chunk then (List.range (ceilDiv d.k 32)).map (fun b => d.chunkLeaf ls off mi ni b)
    else (List.range d.k).map (fun k => d.productLeaf ls off mi ni k)
  let (t, f) := tree32 (leaves.map (·.1))
  let c : W32 := BitVec.ofNat 32 (d.cCode ls off mi ni)
  let (r, g) := add32 c t
  let all := joinFlags leaves ||| f ||| g
  if d.isMx ∨ (sa = one32 ∧ sb = one32) then (r, all)
  else
    let p := ((fv32 sa).mul (fv32 sb)).1
    let (v, h) := (fv32 r).mul p
    let (w, e) := rnd32 v
    (w, all ||| h ||| e)

/-- The exact accumulator of one element after the first len indices; NaN where an operand is (R59, R60). -/
def MatDesc.sterlingPart (d : MatDesc) (ls : Tab Byte) (off mi ni len : Nat) : FV :=
  let c : FV := if d.cSrc = 2 then decodeFmt .sterling (d.cCode ls off mi ni) else .fin false 0 0
  (exactSum (c :: (d.products ls off mi ni 0 len).1)).1

/-- The Sterling result of one element: the exact sum, or the invalid value. -/
def MatDesc.sterlingElem (d : MatDesc) (ls : Tab Byte) (off mi ni : Nat) : W64 := sterlingOf (d.sterlingPart ls off mi ni d.k)

/-- Convert a result value to FMT_D. -/
def convertRes (code : Nat) (sat : Bool) (v : FV) : Nat × AswBits :=
  match resFmt code with
  | .fmt f => convertFmt f sat true v
  | .int32 => convertInt 32 v
  | .sterling => ((sterlingOf v).toNat, 0#32)

/-- The code that drains to D for one element, and its flags (R62, R64). -/
def MatDesc.elem (d : MatDesc) (ls : Tab Byte) (off : Nat) (sa sb : W32) (mi ni : Nat) : Nat × AswBits :=
  match accumOf d.fmtA d.fmtB with
  | none => (0, 0#32)
  | some .sterling =>
    let s := d.sterlingElem ls off mi ni
    let nanin := (d.products ls off mi ni 0 d.k).2 &&& asw.NANIN
    let bad := decide (s = BitVec.ofNat 64 (2 ^ 63))
    if d.fmtD = 7 then (s.toNat, nanin ||| flagIf bad asw.STINV)
    else if bad then
      let (c, _) := convertRes d.fmtD d.sat .nan
      (c, nanin ||| asw.NV ||| asw.STINV)
    else
      let v := ((decodeFmt .sterling s.toNat).mulFin (fv32 sa)).mulFin (fv32 sb)
      let v := if v.isZero then FV.fin false 0 0 else v
      let (c, f) := convertRes d.fmtD d.sat v
      (c, f ||| nanin)
  | some acc =>
    let (w, f) := d.fixedElem ls off sa sb acc mi ni
    let (c, g) := convertRes d.fmtD d.sat (fv32 w)
    (c, f ||| g)

/-- D written: every element at its address; flags joined. -/
def MatDesc.run (d : MatDesc) (ls : Tab Byte) (off : Nat) (sa sb : W32) : Tab Byte × AswBits :=
  let size := resSize d.fmtD
  (List.range d.m).foldl (fun acc mi =>
    (List.range d.n).foldl (fun acc ni =>
      let (c, f) := d.elem ls off sa sb mi ni
      (putBytes acc.1 (d.dBase + off + mi * d.cdStride + size * ni) (leBytes size c), acc.2 ||| f)) acc) (ls, 0#32)

/-! ## Skipped compares (R70, R72) -/

/-- Magnitude of an exact value. -/
def FV.magnitude (v : FV) : FV := if v.neg? then v.negate else v

/-- Elements with their block scales. -/
def MatDesc.aFull (d : MatDesc) (ls : Tab Byte) (off mi ki : Nat) : FV :=
  if d.isMx then ((d.aElem ls off mi ki).mul (d.aScale ls off mi (ki / 32))).1 else d.aElem ls off mi ki

def MatDesc.bFull (d : MatDesc) (ls : Tab Byte) (off ki ni : Nat) : FV :=
  if d.isMx then ((d.bElem ls off ki ni).mul (d.bScale ls off (ki / 32) ni)).1 else d.bElem ls off ki ni

/-! ### Fixed order: the check values of R69, R71 -/

/-- A value that is not negative, in FP32 rounded toward +∞. -/
def upFp32 (v : FV) : FV :=
  match v with
  | .fin _ (_ + 1) _ =>
    let w := (rnd32 v).1
    if (fv32 w).lt v then fv32 (w + 1) else fv32 w
  | _ => v

/-- Sums and products of magnitudes in FP32 rounded toward +∞ at each step. -/
def sumUp (l : List FV) : FV := l.foldl (fun s v => upFp32 ((s.add (upFp32 v)).1)) (.fin false 0 0)
def mulUp (a b : FV) : FV := upFp32 ((a.mul b).1)

/-- The sum of values of a pass's operands in FP32: the tree of R67. -/
def treeOf (l : List FV) : FV := fv32 (tree32 (l.map (fun v => (rnd32 v).1))).1

/-- The rows, columns and k of a pass (R88): fold block f, pass p. -/
structure PassArea where
  rows : List Nat
  cols : List Nat
  ks : List Nat
deriving DecidableEq, Repr

def MatDesc.area (d : MatDesc) (packed : Bool) (f p : Nat) : PassArea :=
  let (kp, np, rp) := passParams d packed
  let mBlocks := ceilDiv d.m rp
  let n0 := f / mBlocks * np
  let m0 := f % mBlocks * rp
  ⟨(List.range (min rp (d.m - m0))).map (· + m0), (List.range (min np (d.n - n0))).map (· + n0),
    (List.range (min kp (d.k - p * kp))).map (· + p * kp)⟩

/-- The leaves of one element in a pass (R63). -/
def MatDesc.passLeaves (d : MatDesc) (ls : Tab Byte) (off : Nat) (ks : List Nat) (mi ni : Nat) : List W32 :=
  if accumOf d.fmtA d.fmtB = some .chunk then
    ((ks.map (· / 32)).eraseDups).map (fun b => (d.chunkLeaf ls off mi ni b).1)
  else ks.map (fun k => (d.productLeaf ls off mi ni k).1)

/-- The subtree sum of one element that a fixed-order pass leaves (R69, R90). -/
def MatDesc.subtree (d : MatDesc) (ls : Tab Byte) (off : Nat) (ks : List Nat) (mi ni : Nat) : W32 :=
  (tree32 (d.passLeaves ls off ks mi ni)).1

/-- One compare of a fixed-order pass: the check value, the values it is compared with, and the magnitude bound. -/
structure Compare where
  x : FV
  ys : List FV
  mag : FV
deriving DecidableEq, Repr

/-- A compare with a term that is not finite is skipped (R72). -/
def Compare.skipped (c : Compare) : Bool := !(c.x.isFin && c.ys.all FV.isFin && c.mag.isFin)

/-- ⌈log2 (L + 1)⌉. -/
def leafLog (l : Nat) : Nat := if l = 0 then 0 else Nat.log2 l + 1

/-- The tolerance of a compare (R71): (⌈log2 (L + 1)⌉ + 16) × 2^−23 × Mag + 2^−126. -/
def Compare.tau (c : Compare) (l : Nat) : FV := (((FV.fin false (leafLog l + 16) (-23)).mul c.mag).1.add (.fin false 1 (-126))).1

/-- Whether a compare passes. -/
def Compare.passes (c : Compare) (l : Nat) : Bool :=
  c.ys.all (fun y => !(c.tau l).lt ((c.x.add y.negate).1).magnitude)

/-- The compares of a fixed-order pass (R69, R71): of each column, of each row with the operands' roles exchanged, and of the
corner with both totals. Operand sums are FP32 trees, each check value the tree over the products of the pass's k in FP32
(the order of these sums is a DESIGN CHOICE, entry 124). -/
def MatDesc.compares (d : MatDesc) (ls : Tab Byte) (off : Nat) (p : PassArea) : List Compare :=
  let c := fun (i j : Nat) => fv32 (d.subtree ls off p.ks i j)
  let aSum := p.ks.map (fun k => treeOf (p.rows.map (fun i => d.aFull ls off i k)))
  let bSum := p.ks.map (fun k => treeOf (p.cols.map (fun j => d.bFull ls off k j)))
  let aMag := p.ks.map (fun k => sumUp (p.rows.map (fun i => (d.aFull ls off i k).magnitude)))
  let bMag := p.ks.map (fun k => sumUp (p.cols.map (fun j => (d.bFull ls off k j).magnitude)))
  let along := fun (l : List FV) (g : Nat → FV) => treeOf (List.zipWith (fun s k => (s.mul (g k)).1) l p.ks)
  let magOf := fun (l : List FV) (g : Nat → FV) => sumUp (List.zipWith (fun s k => mulUp s (g k).magnitude) l p.ks)
  let ys := p.cols.map (fun j => treeOf (p.rows.map (fun i => c i j)))
  let zs := p.rows.map (fun i => treeOf (p.cols.map (fun j => c i j)))
  let byCol := List.zipWith (fun j y => (⟨along aSum (fun k => d.bFull ls off k j), [y],
    magOf aMag (fun k => d.bFull ls off k j)⟩ : Compare)) p.cols ys
  let byRow := List.zipWith (fun i z => (⟨along bSum (fun k => d.aFull ls off i k), [z],
    magOf bMag (fun k => d.aFull ls off i k)⟩ : Compare)) p.rows zs
  let corner : Compare := ⟨treeOf (List.zipWith (fun a b => (a.mul b).1) aSum bSum), [treeOf ys, treeOf zs],
    sumUp (byCol.map (fun x => x.mag))⟩
  byCol ++ byRow ++ [corner]

/-! ### Sterling -/

/-- The check values of a Sterling pass that has left these rows of accumulators: the sums of its rows, of its columns, and the
total (R69). -/
def checkSums (rows : List (List FV)) (cols : Nat) : List FV :=
  let sum := fun (l : List FV) => (exactSum l).1
  rows.map sum ++ (List.range cols).map (fun j => sum (rows.map (fun r => r.getD j .nan))) ++ [sum (rows.map sum)]

/-- What the check of a pass finds of its operands and results: compares skipped, compares in all, and whether a taken one
fails. -/
structure PassCheck where
  skipped : Nat
  total : Nat
  fails : Bool
deriving DecidableEq, Repr

/-- Whether no check value of a Sterling pass is the invalid value (R70); the accumulators of a pass before the last hold sums
beyond 64 bits. -/
def MatDesc.sterlingFits (d : MatDesc) (packed : Bool) (ls : Tab Byte) (off p : Nat) (a : PassArea) : Bool :=
  let kp := (passParams d packed).1
  let part := a.rows.map (fun i => a.cols.map (fun j => d.sterlingPart ls off i j (min d.k ((p + 1) * kp))))
  let fits := fun (v : FV) => decide (sterlingOf v ≠ BitVec.ofNat 64 (2 ^ 63))
  part.all (fun r => r.all (fun v => if p + 1 < d.passes packed then v.isFin else fits v))
    && (checkSums part a.cols.length).all fits

/-- The check of pass p of fold block f (R69 to R72). Sterling values are exact, so a taken compare finds them equal; a pass
with the invalid value takes none of the compares of the rows and columns it uses (DEDUCED, entry 120). -/
def MatDesc.check (d : MatDesc) (packed : Bool) (ls : Tab Byte) (off f p : Nat) : PassCheck :=
  let a := d.area packed f p
  if accumOf d.fmtA d.fmtB = some .sterling then
    let total := a.rows.length + a.cols.length + 1
    ⟨if d.sterlingFits packed ls off p a then 0 else total, total, false⟩
  else
    let cs := d.compares ls off a
    let leaves := if accumOf d.fmtA d.fmtB = some .chunk then ceilDiv a.ks.length 32 else a.ks.length
    ⟨(cs.filter Compare.skipped).length, cs.length, cs.any (fun c => !c.skipped && !c.passes leaves)⟩

end Sys2Proof.Machine
end

