-- ==== Sys2Proof/Machine/TileOps.lean ====
section
/-! DEFINITION. Tiles and launches (03_tiles.md, 04_thread_groups.md): kernel descriptors, the tile map, halting and
freeing launches, the registers of occupancy. -/

namespace Sys2Proof.Machine

/-! ## Kernel descriptors (Table 4-1, R106, R112) -/

/-- A decoded kernel descriptor. -/
structure KDesc where
  kernelId : Nat
  widthCode : Nat
  width : Nat
  groups : Nat
  vregs : Nat
  l1Share : Nat
  shared4k : Nat
  priv4k : Nat
  place : Nat
  uluver : Bool
  deadFault : Bool
  entry : Nat
  constBase : Nat
  resv : Bool
deriving DecidableEq, Repr

/-- The fields of four descriptor words. -/
def kDesc (w : List W64) : KDesc :=
  let f := fun k hi lo => bitsOf (w.getD k 0#64) hi lo
  { kernelId := f 0 63 48, widthCode := f 0 47 46,
    width := if f 0 47 46 = 0 then 16 else if f 0 47 46 = 1 then 32 else 64,
    groups := f 0 45 41 + 1, vregs := 8 * f 0 40 35, l1Share := f 0 34 33, shared4k := f 0 32 24, priv4k := f 0 23 15,
    place := f 0 14 13, uluver := f 0 12 12 = 1, deadFault := f 0 11 11 = 1, entry := f 1 63 40, constBase := f 1 39 24,
    resv := f 0 10 0 ≠ 0 || f 1 23 0 ≠ 0 || f 2 63 0 ≠ 0 || f 3 63 0 ≠ 0 }

/-- Bytes of the tile store's L1 share and of the local store (Table 4-4). -/
def l1Bytes (share : Nat) : Nat := share * 262144
def lsBytes (share : Nat) : Nat := 1048576 - l1Bytes share

def KDesc.ls (k : KDesc) : Nat := lsBytes k.l1Share
def KDesc.shared (k : KDesc) : Nat := k.shared4k * 4096
def KDesc.priv (k : KDesc) : Nat := k.priv4k * 4096

/-- The occupancy G (R112). -/
def KDesc.occupancy (k : KDesc) : Nat :=
  min 32 (min (65536 / (k.width * k.vregs))
    (if k.priv = 0 then 32 else (k.ls - k.shared) / k.priv))

/-- The load-time checks of a kernel descriptor (R106); the instructions of its code are not words of this model, so
their checks are the program's verdict. -/
def KDesc.loadOk (k : KDesc) (codeBytes : Nat) : Bool :=
  decide (k.widthCode ≤ 2) && decide (1 ≤ k.vregs) && decide (k.vregs ≤ 256) && decide (k.place ≤ 2)
    && decide (k.shared4k ≤ 256) && decide (k.priv4k ≤ 256) && !k.resv
    && decide (k.entry < codeBytes / 8) && decide (k.shared + k.priv ≤ k.ls) && decide (k.groups ≤ k.occupancy)

/-! ## The tile map (R101, R103) -/

def emptyTile : Tile := ⟨[], [], none, false, [], 0, [], [], [], [], [], [], none⟩

def State.tile (s : State) (c p : Nat) : Tile := tabGet emptyTile s.tiles (c * 16 + p)

def State.setTile (s : State) (c p : Nat) (t : Tile) : State :=
  { s with tiles := tabPut emptyTile s.tiles (c * 16 + p) t }

/-- Whether logical tile t of cluster c is in service. -/
def State.lvalid (s : State) (c t : Nat) : Bool := decide (t < 15) && s.fbit (Fld.PPL_TILE_MAP_LVALID c) t

/-- The physical number of logical tile t. -/
def State.lmap (s : State) (c t : Nat) : Nat :=
  if t < 8 then s.fld (Fld.PPL_TILE_LMAP_LO_L7_L0 c) / 16 ^ t % 16
  else s.fld (Fld.PPL_TILE_LMAP_HI_L14_L8 c) / 16 ^ (t - 8) % 16

/-- Logical tile t takes physical tile p. -/
def State.setLmap (s : State) (c t p : Nat) : State :=
  if t < 8 then s.setFld ⟨Off.PPL_TILE_LMAP_LO c, 4 * t, 4⟩ p else s.setFld ⟨Off.PPL_TILE_LMAP_HI c, 4 * (t - 8), 4⟩ p

/-- The physical tile of a logical one in service. -/
def State.phys? (s : State) (c t : Nat) : Option Nat := if s.lvalid c t then some (s.lmap c t) else none

/-- The logical number of a physical tile. -/
def State.ltile? (s : State) (c p : Nat) : Option Nat :=
  (List.range 15).find? (fun t => s.lvalid c t && s.lmap c t = p)

/-- Physical tiles of a cluster that hold logical numbers. -/
def State.activeTiles (s : State) (c : Nat) : List Nat := (List.range 15).filterMap (fun t => s.phys? c t)

/-- A stage that the belt tap feeds, SCORE or TOPK: it holds no blocks (R165). -/
def State.beltStage (s : State) (c : Nat) : Bool := s.fld (Fld.PPL_STAGE_ROLE c) = 8 || s.fld (Fld.PPL_STAGE_ROLE c) = 9

/-! ## Occupancy registers (R135) -/

def State.syncOcc (s : State) (c : Nat) : State :=
  let ts := (List.range 16).map (fun p => s.tile c p)
  (s.setFld (Fld.PPL_OCC_GROUPS c) (ts.foldl (fun n t => n + t.groups.length) 0)).setFld (Fld.PPL_OCC_LAUNCHES c)
    (ts.foldl (fun n t => n + t.launches.length) 0)

/-- Replace a tile and its cluster's occupancy. -/
def State.putTile (s : State) (c p : Nat) (t : Tile) : State := (s.setTile c p t).syncOcc c

/-! ## Launches end (R114, R115, R127, R134) -/

def Tile.launch? (t : Tile) (n : Nat) : Option Launch := t.launches.find? (fun l => l.num = n)

/-- Matrix operations of a group still outstanding. -/
def Tile.outstanding (t : Tile) (slot : Nat) : Nat := (t.queue.filter (fun m => m.slot = slot)).length

/-- Shared bytes cleared: the next launch is fresh (R115). -/
def Tile.clearShared (t : Tile) : Tile :=
  let n := match t.current with | some (_, _, s4) => s4 * 4096 | none => 0
  { t with ls := t.ls.filter (fun e => n ≤ e.1), fresh := true }

/-- Release the locks of a launch's groups, ended ones too: zero at each word (R127). -/
def Tile.unlock (t : Tile) (num : Nat) : Tile :=
  let mine := fun (l : Lock) => decide (l.launch = num)
  { t with ls := (t.locks.filter mine).foldl (fun m l => putBytes m l.addr (leBytes 4 0)) t.ls,
           locks := t.locks.filter (fun l => !mine l) }

/-- The fresh launch ended or faulted without SHREADY: the shared area is cleared again (R115). -/
def Tile.freshCheck (t : Tile) (l : Launch) : Tile := if l.fresh ∧ ¬ l.shready then t.clearShared else t

/-- Free ended groups that have no matrix operation outstanding, and end the launches left without groups. -/
def Tile.sweepEnded (t : Tile) : Tile :=
  let gone := fun (n : Nat) => (t.groups.filter (fun e =>
    e.2.launch = n && !(e.2.ended && t.outstanding e.1 = 0))).isEmpty
  let dead := t.launches.filter (fun l => gone l.num)
  let t' := dead.foldl (fun (t : Tile) l => (if l.faulted then t else t.unlock l.num).freshCheck l) t
  { t' with groups := t'.groups.filter (fun e => !(e.2.ended && t'.outstanding e.1 = 0)),
            launches := t'.launches.filter (fun l => !gone l.num) }

/-- A launch is halted by a fault (R134): groups end, commit entries and loads are discarded, locks released; resources
are freed as its matrix operations drain. -/
def Tile.haltLaunch (t : Tile) (num : Nat) : Tile :=
  match t.launch? num with
  | none => t
  | some l =>
    if l.faulted then t
    else
      let t := t.unlock num
      let mine := fun (slot : Nat) => match tabFind t.groups slot with
        | some g => decide (g.launch = num)
        | none => false
      let gs : Tab Group := t.groups.map (fun (e : Nat × Group) =>
        if e.2.launch = num then (e.1, { e.2 with ended := true, atBar := none }) else e)
      let ls : List Launch := t.launches.map (fun (x : Launch) => if x.num = num then { x with faulted := true } else x)
      let t : Tile := { t with
        loads := t.loads.filter (fun (d : PendLoad) => !mine d.slot)
        commit := t.commit.filter (fun (c : Commit) => c.launch ≠ num)
        groups := gs
        launches := ls }
      t.sweepEnded

/-- Halt every launch of a block on a tile, and discard its commit entries (R183). -/
def Tile.haltBlock (t : Tile) (h : W64) : Tile :=
  let t := (t.launches.filter (fun l => l.handle = h)).foldl (fun t l => t.haltLaunch l.num) t
  { t with commit := t.commit.filter (fun (c : Commit) => c.handle ≠ h) }

/-- Everything on the tile stops and is discarded: groups, array queue, commit buffer, loads (R99, R133). -/
def Tile.halted (t : Tile) : Tile :=
  let t := t.launches.foldl (fun (t : Tile) l => t.unlock l.num) t
  { t with launches := [], groups := [], queue := [], commit := [], loads := [], locks := [] }

/-- Sectors that a store of the tile meets, or all at an invalidation: loads in progress bring them to their registers, but
no longer into L1 (R117, R118). -/
def Tile.noFill (t : Tile) (met : Nat → Bool) : Tile :=
  { t with loads := t.loads.map (fun (d : PendLoad) => { d with fill := d.fill.filter (fun x => !met x) }) }

/-- The data the tile's L1 holds is gone (R113, R118). -/
def Tile.invalL1 (t : Tile) : Tile := { t.noFill (fun _ => true) with l1 := [] }

/-- The commit entries of a block on every tile of a cluster are discarded (R183). -/
def State.dropCommits (s : State) (c : Nat) (h : W64) : State :=
  (List.range 16).foldl (fun s p => s.setTile c p { s.tile c p with
    commit := (s.tile c p).commit.filter (fun (k : Commit) => k.handle ≠ h) }) s

/-- Halt a block's launches on every tile of a cluster. -/
def State.haltBlockOn (s : State) (c : Nat) (h : W64) : State :=
  ((List.range 16).foldl (fun s p => s.setTile c p ((s.tile c p).haltBlock h)) s).syncOcc c

/-- Halt everything on every tile of a cluster. -/
def State.haltCluster (s : State) (c : Nat) : State :=
  ((List.range 16).foldl (fun s p => s.setTile c p (s.tile c p).halted) s).syncOcc c

/-! ## Groups -/

/-- The tile and group an instruction names: the physical tile, the group. -/
def State.groupAt (s : State) (g : GroupRef) : Option (Nat × Group) :=
  match s.phys? g.cluster g.ltile with
  | none => none
  | some p =>
    match tabFind (s.tile g.cluster p).groups g.slot with
    | some gr => some (p, gr)
    | none => none

/-- Replace a group. -/
def State.setGroup (s : State) (c p slot : Nat) (g : Group) : State :=
  let t := s.tile c p
  s.setTile c p { t with groups := tabInsert t.groups slot g }

/-- All W threads of a width. -/
def widthMask (w : Nat) : BitVec 64 := BitVec.ofNat 64 (2 ^ w - 1)

/-- The active threads in ascending index. -/
def Group.threads (g : Group) : List Nat := (List.range g.width).filter (fun i => g.active.getLsbD i)

def Group.vreg (g : Group) (t r : Nat) : W32 := tabGet 0#32 g.vregs (t * 256 + r)

def Group.setV (g : Group) (t r : Nat) (v : W32) : Group := { g with vregs := tabPut 0#32 g.vregs (t * 256 + r) v }

/-- A 64-bit value in an even-numbered register and the one above it (R110). -/
def Group.vreg64 (g : Group) (t r : Nat) : W64 := (g.vreg t (r + 1)) ++ (g.vreg t r)

def Group.setV64 (g : Group) (t r : Nat) (v : W64) : Group :=
  (g.setV t r (v.setWidth 32)).setV t (r + 1) ((v >>> 32).setWidth 32)

def Group.sreg (g : Group) (r : Nat) : W64 := tabGet 0#64 g.sregs r

def Group.setS (g : Group) (r : Nat) (v : W64) : Group := { g with sregs := tabPut 0#64 g.sregs r v }

def Group.pred (g : Group) (p : Nat) : BitVec 64 := tabGet 0#64 g.preds p

def Group.setP (g : Group) (p : Nat) (v : BitVec 64) : Group := { g with preds := tabPut 0#64 g.preds p v }

def Group.flags (g : Group) (f : AswBits) : Group := { g with asw := g.asw ||| f }

/-- The nearest reconvergence entry of a mask stack (R121). -/
def nearestReconv : List MaskEntry → Option MaskEntry
  | [] => none
  | e :: t => if e.pending then nearestReconv t else some e

/-- The loop before every instruction fetch (R121); the fuel is the stack's depth. -/
def Group.reconverge : Nat → Group → Group
  | 0, g => g
  | n + 1, g =>
    match nearestReconv g.stack, g.stack with
    | some r, top :: rest =>
      if g.pc ≠ r.pc then g
      else if top.pending then Group.reconverge n { g with active := top.mask, pc := top.pc, stack := rest }
      else Group.reconverge n { g with active := r.mask, stack := rest }
    | _, _ => g

def Group.fetch (g : Group) : Group := g.reconverge (g.stack.length + 1)

/-- The next instruction in sequence. -/
def Group.next (g : Group) : Group := ({ g with pc := g.pc + 1 }).fetch

/-- Whether a group may issue: not ended, not at a barrier, no load of its own outstanding. -/
def State.canIssue (s : State) (g : GroupRef) (p : Nat) (gr : Group) : Bool :=
  !gr.ended && gr.atBar.isNone && !((s.tile g.cluster p).loads.any (fun d => d.slot = g.slot))

/-- The launch of a group. -/
def State.launchOf (s : State) (c p : Nat) (gr : Group) : Option Launch := (s.tile c p).launch? gr.launch

/-- The kernel descriptor of a group. -/
def State.kernelOf (s : State) (c p : Nat) (gr : Group) : KDesc :=
  match s.launchOf c p gr with
  | some l => kDesc l.kernel
  | none => kDesc []

/-- Whether n bytes at a local-store address lie in the shared area or the group's private area (R111). -/
def KDesc.inArea (k : KDesc) (q a n : Nat) : Bool :=
  decide (a + n ≤ k.shared) || (decide (k.shared + q * k.priv ≤ a) && decide (a + n ≤ k.shared + (q + 1) * k.priv))

end Sys2Proof.Machine
end

