-- ==== Sys2Proof/Machine/RingLink.lean ====
section
/-! DEFINITION. Belt links (10_rings.md R300 to R310, R320): frames as words, ports, sending, the checks of a received
slot, RETRY, the return ring's messages. -/

namespace Sys2Proof.Machine

/-! ## Frames (Tables 9-1 to 9-4) -/

def fw (f : Frame) (k hi lo : Nat) : Nat := bitsOf (f.w.getD k 0#64) hi lo
def fType (f : Frame) : Nat := fw f 0 63 60
def fHome (f : Frame) : Nat := fw f 0 59 44
def fDest (f : Frame) : Nat := fw f 0 43 28
def fEpoch (f : Frame) : Nat := fw f 0 27 12
def fShadow (f : Frame) : Bool := fw f 0 11 11 = 1
def fLost (f : Frame) : Bool := fw f 0 10 10 = 1
def fRev (f : Frame) : Nat := fw f 1 63 32
def fSeg (f : Frame) : Nat := fw f 1 31 26
def fSeq (f : Frame) : Nat := fw f 2 63 24
def fTb (f : Frame) : Nat := fw f 3 63 0

/-- Words of a CONTROL frame (R310). -/
def fSub (f : Frame) : Nat := fw f 4 63 56
def fPiece (f : Frame) : Nat := fw f 4 55 48
def fPiecesM1 (f : Frame) : Nat := fw f 4 47 40
def fArg (f : Frame) : Nat := fw f 4 39 0

/-- Types of Table 9-4. -/
def FT.EMPTY : Nat := 0
def FT.CORPUS : Nat := 1
def FT.TOP_NOTE : Nat := 2
def FT.SEGMENT : Nat := 3
def FT.QUERY : Nat := 4
def FT.SHARD : Nat := 5
def FT.ROLL_CALL : Nat := 6
def FT.CONTROL : Nat := 7

def allPos : Nat := 0xFFFF

/-- Words 0 to 3 of a header. -/
structure Hdr where
  ftype : Nat
  home : Nat
  dest : Nat := 0xFFFF
  epoch : Nat := 0
  shadow : Bool := false
  lost : Bool := false
  rev : Nat := 0
  seg : Nat := 0
  seq : Nat := 0
deriving DecidableEq, Repr

/-- A frame built from its header, words 4 to 7, records and body. -/
def mkFrame (h : Hdr) (tb : Nat) (w4 w5 w6 w7 : Nat) (recs : List BeltRec) (body : List W64) : Frame :=
  { w := [BitVec.ofNat 64 (h.ftype * 2 ^ 60 + h.home % 2 ^ 16 * 2 ^ 44 + h.dest % 2 ^ 16 * 2 ^ 28 + h.epoch * 2 ^ 12
            + b2n h.shadow * 2 ^ 11 + b2n h.lost * 2 ^ 10),
          BitVec.ofNat 64 (h.rev * 2 ^ 32 + h.seg * 2 ^ 26), BitVec.ofNat 64 (h.seq * 2 ^ 24), BitVec.ofNat 64 tb,
          BitVec.ofNat 64 w4, BitVec.ofNat 64 w5, BitVec.ofNat 64 w6, BitVec.ofNat 64 w7],
    recs := recs, body := body, hops := 0, stomp := 0#16, crcDiff := 0#32 }

/-- Words 0 to 3, by which RESUME names a frame (R321). -/
def fHead (f : Frame) : List W64 := f.w.take 4

/-! ## The trailer (Table 9-3, R268) -/

/-- A list of bytes cut or padded with zeros to n. -/
def padTo (n : Nat) (l : List Byte) : List Byte := (l ++ List.replicate (n - l.length) 0#8).take n

def wordBytes (ws : List W64) : List Byte := ws.flatMap (fun w => leBytes 8 w.toNat)

/-- VALID: bit i where record i holds data. -/
def fValid (f : Frame) : Nat :=
  (f.recs.zip (List.range 4)).foldl (fun n (x : BeltRec × Nat) => n + (if x.1.words.isEmpty then 0 else 2 ^ x.2)) 0

/-- Bytes 64 to 4,287: the records, or the words of a message in their place. -/
def fPayload (f : Frame) : List Byte :=
  padTo 4224 (if f.recs.isEmpty then wordBytes f.body else f.recs.flatMap (fun r => padTo 1056 (wordBytes r.words)))

/-- Bytes 0 to 4,347: header, payload, HOPS, VALID, zeros, STOMP. -/
def fBytes (f : Frame) : List Byte :=
  padTo 64 (wordBytes f.w) ++ fPayload f ++ leBytes 2 f.hops ++ leBytes 1 (fValid f) ++ List.replicate 55 0#8
    ++ leBytes 2 f.stomp.toNat

/-- The CRC word of a frame: CRC-32C over bytes 0 to 4,347, changed by what the frame differs from it. -/
def fCrc (f : Frame) : W32 := BitVec.ofNat 32 (crc32c (fBytes f)) ^^^ f.crcDiff

/-- A frame as its 4,352 bytes. -/
def fWire (f : Frame) : List Byte := fBytes f ++ leBytes 4 (fCrc f).toNat

/-- What the trailer says (R268, R307): intact; stomped upstream, STOMP 0xC3C3 and the CRC inverted; bad otherwise. -/
def fCheck (f : Frame) : CrcVerdict :=
  if f.stomp = 0#16 ∧ f.crcDiff = 0#32 then .good
  else if f.stomp = 0xC3C3#16 ∧ f.crcDiff = 0xFFFFFFFF#32 then .inverted
  else .bad

/-- A stomped copy of a frame (R268). -/
def stomped (f : Frame) : Frame := { f with stomp := 0xC3C3#16, crcDiff := 0xFFFFFFFF#32 }

/-! ## The slot delimiter (R302, Tables 10-2 to 10-4) -/

/-- The parity of the low 16 bits of a number. -/
def parity16 (n : Nat) : Nat := ((List.range 16).filter (fun i => n / 2 ^ i % 2 = 1)).length % 2

/-- The code of a link operation. -/
def Lop.code : Lop → Nat
  | .none => 0
  | .retry => 1
  | .brake => 2
  | .release => 3
  | .bypass => 4
  | .pos => 5

/-- A slot delimiter with its parities. -/
def sdWord (kind hseq lop larg : Nat) : W32 :=
  let n := kind % 8 * 2 ^ 29 + hseq % 4096 * 2 ^ 17 + lop % 8 * 2 ^ 14 + larg % 4096 * 4
  BitVec.ofNat 32 (n + 2 * parity16 (n / 2 ^ 16) + parity16 (n / 4 % 2 ^ 14))

def sdKind (w : W32) : Nat := bitsOf w 31 29
def sdHseq (w : W32) : Nat := bitsOf w 28 17

/-- An intact delimiter: both parities even, a KIND that is not reserved. -/
def sdOk (w : W32) : Bool :=
  parity16 (bitsOf w 31 16) = bitsOf w 1 1 && parity16 (bitsOf w 15 2) = bitsOf w 0 0 && decide (sdKind w ≤ 4)

/-- The delimiter of a slot that this device sends. -/
def TxSlot.sd (t : TxSlot) : W32 := sdWord t.kind t.hseq t.lop.code t.larg

/-- A received slot whose delimiter is intact and of a kind. -/
def rxIs (rx : Rx) (kind : Nat) : Bool := sdOk rx.sd && sdKind rx.sd = kind

def rxHseq (rx : Rx) : Nat := sdHseq rx.sd

/-- What the receiver finds of a frame: an uncorrectable codeword in it is as a bad CRC (R307). -/
def rxFrame (rx : Rx) (f : Frame) : CrcVerdict := if rx.uncorr then .bad else fCheck f

/-! ## This device on its rings -/

def State.role (s : State) : Nat := s.fld Fld.BLT_RING_ROLE
def State.formed (s : State) : Bool := s.flag Fld.BLT_RING_FORMED
def State.pos (s : State) : Nat := s.fld Fld.BLT_RING_POSITION
def State.ringSize (s : State) : Nat := s.fld Fld.BLT_RING_SIZE
def State.elastic (s : State) : Bool := s.flag Fld.BLT_RING_ELASTIC
def State.epoch (s : State) : Nat := s.fld Fld.BLT_POS_EPOCH
def State.rev (s : State) : Nat := s.fld Fld.BLT_REV_REV
def State.seg (s : State) : Nat := s.fld Fld.BLT_POS_SEG
def State.braked (s : State) : Bool := !s.ring.brakes.isEmpty

/-- The manager, or the standby after its takeover (R328). -/
def State.isManager (s : State) : Bool := s.role = 1 || s.ring.acting

/-- This device's position on ring 0, or on the parent ring. -/
def State.netPos (s : State) (net : Nat) : Nat := if net = 0 then s.pos else s.fld Fld.BLT_RING_ID_PARENT_POS

/-- A ring position as a unit (Table 14-10, letter Q). -/
def State.unitQ (s : State) (p : Nat) : Nat := unitPos p (s.netPos 1)

def State.up (s : State) (net : Nat) : Bool := if net = 0 then s.flag Fld.BLT_BYPASS_UP else s.ring.parentUp
def State.down (s : State) (net : Nat) : Bool := if net = 0 then s.flag Fld.BLT_BYPASS_DOWN else s.ring.parentDown

/-- Ports in use (R320): forward in and out, return in and out. -/
def State.fwdIn (s : State) (net : Nat) : Nat := 4 * net + (if s.up net then 2 else 0)
def State.fwdOut (s : State) (net : Nat) : Nat := 4 * net + (if s.down net then 3 else 1)
def State.retIn (s : State) (net : Nat) : Nat := s.fwdOut net
def State.retOut (s : State) (net : Nat) : Nat := s.fwdIn net

/-- Positions one and two steps away. -/
def State.neighbour (s : State) (net : Nat) (down : Bool) (steps : Nat) : Nat :=
  let n := if net = 0 then s.ringSize else s.ring.parentSize
  if n = 0 then 0xFFF else if down then (s.netPos net + steps) % n else (s.netPos net + n - steps % n) % n

/-! ## Ports -/

def emptyPort : Port := ⟨none, 0, [], [], [], [], none, 0, [], [], 0⟩

def State.port (s : State) (x : Nat) : Port := tabGet emptyPort s.ring.ports x

def State.setPort (s : State) (x : Nat) (p : Port) : State :=
  { s with ring := { s.ring with ports := tabPut emptyPort s.ring.ports x p } }

/-- A port that trained and is neither retired nor disabled (Table 10-24). -/
def State.portUp (s : State) (x : Nat) : Bool :=
  s.fld (Fld.BLT_PORT_STAT_STATE x) = 2 || s.fld (Fld.BLT_PORT_STAT_STATE x) = 3

/-- A port that carries traffic is active (Table 10-24). -/
def State.activate (s : State) (x : Nat) : State :=
  if s.fld (Fld.BLT_PORT_STAT_STATE x) = 2 then s.setFld (Fld.BLT_PORT_STAT_STATE x) 3 else s

def State.transmit (s : State) (t : TxSlot) : State := { s with ring := { s.ring with tx := s.ring.tx ++ [t] } }

/-- The record of what the last belt command sent starts anew. -/
def State.clearTx (s : State) : State := { s with ring := { s.ring with tx := [] } }

/-- A list cut to its last n elements. -/
def lastN {α : Type} (n : Nat) (l : List α) : List α := l.drop (l.length - n)

/-- Frames a port sends between two ALIGN slots at most (R303): 255 on the forward output of the device that paces a ring,
511 elsewhere. -/
def State.runLimit (s : State) (x : Nat) : Nat :=
  if (s.elastic ∧ x = s.fwdOut 0) ∨ (s.flag Fld.BLT_FED_ROOT ∧ x = s.fwdOut 1) then 255 else 511

/-- A slot without a frame on a port: HEARTBEAT on an idle one, ALIGN otherwise (Table 10-3). -/
def State.sendLop (s : State) (x : Nat) (op : Lop) (arg : Nat) : State :=
  if ¬ s.portUp x then s
  else if s.fld (Fld.BLT_PORT_STAT_STATE x) = 2 then s.transmit ⟨x, 3, 0, op, arg, none⟩
  else (s.setPort x { s.port x with run := 0 }).transmit ⟨x, 2, 0, op, arg, none⟩

/-- What an idle port sends: a heartbeat slot with this device's position (R300). -/
def State.heartbeat (s : State) (x : Nat) : State :=
  if s.fld (Fld.BLT_PORT_STAT_STATE x) = 2 then s.sendLop x .pos (s.netPos (x / 4)) else s

/-- A slot with nothing to carry: HEARTBEAT on an idle port, ALIGN otherwise. -/
def State.fillSlot (s : State) (x : Nat) : State :=
  if s.fld (Fld.BLT_PORT_STAT_STATE x) = 2 then s.heartbeat x else s.sendLop x .none 0

/-- One slot time of a port (R303, R307): a replay that is due, the next frame of the elastic FIFO as FRAME (next HSEQ; kept
in the replay buffer and the history), or ALIGN. -/
def State.slotTime (s : State) (x : Nat) : State :=
  let p := s.port x
  match p.due, p.fifo with
  | e :: t, _ => (s.setPort x { p with due := t, run := p.run + 1 }).transmit ⟨x, 1, e.1, .none, 0, some e.2⟩
  | [], f :: t =>
    (s.setPort x { p with next := (p.next + 1) % 4096, replay := lastN 512 (p.replay ++ [(p.next, f)]),
                          hist := lastN 4096 (p.hist ++ [f]), fifo := t, run := p.run + 1 }).transmit
      ⟨x, 0, p.next, .none, 0, some f⟩
  | [], [] => s.fillSlot x

/-- A frame enters the elastic FIFO of a port, which holds 32; one beyond is dropped. -/
def State.intoFifo (s : State) (x : Nat) (f : Frame) : State :=
  let p := s.port x
  if p.fifo.length < 32 then s.setPort x { p with fifo := p.fifo ++ [f] } else s

/-- A frame leaves by a port: through its FIFO in the next slot time, after ALIGN where that is due (R303). -/
def State.sendOn (s : State) (x : Nat) (f : Frame) : State :=
  if s.portUp x then
    let s := s.activate x
    let s := if s.runLimit x ≤ (s.port x).run then s.sendLop x .none 0 else s
    (s.intoFifo x f).slotTime x
  else s

/-- Slot times of the ports that have something waiting. -/
def State.drainPorts (s : State) : State :=
  let waits := fun (x : Nat) => s.portUp x && !((s.port x).due.isEmpty && (s.port x).fifo.isEmpty)
  let xs := (List.range 8).filter waits
  if xs.isEmpty then s else xs.foldl (fun s x => s.slotTime x) s.clearTx

/-- A port that carries no traffic any more sends heartbeats (R300, Table 10-24). -/
def State.idlePort (s : State) (x : Nat) : State :=
  if s.fld (Fld.BLT_PORT_STAT_STATE x) = 3 then (s.setFld (Fld.BLT_PORT_STAT_STATE x) 2).heartbeat x else s

/-- The ports of a ring off its path become idle. -/
def State.settlePorts (s : State) (net : Nat) : State :=
  ((List.range 4).map (fun i => 4 * net + i)).foldl (fun (s : State) x =>
    if x = s.fwdIn net ∨ x = s.fwdOut net then s else s.idlePort x) s

/-- HOPS as a forwarded frame leaves: 2 more over E2 (R268, R312); the CRC is that of the new bytes, inverted in a stomped
frame still. -/
def State.hop (s : State) (net : Nat) (f : Frame) : Frame := { f with hops := f.hops + (if s.down net then 2 else 1) }

/-- Frames in the elastic store, those absorbed among them (R315). -/
def State.storeSize (s : State) : Nat := s.ring.store.length + s.ring.spare.length

def State.syncStore (s : State) : State :=
  let s := s.setFld Fld.BLT_SLOTS_STORE (min s.storeSize 3072)
  if s.storeSize > 2560 then
    { s.raise Fld.BLT_RING_EVENTS_STORE_HIGH with ring := { s.ring with storeHigh := true } }
  else s

/-- A frame goes on along the forward belt: through the elastic store where this device holds it (R315); a store taken over
fills first (R328). -/
def State.sendFwd (s : State) (net : Nat) (f : Frame) : State :=
  if net = 0 ∧ s.elastic then
    match s.ring.store ++ [f] with
    | [] => s
    | h :: t =>
      if s.ring.fillTo = 0 then (({ s with ring := { s.ring with store := t } }).sendOn (s.fwdOut 0) h).syncStore
      else ({ s with ring := { s.ring with store := s.ring.store ++ [f], fillTo := s.ring.fillTo - 1 } }).syncStore
  else s.sendOn (s.fwdOut net) f

/-- A frame of this device's own leaves in a slot time the FIFO leaves free. -/
def State.inject (s : State) (net : Nat) (f : Frame) : State := s.sendOn (s.fwdOut net) f

def State.sendRet (s : State) (net : Nat) (f : Frame) : State := s.sendOn (s.retOut net) f

/-- A frame received on a port goes on in its direction (R268, R312). -/
def State.onward (s : State) (x : Nat) (f : Frame) : State :=
  if x % 2 = 0 then s.sendFwd (x / 4) (s.hop (x / 4) f) else s.sendRet (x / 4) { f with hops := f.hops + 1 }

/-- Whether a stomped copy ends here: at the holder of the elastic store, and at every device where the holder is bypassed
and no other has taken the store (R309, R315). -/
def State.dropsStomped (s : State) (x : Nat) : Bool :=
  x / 4 = 0 && (s.elastic || s.ring.gone.contains s.ring.holder)

/-- The stomped copy goes on in its direction. -/
def State.forwardStomped (s : State) (x : Nat) (f : Frame) : State :=
  if s.dropsStomped x then s else s.onward x (stomped f)

/-! ## Receiving (R307) -/

/-- RETRY for a frame: in the next slot of the opposite direction of the same link. -/
def State.askRetry (s : State) (x h : Nat) : State :=
  let p := s.port x
  if p.asked.any (fun e => e.1 = h) then s
  else (s.setPort x { p with asked := p.asked ++ [(h, 1)] }).sendLop x .retry h

/-- HSEQ numbers from e up to but not h, modulo 4,096. -/
def missing (e h : Nat) : List Nat := (List.range ((h + 4096 - e) % 4096)).map (fun i => (e + i) % 4096)

/-- The shadow of a home in the directory in force. -/
def State.shadowPos (s : State) (p : Nat) : Nat :=
  match s.belt.dir.homes.find? (fun h => h.pos = p) with
  | some h => h.shadow
  | none => 0xFFFF

/-- The device that put a frame on the belt, and removes it where it is not addressed: the shadow of its HOME where
SHADOW is set, its HOME otherwise (R321). -/
def State.originOf (s : State) (f : Frame) : Nat := if fShadow f then s.shadowPos (fHome f) else fHome f

/-- The owner of the slot that a frame is in (R316). -/
def State.slotOwner (s : State) (f : Frame) : Nat := if fType f = FT.CORPUS then s.originOf f else fHome f

/-- n slot times in ticks, rounded up (R266). -/
def slotTicks (n : Nat) : Nat := (n * 15625 + 9679) / 9680

/-- The manager counts a frame that passes it during an audit (R316). -/
def State.noteAudit (s : State) (x : Nat) (f : Frame) : State :=
  match s.ring.audit with
  | some (t, counts) =>
    if s.isManager ∧ x = s.fwdIn 0 ∧ s.now < t then
      let o := s.slotOwner f
      { s with ring := { s.ring with audit := some (t, tabInsert counts o (tabGet 0 counts o + 1)) } }
    else s
  | none => s

/-- The position of the device at the other end of a port. -/
def State.portPeer (s : State) (x : Nat) : Nat :=
  s.neighbour (x / 4) (x % 2 = 1) (if x % 4 < 2 then 1 else 2)

/-- The ports a ring takes frames from (R320): those of its path, and the link of a device that is rejoining (R324). -/
def State.onPath (s : State) (x : Nat) : Bool :=
  x = s.fwdIn (x / 4) || x = s.retIn (x / 4) || (x < 2 && s.ring.joining = some (s.portPeer x))

/-- What becomes of a received slot. -/
inductive RxVerdict
  | take
  | stomped
  | bad
  | dropped
deriving DecidableEq, Repr

/-- The checks of a received slot with a frame (R307): a RETRY for each missing number, and for the frame itself when it
fails in any way other than an upstream stomp. -/
def State.rxCheck (s : State) (rx : Rx) (kind : Nat) (f : Frame) : State × RxVerdict :=
  let x := rx.port
  if !(s.portUp x && s.onPath x) then (s, .dropped)
  else
    let s := s.activate x
    let p := s.port x
    if !rxIs rx kind then
      let e := p.expect.getD (rxHseq rx)
      ((s.setPort x { p with expect := some ((e + 1) % 4096) }).askRetry x e, .bad)
    else
      let h := rxHseq rx
      let gaps := match p.expect with
        | some e => missing e h
        | none => []
      let s := s.setPort x { p with expect := some ((h + 1) % 4096) }
      let s := gaps.foldl (fun s m => s.askRetry x m) s
      match rxFrame rx f with
      | .good =>
        let last := if s.originOf f = s.portPeer x then (s.port x).lastRx else some f
        (s.setPort x { s.port x with lastRx := last, lastRxTb := s.now }, .take)
      | .inverted => (s, .stomped)
      | .bad => (s.askRetry x h, .bad)

/-! ## CONTROL messages (R310) -/

/-- Lists of n words each. -/
def chunks {α : Type} (n : Nat) (l : List α) : List (List α) :=
  (List.range ((l.length + n - 1) / n)).map (fun i => (l.drop (i * n)).take n)

/-- Words of the record bytes of a frame: four records of 132. -/
def bodyWords : Nat := 528

/-- The running count of this device's frames. -/
def State.nextSeq (s : State) : State × Nat :=
  ({ s with ring := { s.ring with sendSeq := (s.ring.sendSeq + 1) % 2 ^ 40 } }, s.ring.sendSeq)

/-- A CONTROL message as its frames: one for each piece. -/
def State.control (s : State) (net dest sub arg w5 w6 : Nat) (body : List W64) : State × List Frame :=
  let (s, q) := s.nextSeq
  let ps := if body.isEmpty then [[]] else chunks bodyWords body
  (s, (List.range ps.length).map (fun i =>
    mkFrame { ftype := FT.CONTROL, home := s.netPos net, dest := dest, epoch := if net = 0 then s.epoch else 0,
              rev := s.rev, seg := s.seg, seq := q } s.now
      (sub * 2 ^ 56 + i * 2 ^ 48 + (ps.length - 1) * 2 ^ 40 + arg % 2 ^ 40) w5 w6 0 [] (ps.getD i [])))

/-- A CONTROL message on the forward belt. -/
def State.sendControl (s : State) (net dest sub : Nat) (arg : Nat := 0) (w5 : Nat := 0) (w6 : Nat := 0)
    (body : List W64 := []) : State :=
  let (s, fs) := s.control net dest sub arg w5 w6 body
  fs.foldl (fun s f => s.inject net f) s

/-- Subtypes that are sent again until their effect has followed (R310, R324). -/
def resends (sub : Nat) : Bool := [0x11, 0x13, 0x14, 0x16, 0x18].contains sub

/-- A CONTROL message on the return ring. -/
def State.sendReturn (s : State) (net dest sub : Nat) (arg : Nat := 0) (w5 : Nat := 0) (w6 : Nat := 0)
    (body : List W64 := []) : State :=
  let (s, fs) := s.control net dest sub arg w5 w6 body
  let s := fs.foldl (fun s f => s.sendRet net f) s
  if resends sub then
    { s with ring := { s.ring with
        resend := s.ring.resend ++ fs.map (fun f => ⟨s.ring.nextId, net, f⟩), nextId := s.ring.nextId + 1 } }
  else s

/-- The effect of a return frame has followed: it is not sent again. -/
def State.effectDone (s : State) (p : Frame → Bool) : State :=
  { s with ring := { s.ring with resend := s.ring.resend.filter (fun r => !p r.frame) } }

/-- Subtypes of which a receiver ignores a duplicate (R310). -/
def onceOnly (sub : Nat) : Bool := [0x11, 0x13, 0x14, 0x16].contains sub

def seenKey (net : Nat) (f : Frame) : List Nat := [net, fHome f, fSub f, fPiece f, fSeq f]

/-- A return frame that this device has acted on before. -/
def State.isDup (s : State) (net : Nat) (f : Frame) : Bool := onceOnly (fSub f) && s.ring.seen.contains (seenKey net f)

def State.markSeen (s : State) (net : Nat) (f : Frame) : State :=
  if onceOnly (fSub f) then { s with ring := { s.ring with seen := s.ring.seen ++ [seenKey net f] } } else s

/-- A piece of a message arrives; the whole body once every piece is there, in order. -/
def State.assemble (s : State) (f : Frame) : State × Option (List W64) :=
  if fPiecesM1 f = 0 then (s, some f.body)
  else
    let mine := fun (p : Pieces) => p.sender = fHome f && p.sub = fSub f && p.seq = fSeq f
    let old := match s.ring.pieces.find? mine with
      | some p => p.got
      | none => []
    let got := if old.any (fun e => e.1 = fPiece f) then old else old ++ [(fPiece f, f)]
    let rest := s.ring.pieces.filter (fun p => !mine p)
    if got.length = fPiecesM1 f + 1 then
      ({ s with ring := { s.ring with pieces := rest } },
        some ((got.mergeSort (fun a b => a.1 ≤ b.1)).flatMap (fun e => e.2.body)))
    else ({ s with ring := { s.ring with pieces := rest ++ [⟨fHome f, fSub f, fSeq f, got⟩] } }, none)

/-! ## What the manager records (R272, R273, R295, R327) -/

/-- A STAGED report; with its counterpart it completes a pair (R295). -/
def State.noteStaged (s : State) (r : StagedRep) : State :=
  let same := fun (x : StagedRep) => x.id = r.id && x.gen = r.gen && x.home = r.home
  let l := s.ring.staged.filter (fun x => !(same x && x.asHome = r.asHome)) ++ [r]
  match l.find? (fun x => same x && x.asHome), l.find? (fun x => same x && !x.asHome) with
  | some a, some b =>
    let pr : StagedPair := ⟨r.id, r.gen, r.home, b.sender, a.records⟩
    { s with ring := { s.ring with
        staged := l.filter (fun x => !same x)
        pairs := s.ring.pairs.filter (fun (x : StagedPair) => !(x.id = r.id && x.gen = r.gen && x.home = r.home)) ++ [pr] } }
  | _, _ => { s with ring := { s.ring with staged := l } }

/-- Kinds of a REPORT, in ARG bits 7:0 (DESIGN CHOICE: the table gives the message's content, not its layout): identity,
request for the directory, ready to leave, bypass made (its position in ARG bits 39:28), a shard not held, a guarantee
miss (R343), a broken ring (R323). -/
def Rep.identity : Nat := 0
def Rep.dirRequest : Nat := 1
def Rep.leave : Nat := 2
def Rep.bypass : Nat := 3
def Rep.unheld : Nat := 4
def Rep.miss : Nat := 5
def Rep.broken : Nat := 6

/-- What a REPORT leaves in the manager's records. -/
def State.noteReport (s : State) (sender arg w5 w6 : Nat) (body : List W64) : State :=
  match arg % 256 with
  | 0 =>
    let r : DevReport := ⟨sender, BitVec.ofNat 64 w5, w6 / 2 ^ 56, body.map (·.toNat), w6 % 2 ^ 32⟩
    { s with ring := { s.ring with reports := s.ring.reports.filter (fun (x : DevReport) => x.pos ≠ sender) ++ [r] } }
  | 2 =>
    if s.ring.leavers.any (fun e => e.1 = sender) then s
    else { s with ring := { s.ring with leavers := s.ring.leavers ++ [(sender, false)] } }
  | 4 =>
    if w6 = 0 ∨ s.ring.unheld.contains w5 then s
    else
      let s := { s with ring := { s.ring with unheld := s.ring.unheld ++ [w5] } }
      if s.isManager then s.event Ev.HOME_UNSHADOWED (s.unitQ w5) else s
  | _ => s

/-- A return frame's content as the manager, or the standby beside it, records it: HOME_BEHIND, REPORT, STAGED, QUIET. -/
def State.mgrNote (s : State) (sender sub arg w5 w6 : Nat) (body : List W64) : State :=
  match sub with
  | 0x14 => s.noteReport sender arg w5 w6 body
  | 0x12 =>
    let rest := s.ring.behind.filter (fun p => p ≠ sender)
    { s with ring := { s.ring with behind := if arg % 2 = 1 then rest ++ [sender] else rest } }
  | 0x16 => s.noteStaged ⟨w5 / 2 ^ 32, w5 / 2 ^ 16 % 2 ^ 16, w5 % 2 ^ 16, sender, decide (arg % 2 = 0), w6⟩
  | 0x17 =>
    let rest := s.ring.quiet.filter (fun q => q.1 ≠ sender)
    { s with ring := { s.ring with quiet := rest ++ [(sender, w5 / 2 ^ 32, w5 % 64)] } }
  | _ => s

/-- A report to the manager: over the return ring, or at once where this device is the manager. -/
def State.tellManager (s : State) (sub : Nat) (arg : Nat := 0) (w5 : Nat := 0) (w6 : Nat := 0) (body : List W64 := []) :
    State :=
  if s.isManager then s.mgrNote s.pos sub arg w5 w6 body else s.sendReturn 0 0 sub arg w5 w6 body

/-- A 64-bit word of a body. -/
def word (l : List W64) (i : Nat) : Nat := (l.getD i 0#64).toNat

end Sys2Proof.Machine
end

