-- ==== Sys2Proof/Machine/BeltOps.lean ====
section
/-! DEFINITION. The belt (09_belt_scoring.md): the directory and its parts, the tap buffer, tallies, ranges, query slots,
scoring, injection, markers. -/

namespace Sys2Proof.Machine

/-! ## Clusters -/

def emptyCluster : Cluster := ⟨[], [], [], none, 0, false, [], [], 0, none, none, 0⟩

def State.cluster (s : State) (c : Nat) : Cluster := tabGet emptyCluster s.ppl.clusters c

def State.setCluster (s : State) (c : Nat) (k : Cluster) : State :=
  { s with ppl := { s.ppl with clusters := tabPut emptyCluster s.ppl.clusters c k } }

/-- A cluster in service: enabled and not retired. -/
def State.clusterUp (s : State) (c : Nat) : Bool :=
  s.fbit Fld.CFG_LICENCE_ENABLED c && !(s.cluster c).retired

/-- Clusters in the SCORE role (Table 6-1). -/
def State.scoreClusters (s : State) : List Nat :=
  (List.range 16).filter (fun c => s.fld (Fld.PPL_STAGE_ROLE c) = 8)

def emptyScore : ScoreCl := ⟨[], [], none, 0, []⟩

def State.scoreCl (s : State) (c : Nat) : ScoreCl := tabGet emptyScore s.belt.score c

def State.setScore (s : State) (c : Nat) (k : ScoreCl) : State :=
  { s with belt := { s.belt with score := tabPut emptyScore s.belt.score c k } }

/-! ## Revolutions and segments (R275) -/

def revMod : Nat := 2 ^ 32

/-- The marker before, and the one after. -/
def prevMark (r g : Nat) : Nat × Nat := if g = 0 then ((r + revMod - 1) % revMod, 63) else (r, g - 1)
def succMark (r g : Nat) : Nat × Nat := if g = 63 then ((r + 1) % revMod, 0) else (r, g + 1)

/-- Whether marker (r, g) is at or after (r0, g0): revolution first, modulo 2^32. -/
def markAtOrAfter (r g r0 g0 : Nat) : Bool :=
  let d := (r + revMod - r0) % revMod
  if d = 0 then decide (g0 ≤ g) else decide (d < revMod / 2)

/-- MAX_REV in force. -/
def State.maxRev (s : State) : Nat := max 2 (min 4 (s.fld Fld.BLT_SCORE_CTL_MAX_REV))

/-! ## The directory (R270, R271) -/

def Shard.frames (h : Shard) : Nat := (h.records + 3) / 4

/-- N_h. -/
def Home.frames (h : Home) : Nat := h.shards.foldl (fun n x => n + x.frames) 0

/-- The first SEQ of part g. -/
def Home.lo (h : Home) (g : Nat) : Nat := g * h.frames / 64

/-- F(h, g). -/
def Home.count (h : Home) (g : Nat) : Nat := h.lo (g + 1) - h.lo g

/-- The shard and the frame of it that SEQ q names. -/
def shardAt : List Shard → Nat → Option (Shard × Nat)
  | [], _ => none
  | x :: t, q => if q < x.frames then some (x, q) else shardAt t (q - x.frames)

/-- Records in the frame of SEQ q. -/
def Home.recsIn (h : Home) (q : Nat) : Nat :=
  match shardAt h.shards q with
  | some (x, i) => min 4 (x.records - 4 * i)
  | none => 0

def Directory.home? (d : Directory) (p : Nat) : Option Home := d.homes.find? (fun h => h.pos = p)

/-- EXPECT of segment g. -/
def Directory.expect (d : Directory) (g : Nat) : Nat := d.homes.foldl (fun n h => n + h.count g) 0

/-- Records of the frames of part g of a home. -/
def Home.partRecords (h : Home) (g : Nat) : Nat :=
  (List.range (h.count g)).foldl (fun n i => n + h.recsIn (h.lo g + i)) 0

/-- The shadow of a home. -/
def Directory.shadowOf (d : Directory) (p : Nat) : Nat := match d.home? p with | some h => h.shadow | none => 0xFFFF

/-! ## Queries (Table 9-7) -/

def Query.par' (q : Query) (hi lo : Nat) : Nat := bitsOf q.par hi lo
def Query.k (q : Query) : Nat := q.par' 63 54 + 1
def Query.cutoff (q : Query) : Nat := q.par' 53 30
def Query.pmask (q : Query) : Nat := q.par' 29 14
def Query.best (q : Query) : Bool := q.par' 13 13 = 1
def Query.qfmt (q : Query) : Nat := q.par' 12 9
def Query.dim128 (q : Query) : Nat := q.par' 8 4

/-- Whether a cluster's profile matches a query (R281). -/
def State.profMatch (s : State) (c : Nat) (q : Query) : Bool :=
  s.fld (Fld.BLT_PROF_QFMT c) = q.qfmt && s.fld (Fld.BLT_PROF_DIM128 c) = q.dim128

/-- Clusters that may take a query. -/
def State.matching (s : State) (q : Query) : List Nat :=
  s.scoreClusters.filter (fun c => s.clusterUp c && s.profMatch c q)

/-- Record format codes of Table 9-5. -/
def vecFmt (code : Nat) : Option NumFmt :=
  match code with
  | 0 => some .int8
  | 1 => some .int4
  | 2 => some .e4m3
  | 6 => some .e2m1
  | _ => none

/-- Element i of a vector in words: 8-bit elements in byte order, 4-bit ones low half first (R51). -/
def vecElem (fmt : NumFmt) (ws : List W64) (i : Nat) : FV :=
  if fmt = .int8 ∨ fmt = .e4m3 then decodeFmt fmt (word ws (i / 8) / 2 ^ (8 * (i % 8)) % 256)
  else decodeFmt fmt (word ws (i / 16) / 2 ^ (4 * (i % 16)) % 16)

def vecElems (fmt : NumFmt) (ws : List W64) (dims : Nat) : List FV := (List.range dims).map (vecElem fmt ws)

/-- The checks of R279 on a query. -/
def State.queryOk (s : State) (q : Query) : Bool :=
  (s.scoreClusters.any (fun c => s.profMatch c q)) && q.par' 3 0 = 0
    && match vecFmt q.qfmt with
       | some .e4m3 => (vecElems .e4m3 q.vec (128 * q.dim128)).all (fun v => !v.isNan)
       | some _ => true
       | none => false

/-- Slots of a cluster that are occupied, with their keys. -/
def State.slotsOf (s : State) (c : Nat) : List (Nat × QSlot) := s.belt.slots.filter (fun e => e.1 / 1024 = c)

/-- Resident queries: those whose result has not been written. -/
def State.resident (s : State) : List (Nat × QSlot) := s.belt.slots.filter (fun e => !e.2.done)

def State.occupied (s : State) (c : Nat) : Nat := (s.slotsOf c).length

/-- Whether a query finds a free slot, counting the pending queries (R280). -/
def State.slotFor (s : State) (q : Query) : Bool :=
  let free := (s.matching q).foldl (fun n c => n + (1024 - s.occupied c)) 0
  let before := (s.belt.pend.filter (fun p => p.qfmt = q.qfmt && p.dim128 = q.dim128)).length
  decide (before < free)

/-! ## Registers that mirror the belt -/

def State.syncCluster (s : State) (c : Nat) : State :=
  let k := s.scoreCl c
  ((s.setFld (Fld.BLT_PROF_OCCUPIED c) (s.occupied c)).setFld (Fld.BLT_SHED_SHED c) (min 127 k.shed.length)).setFld
    (Fld.BLT_SHED_RANGES c) k.ranges.length

def State.syncBelt (s : State) : State :=
  let fill := min 61680 (s.belt.tap.filter (fun f => !f.out)).length
  let s := (s.setFld Fld.BLT_TAP_FILL fill).setFld Fld.BLT_TAP_PEAK (max fill (s.fld Fld.BLT_TAP_PEAK))
  let up := s.scoreClusters.filter (fun c => s.clusterUp c)
  let s := s.setFld Fld.BLT_QUEUE_FREE (up.foldl (fun n c => n + (1024 - s.occupied c)) 0)
  let s := s.setFld Fld.BLT_QUEUE_PENDING s.belt.pend.length
  s.scoreClusters.foldl (fun s c => s.syncCluster c) s

/-! ## Results (R291, Table 9-9) -/

/-- The words of a result: header and entries. -/
def State.resultWords (s : State) (qnum : W64) (status lost : Nat) (es : List Entry) : List W64 :=
  [qnum, BitVec.ofNat 64 (status * 2 ^ 56 + es.length * 2 ^ 45 + s.epoch * 2 ^ 29 + min lost 65535 * 2 ^ 13),
   BitVec.ofNat 64 (s.belt.dir.gen * 2 ^ 32 + s.rev), BitVec.ofNat 64 s.now]
    ++ es.flatMap (fun e => [e.score, BitVec.ofNat 64 (e.doc * 2 ^ 16 + e.chunk)])

/-- A host's query ends: the result at its destination, INFO LENGTH and COUNT. -/
def State.endQuery (s : State) (uid status : Nat) (ws : List W64) (count : Nat) : State :=
  match s.cmdU uid with
  | none => s
  | some c =>
    let b := wordBytes ws
    let len := min b.length c.capacity
    let s := s.writeResult c status b
    s.completeU uid status (len * 2 ^ 32 + b2n (decide (b.length > c.capacity)) * 2 ^ 31 + count)

/-- A query's result goes to where the query came from (R291). -/
def State.deliver (s : State) (q : Query) (status lost : Nat) (es : List Entry) : State :=
  let s := if status = St.OK then s.incFld Fld.BLT_DONE_DONE else s
  let ws := s.resultWords q.qnum status lost es
  match q.src with
  | .host uid => s.endQuery uid status ws es.length
  | .frame sender => s.sendReturn 0 sender 0x10 0 q.qnum.toNat 0 ws

def State.setSlot (s : State) (k : Nat) (x : QSlot) : State :=
  { s with belt := { s.belt with slots := tabInsert s.belt.slots k x } }

def State.freeSlot (s : State) (k : Nat) : State :=
  { s with belt := { s.belt with slots := tabErase s.belt.slots k } }

/-- Whether a round of a cluster is in progress: it has taken frames (R287). -/
def State.roundRuns (s : State) (c : Nat) : Bool := s.belt.tap.any (fun f => f.taken.contains c)

/-- A resident query ends; its slot is free at the next round boundary (R291). -/
def State.endSlot (s : State) (k : Nat) (x : QSlot) (status : Nat) (es : List Entry) : State :=
  let s := s.deliver x.q status x.lost es
  if s.roundRuns (k / 1024) then s.setSlot k { x with need := 0, done := true } else s.freeSlot k

/-- Every resident query whose need is zero completes: FAULT where records were lost (R298). -/
def State.completeReady (s : State) (c : Nat) : State :=
  (s.slotsOf c).foldl (fun s e =>
    if e.2.need = 0 ∧ ¬ e.2.cancelled ∧ ¬ e.2.done then
      s.endSlot e.1 e.2 (if e.2.lost > 0 then St.FAULT else St.OK) e.2.list
    else s) s

/-- Every resident and pending query ends with a status and no entries (R297, R323). -/
def State.endAllQueries (s : State) (status : Nat) : State :=
  let s := s.belt.slots.foldl (fun s e => if e.2.done then s.freeSlot e.1 else
    (s.deliver e.2.q status e.2.lost []).freeSlot e.1) s
  let s := s.belt.pend.foldl (fun s q => s.deliver q status 0 []) s
  ({ s with belt := { s.belt with pend := [] } }).syncBelt

/-! ## Tallies and ranges (R277, R288 to R290) -/

def State.tally? (s : State) (r g : Nat) : Option Tally := s.belt.tallies.find? (fun t => t.rev = r && t.seg = g)

def State.modTally (s : State) (r g : Nat) (f : Tally → Tally) : State :=
  { s with belt := { s.belt with tallies := s.belt.tallies.map (fun t => if t.rev = r ∧ t.seg = g then f t else t) } }

def Tally.doneFor (t : Tally) (h : Home) : Bool := decide (h.count t.seg ≤ tabGet 0 t.counts h.pos)

def Tally.complete (t : Tally) (d : Directory) : Bool := d.homes.all (fun h => t.doneFor h)

/-- Slots of a cluster that score the frames of tally (r, g) and home h with a sequence that meets a condition (R289). -/
def State.scorers (s : State) (c r g h : Nat) (p : LetRange → Bool) : List (Nat × QSlot) :=
  let revs := r :: (((s.scoreCl c).ranges.filter (fun x => x.seg = g && x.home = h && x.makeup = r && p x)).map (·.rev))
  (s.slotsOf c).filter (fun e =>
    e.2.need.getLsbD g && !e.2.cancelled && !e.2.done && revs.contains (e.2.desig.getD g 0))

/-- Slots of a cluster that score a frame of tally (r, g), home h, sequence q. -/
def State.scoreSet (s : State) (c r g h q : Nat) : List (Nat × QSlot) :=
  s.scorers c r g h (fun x => decide (x.lo ≤ q) && decide (q ≤ x.hi))

/-- Records lost to every slot of a list (R296, R298). -/
def State.loseTo (s : State) (n : Nat) (es : List (Nat × QSlot)) : State :=
  es.foldl (fun s e => s.setSlot e.1 { e.2 with lost := min 65535 (e.2.lost + n) }) s

/-- Lost records are added to every slot that scores the frame (R298). -/
def State.addLost (s : State) (r g h q n : Nat) : State :=
  s.scoreClusters.foldl (fun s c => s.loseTo n (s.scoreSet c r g h q)) s

/-- A tally is abandoned in a cluster (R290): its ranges go, its slots designate the next revolution. -/
def State.abandonTally (s : State) (c r g : Nat) : State :=
  let k := s.scoreCl c
  let s := s.setScore c { k with ranges := k.ranges.filter (fun x => !(x.rev = r && x.seg = g)) }
  let s := (s.slotsOf c).foldl (fun s e =>
    if e.2.desig.getD g 0 = r then s.setSlot e.1 { e.2 with desig := e.2.desig.set g ((r + 1) % revMod) } else s) s
  ((s.incFld (Fld.BLT_SHED_ABANDONS c)).raise Fld.BLT_EVENTS_ABANDON).event Ev.BELT_ABANDON c

/-- A bound widened to hold q. -/
def widen (b : Option (Nat × Nat)) (q : Nat) : Option (Nat × Nat) :=
  match b with
  | none => some (q, q)
  | some (lo, hi) => some (min lo q, max hi q)

/-- A cluster lets a frame of (r, g), home h, sequence q pass (R288, R289). -/
def State.letPass (s : State) (c r g h q : Nat) : State :=
  let k := s.scoreCl c
  let rs : List LetRange := k.ranges.map (fun (x : LetRange) =>
    if x.seg = g ∧ x.home = h ∧ x.makeup = r ∧ x.lo ≤ q ∧ q ≤ x.hi then { x with relet := widen x.relet q } else x)
  let isOwn := fun (x : LetRange) => x.rev = r && x.seg = g && x.home = h
  if rs.any isOwn then
    s.setScore c { k with ranges := rs.map (fun (x : LetRange) =>
      if isOwn x then { x with lo := min x.lo q, hi := max x.hi q } else x) }
  else
    let s := s.setScore c { k with ranges := rs }
    let s := if rs.length ≥ 4096 then
        match rs with
        | [] => s
        | x :: t =>
          let o := t.foldl (fun (b y : LetRange) => if markAtOrAfter y.rev y.seg b.rev b.seg then b else y) x
          s.abandonTally c o.rev o.seg
      else s
    let k := s.scoreCl c
    s.setScore c { k with ranges := k.ranges ++ [⟨r, g, h, q, q, (r + 1) % revMod, none⟩] }

/-- A tally that is complete, and of which the cluster has consumed every counted frame. -/
def State.covered (s : State) (c : Nat) (t : Tally) : Bool :=
  t.complete s.belt.dir && !s.belt.tap.any (fun f =>
    f.counted && f.rev = t.rev && f.seg = t.seg && (f.left.contains c || f.taken.contains c))

/-- Ranges whose make-up tally is covered close, or are made up again over their re-let bound (R289). -/
def closeRanges (done : List Tally) (rs : List LetRange) : List LetRange :=
  rs.filterMap (fun x =>
    if done.any (fun t => t.seg = x.seg && t.rev = x.makeup) then
      match x.relet with
      | none => none
      | some (lo, hi) => some { x with lo := lo, hi := hi, relet := none, makeup := (x.makeup + 1) % revMod }
    else some x)

/-- What the completion of tallies does in a cluster (R289, R290): ranges close, need bits clear, queries complete. -/
def State.settleScore (s : State) (c : Nat) : State :=
  let done := s.belt.tallies.filter (fun t => s.covered c t)
  if done.isEmpty then s
  else
    let k := s.scoreCl c
    let rs := closeRanges done k.ranges
    let s := if rs = k.ranges then s else s.setScore c { k with ranges := rs }
    let clear := done.filter (fun t => !rs.any (fun x => x.rev = t.rev && x.seg = t.seg))
    let s := (s.slotsOf c).foldl (fun s e =>
      let need := clear.foldl (fun (n : BitVec 64) (t : Tally) =>
        if e.2.desig.getD t.seg 0 = t.rev then n &&& ~~~ (1#64 <<< t.seg) else n) e.2.need
      if need = e.2.need then s else s.setSlot e.1 { e.2 with need := need }) s
    s.completeReady c

def State.settleAll (s : State) : State := s.scoreClusters.foldl (fun s c => s.settleScore c) s

/-! ## The tap buffer (R282, R287) -/

/-- Frames that every cluster has consumed leave the buffer. -/
def State.trimTap (s : State) : State :=
  { s with belt := { s.belt with tap := s.belt.tap.filter (fun f => !(f.left.isEmpty && f.taken.isEmpty)) } }

/-- A cluster has done with a frame it had not taken. -/
def TapFrame.without (f : TapFrame) (c : Nat) : TapFrame := { f with left := f.left.filter (fun x => x ≠ c) }

/-- The next untaken frames of a cluster are taken, at most n. -/
def takeFrames (c : Nat) : Nat → List TapFrame → List TapFrame
  | _, [] => []
  | 0, l => l
  | n + 1, f :: t =>
    if f.left.contains c then { f.without c with taken := f.taken ++ [c] } :: takeFrames c n t
    else f :: takeFrames c (n + 1) t

/-- The frames of a cluster with no occupied slot are consumed by the tap logic (R454). -/
def State.skim (s : State) (c : Nat) : State :=
  if s.clusterUp c ∧ s.occupied c = 0 then
    ({ s with belt := { s.belt with tap := s.belt.tap.map (fun (f : TapFrame) => f.without c) } }).trimTap
  else s

/-- A cluster lets every frame of the buffer pass that meets a condition and that it has neither consumed nor taken. -/
def State.letPassTap (s : State) (c : Nat) (p : TapFrame → Bool) : State :=
  let go := s.belt.tap.filter (fun f => f.left.contains c && p f)
  let s := go.foldl (fun s f => s.letPass c f.rev f.seg f.home f.seq) s
  ({ s with belt := { s.belt with
      tap := s.belt.tap.map (fun (f : TapFrame) => if f.left.contains c ∧ p f then f.without c else f) } }).trimTap

/-- The first frame that meets a condition is overwritten: what clusters have taken of it stays in their copies. -/
def overwrite (p : TapFrame → Bool) : List TapFrame → List TapFrame
  | [] => []
  | f :: t => if p f then { f with left := [], out := true } :: t else f :: overwrite p t

/-- A full buffer gives up an entry (R287): the oldest that every cluster has consumed or taken, else the oldest of all,
which each cluster that has neither consumed nor taken it lets pass. -/
def State.overflow (s : State) : State :=
  if (s.belt.tap.filter (fun f => !f.out)).length < 61680 then s
  else
    match s.belt.tap.find? (fun f => !f.out && f.left.isEmpty), s.belt.tap.find? (fun f => !f.out) with
    | some _, _ => { s with belt := { s.belt with tap := overwrite (fun f => !f.out && f.left.isEmpty) s.belt.tap } }
    | none, some f =>
      let s := f.left.foldl (fun s c => s.letPass c f.rev f.seg f.home f.seq) s
      ({ s with belt := { s.belt with tap := overwrite (fun f => !f.out) s.belt.tap } }).trimTap.raise Fld.BLT_EVENTS_LETPASS
    | none, none => s

/-- An intact frame of the current epoch enters the tap buffer and its tally, once (R277, R287). -/
def State.tapIn (s : State) (f : Frame) : State :=
  let r := fRev f
  let g := fSeg f
  let h := fHome f
  match s.tally? r g, s.belt.dir.home? h with
  | some t, some home =>
    let counts := (fShadow f || !t.shadowed.contains h) && decide (tabGet 0 t.counts h < home.count g)
    let s := if counts then s.modTally r g (fun t =>
        { t with counts := tabInsert t.counts h (tabGet 0 t.counts h + 1)
                 recs := tabInsert t.recs h (tabGet 0 t.recs h + home.recsIn (fSeq f)) })
      else s
    let s := if counts ∧ fLost f then
        let valid := (f.recs.filter (fun x => !x.words.isEmpty)).length
        (s.addLost r g h (fSeq f) (home.recsIn (fSeq f) - valid)).raise Fld.BLT_EVENTS_LOST
      else s
    let cs := s.scoreClusters
    let s := if cs.isEmpty then s
      else
        let s := s.overflow
        let e : TapFrame := ⟨r, g, h, fSeq f, counts, f.recs, cs, [], false⟩
        let s := { s with belt := { s.belt with tap := s.belt.tap ++ [e] } }
        let s := cs.foldl (fun s c =>
          if (s.cluster c).retired ∨ (s.scoreCl c).shed.contains h then
            s.letPassTap c (fun x => x.rev = r && x.seg = g && x.home = h && x.seq = fSeq f)
          else s) s
        cs.foldl (fun s c => s.skim c) s
    s.settleAll.syncBelt
  | _, _ => s

/-- A cluster loses what it had taken and not consumed: those frames are let pass (R426). -/
def State.dropTaken (s : State) (c : Nat) : State :=
  let go := s.belt.tap.filter (fun f => f.taken.contains c)
  let s := go.foldl (fun s f => s.letPass c f.rev f.seg f.home f.seq) s
  ({ s with belt := { s.belt with
      tap := s.belt.tap.map (fun (f : TapFrame) => { f with taken := f.taken.filter (fun x => x ≠ c) }) } }).trimTap.settleScore c

/-- A SCORE cluster is lost: what it has not consumed is let pass. -/
def State.scoreLost (s : State) (c : Nat) : State :=
  if s.scoreClusters.contains c then ((s.dropTaken c).letPassTap c (fun _ => true)).syncBelt else s

/-! ## Scoring (R282, R284, R285) -/

def recDoc (w : List W64) : Nat := bitsOf (w.getD 0 0#64) 63 16
def recChunk (w : List W64) : Nat := bitsOf (w.getD 0 0#64) 15 0
def recPmask (w : List W64) : Nat := bitsOf (w.getD 1 0#64) 63 48
def recDate (w : List W64) : Nat := bitsOf (w.getD 1 0#64) 47 24
def recFmt (w : List W64) : Nat := bitsOf (w.getD 1 0#64) 23 20
def recDims (w : List W64) : Nat := bitsOf (w.getD 1 0#64) 19 8
def recGen (w : List W64) : Nat := bitsOf (w.getD 2 0#64) 63 48

/-- The exact Sterling sum of two vectors, scales 1.0 (R59, R62). -/
def dotScore (a b : List FV) : W64 :=
  sterlingOf (exactSum ((a.zip b).map (fun p => (p.1.mul p.2).1))).1

def sterlingInvalid : W64 := 0x8000000000000000#64

/-- a ranks above b (R285). -/
def ranksAbove (a b : Entry) : Bool :=
  decide (b.score.toInt < a.score.toInt) || (a.score = b.score &&
    (decide (a.doc < b.doc) || (a.doc = b.doc && decide (a.chunk < b.chunk))))

/-- Insert an entry in rank order; an equal key changes nothing. -/
def insertEntry (e : Entry) : List Entry → List Entry
  | [] => [e]
  | x :: t => if e = x then x :: t else if ranksAbove e x then e :: x :: t else x :: insertEntry e t

/-- A list is offered an eligible entry (R285). -/
def offer (k : Nat) (best : Bool) (l : List Entry) (e : Entry) : List Entry :=
  if best then
    match l.find? (fun x => x.doc = e.doc) with
    | some x => if ranksAbove e x then (insertEntry e (l.filter (fun y => y.doc ≠ e.doc))).take k else l
    | none => (insertEntry e l).take k
  else (insertEntry e l).take k

/-! ## The filter and the candidate queue (R286) -/

/-- A score passes the filter: the list is not full, or the score is not below that of its lowest entry. -/
def QSlot.passes (x : QSlot) (sc : W64) : Bool :=
  match x.list.drop (x.q.k - 1) with
  | l :: _ => decide (l.score.toInt ≤ sc.toInt)
  | [] => true

/-- The oldest candidate of a cluster is settled: its slot's list is offered it. -/
def State.settleCand (s : State) (c : Nat) : State :=
  let k := s.scoreCl c
  match k.cand with
  | [] => s
  | (i, e) :: t =>
    let s := s.setScore c { k with cand := t }
    match tabFind s.belt.slots i with
    | some x => s.setSlot i { x with list := offer x.q.k x.q.best x.list e }
    | none => s

/-- A candidate enters the queue; while it is full the arrays wait until one is settled. -/
def State.pushCand (s : State) (c i : Nat) (e : Entry) : State :=
  let s := if (s.scoreCl c).cand.length < 8192 then s else s.settleCand c
  s.setScore c { s.scoreCl c with cand := (s.scoreCl c).cand ++ [(i, e)] }

/-- Every candidate of a cluster is settled. -/
def State.settleCands (s : State) (c : Nat) : State :=
  (List.range (s.scoreCl c).cand.length).foldl (fun s _ => s.settleCand c) s

/-- One record of a frame is scored against a slot. -/
def State.scoreRec (s : State) (c : Nat) (w : List W64) (e : Nat × QSlot) : State :=
  let x := e.2
  match vecFmt (recFmt w), vecFmt x.q.qfmt with
  | some rf, some qf =>
    let dims := recDims w
    let sc := dotScore (vecElems qf x.q.vec dims) (vecElems rf (w.drop 4) dims)
    if recFmt w ≠ s.fld (Fld.BLT_PROF_RFMT c) ∨ dims ≠ 128 * s.fld (Fld.BLT_PROF_DIM128 c) then s
    else if sc = sterlingInvalid then (s.incFld Fld.BLT_INVALID_INVALID).raise Fld.BLT_EVENTS_INVALID_SCORE
    else if recDate w ≤ x.q.cutoff ∧ recPmask w &&& x.q.pmask ≠ 0 ∧ x.passes sc then
      s.pushCand c e.1 ⟨sc, recDoc w, recChunk w⟩
    else s
  | _, _ => s

/-- A taken frame is scored by a cluster from its copy. -/
def State.scoreFrame (s : State) (c : Nat) (f : TapFrame) : State :=
  (s.scoreSet c f.rev f.seg f.home f.seq).foldl (fun s e =>
    f.recs.foldl (fun s r =>
      if r.words.isEmpty then s
      else
        match tabFind s.belt.slots e.1 with
        | some x => s.scoreRec c r.words (e.1, x)
        | none => s) s) s

/-- A round of a cluster ends (R282): its frames are scored and consumed, its candidates settled; slots that are cancelled
or done are freed. -/
def State.roundEnd (s : State) (c : Nat) : State :=
  let go := s.belt.tap.filter (fun f => f.taken.contains c)
  let s := (go.foldl (fun s f => s.scoreFrame c f) s).settleCands c
  let s := ({ s with belt := { s.belt with tap := s.belt.tap.map (fun (f : TapFrame) =>
      { f with taken := f.taken.filter (fun x => x ≠ c) }) } }).trimTap
  let s := (s.slotsOf c).foldl (fun s e =>
    if e.2.done then s.freeSlot e.1
    else if e.2.cancelled then (s.deliver e.2.q St.ABORTED e.2.lost []).freeSlot e.1
    else s) s
  ((s.settleScore c).skim c).syncBelt

/-- A query is cancelled (R291): at the next round boundary, at once where no round runs or the query is pending. -/
def State.cancelQuery (s : State) (p : Query → Bool) : State :=
  match s.belt.pend.find? p with
  | some q => ({ s with belt := { s.belt with pend := dropFirst p s.belt.pend } }.deliver q St.ABORTED 0 []).syncBelt
  | none =>
    match s.belt.slots.find? (fun e => p e.2.q && !e.2.cancelled && !e.2.done) with
    | some e =>
      if s.roundRuns (e.1 / 1024) then s.setSlot e.1 { e.2 with cancelled := true }
      else ((s.deliver e.2.q St.ABORTED e.2.lost []).freeSlot e.1).syncBelt
    | none => s

/-! ## Admission (R280) -/

/-- The lowest free slot of a cluster. -/
def State.freeSlotOf (s : State) (c : Nat) : Option Nat :=
  ((List.range 1024).find? (fun i => (tabFind s.belt.slots (c * 1024 + i)).isNone)).map (fun i => c * 1024 + i)

/-- The cluster with the most free slots among those that match, the lowest at ties. -/
def State.bestCluster (s : State) (q : Query) : Option Nat :=
  (s.matching q).foldl (fun (b : Option Nat) c =>
    match b with
    | none => if s.occupied c < 1024 then some c else none
    | some x => if s.occupied c < s.occupied x then some c else b) none

/-- A pending query takes a slot at marker (r, g); a query that finds none stays. -/
def State.admitQuery (s : State) (r g : Nat) (q : Query) : State :=
  match (s.bestCluster q).bind s.freeSlotOf with
  | none => { s with belt := { s.belt with pend := s.belt.pend ++ [q] } }
  | some k =>
    s.setSlot k { q := q, rev0 := r, seg0 := g, maxRev := s.maxRev,
                  desig := (List.range 64).map (fun i => if i ≥ g then r else (r + 1) % revMod),
                  need := BitVec.allOnes 64, list := [], lost := 0, cancelled := false, done := false }

/-- Every pending query is admitted, in order. -/
def State.admitAll (s : State) (r g : Nat) : State :=
  let l := s.belt.pend
  l.foldl (fun s q => s.admitQuery r g q) { s with belt := { s.belt with pend := [] } }

/-! ## Injection (R273, R297, R298) -/

/-- Brake, formation and planned removal stop injection (R317, R325), and so do Q3 and Q4 (R458). -/
def State.mayInject (s : State) : Bool :=
  s.formed && !s.braked && !s.ring.leaveReady && s.ready && decide (s.fld Fld.PWR_STATUS_DSTATE ≤ 2)

/-- The shard copy this device uses for a home's shard, as home or as shadow. -/
def State.heldShard (s : State) (home : Nat) (asHome : Bool) (x : Shard) : Option HeldShard :=
  s.belt.held.find? (fun h => h.home = home && h.asHome = asHome && h.id = x.id && h.gen = x.gen && h.whole)

/-- The records of the frame of SEQ q of a home as this device holds them; none for a record it cannot read. -/
def State.recordsOf (s : State) (home : Home) (asHome : Bool) (q : Nat) : Nat × List (Option BeltRec) :=
  match shardAt home.shards q with
  | none => (0, [])
  | some (x, i) =>
    let n := min 4 (x.records - 4 * i)
    match s.heldShard home.pos asHome x with
    | none => (x.id, List.replicate n none)
    | some h => (x.id, (List.range n).map (fun j => (h.recs[4 * i + j]?).getD none))

/-- A CORPUS frame of SEQ q. -/
def State.corpusFrame (s : State) (home : Home) (shadow lost : Bool) (r g q : Nat) : Frame :=
  let (id, recs) := s.recordsOf home (!shadow) q
  mkFrame { ftype := FT.CORPUS, home := home.pos, epoch := s.epoch, shadow := shadow, lost := lost, rev := r, seg := g,
            seq := q } s.now (id * 2 ^ 32) 0 0 0 (recs.map (fun x => x.getD ⟨[]⟩)) []

def unreadable (recs : List (Option BeltRec)) : Bool := recs.any (fun x => x.isNone)

/-- The first element the list offers, taken from it. -/
def State.setInject (s : State) (i : Nat) (x : Inject) : State :=
  { s with belt := { s.belt with inject := s.belt.inject.set i x } }

/-- HOME_BEHIND to the manager (R273). -/
def State.sendBehind (s : State) (on : Bool) : State := s.tellManager 0x12 (b2n on)

/-- The head of an injection's parts has been injected: the next one follows; HOME_BEHIND clears. -/
def State.nextPart (s : State) (i : Nat) (x : Inject) : State :=
  match x.parts with
  | [] => s
  | _ :: t =>
    let clear := x.behind && decide (t.length ≤ 2)
    let s := s.setInject i { x with parts := t, behind := x.behind && !clear }
    if clear then s.sendBehind false else s

/-- The next frame an injection offers and whether it is injected for the first time; the fuel bounds the frames that a
home skips because it cannot read them (R297). -/
def State.fromInject : Nat → State → Nat → State × Option (Frame × Bool)
  | 0, s, _ => (s, none)
  | n + 1, s, i =>
    match s.belt.inject[i]? with
    | none => (s, none)
    | some x =>
      match s.belt.dir.home? x.home with
      | none => (s, none)
      | some home =>
        match x.again with
        | (r, g, q, lost) :: t =>
          (s.setInject i { x with again := t }, some (s.corpusFrame home x.shadow lost r g q, false))
        | [] =>
          match x.parts with
          | [] => (s, none)
          | p :: ps =>
            if p.next ≥ p.hi then State.fromInject n (s.nextPart i x) i
            else
              let x' := { x with parts := { p with next := p.next + 1 } :: ps }
              let s1 := s.setInject i x'
              let s1 := if p.next + 1 = p.hi then s1.nextPart i x' else s1
              let (_, recs) := s.recordsOf home (!x.shadow) p.next
              if !unreadable recs then (s1, some (s.corpusFrame home x.shadow false p.rev p.seg p.next, true))
              else if x.shadow then
                (s1.event Ev.BELT_LOST_RECORD (s.unitQ x.home),
                  some (s.corpusFrame home true true p.rev p.seg p.next, true))
              else
                let s1 := s1.event Ev.BELT_FILL_IN (s.unitQ x.home)
                let f : FillIn := ⟨x.home, p.rev, p.seg, p.next⟩
                let s1 := { s1 with belt := { s1.belt with fillSent := s1.belt.fillSent ++ [f] } }
                State.fromInject n (s1.sendReturn 0 home.shadow 0x13 0
                  (f.home * 2 ^ 48 + f.seg * 2 ^ 32 + f.rev) f.seq) i

/-- The next frame of a list of injections that has one. -/
def State.fromInjects (s : State) : List Nat → State × Option (Frame × Bool)
  | [] => (s, none)
  | i :: t =>
    match State.fromInject 256 s i with
    | (s, some f) => (s, some f)
    | (s, none) => s.fromInjects t

/-- A frame as it is injected now: INJ_TB is the timebase, EPOCH the current one (Table 9-2). -/
def State.stamp (s : State) (f : Frame) : Frame :=
  let w0 := fType f * 2 ^ 60 + fHome f * 2 ^ 44 + fDest f * 2 ^ 28 + s.epoch * 2 ^ 12 + fw f 0 11 0
  { f with w := (f.w.set 0 (BitVec.ofNat 64 w0)).set 3 (BitVec.ofNat 64 s.now) }

/-- A frame that a FILL_IN asked for, or that goes with LOST (R297, R298). -/
def State.fillFrame (s : State) (x : FillIn) (shadow lost : Bool) : Option (Frame × Bool) :=
  (s.belt.dir.home? x.home).map (fun h => (s.corpusFrame h shadow lost x.rev x.seg x.seq, true))

/-- The next frame this device has to put into a slot it owns: one to inject again, SHARD frames of a load, frames asked for
by FILL_IN, frames with LOST, then the parts of the homes it injects for. -/
def State.nextFrame (s : State) : State × Option (Frame × Bool) :=
  if !s.mayInject then (s, none)
  else
    match s.belt.redo, s.belt.shardQ, s.belt.fillDue, s.belt.lostDue with
    | f :: t, _, _, _ => ({ s with belt := { s.belt with redo := t } }, some (s.stamp f, false))
    | [], f :: t, _, _ => ({ s with belt := { s.belt with shardQ := t } }, some (s.stamp f, false))
    | [], [], x :: t, _ => ({ s with belt := { s.belt with fillDue := t } }, s.fillFrame x true false)
    | [], [], [], x :: t => ({ s with belt := { s.belt with lostDue := t } }, s.fillFrame x false true)
    | [], [], [], [] => s.fromInjects (List.range s.belt.inject.length)

/-- An EMPTY frame owned by a position. -/
def State.emptyFrame (s : State) (owner : Nat) : State × Frame :=
  let (s, q) := s.nextSeq
  (s, mkFrame { ftype := FT.EMPTY, home := owner, epoch := s.epoch, seq := q } s.now 0 0 0 0 [] [])

/-- An EMPTY frame of an owner goes on along the belt. -/
def State.sendEmpty (s : State) (owner : Nat) : State :=
  let (s, f) := s.emptyFrame owner
  s.sendFwd 0 f

/-- What this device puts into a slot it owns: its next frame, or EMPTY (R273); a frame injected for the first time is copied
and counted here (R287). -/
def State.ownFrame (s : State) : State × Frame :=
  match s.nextFrame with
  | (s, some (f, first)) => (if first ∧ fType f = FT.CORPUS then s.tapIn f else s, f)
  | (s, none) => s.emptyFrame s.pos

/-- A slot that this device owns leaves with it. -/
def State.useSlot (s : State) : State :=
  let (s, f) := s.ownFrame
  s.sendFwd 0 f

/-- A frame put into a slot that proved not to have come is injected again (R306): a home's SEQ is among the frames of its
part again. -/
def State.putBack (s : State) (f : Frame) : State :=
  if fType f = FT.SHARD then { s with belt := { s.belt with shardQ := f :: s.belt.shardQ } }
  else if fType f ≠ FT.CORPUS then s
  else
    let mine := fun (x : Inject) => x.home = fHome f && x.shadow = fShadow f
    if s.belt.inject.any mine then
      { s with belt := { s.belt with inject := s.belt.inject.map (fun (x : Inject) =>
          if mine x then { x with again := x.again ++ [(fRev f, fSeg f, fSeq f, fLost f)] } else x) } }
    else { s with belt := { s.belt with redo := s.belt.redo ++ [f] } }

/-- Marker (r, g) reaches an injection (R273): its part is added; a part before the last still incomplete makes the home
fall behind. -/
def State.addPart (s : State) (r g i : Nat) : State :=
  match s.belt.inject[i]? with
  | none => s
  | some x =>
    match s.belt.dir.home? x.home with
    | none => s
    | some h =>
      if x.parts.any (fun p => p.rev = r && p.seg = g) then s
      else
        let left := fun (p : InjPart) => decide (p.next < p.hi) || x.again.any (fun e => e.1 = p.rev && e.2.1 = p.seg)
        let behind := x.parts.dropLast.any left && !x.behind && !x.shadow
        let s := s.setInject i { x with parts := x.parts ++ [⟨r, g, h.lo g, h.lo (g + 1)⟩], behind := x.behind || behind }
        if behind then s.sendBehind true else s

/-! ## Takeover of a home (R292, R296) -/

/-- A home without a source counts as delivered in a tally; its uncounted records are lost to every slot that scores it
(R296). -/
def State.noSourceTally (s : State) (h : Home) (t : Tally) : State :=
  if t.doneFor h then s
  else
    let n := h.partRecords t.seg - tabGet 0 t.recs h.pos
    let s := s.scoreClusters.foldl (fun s c => s.loseTo n (s.scorers c t.rev t.seg h.pos (fun _ => true))) s
    s.modTally t.rev t.seg (fun t => { t with counts := tabInsert t.counts h.pos (h.count t.seg)
                                              recs := tabInsert t.recs h.pos (h.partRecords t.seg) })

/-- TAKEOVER of home p at marker (r, g) applies to this device (R292, R296). -/
def State.applyTakeover (s : State) (p r g : Nat) (noSource : Bool) : State :=
  match s.belt.dir.home? p with
  | none => s
  | some h =>
    let (r0, g0) := prevMark r g
    let s := (s.raise Fld.BLT_EVENTS_TAKEOVER).event Ev.BELT_TAKEOVER (s.unitQ p)
    if noSource then
      let s := { s with belt := { s.belt with noSource := s.belt.noSource ++ [(p, r0, g0)] } }
      let ts := s.belt.tallies.filter (fun t => markAtOrAfter t.rev t.seg r0 g0)
      ((ts.foldl (fun s t => s.noSourceTally h t) s).settleAll).syncBelt
    else
      let reset := fun (s : State) (m : Nat × Nat) =>
        match s.tally? m.1 m.2 with
        | some t => if t.doneFor h then s
          else s.modTally m.1 m.2 (fun t => { t with counts := tabErase t.counts p, recs := tabErase t.recs p,
                                                        shadowed := p :: t.shadowed })
        | none => s
      let s := reset (reset s (r0, g0)) (r, g)
      if h.shadow = s.pos then
        { s with belt := { s.belt with inject := s.belt.inject ++
            [⟨p, true, [⟨r0, g0, h.lo g0, h.lo (g0 + 1)⟩, ⟨r, g, h.lo g, h.lo (g + 1)⟩], [], false⟩] } }
      else s

/-! ## Epochs (R276, R294) -/

/-- Whether this device holds every shard of a home. -/
def State.holdsHome (s : State) (h : Home) (asHome : Bool) : Bool :=
  h.shards.all (fun x => (s.heldShard h.pos asHome x).isSome)

/-- The device reports each home of which the directory names it home or shadow while it lacks the records (R491). -/
def State.reportUnheld (s : State) : State :=
  s.belt.dir.homes.foldl (fun s h =>
    let s := if h.pos = s.pos ∧ ¬ s.holdsHome h true then s.tellManager 0x14 Rep.unheld h.pos 0 else s
    if h.shadow = s.pos ∧ ¬ s.holdsHome h false then s.tellManager 0x14 Rep.unheld h.pos 1 else s) s

/-- The words of a directory: 16-byte entries (Table 10-8), low word first. -/
def dirWords (d : Directory) : List W64 :=
  let entry := fun (n : Nat) => [BitVec.ofNat 64 n, BitVec.ofNat 64 (n / 2 ^ 64)]
  d.homes.flatMap (fun h =>
    entry (2 ^ 120 + h.pos * 2 ^ 108 + h.shadow % 4096 * 2 ^ 96 + h.slots * 2 ^ 80 + h.shards.length * 2 ^ 72)
      ++ h.shards.flatMap (fun x => entry (2 * 2 ^ 120 + x.id * 2 ^ 88 + x.gen * 2 ^ 72 + x.records * 2 ^ 32)))

/-- The window of the directory (R270): the first of the BELT owner, PIN and STRONG that holds n bytes. -/
def State.dirWin (s : State) (n : Nat) : Option Nat :=
  (List.range 32).find? (fun w => s.winValid w && s.fld (Fld.ULC_WIN_ATTR_OWNER w) = 4 && s.fld (Fld.ULC_WIN_ATTR_PERSIST w) = 3
    && s.fld (Fld.ULC_WIN_ATTR_CODE w) = 1 && decide (n ≤ s.winSize w))

/-- The window takes the directory's entries. -/
def State.writeDir (s : State) (d : Directory) : State :=
  let b := wordBytes (dirWords d)
  match s.dirWin b.length with
  | some w => s.devWrite (s.winBase w) b
  | none => s

/-- DIRECTORY to every device. -/
def State.sendDir (s : State) (d : Directory) : State := s.sendControl 0 allPos 0x01 (w5 := d.gen) (body := dirWords d)

/-- A home whose device is bypassed, or has been since the last epoch switch (R324). -/
def State.lostHome (s : State) (p : Nat) : Bool := s.ring.gone.contains p || s.ring.exHomes.contains p

/-- The directory of a new epoch takes effect (R294): tallies, ranges and injections start anew; staged shards that it
names are in force, those it replaces are dropped. -/
def State.installDir (s : State) (d : Directory) (epoch : Nat) : State :=
  let named := fun (x : HeldShard) => d.homes.any (fun h => h.pos = x.home && h.shards.any (fun y => y.id = x.id && y.gen = x.gen))
  let replaced := fun (x : HeldShard) => d.homes.any (fun h => h.shards.any (fun y => y.id = x.id && y.gen ≠ x.gen))
  let inj : List Inject := if (d.home? s.pos).isSome ∧ ¬ s.belt.rejoined then [⟨s.pos, false, [], [], false⟩] else []
  let gone := d.homes.filter (fun h => s.ring.gone.contains h.pos && h.shadow = s.pos)
  let s := { s with
    ring := { s.ring with unheld := [], exHomes := [] }
    belt := { s.belt with
      dir := d, nextDir := none, tallies := [], tap := [], noSource := [], needDir := false,
      held := s.belt.held.filter (fun x => named x || !replaced x),
      score := s.belt.score.map (fun (e : Nat × ScoreCl) => (e.1, { e.2 with ranges := [], shed := [], lastShed := none })),
      inject := inj ++ gone.map (fun (h : Home) => (⟨h.pos, true, [], [], false⟩ : Inject)),
      fillSent := [], fillDue := [], fillDone := [], lostDue := [], redo := [] } }
  ((s.writeDir d).reportUnheld.setFld Fld.BLT_POS_EPOCH epoch).syncBelt

/-! ## Markers (R275 to R280) -/

/-- Tallies, and with them the ranges of their origin, that marker (r, g) ends (R277). -/
def State.dropAged (s : State) (r g : Nat) : State :=
  let old := s.belt.tallies.filter (fun t => (t.rev + t.maxRev) % revMod = r && t.seg = g)
  let gone := fun (a b : Nat) => old.any (fun t => t.rev = a && t.seg = b)
  let s := { s with belt := { s.belt with tallies := s.belt.tallies.filter (fun t => !gone t.rev t.seg)
                                          fillDone := s.belt.fillDone.filter (fun x => !gone x.rev x.seg) } }
  if old.isEmpty then s
  else s.scoreClusters.foldl (fun s c =>
    let k := s.scoreCl c
    s.setScore c { k with ranges := k.ranges.filter (fun x => !gone x.rev x.seg) }) s

/-- Queries that marker (r, g) ends with TIMEOUT (R290). -/
def State.timeouts (s : State) (r g : Nat) : State :=
  s.belt.slots.foldl (fun s e =>
    if (e.2.rev0 + e.2.maxRev) % revMod = r ∧ e.2.seg0 = g ∧ ¬ e.2.cancelled ∧ ¬ e.2.done then
      (s.endSlot e.1 e.2 St.TIMEOUT []).raise Fld.BLT_EVENTS_TIMEOUT
    else s) s

/-- The tally of (r, g) opens. -/
def State.openTally (s : State) (r g : Nat) : State :=
  if (s.tally? r g).isSome then s
  else
    let t : Tally := ⟨r, g, s.maxRev, [], [], (s.belt.dir.homes.map (·.pos)).filter (fun p => s.lostHome p)⟩
    { s with belt := { s.belt with tallies := s.belt.tallies ++ [t] } }

/-- Homes without a source count as delivered in the tally of (r, g), once the queries that it opens for are resident
(R296). -/
def State.noSourceAt (s : State) (r g : Nat) : State :=
  s.belt.noSource.foldl (fun s x =>
    match s.belt.dir.home? x.1, s.tally? r g with
    | some h, some t => s.noSourceTally h t
    | _, _ => s) s

/-- A request for the directory: a REPORT to the manager (DESIGN CHOICE: ARG 1). The manager answers its own: DIRECTORY goes
out, and the directory is in force here again. -/
def State.askDir (s : State) : State :=
  if s.isManager then
    (({ s with belt := { s.belt with needDir := false } }).writeDir s.belt.dir).sendDir s.belt.dir
  else s.tellManager 0x14 Rep.dirRequest

/-- The registers of a marker, and the directory of a new epoch at its TOP_NOTE. -/
def State.takeMarker (s : State) (f : Frame) : State :=
  let s := if fType f = FT.TOP_NOTE ∧ fEpoch f ≠ s.epoch then
      match s.belt.nextDir with
      | some d => ({ s with belt := { s.belt with rejoined := false } }).installDir d (fEpoch f)
      | none => s.setFld Fld.BLT_POS_EPOCH (fEpoch f)
    else s
  let s := ((s.setFld Fld.BLT_REV_REV (fRev f)).setFld Fld.BLT_POS_SEG (fSeg f)).setFld Fld.BLT_POS_ADMIT_HOLD (fw f 5 0 0)
  { s with ring := { s.ring with lastMarkTb := s.now, mark := some (fRev f, fSeg f), holder := fHome f } }

/-- EXPECT and DIR_GEN of a marker against the directory (R278). -/
def State.checkMarker (s : State) (f : Frame) : State :=
  if fw f 4 63 24 ≠ s.belt.dir.expect (fSeg f) ∨ fw f 5 63 32 ≠ s.belt.dir.gen then
    let s := ((s.raise Fld.BLT_EVENTS_DIR_MISMATCH).event Ev.BELT_DIR_MISMATCH 0).askDir
    s.scoreClusters.foldl (fun (s : State) c => s.abandonTally c (fRev f) (fSeg f)) s
  else s

/-- QUIET while a marker carries ADMIT_HOLD and no query is resident (R295). -/
def State.reportQuiet (s : State) (r g : Nat) : State :=
  if s.flag Fld.BLT_POS_ADMIT_HOLD ∧ s.resident.isEmpty then
    s.tellManager 0x17 (w5 := r * 4294967296 + g)
  else s

/-- What every device does at a marker. -/
def State.atMarker (s : State) (f : Frame) : State :=
  let r := fRev f
  let g := fSeg f
  let s := s.takeMarker f
  let s := ((s.dropAged r g).timeouts r g).openTally r g
  let s := if s.flag Fld.BLT_POS_ADMIT_HOLD ∨ s.belt.needDir then s else s.admitAll r g
  let s := s.noSourceAt r g
  let s := s.checkMarker f
  let s := (List.range s.belt.inject.length).foldl (fun (s : State) i => s.addPart r g i) s
  ((s.reportQuiet r g).settleAll).syncBelt

end Sys2Proof.Machine
end

