-- ==== Sys2Proof/Machine/PowerOps.lean ====
section
/-! DEFINITION. Regions, wakes and the device's idle state (15_power_thermal.md R440 to R442, R446, R452, R454, R455). -/

namespace Sys2Proof.Machine

/-! ## Regions (Table 15-15) -/

def RS.OFF_LICENCE : Nat := 0
def RS.OFF_FAULT : Nat := 1
def RS.Q2 : Nat := 2
def RS.WAKING : Nat := 3
def RS.Q1 : Nat := 4
def RS.A : Nat := 5

def State.region (s : State) (r : Nat) : Nat := s.fld (Fld.PWR_REGION_STAT_STATE r)
def State.level (s : State) (r : Nat) : Nat := s.fld (Fld.PWR_REGION_STAT_LEVEL r)

/-- Regions that are neither off by licence nor off by fault. -/
def State.powered (s : State) : List Nat := (List.range 16).filter (fun r => s.region r ≥ 2)

/-- Host DMA and KV swap moving data (R455): here a swap in progress. -/
def State.moving (s : State) : Bool :=
  s.kvl.victim.isSome || s.kvl.seqs.any (fun e => e.2.state = 2 || e.2.state = 4)

/-- The tolerance in force in µs (R373). -/
def State.tolUs (s : State) : Nat :=
  match s.host.tolFrame with
  | some t => min t (s.fld Fld.HIF_LAT_TOL_TOL_US)
  | none => s.fld Fld.HIF_LAT_TOL_TOL_US

/-- The deepest state the tolerance in force allows (R373, R456, Table 15-6). -/
def State.allowed (s : State) : Nat :=
  let t := s.tolUs
  if t = 0 then 0 else if t < 25 then 1 else if t < 1500 then 2
  else if t < 120000 ∨ ¬ s.flag Fld.PWR_CTL_Q4_EN then 3 else 4

/-- DSTATE among A, Q1 and Q2 (R455), no deeper than the tolerance allows; Q3, Q4 and waking are entered and left by their
own events. -/
def State.syncDstate (s : State) : State :=
  if s.fld Fld.PWR_STATUS_DSTATE ≤ 2 then
    let p := s.powered
    let d := if s.moving ∨ p.any (fun r => s.region r = RS.A ∨ s.region r = RS.WAKING) then 0
      else if p.any (fun r => s.region r = RS.Q1) then 1 else 2
    s.setFld Fld.PWR_STATUS_DSTATE (min d s.allowed)
  else s

/-- ALLOWED, and with it DSTATE, after a change of the tolerance. -/
def State.syncAllowed (s : State) : State := (s.setFld Fld.PWR_STATUS_ALLOWED s.allowed).syncDstate

def State.setRegion (s : State) (r st : Nat) : State := (s.setFld (Fld.PWR_REGION_STAT_STATE r) st).syncDstate

/-- VSET as it acts: 124 to 180 in 5 mV units (Table 15-14). -/
def State.vset (s : State) (r : Nat) : Nat := max 124 (min 180 (s.fld (Fld.PWR_REGION_VSET r)))

/-! ## Caps (R445, R446) -/

/-- The cap of a lost count (Table 15-4). -/
def capOf (lost : Nat) : Nat := if lost = 0 then 16 else if lost = 1 then 14 else if lost = 2 then 12 else 0

/-- Phase equivalents of a region's weakened sense groups (R27). -/
def weakPhases (n : Nat) : Nat := if n ≤ 6 then 0 else if n ≤ 12 then 1 else if n ≤ 18 then 2 else 3

def bitCount (n : Nat) : Nat := ((List.range 32).filter (fun i => n.testBit i)).length

/-- The lost count of a region: failed phases and weakened groups. -/
def State.lostCount (s : State) (r : Nat) : Nat :=
  (8 - bitCount (s.fld (Fld.PWR_REGION_STAT_PHASE_OK r)))
    + weakPhases (max (s.fld (Fld.PWR_TSV_U0_WEAK r)) (s.fld (Fld.PWR_TSV_U1_WEAK r)))

/-! ## Wakes (R452) -/

def groupOf (r : Nat) : List Nat := (List.range 4).map (fun i => 4 * (r / 4) + i)

def State.wakeOf (s : State) (r : Nat) : Option Wake := s.power.wakes.find? (fun w => w.region = r)

def State.paused (s : State) (r : Nat) : Bool := s.power.wakes.any (fun w => w.paused.contains r)

/-- Whether a wake slot is free in a region's group: the planned levels of the regions that are not paused, and 4 for
the ramp, do not exceed 26, and no wake of the group is ramping. -/
def State.slotFree (s : State) (r : Nat) : Bool :=
  let sum := ((groupOf r).filter (fun x => !s.paused x)).foldl (fun n x => n + s.level x) 0
  decide (sum + 4 ≤ 26) && !s.power.wakes.any (fun w => w.ramping && w.region / 4 = r / 4)

/-- The ramp of a waiting wake begins. -/
def State.startRamp (s : State) (r : Nat) : State :=
  { s with power := { s.power with wakes := s.power.wakes.map (fun (w : Wake) =>
      if w.region = r then { w with ramping := true } else w) } }

/-- Waiting wakes of a group are granted in order as slots come free. -/
def State.grantWakes (s : State) (r : Nat) : State :=
  (s.power.wakes.filter (fun w => w.region / 4 = r / 4 && !w.ramping)).foldl (fun s w =>
    if s.slotFree w.region then s.startRamp w.region else s) s

/-- A wake of a region in Q2 is requested: granted a slot, or waiting for one (WAKE_DEFERRED). -/
def State.requestWake (s : State) (r : Nat) : State :=
  if s.region r = RS.Q2 then
    let free := s.slotFree r
    let s := { s with power := { s.power with wakes := s.power.wakes ++ [(⟨r, free, []⟩ : Wake)] } }
    let s := s.setRegion r RS.WAKING
    if free then s else (s.raise Fld.PWR_EVENTS_WAKE_DEFERRED).event Ev.WAKE_DEFERRED r
  else s

/-- A region's planned level; a fall is notified at once and may free a wake slot of its group (R441, R452). -/
def State.setLevel (s : State) (r l : Nat) : State :=
  let falls := decide (l < s.level r)
  let s := s.setFld (Fld.PWR_REGION_STAT_LEVEL r) l
  if falls then s.grantWakes r else s

/-- A wake of a region is dropped. -/
def State.dropWake (s : State) (r : Nat) : State :=
  { s with power := { s.power with wakes := s.power.wakes.filter (fun w => w.region ≠ r) } }

/-- A free value below a bound: the specification leaves it open. -/
def State.fresh (s : State) (bound : Nat) : State × Nat :=
  ({ s with free := s.free + 1 }, (Config.freeValue s.free).toNat % bound)

/-! ## Load notices and score rounds (R181, R282, R441) -/

/-- IDLE_NOTICE_US in ticks; a value below 4 acts as 4. -/
def State.idleTicks (s : State) : Nat := usTicks (max 4 (s.fld Fld.PWR_CTL_IDLE_NOTICE_US))

/-- Whether a cluster's next operation needs a load notice: idle for its interval, or a rise of more than one level. -/
def State.needsNotice (s : State) (c l : Nat) : Bool :=
  decide (s.idleTicks ≤ s.now - (s.cluster c).lastOp) || decide (s.level c + 1 < l)

/-- A round of a SCORE cluster takes the frames that wait, 32 for each active tile, while it has occupied slots. -/
def State.startRound (s : State) (c : Nat) : State :=
  let s := s.setCluster c { s.cluster c with noticeAt := none }
  if s.occupied c = 0 ∨ ¬ s.belt.tap.any (fun f => f.left.contains c) then s.skim c
  else
    ({ s with belt := { s.belt with tap := takeFrames c (32 * (s.activeTiles c).length) s.belt.tap } }).setRegion c RS.A

/-- A SCORE cluster with frames that wait starts a round, wakes for it, or waits for its load notice; one with no
occupied slot consumes them through the tap logic. -/
def State.kick (s : State) (c : Nat) : State :=
  if !s.clusterUp c || s.roundRuns c || (s.cluster c).noticeAt.isSome || !s.belt.tap.any (fun f => f.left.contains c) then s
  else if s.occupied c = 0 then s.skim c
  else if s.region c = RS.Q2 then s.requestWake c
  else if (s.region c = RS.Q1 || s.region c = RS.A) && !s.paused c then
    let (s, l) := s.fresh 8
    let wait := s.needsNotice c (l + 1)
    let s := s.setLevel c (l + 1)
    if wait then s.setCluster c { s.cluster c with noticeAt := some s.now } else s.startRound c
  else s

/-- Every SCORE cluster that can starts a round. -/
def State.kickAll (s : State) : State := (s.scoreClusters.foldl (fun s c => s.kick c) s).syncBelt

/-- A round has ended: its region is idle. -/
def State.roundIdle (s : State) (c : Nat) : State :=
  (s.setCluster c { s.cluster c with lastOp := s.now }).setRegion c RS.Q1

/-! ## The regulation window in progress (11_regulation.md R342) -/

/-- The requests of a master that wait for a resource: at a point, in a slice's input queue, or held at their requester. -/
def State.waitingFor (s : State) (m r : Nat) : List UlOp :=
  let far := (s.ul.points.filter (fun (e : Nat × UlPoint) => 256 ≤ e.1)).flatMap (fun (e : Nat × UlPoint) => e.2.waiting)
  let held := fun (o : UlOp) => match s.home o.r.line with
    | some p => s.heldBucket p
    | none => false
  (match r with
    | 0 => (s.ul.points.filter (fun (e : Nat × UlPoint) => e.1 < 256)).flatMap (fun (e : Nat × UlPoint) => e.2.waiting)
        ++ s.ul.inq.flatMap (fun (e : Nat × List UlOp) => e.2) ++ far.filter held
    | 1 => s.rgl.points.flatMap (fun (e : Nat × UlPoint) => e.2.waiting)
    | 2 => far
    | _ => []).filter (fun o => o.r.master = m)

/-- The class of the oldest of some requests: numbers are given in order of issue. -/
def oldestClass : List UlOp → Option Nat
  | [] => none
  | o :: t => some (t.foldl (fun (x : UlOp) y => if y.r.id < x.r.id then y else x) o).r.cls

/-- The pairs of Table 11-1 by number. -/
def allPairs : List (Nat × Nat) := (List.range 22).flatMap (fun m => (List.range 4).map (fun r => (m, r)))

/-- One of the window's 16 samples. -/
def State.rglSample (s : State) : State :=
  let s := { s with rgl := { s.rgl with samples := s.rgl.samples + 1 } }
  allPairs.foldl (fun (s : State) e =>
    match oldestClass (s.waitingFor e.1 e.2) with
    | none => s
    | some k =>
      let key := e.1 * 4 + e.2
      { s with rgl := { s.rgl with demand := tabPut 0 s.rgl.demand key (tabGet 0 s.rgl.demand key + 1)
                                   oldest := tabPut 0 s.rgl.oldest key k } }) s

/-- What is out of service now: clusters whose region is off, the device in Q3 or Q4 (16), the host link (17). -/
def State.darkNow (s : State) : List Nat :=
  (List.range 16).filter (fun c => s.region c < RS.Q2)
    ++ (if 3 ≤ s.fld Fld.PWR_STATUS_DSTATE then [16] else []) ++ (if s.linked then [] else [17])

def State.noteDark (s : State) : State :=
  { s with rgl := { s.rgl with dark := s.rgl.dark ++ s.darkNow.filter (fun x => !s.rgl.dark.contains x) } }

/-- Ticks between samples: 16 of them lie in a window of 1,562 or 1,563. -/
def sampleTicks : Nat := 97

/-- A tick of the timebase in a window. -/
def State.rglTick (s : State) : State :=
  let s := s.noteDark
  let d := s.now - s.rgl.winStart
  if d ≠ 0 ∧ d % sampleTicks = 0 ∧ d / sampleTicks ≤ 16 then s.rglSample else s

end Sys2Proof.Machine
end

