-- ==== Sys2Proof/Machine/PipeOps.lean ====
section
/-! DEFINITION. Stages and pipelines (06_pipeline.md): route tables, queues, formation, faults, retirements, role moves,
change sets, training steps. -/

namespace Sys2Proof.Machine

/-! ## Route tables (R166 to R168) -/

/-- Fields of a route entry (Table 6-2). -/
def rtLayerLo (r : W64) : Nat := bitsOf r 63 56
def rtLayerHi (r : W64) : Nat := bitsOf r 55 48
def rtStep (r : W64) : Nat := bitsOf r 47 42
def rtCmask (r : W64) : Nat := bitsOf r 41 26
def rtKset (r : W64) : Nat := bitsOf r 25 16
def rtNextStep (r : W64) : Nat := bitsOf r 15 10
def rtNextLayer (r : W64) : Nat := bitsOf r 9 9
def rtExit (r : W64) : Bool := bitsOf r 8 8 = 1

/-- The clusters of a CMASK. -/
def maskList (m : Nat) : List Nat := (List.range 16).filter (fun n => m.testBit n)

/-- The route table of a pipeline at a generation. -/
def State.routes (s : State) (pipe gen : Nat) : List W64 :=
  match (tabGet [] s.ppl.banks pipe).find? (fun b => b.1 = gen) with
  | some b => b.2
  | none => []

/-- The entry of (layer, step). -/
def routeFor (rs : List W64) (layer step : Nat) : Option W64 :=
  rs.find? (fun r => decide (rtLayerLo r ≤ layer) && decide (layer ≤ rtLayerHi r) && rtStep r = step)

def State.partGen (s : State) (p : Nat) : Nat := s.fld (Fld.PPL_PART_GEN p)

/-- The clusters that the route table in force of a pipeline names. -/
def State.routeClusters (s : State) (pipe : Nat) : List Nat :=
  let m := (s.routes pipe (s.partGen pipe)).foldl (fun m r => m ||| rtCmask r) 0
  maskList m

/-- Blocks carry the generation of each partition (R185). -/
def Block.genOf (b : Block) (p : Nat) : Nat := b.genv.getD p 0

/-- The route entry of a block's step. -/
def State.routeOf (s : State) (b : Block) : Option W64 :=
  routeFor (s.routes b.pipe (b.genOf b.pipe)) b.layer b.step

def State.partOf (s : State) (c : Nat) : Nat := s.fld (Fld.PPL_STAGE_PART c)

/-- A cluster's stage program at a generation, loaded or loaded beside (R187). -/
def Cluster.prog? (k : Cluster) (gen : Nat) : Option Program :=
  ((k.progs ++ k.newProgs).find? (fun e => e.1 = gen)).map (·.2)

/-- The kernel descriptor that a program holds in a slot of the descriptor cache. -/
def progSlot (p : Program) (d : Nat) : Option (List W64) :=
  if d < p.descBase then none else p.descs[d - p.descBase]?

/-! ## Queues (R177 to R179) -/

/-- SENIOR, QUEUED, SWEEP and TWO_GEN follow the cluster (Table 6-11). -/
def State.syncStage (s : State) (c : Nat) : State :=
  let k := s.cluster c
  let gens := ((k.progs ++ k.newProgs).map (·.1)).eraseDups
  let s := s.setFld (Fld.PPL_STAGE_SENIOR c) (b2n (k.queue.any (fun e => e.senior)))
  let s := s.setFld (Fld.PPL_STAGE_QUEUED c) k.queue.length
  let s := s.setFld (Fld.PPL_STAGE_SWEEP c) (k.queue.filter (fun e => e.sweep)).length
  s.setFld (Fld.PPL_STAGE_TWO_GEN c) (b2n (decide (2 ≤ gens.length)))

def State.putCluster (s : State) (c : Nat) (k : Cluster) : State := (s.setCluster c k).syncStage c

def State.modCluster (s : State) (c : Nat) (f : Cluster → Cluster) : State := s.putCluster c (f (s.cluster c))

/-- Every queue entry with its cluster. -/
def State.allEntries (s : State) : List (Nat × QEntry) :=
  s.ppl.clusters.flatMap (fun e => e.2.queue.map (fun q => (e.1, q)))

/-- The entry of a block in flight. -/
def State.entryOf (s : State) (h : W64) : Option (Nat × QEntry) := s.allEntries.find? (fun e => e.2.block.handle = h)

def lowest (l : List QEntry) : Option Nat :=
  l.foldl (fun (m : Option Nat) e => match m with
    | some x => some (min x e.block.handle.toNat)
    | none => some e.block.handle.toNat) none

/-- The lowest HANDLE in flight on the device: the senior block (R178). -/
def State.seniorHandle (s : State) : Option Nat := lowest (s.allEntries.map (·.2))

/-- Free ordinary entries of a cluster. -/
def Cluster.ordinaryFree (k : Cluster) : Nat := 7 - (k.queue.filter (fun e => !e.senior)).length

/-- The entry that a block may take in a cluster: ordinary while one is free, else the senior entry for the senior block,
which no other block can hold (R178, R182); none where neither is free. -/
def Cluster.entryFor (k : Cluster) (isSenior : Bool) (h : W64) : Option Bool :=
  if 0 < k.ordinaryFree then some false
  else if isSenior && !k.queue.any (fun e => e.senior && e.block.handle ≠ h) then some true else none

/-! ## The mesh (R170) -/

/-- The neighbours of a cluster with the links to them, those in y first. -/
def meshNext (c : Nat) : List (Nat × Nat) :=
  let x := c / 4
  let y := c % 4
  (if y < 3 then [(c + 1, 12 + 3 * x + y)] else []) ++ (if 0 < y then [(c - 1, 12 + 3 * x + (y - 1))] else [])
    ++ (if x < 3 then [(c + 4, 3 * y + x)] else []) ++ (if 0 < x then [(c - 4, 3 * y + (x - 1))] else [])

/-- The mesh links of a cluster. -/
def linksOf (c : Nat) : List Nat := (meshNext c).map (·.2)

/-- The links from one value to another along a line of the mesh: the lower end of each step numbers its link. -/
def lineLinks (link : Nat → Nat) (a b : Nat) : List Nat :=
  if a ≤ b then (List.range (b - a)).map (fun i => link (a + i))
  else ((List.range (a - b)).map (fun i => link (b + i))).reverse

/-- The x-first path between two clusters: along x in the sender's row, then along y. -/
def xFirst (a b : Nat) : List Nat :=
  lineLinks (fun x => 3 * (a % 4) + x) (a / 4) (b / 4) ++ lineLinks (fun y => 12 + 3 * (b / 4) + y) (a % 4) (b % 4)

/-- Hops to a cluster from each, over links that are up: one round of shortening, 64 standing for no path. -/
def meshRound (up : Nat → Bool) (d : List Nat) : List Nat :=
  (List.range 16).map (fun c => (meshNext c).foldl (fun m e =>
    if up e.2 then min m (d.getD e.1 64 + 1) else m) (d.getD c 64))

/-- Hops to cluster b from each cluster: 16 rounds reach every one that has a path. -/
def meshDist (up : Nat → Bool) (b : Nat) : List Nat :=
  (List.range 16).foldl (fun d _ => meshRound up d) ((List.range 16).map (fun c => if c = b then 0 else 64))

/-- A shortest path over links that are up, taking a step in y where one shortens the way; the fuel bounds its hops. -/
def yFirst (up : Nat → Bool) (d : List Nat) : Nat → Nat → Option (List Nat)
  | 0, c => if d.getD c 64 = 0 then some [] else none
  | n + 1, c =>
    if d.getD c 64 = 0 then some []
    else
      match (meshNext c).find? (fun e => up e.2 && decide (d.getD e.1 64 + 1 = d.getD c 64)) with
      | some e => (yFirst up d n e.1).map (fun l => e.2 :: l)
      | none => none

/-- The links of a transfer (R170): the x-first path, or, where that uses a retired link, the shortest path that avoids
retired links. -/
def State.meshPath (s : State) (a b : Nat) : Option (List Nat) :=
  let up := fun l => !s.fbit Fld.PPL_MESH_RETIRED l
  if (xFirst a b).all up then some (xFirst a b) else yFirst up (meshDist up b) 16 a

/-- Whether a cluster's block can reach another: a cluster in service over the mesh, a retired one's block from memory. -/
def State.reaches (s : State) (a b : Nat) : Bool := !s.clusterUp a || (s.meshPath a b).isSome

/-! ## Choice of a cluster (R169) -/

/-- Clusters that serve a step and are in service. -/
def State.serving (s : State) (mask : Nat) : List Nat := (maskList mask).filter (fun c => s.clusterUp c)

/-- A retired cluster whose role a reserve is taking (R184). -/
def State.moving? (s : State) (c : Nat) : Bool := s.ppl.clusters.any (fun e => e.2.moveFrom = some c && !e.2.retired)

/-- Whether no cluster serves, or will serve, a step. -/
def State.stepLost (s : State) (mask : Nat) : Bool :=
  (s.serving mask).isEmpty && !(maskList mask).any (fun c => s.moving? c)

/-- The choice of R169 among the clusters of a step, those that the sender, where it is a cluster, can reach. -/
def State.chooseCluster (s : State) (b : Block) (mask : Nat) (isSenior : Bool) (src : Option Nat) : Option Nat :=
  let cand := (s.serving mask).filter (fun c => ((s.cluster c).entryFor isSenior b.handle).isSome
    && (match src with
      | some a => s.reaches a c
      | none => true))
  let same := cand.filter (fun c => (s.cluster c).queue.any (fun e =>
    e.block.pipe = b.pipe && e.block.layer = b.layer && e.block.step = b.step && !e.done))
  match same with
  | c :: _ => some c
  | [] =>
    let free := fun c => (s.cluster c).ordinaryFree
    let most := cand.foldl (fun m c => max m (free c)) 0
    cand.find? (fun c => free c = most)

/-- A block enters a queue entry. -/
def State.enqueue (s : State) (c : Nat) (b : Block) (senior : Bool) : State :=
  s.modCluster c (fun k => { k with queue := k.queue ++ [⟨b, senior, false, false, [], false⟩] })

/-- The entry of a block is freed (R177). -/
def State.dequeue (s : State) (c : Nat) (h : W64) : State :=
  s.modCluster c (fun k => { k with queue := k.queue.filter (fun e => e.block.handle ≠ h) })

def State.modEntry (s : State) (c : Nat) (h : W64) (f : QEntry → QEntry) : State :=
  s.modCluster c (fun k => { k with queue := k.queue.map (fun e => if e.block.handle = h then f e else e) })

/-! ## Training steps end (R198, R199) -/

def State.train? (s : State) (pipe : Nat) : Option Train := tabFind s.ppl.trains pipe

def State.setTrain (s : State) (pipe : Nat) (t : Train) : State :=
  { s with ppl := { s.ppl with trains := tabInsert s.ppl.trains pipe t } }

/-- The result of Table 6-24 as words. -/
def trainWords (rows lossRows lossSum gnorm steps flags : Nat) : List W64 :=
  [BitVec.ofNat 64 (rows % 2 ^ 32 * 2 ^ 32 + lossRows % 2 ^ 32), BitVec.ofNat 64 (lossSum % 2 ^ 32 * 2 ^ 32 + gnorm % 2 ^ 32),
    BitVec.ofNat 64 steps, BitVec.ofNat 64 flags, 0#64, 0#64, 0#64, 0#64]

/-- The STEPS word of an adapter (Table 6-22). -/
def State.adapterSteps (s : State) (daddr : Nat) : Nat := s.devNat (daddr + 24) 8

/-- A TRAIN_STEP ends: its result is written whatever its status, its forming block is dropped, its readers held no
more. LENGTH and the rows supplied are in INFO. -/
def State.endTrain (s : State) (pipe status lossSum gnorm flags : Nat) : State :=
  match s.train? pipe with
  | none => s
  | some t =>
    let forming := s.ppl.forming.filter (fun e => !(e.1 / 16 = pipe && e.2.train.isSome))
    let s := { s with ppl := { s.ppl with trains := tabErase s.ppl.trains pipe, forming := forming } }
    match s.cmdU t.uid with
    | none => s
    | some c =>
      let b := wordBytes (trainWords c.rows t.lossRows lossSum gnorm (s.adapterSteps (c.f 4 63 0)) flags)
      let len := min b.length c.capacity
      let tr := decide (c.capacity < b.length)
      (s.writeResult c status b).completeU t.uid status (len * 2 ^ 32 + b2n tr * 2 ^ 31 + c.rows % 2 ^ 31)

/-- A TRAIN_STEP ends without an update (R198); no rule gives its LOSS_SUM or GNORM: free values. -/
def State.failTrain (s : State) (pipe status : Nat) : State :=
  if (s.train? pipe).isSome then
    let (s, a) := s.fresh (2 ^ 32)
    let (s, b) := s.fresh (2 ^ 32)
    s.endTrain pipe status a b 0
  else s

/-! ## Rows and commands -/

/-- A row's command or sequence ends with FAULT (R183). -/
def State.faultRow (s : State) (pipe : Nat) (r : RowDesc) : State :=
  if ¬ r.valid then s
  else if r.kind ≤ 1 then s.faultSeq r.seq
  else if r.kind = 2 then
    match s.cmdU r.uid with
    | some c => s.endRows r.uid St.FAULT c.valid
    | none => s
  else
    match s.train? pipe with
    | some t => if t.uid = r.uid then s.failTrain pipe St.FAULT else s
    | none => s

/-- The sequences of rows, once each. -/
def rowSeqs (rs : List RowDesc) : List Nat := ((rs.filter (fun r => r.kind ≤ 1)).map (fun r => r.seq)).eraseDups

/-- Every row of a block faults; sequences left without rows settle (R212). -/
def State.faultRows (s : State) (pipe : Nat) (rs : List RowDesc) : State :=
  let s := rs.foldl (fun s r => s.faultRow pipe r) s
  (rowSeqs rs).foldl (fun s n => s.trimSeq n) s

/-- The event of a rule that names one register: the register follows in bytes 36 to 39 (R434). -/
def State.eventReg (s : State) (code unit off : Nat) (cause : Nat := 0) : State :=
  s.event code unit cause (s.regAt off).toNat

/-- A block ends with FAULT at its cluster (R183): its entry and its commit entries go; launches of it that have not faulted
run on (R134). -/
def State.blockFault (s : State) (h : W64) : State :=
  match s.entryOf h with
  | none => s
  | some (c, e) =>
    let s := (s.dropCommits c h).dequeue c h
    let s := s.incFld (Fld.PPL_STAGE_FLT_FAULTED c)
    let s := s.eventReg Ev.BLOCK_FAULT c (Off.PPL_STAGE_FLT c)
    let live := if e.exits = [] then e.block.rows else e.exits.filterMap (fun i => e.block.rows[i]?)
    s.faultRows e.block.pipe live

/-- Rows of a block that no cluster holds end with FAULT; no rule names the cluster of its event: a free value. -/
def State.looseFault (s : State) (pipe : Nat) (rs : List RowDesc) : State :=
  let (s, c) := s.fresh 16
  (s.event Ev.BLOCK_FAULT c).faultRows pipe rs

/-- The step a block needs next: the one its header names, unless its rows are exiting. -/
def State.needs (s : State) (e : QEntry) : Option W64 := if e.exits = [] then s.routeOf e.block else none

/-- Blocks that need a step no cluster serves end with FAULT (R184). -/
def State.faultStuck (s : State) : State :=
  (s.allEntries.filter (fun e => match s.needs e.2 with
    | some r => s.stepLost (rtCmask r)
    | none => false)).foldl (fun s e => s.blockFault e.2.block.handle) s

/-! ## Image records (R382, R383) -/

/-- Word Wk of a record's body. -/
def recW (r : ImgRecord) (k : Nat) : W64 := r.body.getD (k - 1) 0#64

def recF (r : ImgRecord) (k hi lo : Nat) : Nat := bitsOf (recW r k) hi lo

/-- The records of a type in a section. -/
def recsOf (x : ImgSection) (ty : Nat) : List ImgRecord := x.records.filter (fun r => r.type = ty)

def oneRec (x : ImgSection) (ty : Nat) : Option ImgRecord := (recsOf x ty).head?

/-- A WINDOW record: number, ATTR, BASE, CLASSES, W4, TSHAPE, its section. -/
structure WinRec where
  num : Nat
  attr : W32
  base : Nat
  classes : Nat
  src : W64
  shape : W32
  part : Option Nat
deriving DecidableEq, Repr

def winRecs (x : ImgSection) : List WinRec :=
  (recsOf x 0x0002).map (fun r => ⟨recF r 1 63 59, BitVec.ofNat 32 (recF r 1 31 0), (recW r 2).toNat, recF r 3 15 0,
    recW r 4, BitVec.ofNat 32 (recF r 5 31 0), if x.kind = 1 then none else some x.part⟩)

/-! ## Change sets (R187 to R189) -/

/-- PPL_RT shows the table of a pipeline at a generation. -/
def State.showRoutes (s : State) (p gen : Nat) : State :=
  let rs := if s.flag (Fld.PPL_PART_STAT_PIPE p) then s.routes p gen else []
  (List.range 256).foldl (fun s i =>
    let r := rs.getD i 0#64
    (s.setReg (Off.PPL_RT_LO p i) (r.setWidth 32)).setReg (Off.PPL_RT_HI p i) ((r >>> 32).setWidth 32)) s

/-- The generation whose table PPL_RT shows: the new one once the partition has switched (R191). -/
def State.shownGen (s : State) (p : Nat) : Nat :=
  match s.ppl.change with
  | some x =>
    if x.switched.contains p then (match x.sects.find? (fun e => e.1 = p) with
      | some e => e.2.sect.gen
      | none => s.partGen p)
    else s.partGen p
  | none => s.partGen p

/-- The attributes that a partition's generation gives its windows (R242); a residency recompute is due. -/
def State.applyWindows (s : State) (x : ImgSection) : State :=
  let s := (winRecs x).foldl (fun s w =>
    let s := (s.setFld (Fld.ULC_WIN_ATTR_PERSIST w.num) (bitsOf w.attr 24 23)).setFld (Fld.ULC_WIN_ATTR_QUOTA w.num)
      (bitsOf w.attr 22 18)
    s.setFld (Fld.ULC_WIN_CLASS_CLASSES w.num) w.classes) s
  { s with ul := { s.ul with pinDue := true } }


def ChangeSet.parts (x : ChangeSet) : List Nat := x.sects.map (·.1)

/-- Whether a change set holds the entry of a pipeline, or a training step does (R187, R197). -/
def State.entryHeld (s : State) (pipe : Nat) : Bool :=
  let byChange := s.flag Fld.PPL_CHANGE_HOLDING
    && (s.routeClusters pipe).any (fun c => s.fbit Fld.PPL_CHANGE_SET (s.partOf c))
  let byTrain := s.ppl.trains.any (fun e => e.2.holding && (match tabFind s.ppl.cfg e.1 with
    | some g => (match g.train with | some (rd, _, _) => rd.testBit pipe | none => false)
    | none => false))
  byChange || byTrain

/-- The change set ends: ACTIVE and HOLDING clear, LAST set, its command completes, its partitions' events (R187,
R189). -/
def State.endChange (s : State) (x : ChangeSet) (status last code : Nat) : State :=
  let s := { s with ppl := { s.ppl with change := none } }
  let s := x.parts.foldl (fun s p => s.setFld (Fld.PPL_PART_STAT_STATE p) 0) s
  let gens := (List.range 8).foldl (fun n p => n + s.partGen p * 2 ^ (16 * p)) 0
  let s := s.jrnConfig 3 8 (s.fld Fld.PPL_CHANGE_SET + last * 2 ^ 8 + gens * 2 ^ 16)
  let s := ((s.setFld Fld.PPL_CHANGE_ACTIVE 0).setFld Fld.PPL_CHANGE_HOLDING 0).setFld Fld.PPL_CHANGE_LAST last
  let info := s.fld Fld.PPL_CHANGE_SWITCHED * 2 ^ 8 + last * 2 ^ 6
  let s := s.complete x.sq x.cid status info
  x.parts.foldl (fun s p => s.eventReg code p Off.PPL_CHANGE) s

/-- The change set aborts: new generations are discarded; clusters that drained reload the old one, and entry stays held
until they have (R189). -/
def State.abortChange (s : State) (last : Nat) : State :=
  match s.ppl.change with
  | none => s
  | some x =>
    if x.aborting ≠ 0 then s
    else
      let cs := (List.range 16).filter (fun c => x.parts.contains (s.partOf c))
      let s := cs.foldl (fun s c => s.modCluster c (fun k => { k with newProgs := [] })) s
      let banks := s.ppl.banks.map (fun (b : Nat × List (Nat × List W64)) =>
        (b.1, b.2.filter (fun g => !(x.sects.any (fun e => e.1 = b.1 && e.2.sect.gen = g.1)))))
      let undo := x.switched
      let x := { x with aborting := last, switched := [], draining := [] }
      let s := { s with ppl := { s.ppl with banks := banks, change := some x } }
      let s := undo.foldl (fun s p => match tabFind s.ppl.cfg p with
        | some g => (s.showRoutes p (s.partGen p)).applyWindows g.sect
        | none => s) s
      let s := x.parts.foldl (fun s p => s.setFld (Fld.PPL_PART_STAT_STATE p) 3) s
      if x.restoring = [] then s.endChange x St.ABORTED last Ev.CHANGE_ABORTED
      else s.raise Fld.PPL_CHANGE_HOLDING

/-- A cluster of the set is reset or retired (R189). -/
def State.abortFor (s : State) (c : Nat) : State :=
  match s.ppl.change with
  | some x => if x.parts.contains (s.partOf c) then s.abortChange 3 else s
  | none => s

/-! ## Cluster retirement (R101, R132, R172, R184) -/

/-- The sweep of a cluster is abandoned: its blocks restart from their retained input. -/
def Cluster.noSweep (k : Cluster) : Cluster :=
  { k with queue := k.queue.map (fun e => { e with sweep := false, again := false }), noticeAt := none }

/-- The usable reserve of a partition (R184). -/
def State.reserveOf (s : State) (p : Nat) : Option Nat :=
  (List.range 16).find? (fun r => s.flag (Fld.PPL_STAGE_RESERVE r) && s.partOf r = p && s.fld (Fld.PPL_STAGE_ROLE r) = 0
    && s.clusterUp r && (s.cluster r).moveFrom.isNone && !s.ppl.reserveUsed.any (fun e => e.1 = p))

/-- Partitions with a step that no cluster serves report degraded (R184). -/
def State.checkDegraded (s : State) : State :=
  (List.range 8).foldl (fun s p =>
    if s.flag (Fld.PPL_PART_STAT_DEGRADED p) ∨ ¬ s.flag (Fld.PPL_PART_STAT_PIPE p) ∨ s.partGen p = 0 then s
    else if (s.routes p (s.partGen p)).any (fun r => s.stepLost (rtCmask r)) then
      ((s.raise (Fld.PPL_PART_STAT_DEGRADED p)).setBit Fld.FLT_STATUS_DEGRADED p).updFault.event Ev.PARTITION_DEGRADED p
    else s) s

/-- No cluster in service leaves the device failed (R421). -/
def State.checkClusters (s : State) (cause : Nat) : State :=
  if (List.range 16).all (fun c => !s.clusterUp c) ∧ s.dstate ≠ DS.FAILED then s.failDevice cause else s

/-- The partition's reserve, where one is left, takes the role of a retired cluster (R184). -/
def State.callReserve (s : State) (c : Nat) : State :=
  match (s.cluster c).moveFrom, s.reserveOf (s.partOf c) with
  | none, some r =>
    if s.fld (Fld.PPL_STAGE_ROLE c) = 0 then s
    else
      let s := { s with ppl := { s.ppl with reserveUsed := s.ppl.reserveUsed ++ [(s.partOf c, c, r)] } }
      (s.modCluster r (fun k => { k with moveFrom := some c })).requestWake r
  | _, _ => s

/-- A cluster is retired, for an event code as cause; CLUSTER_RETIRED shows the one that R101 retires (Table 3-14). -/
def State.retireCluster (s : State) (c cause : Nat) : State :=
  if ¬ s.clusterUp c then s
  else
    let s := s.modCluster c (fun k => { k.noSweep with retired := true, attaching := none })
    let s := (s.haltCluster c).scoreLost c
    let s := if cause = Ev.TILE_RETIRED then s.raise Fld.PPL_TILE_EVENTS_CLUSTER_RETIRED else s
    let s := (s.event Ev.CLUSTER_RETIRED c cause).addDefect 2 c Ev.CLUSTER_RETIRED
    let s := s.abortFor c
    (((s.callReserve c).checkDegraded).faultStuck).checkClusters cause

/-! ## Tile retirement (R99, R101, R102) -/

/-- The blocks that run on a tile: of its launches, and of entries of its commit buffer. -/
def Tile.blocksOn (t : Tile) : List W64 := (t.launches.map (·.handle) ++ t.commit.map (·.handle)).eraseDups

/-- Store requests that no slice has accepted yet are dropped. -/
def State.dropStores (s : State) (ids : List Nat) : State :=
  let keep := fun (l : List UlOp) => l.filter (fun o => !ids.contains o.r.id)
  { s with ul := { s.ul with
      points := s.ul.points.map (fun (e : Nat × UlPoint) => (e.1, { e.2 with waiting := keep e.2.waiting }))
      inq := s.ul.inq.map (fun (e : Nat × List UlOp) => (e.1, keep e.2)) } }

/-- What ran on a tile is lost (R99, R133): no further write of it reaches memory, and every block in flight on it starts
again, its other launches and commit entries gone with it. -/
def State.redispatch (s : State) (c p : Nat) : State :=
  let t := s.tile c p
  let s := s.dropStores (t.groups.flatMap (fun e => e.2.stores))
  t.blocksOn.foldl (fun (s : State) h =>
    (s.haltBlockOn c h).modEntry c h (fun e => { e with again := e.sweep })) s

/-- ACTIVE: tiles that hold logical numbers, and a spare being attached. -/
def State.syncActive (s : State) (c : Nat) : State :=
  s.setFld (Fld.PPL_TILE_MAP_ACTIVE c)
    ((s.activeTiles c).length + b2n (s.cluster c).attaching.isSome)

/-- The lowest physical number of the active tiles. -/
def State.lowestTile (s : State) (c : Nat) : Option Nat :=
  (s.activeTiles c).foldl (fun (m : Option Nat) p => match m with
    | some x => some (min x p)
    | none => some p) none

/-- The logical number t stays empty; logical 0 passes to the active tile of the lowest physical number (R101). -/
def State.emptyLogical (s : State) (c t : Nat) : State :=
  let s := s.clrBit (Fld.PPL_TILE_MAP_LVALID c) t
  if t = 0 then
    match s.lowestTile c with
    | none => s
    | some p =>
      match s.ltile? c p with
      | none => s
      | some u => ((s.clrBit (Fld.PPL_TILE_MAP_LVALID c) u).setLmap c 0 p).setBit (Fld.PPL_TILE_MAP_LVALID c) 0
  else s

/-- The spare of a cluster, where usable and not attaching. -/
def State.spare? (s : State) (c : Nat) : Option Nat :=
  if s.flag (Fld.PPL_TILE_MAP_SPARE_OK c) ∧ (s.cluster c).attaching = none then some (s.fld (Fld.PPL_TILE_MAP_SPARE_PHYS c))
  else none

/-- A logical number whose tile is lost takes the spare, or stays empty. -/
def State.steer (s : State) (c t p : Nat) : State :=
  match s.spare? c with
  | some sp =>
    let s := (s.clrBit (Fld.PPL_TILE_MAP_LVALID c) t).setFld (Fld.PPL_TILE_MAP_SPARE_OK c) 0
    let s := (s.setLmap c t sp).setTile c sp emptyTile
    s.modCluster c (fun k => { k with attaching := some t })
  | none => ((s.raise Fld.PPL_TILE_EVENTS_NO_SPARE).setBit Fld.PPL_TILE_EVENTS_CLUSTER c).emptyLogical c t |>.setTile c p emptyTile

/-- A physical tile is retired, for an event code as cause. -/
def State.retireTile (s : State) (c p cause : Nat) : State :=
  if s.fbit (Fld.PPL_TILE_RET_RETIRED c) p ∨ ¬ s.clusterUp c then s
  else
    let att := (s.cluster c).attaching
    let attP := match att with | some t => decide (s.lmap c t = p) | none => false
    let lt := s.ltile? c p
    let isSpare := s.flag (Fld.PPL_TILE_MAP_SPARE_OK c) && s.fld (Fld.PPL_TILE_MAP_SPARE_PHYS c) = p && lt.isNone
    let s := ((s.redispatch c p).setTile c p emptyTile).syncOcc c
    let s := s.setBit (Fld.PPL_TILE_RET_RETIRED c) p
    let s := (s.raise Fld.PPL_TILE_EVENTS_RETIRED).setBit Fld.PPL_TILE_EVENTS_CLUSTER c
    let s := (s.event Ev.TILE_RETIRED (unitTile c p) cause).addDefect 1 (unitTile c p) Ev.TILE_RETIRED
    let s := match att, lt with
      | some t, none => if attP then
          ((s.modCluster c (fun k => { k with attaching := none })).raise Fld.PPL_TILE_EVENTS_NO_SPARE).emptyLogical c t
        else s
      | _, some t => s.steer c t p
      | none, none => if isSpare then s.setFld (Fld.PPL_TILE_MAP_SPARE_OK c) 0 else s
    let s := s.syncActive c
    if s.fld (Fld.PPL_TILE_MAP_ACTIVE c) < 8 then s.retireCluster c Ev.TILE_RETIRED else s

/-! ## Formation (R175, R176) -/

def formKey (pipe cls : Nat) : Nat := pipe * 16 + cls

def State.form? (s : State) (pipe cls : Nat) : Option Forming := tabFind s.ppl.forming (formKey pipe cls)

def State.setForm (s : State) (pipe cls : Nat) (f : Forming) : State :=
  { s with ppl := { s.ppl with forming := tabInsert s.ppl.forming (formKey pipe cls) f } }

def State.entries (s : State) (pipe : Nat) : List Block := tabGet [] s.ppl.entryQ pipe

def State.setEntries (s : State) (pipe : Nat) (l : List Block) : State :=
  { s with ppl := { s.ppl with entryQ := tabPut [] s.ppl.entryQ pipe l } }

/-- The fill timeout in ticks: TOL_US × FILL_SHARE / 256 µs (R175). -/
def State.fillTicks (s : State) (k : Nat) : Nat :=
  s.fld (Fld.PPL_CLASS_TOL_US k) * s.fld (Fld.PPL_CLASS_FILL_SHARE k) * 625 / 1024

/-- A RUN_PIPELINE or TRAIN_STEP command and its pipeline. -/
def Cmd.pipeRows (c : Cmd) : Option Nat := if c.opcode = 0x20 ∨ c.opcode = 0x70 then some (c.f 2 63 61) else none

/-- Whether the entry has a further row of a class pending (R175): of a command, or fed back, whose sequence does not
wait for blocks. -/
def State.pendingRow (s : State) (pipe cls : Nat) : Bool :=
  s.host.cmds.any (fun c => c.stage = .running && decide (c.placed < c.rows)
    && (match c.pipeRows with
      | some p => p = pipe && c.cls = cls && c.opcode = 0x20
      | none =>
        match c.rowSeq with
        | some n =>
          (match s.seq? n with
            | some q => q.pipe = pipe && q.cls = cls && q.state = 1 && q.list.isSome && q.fork.isNone && !c.late
                && !s.kvl.waits.any (fun w => w.seq = n)
            | none => false)
        | none => false))
  || s.kvl.seqs.any (fun e => e.2.fed.isSome && e.2.pipe = pipe && e.2.cls = cls && e.2.state = 1
      && !s.kvl.waits.any (fun w => w.seq = e.1))

/-- Closing conditions newly met are stamped with the time (R176). -/
def State.noteConds (s : State) : State :=
  let meet := fun (e : Nat × Forming) =>
    e.2.cond.isNone && (decide (128 ≤ e.2.rows.length)
      || (e.2.train.isNone && e.2.timeout = 0 && !s.pendingRow (e.1 / 16) (e.1 % 16)))
  { s with ppl := { s.ppl with forming := s.ppl.forming.map (fun (e : Nat × Forming) =>
      if meet e then (e.1, { e.2 with cond := some s.now }) else e) } }

/-- Whether a row, of a training step or not, finds a place in its class's forming block. -/
def State.roomFor (s : State) (pipe cls : Nat) (train : Option Nat) : Bool :=
  match s.form? pipe cls with
  | none => true
  | some f => decide (f.rows.length < 128) && f.train = train && (train.isNone || f.cond.isNone)

/-- A row is placed in the forming block of its class. -/
def State.placeRow (s : State) (pipe cls : Nat) (train : Option Nat) (r : RowDesc) (bytes : List Byte) : State :=
  let f := match s.form? pipe cls with
    | some f => f
    | none => ⟨[], s.now, s.fillTicks cls, none, train⟩
  s.setForm pipe cls { f with rows := f.rows ++ [(r, bytes)] }

/-- FIRST and LAST of each row's sequence in the block (Table 6-4). -/
def markRows (rs : List RowDesc) : List RowDesc :=
  rs.zipIdx.map (fun (e : RowDesc × Nat) =>
    { e.1 with first := !((rs.take e.2).any (fun r => r.seq = e.1.seq)),
               last := !((rs.drop (e.2 + 1)).any (fun r => r.seq = e.1.seq)) })

/-- The bytes of rows laid at r × ROW32 × 32 (R173). -/
def rowsData (row32 : Nat) (rows : List (RowDesc × List Byte)) : Tab Byte :=
  rows.zipIdx.foldl (fun (m : Tab Byte) (e : (RowDesc × List Byte) × Nat) => putBytes m (e.2 * row32 * 32) e.1.2) []

/-- IN_BYTES of a pipeline. -/
def State.inBytes (s : State) (pipe : Nat) : Nat := match tabFind s.ppl.cfg pipe with | some g => g.inBytes | none => 0

/-- The closed block of a forming one; HANDLE, ENTRY_TB and the generation vector come as it leaves. -/
def State.closedBlock (s : State) (pipe cls : Nat) (f : Forming) : Block :=
  let row32 := s.inBytes pipe / 32
  ⟨0#64, pipe, cls, 0, 0, row32, 0, [], [0#64, 0#64, 0#64], markRows (f.rows.map (·.1)), rowsData row32 f.rows, f.train⟩

/-- Whether a forming block's condition came first of its pipeline's, the lower class at equal times (R176). -/
def State.firstToClose (s : State) (pipe cls t : Nat) : Bool :=
  s.ppl.forming.all (fun e => !(e.1 / 16 = pipe) || (match e.2.cond with
    | some u => decide (t < u) || (t = u && decide (cls ≤ e.1 % 16))
    | none => true))

/-- The bytes of row i of a command that supplies rows of IN_BYTES from HADDR (R361). -/
def State.cmdRow (s : State) (c : Cmd) (pipe i : Nat) : List Byte :=
  getBytes s.host.mem (c.f 3 63 0 + i * s.inBytes pipe) (s.inBytes pipe)

/-- ORIGIN of a command's rows (R360). -/
def Cmd.origin (c : Cmd) : Nat := c.sq * 2 ^ 16 + c.cid

/-- The rows of a RUN_PIPELINE or TRAIN_STEP that still wait enter their forming block while it has room; the fuel is a
bound on their number. A training block closes before a pair that would not fit (R193). -/
def State.feedCmd : Nat → State → Nat → State
  | 0, s, _ => s
  | n + 1, s, uid =>
    match s.cmdU uid with
    | none => s
    | some c =>
      match c.pipeRows with
      | none => s
      | some pipe =>
        if c.stage ≠ .running ∨ c.rows ≤ c.placed then s
        else if s.flag (Fld.PPL_PART_STAT_DEGRADED pipe) then
          (if c.opcode = 0x20 then s.endRows uid St.FAULT c.valid else s.failTrain pipe St.FAULT)
        else
          let isTrain := c.opcode = 0x70
          let tr := s.train? pipe
          let tag := if isTrain then tr.map (fun t => t.closed) else none
          if isTrain ∧ tag.isNone then s
          else if ¬ s.roomFor pipe c.cls tag then s
          else
            let kind := if isTrain then 3 else 2
            let r : RowDesc := ⟨true, false, false, kind, 0xFFFF, 0, c.origin, uid, c.placed⟩
            let s := (s.placeRow pipe c.cls tag r (s.cmdRow c pipe c.placed)).dmaIn (s.inBytes pipe)
            let at' := c.placed + 1
            let s := s.modCmdU uid (fun c => { c with placed := at', nextIndex := at' })
            let cut := match tr with
              | some t => isTrain && t.cuts.contains at'
              | none => false
            let s := if cut then
                (match s.form? pipe c.cls with
                  | some f => s.setForm pipe c.cls { f with cond := some s.now }
                  | none => s)
              else s
            State.feedCmd n s uid

/-- Every waiting RUN_PIPELINE and TRAIN_STEP row of a pipeline that can enter does, in order of acceptance. -/
def State.feedPipe (s : State) (pipe : Nat) : State :=
  ((s.host.cmds.filter (fun c => c.pipeRows = some pipe && c.stage = .running)).foldl
    (fun s c => State.feedCmd 129 s c.uid) s).noteConds

/-! ## Blocks on the network (R173, Tables 6-3, 6-4) -/

/-- A row descriptor as its 64-bit word. -/
def RowDesc.word (r : RowDesc) : W64 :=
  BitVec.ofNat 64 (b2n r.valid * 2 ^ 63 + b2n r.first * 2 ^ 62 + b2n r.last * 2 ^ 61 + r.kind % 4 * 2 ^ 59
    + r.seq % 2 ^ 16 * 2 ^ 40 + r.pos % 2 ^ 18 * 2 ^ 22 + r.origin % 2 ^ 22)

/-- Four generations of a vector as a header word. -/
def genWord (g : List Nat) (p : Nat) : W64 :=
  BitVec.ofNat 64 ((List.range 4).foldl (fun n i => n + g.getD (p + i) 0 % 2 ^ 16 * 2 ^ (16 * i)) 0)

/-- The eight words of a block's header. -/
def Block.header (b : Block) : List W64 :=
  [b.handle,
    BitVec.ofNat 64 (b.pipe % 8 * 2 ^ 61 + b.cls % 16 * 2 ^ 57 + (b.rows.length - 1) % 128 * 2 ^ 50 + b.layer % 256 * 2 ^ 42
      + b.step % 64 * 2 ^ 36 + b.row32 % 1024 * 2 ^ 26),
    BitVec.ofNat 64 b.entryTb, genWord b.genv 0, genWord b.genv 4,
    b.carry.getD 0 0#64, b.carry.getD 1 0#64, b.carry.getD 2 0#64]

/-- Handshakes of 512 bytes that a block takes: header and row table in three, then its row data. -/
def Block.handshakes (b : Block) : Nat := 3 + (b.rows.length * b.row32 * 32 + 511) / 512

/-- The bytes of a block as its handshakes carry them: header, row table, zeros to 1,535, row data padded to the last
handshake's end. -/
def Block.bytes (b : Block) : List Byte :=
  let table := (b.rows ++ List.replicate (128 - b.rows.length) (⟨false, false, false, 0, 0, 0, 0, 0, 0⟩ : RowDesc)).map RowDesc.word
  (b.header ++ table).flatMap (fun w => leBytes 8 w.toNat) ++ List.replicate 448 0#8
    ++ getBytes b.data 0 (512 * (b.handshakes - 3))

/-! ## Sweeps (R179, R180) -/

/-- Row r of block b waits at an ATTN step on no older block that has not completed it: no other block in flight with
a lower HANDLE holds a lower position of the same sequence and has yet to complete this layer's step; headers advance
as a step completes. -/
def State.attnReady (s : State) (b : Block) : Bool :=
  b.rows.all (fun r => 1 < r.kind || s.allEntries.all (fun e =>
    decide (b.handle.toNat ≤ e.2.block.handle.toNat)
      || !(e.2.block.rows.any (fun x => x.kind ≤ 1 && x.seq = r.seq && decide (x.pos < r.pos)))
      || decide (b.layer < e.2.block.layer)
      || (decide (b.layer = e.2.block.layer) && decide (b.step < e.2.block.step))
      || (decide (b.layer = e.2.block.layer) && e.2.block.step = b.step && e.2.exits ≠ [])))

/-- The blocks of a cluster's next sweep (R179): the oldest eligible block and every other with its (PIPE, LAYER, STEP).
An ATTN sweep holds only rows that satisfy R180. -/
def State.nextSweep (s : State) (c : Nat) : List QEntry :=
  let attn := s.fld (Fld.PPL_STAGE_ROLE c) = 4
  let cand := (s.cluster c).queue.filter (fun e => !e.done && !e.sweep && (!attn || s.attnReady e.block))
  match lowest cand with
  | none => []
  | some h =>
    match cand.find? (fun e => e.block.handle.toNat = h) with
    | none => []
    | some o => cand.filter (fun e => e.block.pipe = o.block.pipe && e.block.layer = o.block.layer
        && e.block.step = o.block.step)

end Sys2Proof.Machine
end

