-- ==== Sys2Proof/Machine/Owner.lean ====
section
/-! DEFINITION. What the owner of lost data does (08_underlayer.md R257, R261, Table 8-6; 07_kv_ledger.md R228;
09_belt_scoring.md R297). -/

namespace Sys2Proof.Machine

/-! ## KV pages (R228) -/

/-- The page block that covers a device address. -/
def State.pageAt (s : State) (a : Nat) : Option (Nat × PageRef) :=
  if a < s.poolBase then none
  else
    let u := (a - s.poolBase) / unitBytes
    s.kvl.refs.find? (fun (e : Nat × PageRef) => decide (e.1 ≤ u) && decide (u < e.1 + 2 ^ e.2.cls))

/-- A KV page is poisoned; the event names each sequence that holds it. -/
def State.poisonPage (s : State) (a : Nat) : State :=
  match s.pageAt a with
  | none => s.raise Fld.KVL_EVENTS_POISON
  | some (u, r) =>
    let rows := match s.lineOf (a / 256) with
      | some (k, _) => [(keySlice k, rowOf (keySet k) (keyWay k))]
      | none => []
    let s := (s.setRef u { r with poison := true, rows := r.rows ++ rows }).raise Fld.KVL_EVENTS_POISON
    (s.kvl.seqs.filter (fun e => e.2.pages.any (fun p => !p.swapped && p.unit = u))).foldl
      (fun (s : State) e => s.event Ev.KV_POISON e.1) s

/-! ## Belt data (R297, Table 9-12) -/

/-- Every resident query ends with FAULT and no entries; one event for each. -/
def State.faultResident (s : State) : State :=
  s.belt.slots.foldl (fun (s : State) (e : Nat × QSlot) =>
    if e.2.done then s.freeSlot e.1
    else (((s.deliver e.2.q St.FAULT e.2.lost []).freeSlot e.1).raise Fld.BLT_EVENTS_SLOT_FAULT).event Ev.BELT_QUERY_FAULT
      (e.1 / 1024)) s

/-- A record of a held shard of one generation cannot be read. -/
def State.loseRecord (s : State) (home id gen i : Nat) (asHome : Bool) : State :=
  { s with belt := { s.belt with held := s.belt.held.map (fun (h : HeldShard) =>
      if h.home = home ∧ h.id = id ∧ h.gen = gen ∧ h.asHome = asHome then { h with recs := h.recs.set i none } else h) } }

/-- A tap-buffer entry is lost: let pass by every cluster that has neither consumed nor taken it. -/
def State.loseTap (s : State) (r g h q : Nat) : State :=
  let hit : TapFrame → Bool := fun f => f.rev = r && f.seg = g && f.home = h && f.seq = q
  (s.scoreClusters.foldl (fun (s : State) c => s.letPassTap c hit) s).event Ev.BELT_TAP_LOST 0

/-- Tallies, ranges or the directory are lost. -/
def State.loseTallies (s : State) : State :=
  let s := s.faultResident
  let s := { s with belt := { s.belt with tallies := [], needDir := true } }
  let s := s.scoreClusters.foldl (fun (s : State) c => s.setScore c { s.scoreCl c with ranges := [] }) s
  (s.askDir).syncBelt

def State.beltLoss (s : State) (what : LostData) : State :=
  match what with
  | .shardRecord home id gen i asHome => s.loseRecord home id gen i asHome
  | .tapEntry r g h q => s.loseTap r g h q
  | .querySlot c i =>
    match tabFind s.belt.slots (c * 1024 + i) with
    | some x =>
      if x.done then s
      else (((s.endSlot (c * 1024 + i) x St.FAULT []).raise Fld.BLT_EVENTS_SLOT_FAULT).event Ev.BELT_QUERY_FAULT c).syncBelt
    | none => s
  | .tallies => s.loseTallies
  | _ => s

/-! ## Block buffers (R174) -/

def State.blockLoss (s : State) (what : LostData) : State :=
  match what with
  | .block h => s.blockFault h
  | .forming pipe cls =>
    match s.form? pipe cls with
    | some f =>
      ({ s with ppl := { s.ppl with forming := tabErase s.ppl.forming (formKey pipe cls) } }).looseFault pipe
        (f.rows.map (fun (x : RowDesc × List Byte) => x.1))
    | none => s
  | .entry pipe i =>
    match (s.entries pipe)[i]? with
    | some b => (s.setEntries pipe ((s.entries pipe).eraseIdx i)).looseFault pipe b.rows
    | none => s
  | _ => s

/-! ## The owner acts (Table 8-6) -/

/-- OWNER of an address: DEVICE outside windows. -/
def State.ownerOf (s : State) (a : Nat) : Nat :=
  match s.winAt a with
  | some w => s.fld (Fld.ULC_WIN_ATTR_OWNER w)
  | none => 0

/-- Cluster resets are asked for, for an event code as cause; a cluster whose reset is due already is left (R425, R427). -/
def State.askClusterResets (s : State) (cs : List Nat) (cause : Nat) : State :=
  let new := cs.filter (fun (c : Nat) => !s.boot.clusterReq.any (fun e => e.1 = c))
  { s with boot := { s.boot with clusterReq := s.boot.clusterReq ++ new.map (fun (c : Nat) => (c, cause)) } }

/-- The clusters of a partition. -/
def State.partClusters (s : State) (p : Nat) : List Nat :=
  (maskList (s.fld (Fld.PPL_PART_CLUSTERS p))).filter (fun c => s.clusterUp c)

/-- UL_POISON for an address; outside windows no rule gives its unit: a free value. -/
def State.poisonEvent (s : State) (a : Nat) : State :=
  match s.winAt a with
  | some w => s.event Ev.UL_POISON w
  | none =>
    let (s, w) := s.fresh 32
    s.event Ev.UL_POISON w

/-- The action of the owner of a lost sector; the DEVICE owner of an unbacked line asks for a cold start (R261). -/
def State.ownerActs (s : State) (a : Nat) (what : LostData) (unbacked : Bool) : State :=
  match s.ownerOf a with
  | 4 => s.beltLoss what
  | 0 =>
    let s := s.poisonEvent a
    if unbacked then { s with boot := { s.boot with coldReq := true } } else s.deviceScope Ev.UL_POISON
  | 1 =>
    let s := s.poisonEvent a
    match s.winAt a with
    | some w => s.askClusterResets (s.partClusters (s.fld (Fld.ULC_WIN_ATTR_PART w))) Ev.UL_POISON
    | none => s
  | 2 => (s.poisonEvent a).blockLoss what
  | 3 => (s.poisonEvent a).poisonPage a
  | _ => s.poisonEvent a

/-- The first read of a sector that no channel backs reaches its owner, once for the reads of a line (R257, R261). -/
def State.unbackedSectors (s : State) (secs : List Nat) (what : LostData) : State :=
  let new := secs.filter (fun x => !s.backed (x / 8) && !tabGet false s.ul.hbmPoison x)
  let p := new.foldl (fun (m : Tab Bool) x => tabPut false m x true) s.ul.hbmPoison
  ((new.map (fun x => x / 8)).eraseDups).foldl (fun (s : State) l => s.ownerActs (l * 256) what true)
    { s with ul := { s.ul with hbmPoison := p } }

end Sys2Proof.Machine
end

