-- ==== Sys2Proof/Machine/Operands.lean ====
section
/-! DEFINITION. Operand forms of a thread group's instructions: registers, local-store ranges, guards, global addresses;
kernel faults (03_tiles.md R83 to R86; 04_thread_groups.md R110, R111, R116 to R119, R134). -/

namespace Sys2Proof.Machine

/-! ## Kernel faults (R134, Table 4-7) -/

def KF.DIVERGED_MATRIX : Nat := 1
def KF.DIVERGED_BARRIER : Nat := 2
def KF.BAD_ADDRESS : Nat := 3
def KF.BAD_FORMAT : Nat := 4
def KF.COMMIT_OVERFLOW : Nat := 5
def KF.MASK_OVERFLOW : Nat := 6
def KF.LOCK_NOT_HELD : Nat := 7
def KF.ILLEGAL_INSTRUCTION : Nat := 8
def KF.DEAD_READ : Nat := 9
def KF.WATCHDOG : Nat := 10

/-- The first fault is captured (Tables 4-11 and 4-12). -/
def State.captureFault (s : State) (kid c ltile slot cause pc : Nat) : State :=
  if s.flag Fld.PPL_KFAULT_LO_VALID then s
  else
    let s := ((s.setFld Fld.PPL_KFAULT_LO_KERNEL_ID kid).setFld Fld.PPL_KFAULT_LO_CLUSTER c).setFld
      Fld.PPL_KFAULT_LO_LTILE ltile
    let s := ((s.setFld Fld.PPL_KFAULT_LO_SLOT slot).raise Fld.PPL_KFAULT_LO_VALID).setFld Fld.PPL_KFAULT_HI_CAUSE cause
    s.setFld Fld.PPL_KFAULT_HI_PC pc

/-- A kernel fault is captured, counted and journalled. -/
def State.reportFault (s : State) (kid c p ltile slot cause pc : Nat) : State :=
  ((s.captureFault kid c ltile slot cause pc).incFld Fld.PPL_KFAULT_COUNT_COUNT).event Ev.KERNEL_FAULT (unitTile c p) 0
    (kid + cause * 2 ^ 16)

/-- A kernel fault of a group (R134): its launch is halted, its block ends with FAULT. -/
def State.groupFault (s : State) (g : GroupRef) (p : Nat) (gr : Group) (cause : Nat) : State :=
  match s.launchOf g.cluster p gr with
  | none => s
  | some l =>
    let s := s.reportFault (kDesc l.kernel).kernelId g.cluster p g.ltile g.slot cause gr.pc.toNat
    (s.putTile g.cluster p ((s.tile g.cluster p).haltLaunch l.num)).blockFault l.handle

/-! ## Issue -/

/-- An instruction of a group that may issue; a group that may not, or that is not resident, is left as it is. -/
def State.issue (s : State) (g : GroupRef) (f : Nat → Group → State) : State :=
  match s.groupAt g with
  | some (p, gr) => if s.canIssue g p gr then f p gr else s
  | none => s

/-- The group goes on at its next instruction. -/
def State.stepOn (s : State) (g : GroupRef) (p : Nat) (gr : Group) : State :=
  s.setGroup g.cluster p g.slot gr.next

/-- The tile's local store replaced, and the group goes on. -/
def State.stepLs (s : State) (g : GroupRef) (p : Nat) (gr : Group) (ls : Tab Byte) : State :=
  (s.setTile g.cluster p { s.tile g.cluster p with ls := ls }).stepOn g p gr

/-- Vector registers of the group's kernel (R110); a 64-bit value takes an even register and the one above. -/
def KDesc.vOk (k : KDesc) (r : Nat) : Bool := decide (r < k.vregs)
def KDesc.pairOk (k : KDesc) (r : Nat) : Bool := decide (r % 2 = 0) && decide (r + 1 < k.vregs)

/-- Registers that hold an element of 2^n bytes. -/
def KDesc.elemOk (k : KDesc) (n r : Nat) : Bool := decide (n ≤ 3) && (if n = 3 then k.pairOk r else k.vOk r)

/-- The bytes of a register operand of 2^n bytes: the lowest of the register, or of the pair. -/
def Group.elem (gr : Group) (n t r : Nat) : Nat :=
  if n = 3 then (gr.vreg64 t r).toNat else (gr.vreg t r).toNat % 2 ^ (8 * 2 ^ n)

/-- A register result of 2^n bytes, zero above. -/
def Group.setElem (gr : Group) (n t r v : Nat) : Group :=
  if n = 3 then gr.setV64 t r (BitVec.ofNat 64 v) else gr.setV t r (BitVec.ofNat 32 (v % 2 ^ (8 * 2 ^ n)))

/-- A result for every active thread, in ascending index. -/
def Group.mapThreads (gr : Group) (f : Group → Nat → Group) : Group := gr.threads.foldl f gr

/-- Whether the group's active mask is its launch mask: all W threads (R108, R125). -/
def Group.whole (gr : Group) : Bool := gr.active = widthMask gr.width

/-- The group's kernel runs special functions in Uluver mode. -/
def State.uluver (s : State) (c p : Nat) (gr : Group) : Bool := (s.kernelOf c p gr).uluver

/-! ## The local store (R111, R119) -/

/-- Whether each active thread's element of 2^n bytes at the address in V[a] is aligned and in the group's areas. -/
def lsAddrsOk (k : KDesc) (gr : Group) (n a : Nat) : Bool :=
  gr.threads.all (fun t => let x := (gr.vreg t a).toNat; x % 2 ^ n = 0 && k.inArea gr.priv x (2 ^ n))

/-- Local-store ranges of the active threads. -/
def lsRanges (gr : Group) (n a : Nat) : List Range := gr.threads.map (fun t => ((gr.vreg t a).toNat, 2 ^ n))

/-- The descriptors of a queued matrix operation. -/
def MatOp.mats (m : MatOp) : List MatDesc := m.descs.map matDesc

/-- D ranges of a queued matrix operation, and all its ranges. -/
def MatOp.dRanges (m : MatOp) : List Range := m.mats.map (fun d => d.dRange m.offset)
def MatOp.allRanges (m : MatOp) : List Range := m.dRanges ++ m.mats.flatMap (fun d => d.inRanges m.offset)

def anyOverlap (xs ys : List Range) : Bool := xs.any (fun x => ys.any (fun y => x.overlaps y))

/-- A load from a guarded D range, a store into any guarded range stalls (R86). -/
def Tile.loadStalls (t : Tile) (rs : List Range) : Bool := t.queue.any (fun m => anyOverlap rs m.dRanges)
def Tile.storeStalls (t : Tile) (rs : List Range) : Bool := t.queue.any (fun m => anyOverlap rs m.allRanges)

/-! ## Matrix instructions at issue (R83, R85, R91) -/

/-- The range checks of R85 over all sub-problems, and those of R111. -/
def matRangesOk (k : KDesc) (q off : Nat) (ds : List MatDesc) : Bool :=
  let all := ds.flatMap (fun d => d.dRange off :: d.inRanges off)
  let reads := ds.flatMap (fun d => [d.aRange off, d.bRange off, d.ascRange off, d.bscRange off])
  decide (off % 32 = 0)
    && all.all (fun r => r.1 + r.2 ≤ k.ls && k.inArea q r.1 r.2)
    && ds.all (fun d => !anyOverlap [d.dRange off] reads
      && ds.all (fun e => !(d.dRange off).overlaps (e.cRange off)
        || (decide (e.cBase = d.dBase) && decide (cSize e = resSize d.fmtD))))

/-- The pair must stand in Table 2-4, and a per-tensor scale must be finite; for an MX operand the scale register is ignored
(R57, R83). -/
def scalesOk (d : MatDesc) (sa sb : W32) : Bool :=
  (accumOf d.fmtA d.fmtB).isSome && (d.isMx || ((fv32 sa).isFin && (fv32 sb).isFin))

/-- The sub-problems of one MMAP agree (R91). -/
def packAgrees (ds : List MatDesc) : Bool :=
  ds.all (fun d => d.mode = 1) && (match ds with
    | [] => true
    | e :: _ => ds.all (fun d => d.fmtA = e.fmtA && d.fmtB = e.fmtB && d.fmtD = e.fmtD && d.sat = e.sat && d.cSrc = e.cSrc
        && d.bRead = e.bRead))

/-- The matrix descriptors that the group's program holds in a run of slots; none where a slot holds another thing. -/
def State.matSlots (s : State) (c : Nat) (l : Launch) (desc count : Nat) : Option (List (List W64)) :=
  match (s.cluster c).prog? l.gen with
  | none => none
  | some pr => (List.range count).mapM (fun i =>
      if pr.kernels.contains (desc + i) then none else progSlot pr (desc + i))

/-- A matrix operation is queued. -/
def Tile.enqueue (t : Tile) (slot launch : Nat) (descs : List (List W64)) (packed : Bool) (off : Nat) (sa sb : W32) : Tile :=
  { t with queue := t.queue ++ [⟨slot, launch, descs, packed, off, sa, sb, descs.map (fun _ => ⟨0, 0, false, false⟩)⟩] }

/-- MMA and MMAP at issue (R83, R85, R91, R125): the mask, then room among the group's four and the array's sixteen, then
format, then addresses. -/
def State.issueMat (s : State) (g : GroupRef) (p : Nat) (gr : Group) (descs : List (List W64)) (packed : Bool)
    (sOff sScale : Nat) : State :=
  let t := s.tile g.cluster p
  let ds := descs.map matDesc
  let off := (gr.sreg sOff).toNat
  let sa : W32 := (gr.sreg sScale).setWidth 32
  let sb : W32 := ((gr.sreg sScale) >>> 32).setWidth 32
  if ¬ gr.whole then s.groupFault g p gr KF.DIVERGED_MATRIX
  else if 4 ≤ t.outstanding g.slot ∨ 16 ≤ t.queue.length then s
  else if ¬ ds.all (fun d => scalesOk d sa sb) then s.groupFault g p gr KF.BAD_FORMAT
  else if packed && !packAgrees ds then s.groupFault g p gr KF.BAD_FORMAT
  else if ¬ matRangesOk (s.kernelOf g.cluster p gr) gr.priv off ds then s.groupFault g p gr KF.BAD_ADDRESS
  else (s.setTile g.cluster p (t.enqueue g.slot gr.launch descs packed off sa sb)).stepOn g p gr

/-! ## Global memory (R117 to R119, R231, R244) -/

/-- The 64-bit address of a thread. -/
def Group.gaddr (gr : Group) (t a : Nat) : Nat := (gr.vreg64 t a).toNat

/-- Whether every active thread's element is aligned and inside a region of Table 8-1; a store or a reduction, outside
views. -/
def State.gAddrsOk (s : State) (gr : Group) (size a : Nat) (write : Bool) : Bool :=
  gr.threads.all (fun t =>
    let x := gr.gaddr t a
    x % size = 0 && s.addrOk x && !(write && s.isView (x / 256)))

/-- The class of a block in flight. -/
def State.classOf (s : State) (h : W64) : Nat := match s.entryOf h with | some e => e.2.block.cls | none => 0

/-- The class of the requests of a block's kernel on a cluster (Table 11-1, R336): BELT_CLASS at a SCORE or TOPK stage, else
that of the lowest-HANDLE block of the cluster's sweep. -/
def State.classAt (s : State) (c : Nat) (h : W64) : Nat :=
  if s.beltStage c then s.fld Fld.RGL_CTL_BELT_CLASS
  else
    let sweep := (s.cluster c).queue.filter (fun e => e.sweep)
    match sweep.find? (fun e => lowest sweep = some e.block.handle.toNat) with
    | some e => e.block.cls
    | none => s.classOf h

/-- A request number. -/
def State.takeId (s : State) : State × Nat := ({ s with ul := { s.ul with nextId := s.ul.nextId + 1 } }, s.ul.nextId)

/-- Sectors grouped into requests: by line on the lead tile, one each on an ordinary tile (R117). -/
def groupSectors (lead : Bool) (secs : List Nat) : List (Nat × BitVec 8) :=
  if lead then
    ((secs.map (· / 8)).eraseDups).map (fun l =>
      (l, secs.foldl (fun (m : BitVec 8) x => if x / 8 = l then m ||| BitVec.ofNat 8 (2 ^ (x % 8)) else m) 0#8))
  else secs.map (fun x => (x / 8, BitVec.ofNat 8 (2 ^ (x % 8))))

/-- Send read requests for sectors; the numbers they took. -/
def State.sendReads (s : State) (c cls : Nat) : List (Nat × BitVec 8) → State × List Nat
  | [] => (s, [])
  | (l, m) :: t =>
    let (s, n) := s.takeId
    let s := s.submit ⟨.read, ⟨n, c, cls, l, m, 0#2048, 0#256, 0⟩⟩
    let (s, ids) := s.sendReads c cls t
    (s, n :: ids)

/-- The bytes that a group store writes into one line, from its threads in ascending order: data and byte mask. -/
def storeImage (line : Nat) (els : List (Nat × Nat × Nat)) : BitVec 2048 × BitVec 256 :=
  els.foldl (fun (acc : BitVec 2048 × BitVec 256) (e : Nat × Nat × Nat) =>
    let (a, n, v) := e
    if a / 256 = line then
      let i := a % 256
      let bm : BitVec 2048 := (BitVec.ofNat 2048 (2 ^ (8 * n) - 1)) <<< (8 * i)
      ((acc.1 &&& ~~~bm) ||| ((BitVec.ofNat 2048 (v % 2 ^ (8 * n))) <<< (8 * i)),
        acc.2 ||| ((BitVec.ofNat 256 (2 ^ n - 1)) <<< i))
    else acc) (0#2048, 0#256)

/-- A byte mask kept to the sectors named. -/
def keepSectors (m : BitVec 256) (secs : BitVec 8) : BitVec 256 :=
  (List.range 8).foldl (fun (acc : BitVec 256) i =>
    if secs.getLsbD i then acc ||| (m &&& ((BitVec.ofNat 256 (2 ^ 32 - 1)) <<< (32 * i))) else acc) 0#256

/-- Send write requests for sectors of a group store; the numbers they took. -/
def State.sendStores (s : State) (c cls : Nat) (els : List (Nat × Nat × Nat)) : List (Nat × BitVec 8) → State × List Nat
  | [] => (s, [])
  | (l, m) :: t =>
    let (s, n) := s.takeId
    let (d, b) := storeImage l els
    let s := s.submit ⟨.store, ⟨n, c, cls, l, m, d, keepSectors b m, 0⟩⟩
    let (s, ids) := s.sendStores c cls els t
    (s, n :: ids)

/-- Held L1 sectors that a group store touches are updated (R117). -/
def storeL1 (l1 : Tab (BitVec 256)) (els : List (Nat × Nat × Nat)) : Tab (BitVec 256) :=
  els.foldl (fun (m : Tab (BitVec 256)) (e : Nat × Nat × Nat) =>
    let (a, n, v) := e
    match tabFind m (a / 32) with
    | none => m
    | some old =>
      let i := a % 32
      let bm : BitVec 256 := (BitVec.ofNat 256 (2 ^ (8 * n) - 1)) <<< (8 * i)
      tabInsert m (a / 32) ((old &&& ~~~bm) ||| ((BitVec.ofNat 256 (v % 2 ^ (8 * n))) <<< (8 * i)))) l1

/-- A sector enters L1 while its lines, 256 B each, fit the share (R111, R117). -/
def allocL1 (share : Nat) (l1 : Tab (BitVec 256)) (sec : Nat) (v : BitVec 256) : Tab (BitVec 256) :=
  let lines := (l1.map (fun e => e.1 / 8)).eraseDups
  if lines.contains (sec / 8) ∨ lines.length < l1Bytes share / 256 then tabInsert l1 sec v else l1

/-- An element of a sector. -/
def secElem (v : BitVec 256) (a n : Nat) : Nat := v.toNat / 2 ^ (8 * (a % 32)) % 2 ^ (8 * n)

/-- The registers of a load whose sectors have all come. -/
def Group.loadElems (gr : Group) (n reg : Nat) (addrs : List (Nat × Nat)) (got : Tab (BitVec 256)) : Group :=
  addrs.foldl (fun (gr : Group) (e : Nat × Nat) => gr.setElem n e.1 reg (secElem (tabGet 0#256 got (e.2 / 32)) e.2 (2 ^ n))) gr

/-- Whether a store of the group to one of the sectors still waits at a slice's point: a load of it may not pass the store
(R120). -/
def State.storeWaits (s : State) (gr : Group) (secs : List Nat) : Bool :=
  s.ul.points.any (fun e => e.2.waiting.any (fun o => gr.stores.contains o.r.id
    && secs.any (fun x => decide (x / 8 = o.r.line) && o.r.sectors.getLsbD (x % 8))))

/-- Group loads, through L1 or past it (R117, R118, R120): sectors held by L1 answer at once; the others become
requests, and the group goes on once they are answered. A load of what the group's own waiting store writes stalls. -/
def State.issueLoad (s : State) (g : GroupRef) (p : Nat) (gr : Group) (n d a : Nat) (nc : Bool) (evict : List Nat) : State :=
  let k := s.kernelOf g.cluster p gr
  if ¬ (k.elemOk n d && k.pairOk a) then s
  else if ¬ s.gAddrsOk gr (2 ^ n) a false then s.groupFault g p gr KF.BAD_ADDRESS
  else if s.storeWaits gr (gr.threads.map (fun x => gr.gaddr x a / 32)) then s
  else
    let t := s.tile g.cluster p
    let l1 := if nc then t.l1 else t.l1.filter (fun (e : Nat × BitVec 256) => !evict.contains (e.1 / 8))
    let addrs := gr.threads.map (fun x => (x, gr.gaddr x a))
    let secs := (addrs.map (fun e => e.2 / 32)).eraseDups
    let hits := if nc then [] else secs.filter (fun x => (tabFind t.l1 x).isSome)
    let got : Tab (BitVec 256) := hits.foldl (fun (m : Tab (BitVec 256)) x => tabInsert m x (tabGet 0#256 t.l1 x)) []
    let need := secs.filter (fun x => !hits.contains x)
    if need.isEmpty then (s.setTile g.cluster p { t with l1 := l1 }).stepOn g p (gr.loadElems n d addrs got)
    else
      let h := match s.launchOf g.cluster p gr with | some l => l.handle | none => 0#64
      let (s, ids) := s.sendReads g.cluster (s.classAt g.cluster h) (groupSectors (g.ltile = 0) need)
      let load : PendLoad := ⟨g.slot, d, 2 ^ n, addrs, need, got, nc, ids, if nc then [] else need⟩
      s.setTile g.cluster p { t with l1 := l1, loads := t.loads ++ [load] }

/-! ## The commit buffer (R100) -/

/-- Entries of the tile's commit buffer, and those of one block. -/
def Tile.commitOf (t : Tile) (h : W64) : Nat := (t.commit.filter (fun c => c.handle = h)).length

/-- Operations for the commit buffer, each reduction under a number of its own. -/
def State.numbered (s : State) : List CommitOp → State × List CommitOp
  | [] => (s, [])
  | .red r :: t =>
    let x := s.takeId
    let y := x.1.numbered t
    (y.1, .red { r with id := x.2 } :: y.2)
  | o :: t =>
    let y := s.numbered t
    (y.1, o :: y.2)

/-- Place entries in the commit buffer: a block's 1,025th faults; a buffer full of other blocks' entries stalls. The entries
of a launch whose block has ended with FAULT meanwhile are discarded (R183). -/
def State.placeCommit (s : State) (g : GroupRef) (p : Nat) (gr : Group) (ops : List CommitOp) : State :=
  let t := s.tile g.cluster p
  match s.launchOf g.cluster p gr with
  | none => s
  | some l =>
    if (s.entryOf l.handle).isNone ∧ ¬ s.beltStage g.cluster then s.stepOn g p gr
    else if 1024 < t.commitOf l.handle + ops.length then s.groupFault g p gr KF.COMMIT_OVERFLOW
    else if 1024 < t.commit.length + ops.length then s
    else
      let (s, ops) := s.numbered ops
      let es : List Commit := ops.map (fun o => ⟨l.num, g.slot, l.handle, o⟩)
      (s.setTile g.cluster p { t with commit := t.commit ++ es }).stepOn g p gr

end Sys2Proof.Machine
end

