-- ==== Sys2Proof/Machine/Matrix.lean ====
section
/-! DEFINITION. The matrix array in service: matrix instructions, passes and their checks, completion, spares
(03_tiles.md R83 to R103). -/

namespace Sys2Proof.Machine

/-! ## Matrix instructions (R83, R91, R125) -/

/-- MMA (R83): one matrix operation; a descriptor of MODE packed runs as MMAP with COUNT 1. -/
def execMma (g : GroupRef) (desc sOff sScale : Nat) (s : State) : Host.Outcome State Fault Refusal :=
  .next (s.issue g (fun p gr =>
    match (s.launchOf g.cluster p gr).bind (fun l => s.matSlots g.cluster l desc 1) with
    | none => s
    | some ds => s.issueMat g p gr ds (ds.any (fun w => (matDesc w).mode = 1)) sOff sScale))

/-- MMAP (R91): COUNT from 1 to 16 consecutive descriptors. -/
def execMmap (g : GroupRef) (desc count sOff sScale : Nat) (s : State) : Host.Outcome State Fault Refusal :=
  .next (s.issue g (fun p gr =>
    if count < 1 ∨ 16 < count then s
    else
      match (s.launchOf g.cluster p gr).bind (fun l => s.matSlots g.cluster l desc count) with
      | none => s
      | some ds => s.issueMat g p gr ds true sOff sScale))

/-- MWAIT (R83): n from 0 to 3. -/
def execMwait (g : GroupRef) (n : Nat) (s : State) : Host.Outcome State Fault Refusal :=
  .next (s.issue g (fun p gr =>
    if 3 < n then s
    else if ¬ gr.whole then s.groupFault g p gr KF.DIVERGED_MATRIX
    else if (s.tile g.cluster p).outstanding g.slot ≤ n then s.stepOn g p gr
    else s))

/-! ## Passes (R88, R95 to R98) -/

/-- The operation that the array runs: the first of the queue whose passes have not all ended (R89). -/
def Tile.running? (t : Tile) : Option (Nat × MatOp) :=
  (t.queue.zipIdx.find? (fun e => !e.1.subs.all (fun r => r.done))).map (fun e => (e.2, e.1))

/-- Replace a sub-problem's progress in an operation of the array queue. -/
def Tile.setSub (t : Tile) (at' sub : Nat) (r : SubRun) : Tile :=
  { t with queue := t.queue.zipIdx.map (fun (e : MatOp × Nat) =>
      if e.2 = at' then { e.1 with subs := e.1.subs.set sub r } else e.1) }

/-- Flags join the ASW of a resident group. -/
def Tile.addFlags (t : Tile) (slot launch : Nat) (f : AswBits) : Tile :=
  match tabFind t.groups slot with
  | some gr => if gr.launch = launch then { t with groups := tabInsert t.groups slot (gr.flags f) } else t
  | none => t

/-- Skipped compares are counted, and show in the ASW (R72, R102). -/
def State.noteSkips (s : State) (c p : Nat) (m : MatOp) (n : Nat) : State :=
  if n = 0 then s
  else (s.setTile c p ((s.tile c p).addFlags m.slot m.launch asw.CHKSKIP)).addFld (Fld.PPL_CHK_SKIPPED c) n

/-- A fold block's re-run passed (R97, R98): the mismatch was transient; too many within a second retire the tile. -/
def State.transient (s : State) (c p : Nat) : State :=
  let t := s.tile c p
  let hist := s.now :: t.transients.filter (fun x => decide (s.now < x + 156250000))
  let s := s.setTile c p { t with transients := hist }
  let s := (s.incFld (Fld.PPL_CHK_TRANSIENT c)).raise Fld.PPL_TILE_EVENTS_TRANSIENT
  let s := s.event Ev.TILE_TRANSIENT (unitTile c p)
  let lim := s.fld Fld.PPL_CHK_CTL_TRANS_LIMIT
  if lim ≠ 0 ∧ lim ≤ hist.length then s.retireTile c p Ev.TILE_TRANSIENT else s

/-- The progress after a pass whose taken compares all passed. -/
def SubRun.advance (r : SubRun) (d : MatDesc) (packed : Bool) : SubRun :=
  if r.pass + 1 < d.passes packed then { r with pass := r.pass + 1 }
  else ⟨r.fold + 1, 0, false, decide (d.folds packed ≤ r.fold + 1)⟩

/-- A pass whose taken compares all passed (R96, R97). -/
def State.passOk (s : State) (c p at' sub : Nat) (r : SubRun) (d : MatDesc) (packed : Bool) : State :=
  let s := s.setTile c p ((s.tile c p).setSub at' sub (r.advance d packed))
  if r.rerun ∧ ¬ r.pass + 1 < d.passes packed then s.transient c p else s

/-- A taken compare mismatches (R97): the fold block runs once more from its first pass; a second time the tile is
retired. -/
def State.passBad (s : State) (c p at' sub : Nat) (r : SubRun) : State :=
  if r.rerun then s.retireTile c p 0
  else s.setTile c p ((s.tile c p).setSub at' sub ⟨r.fold, 0, true, false⟩)

/-- The results of every sub-problem drain to D in order; their flags. -/
def MatOp.drain (m : MatOp) (ls : Tab Byte) : Tab Byte × AswBits :=
  m.mats.foldl (fun (acc : Tab Byte × AswBits) d =>
    let r := d.run acc.1 m.offset (if d.isMx then one32 else m.scaleA) (if d.isMx then one32 else m.scaleB)
    (r.1, acc.2 ||| r.2)) (ls, 0#32)

/-- The local store as the operations before one in the queue leave it. -/
def Tile.lsAt (t : Tile) (at' : Nat) : Tab Byte := (t.queue.take at').foldl (fun ls m => (m.drain ls).1) t.ls

/-- The end of one pass of a sub-problem that runs. A fault of the array shows where a compare is taken; one of the two copies
of the merge adders always (R90). -/
def State.passEnd (s : State) (c p at' sub : Nat) (m : MatOp) (r : SubRun) (d : MatDesc) (mismatch mergeDiffers : Bool) : State :=
  let k := d.check m.packed ((s.tile c p).lsAt at') m.offset r.fold r.pass
  let s := s.noteSkips c p m k.skipped
  let merge := mergeDiffers && decide (accumOf d.fmtA d.fmtB ≠ some .sterling)
  if k.fails || merge || (mismatch && decide (k.skipped < k.total)) then s.passBad c p at' sub r
  else s.passOk c p at' sub r d m.packed

/-- MATRIX_PASS_END (R89, R90, R95 to R98): the compares of a pass of the operation that the array runs. Whether a fault makes
a taken compare mismatch, or the copies of the merge disagree, is the array's; a skipped compare neither triggers nor passes a
re-run (R102). -/
def execMatrixPassEnd (c t sub : Nat) (e : PassErrors) (s : State) : Host.Outcome State Fault Refusal :=
  .next (match s.phys? c t with
    | none => s
    | some p =>
      match (s.tile c p).running? with
      | none => s
      | some (i, m) =>
        match m.subs[sub]?, m.mats[sub]? with
        | some r, some d => if r.done then s else s.passEnd c p i sub m r d e.mismatch e.mergeDiffers
        | _, _ => s)

/-! ## Completion (R62, R64, R89, R114) -/

/-- The operation at the head of the queue, its sub-problems done, leaves the array. -/
def Tile.completeMat (t : Tile) : Tile :=
  match t.queue with
  | [] => t
  | m :: rest =>
    if m.subs.all (fun r => r.done) then
      let r := m.drain t.ls
      (({ t with ls := r.1, queue := rest }).addFlags m.slot m.launch r.2).sweepEnded
    else t

/-- MATRIX_INSTRUCTION_COMPLETE (R89): D is whole, the guarded ranges are released, and what waited for the group's end is
freed (R114). -/
def execMatrixInstructionComplete (c t : Nat) (s : State) : Host.Outcome State Fault Refusal :=
  .next (match s.phys? c t with
    | none => s
    | some p => s.putTile c p (s.tile c p).completeMat)

/-! ## Spares (R99, R101) -/

/-- SPARE_ATTACH_COMPLETE (R99): the spare serves the retired tile's logical number. -/
def execSpareAttachComplete (c t : Nat) (s : State) : Host.Outcome State Fault Refusal :=
  .next (if (s.cluster c).attaching = some t ∧ s.clusterUp c then
      let s := (s.modCluster c (fun k => { k with attaching := none })).setBit (Fld.PPL_TILE_MAP_LVALID c) t
      let s := (s.raise Fld.PPL_TILE_EVENTS_STEERED).event Ev.TILE_SPARE_STEERED (unitTile c (s.lmap c t))
      s.syncActive c
    else s)

end Sys2Proof.Machine
end

