-- ==== Sys2Proof/Machine/HostOps.lean ====
section
/-! DEFINITION. Accepting a host command (12_host.md R354, R358, R359, Tables 12-3, 12-6, 12-8). -/

namespace Sys2Proof.Machine

/-! ## The commands' layouts (Table 12-8) -/

/-- A command of Table 12-8: its code, the RDEST values it allows, the masks of words 2 to 6. -/
structure OpRow where
  code : Nat
  rdest : List Nat
  masks : List Nat
deriving DecidableEq, Repr

/-- Bits hi..lo as a mask. -/
def mask (hi lo : Nat) : Nat := (2 ^ (hi + 1 - lo) - 1) * 2 ^ lo

/-- Masks of W3 and W4 of the commands that bring tokens. -/
def tokMasks : List Nat := [mask 63 26, mask 63 0]

def opRows : List OpRow := [
  ⟨0x01, [0], []⟩,
  ⟨0x02, [1, 2], []⟩,
  ⟨0x10, [0], [mask 63 0, mask 63 0, mask 63 24, mask 31 0]⟩,
  ⟨0x11, [1, 2], [mask 63 0, 0, mask 63 32]⟩,
  ⟨0x12, [0], [mask 63 0, mask 63 0, mask 7 0]⟩,
  ⟨0x20, [1, 2], [mask 63 61 + mask 15 0, mask 63 0]⟩,
  ⟨0x21, [0, 1, 2], mask 63 3 :: tokMasks⟩,
  ⟨0x22, [0, 1, 2], mask 63 48 :: tokMasks⟩,
  ⟨0x23, [0, 1, 2], mask 63 31 :: tokMasks⟩,
  ⟨0x24, [0], [mask 63 48]⟩,
  ⟨0x25, [0], [mask 63 48]⟩,
  ⟨0x26, [0], [mask 63 48]⟩,
  ⟨0x30, [1, 2], [mask 63 0, mask 63 4, mask 63 0, mask 1 0]⟩,
  ⟨0x31, [0], [mask 63 0]⟩,
  ⟨0x32, [0], [mask 63 16, mask 39 0, mask 63 0, mask 0 0]⟩,
  ⟨0x33, [0], []⟩,
  ⟨0x34, [0], []⟩,
  ⟨0x40, [0], [mask 1 0, mask 63 0, mask 63 32]⟩,
  ⟨0x41, [0], [mask 7 0]⟩,
  ⟨0x60, [1, 2], [mask 63 0, mask 31 0]⟩,
  ⟨0x70, [1, 2], [mask 63 61 + mask 15 0, mask 63 0, mask 63 0]⟩]

/-- SEQ_FORK, SEQ_RESUME and QUERY_SUBMIT are deferrable (R359). -/
def deferrable (op : Nat) : Bool := op = 0x23 || op = 0x26 || op = 0x30

/-- Whether words 2 to 6 keep their reserved fields zero. -/
def reservedZero (c : Cmd) (ms : List Nat) : Bool :=
  (List.range 5).all (fun i =>
    let m := ms.getD i 0
    (c.w.getD (2 + i) 0#64).toNat &&& (2 ^ 64 - 1 - m) = 0)

/-- The structure of a command: step 1 of R358. RADDR and RLEN are reserved where RDEST is 0b00. -/
def Cmd.wellFormed (c : Cmd) : Bool :=
  match opRows.find? (fun r => r.code = c.opcode) with
  | none => false
  | some r =>
    r.rdest.contains c.rdest && c.f 0 31 0 = 0 && c.f 7 31 0 = 0 && decide (c.cid ≠ 0xFFFF)
      && (!c.defer || deferrable c.opcode) && reservedZero c r.masks
      && (decide (c.rdest ≠ 0) || (c.raddr = 0 && c.rlen = 0))
      && (decide (c.rdest ≠ 2) || decide (c.raddr < 2 ^ 18))
      && (decide (c.opcode ≠ 0x30) || decide (c.f 5 1 0 ≠ 3))

/-! ## Checks that every command meets (R358) -/

/-- What an acceptance check answers: accept, refuse with a status and a state code, or a condition that a DEFER waits
for, with the refusal of a command without DEFER. -/
inductive Verdict
  | ok
  | refuse (status code : Nat)
  | wait (status code : Nat)
deriving DecidableEq, Repr

/-- NOP, IDENTIFY, JOURNAL_READ and NVM_WRITE (Table 12-6). -/
def anytime (op : Nat) : Bool := [0x01, 0x02, 0x60, 0x40].contains op

/-- The belt's commands (R11). -/
def beltOp (op : Nat) : Bool := decide (0x30 ≤ op) && decide (op ≤ 0x34)

/-! ## Result slots as BAR2 shows them (R347, R370, R371) -/

/-- The 4,096 bytes of a slot (Table 12-13); one that is not ready reads zero. -/
def slotBytes (e : Option Slot) : List Byte :=
  match e with
  | some x =>
    if x.ready then
      let w0 := 2 ^ 63 + x.status % 256 * 2 ^ 48 + x.cid % 65536 * 2 ^ 32 + x.sq % 64 * 2 ^ 26
      let w1 := x.rseq % 2 ^ 32 * 2 ^ 32 + x.part % 65536 * 65536 + x.nslots % 65536
      let head := leBytes 8 w0 ++ leBytes 8 w1 ++ leBytes 8 x.length ++ List.replicate 40 0#8
      (head ++ x.data ++ List.replicate 4032 0#8).take 4096
    else List.replicate 4096 0#8
  | none => List.replicate 4096 0#8

/-- A read of n bytes of BAR2, aligned and of at most 64 (R347): it changes nothing. -/
def State.bar2Read (s : State) (addr n : Nat) : Option (List Byte) :=
  if n ≤ 64 ∧ [1, 2, 4, 8, 16, 32, 64].contains n ∧ addr % n = 0 ∧ addr < 2 ^ 30 then
    some (((slotBytes (tabFind s.host.slots (addr / 4096))).drop (addr % 4096)).take n)
  else none

/-- Slots that a command names. -/
def Cmd.slotRange (c : Cmd) : Nat × Nat := if c.rdest = 2 then (c.raddr, min c.rlen 65536) else (0, 0)

/-- Whether a named slot is reserved or holds an unreleased result. -/
def State.slotBusy (s : State) (c : Cmd) : Bool :=
  let r := c.slotRange
  s.host.slots.any (fun e => decide (r.1 ≤ e.1) && decide (e.1 < r.1 + r.2))

/-- State refusals that a command meets before its own (Table 12-6), in the table's order (DESIGN CHOICE). -/
def State.stateCheck (s : State) (c : Cmd) : Option Nat :=
  let op := c.opcode
  if !s.ready && !anytime op then some (if s.dstate = DS.RECOVERY then 0x11 else 0x10)
  else if beltOp op ∧ s.role = 3 then some 0x12
  else if [0x30, 0x32, 0x33, 0x34].contains op ∧ ¬ s.formed then some 0x13
  else if [0x30, 0x32].contains op ∧ s.ring.leaving.isSome then some 0x14
  else if c.stage ≠ .deferred ∧ s.slotBusy c then some 0x18
  else none

/-- The limits of a result destination (Table 12-3, R370). -/
def State.destOk (s : State) (c : Cmd) : Bool :=
  match c.rdest with
  | 1 => c.raddr % 256 = 0 && c.rlen % 256 = 0
  | 2 => decide (1 ≤ c.rlen) && decide (c.rlen ≤ 65536)
      && decide (c.raddr + c.rlen ≤ s.fld Fld.HIF_RSLOT_COUNT_COUNT)
  | _ => true

/-- The checks of R358 in order, the command's own among them. -/
def State.verdict (s : State) (c : Cmd) (own : State → Cmd → Verdict) : Verdict :=
  if ¬ c.wellFormed then .refuse St.INVALID 0
  else if c.opcode = 0x70 ∧ s.fld Fld.HIF_STATUS_TIER ≠ 2 then .refuse St.LICENCE 0
  else
    match s.stateCheck c with
    | some code => .refuse St.STATE code
    | none =>
      match own s c with
      | .refuse st code => if st = St.NO_RESOURCE ∧ ¬ s.destOk c then .refuse St.INVALID 0 else .refuse st code
      | v => if s.destOk c then v else .refuse St.INVALID 0

/-! ## Order (R358, R359) -/

/-- The sequences and queries a command names. -/
def Cmd.keys (c : Cmd) : List (Bool × Nat) :=
  if c.opcode = 0x30 ∨ c.opcode = 0x31 then [(true, (c.w.getD 2 0#64).toNat)]
  else c.seqs.map (fun n => (false, n))

/-- Whether a command of an SQ may start, given the earlier commands of the SQ in order: keys that earlier waiting
commands hold are gathered on the way. -/
def startable (c : Cmd) : List Cmd → List (Bool × Nat) → Bool → Bool
  | [], held, earlier => !(c.fence && earlier) && !c.keys.any (fun k => held.contains k)
  | e :: t, held, earlier =>
    match e.stage with
    | .running => startable c t held true
    | .deferred => startable c t (held ++ e.keys) true
    | .ready =>
      if (e.fence && earlier) || e.keys.any (fun k => held.contains k) then startable c t (held ++ e.keys) true
      else false

def State.mayStart (s : State) (c : Cmd) : Bool :=
  c.stage ≠ .running && startable c (s.host.cmds.filter (fun e => e.sq = c.sq && decide (e.uid < c.uid))) [] false

/-! ## Acceptance -/

/-- A refused command: its completion, and nothing else. -/
def State.refuse (s : State) (c : Cmd) (status code : Nat) : State := s.completeU c.uid status 0 code

/-- Slots named by RDEST are reserved from acceptance (R370). -/
def State.reserveSlots (s : State) (c : Cmd) : State :=
  let r := c.slotRange
  { s with host := { s.host with slots := (List.range r.2).foldl (fun (t : Tab Slot) i =>
      tabInsert t (r.1 + i) ⟨false, 0, c.cid, c.sq, 0, 0, 0, 0, []⟩) s.host.slots } }

/-- The command starts. -/
def State.started (s : State) (c : Cmd) (rows : Nat) : State :=
  let s := if c.stage = .deferred then s else s.reserveSlots c
  (s.modCmdU c.uid (fun k => { k with stage := .running, since := s.now, rows := rows })).updDefer

/-- A command that waits under R359, or refuses where it has no DEFER or the list is full. -/
def State.deferCmd (s : State) (c : Cmd) (status code : Nat) : State :=
  if c.stage = .deferred then s
  else if ¬ c.defer then s.refuse c status code
  else if 256 ≤ (s.host.cmds.filter (fun k => k.stage = .deferred)).length then s.refuse c St.NO_RESOURCE 0
  else ((s.reserveSlots c).modCmdU c.uid (fun k => { k with stage := .deferred, since := s.now })).updDefer

/-- The command of an SQ and CID that may start with an opcode now. -/
def State.fetched (s : State) (sq cid op : Nat) : Option Cmd :=
  match s.host.cmds.find? (fun c => c.is sq cid && c.stage ≠ .running) with
  | some c => if c.opcode = op ∧ s.mayStart c then some c else none
  | none => none

/-- A host command is accepted (R358): refused with its status, deferred, or started, and then `go` takes effect. -/
def State.accept (s : State) (sq cid op : Nat) (own : State → Cmd → Verdict) (rows : Cmd → Nat)
    (go : State → Cmd → State) : State :=
  match s.fetched sq cid op with
  | none => s
  | some c =>
    match s.verdict c own with
    | .refuse st code => s.refuse c st code
    | .wait st code => s.deferCmd c st code
    | .ok => go (s.started c (rows c)) c

/-- No check beyond R358's. -/
def noCheck (_ : State) (_ : Cmd) : Verdict := .ok
def noRows (_ : Cmd) : Nat := 0

end Sys2Proof.Machine
end

