-- ==== Sys2Proof/Machine/RingOps.lean ====
section
/-! DEFINITION. Operations of the ring that several commands share (09_belt_scoring.md R292 to R296, 10_rings.md R310 to
R334): who takes a frame, bypass and its consequences, directories, query placement, federation. -/

namespace Sys2Proof.Machine

/-! ## Who takes a frame (R310, R321, R326, R327) -/

/-- The duties that pass to the standby at once when the manager is bypassed (Table 10-14). -/
def State.onDuty (s : State) : Bool := s.isManager || (s.role = 2 && s.ring.gone.contains 0)

def State.goneOn (s : State) (net : Nat) : List Nat := if net = 0 then s.ring.gone else s.ring.parentGone

/-- Whether this device is the root of the parent ring. -/
def State.isRoot (s : State) : Bool := s.flag Fld.BLT_FED_ROOT

/-- Whether this device takes a return frame off the ring. -/
def State.takes (s : State) (net : Nat) (f : Frame) : Bool :=
  fDest f = s.netPos net ||
    (fDest f = 0 && (if net = 0 then s.onDuty && (s.ring.gone.contains 0 || fSub f ≠ 0x10 && fSub f ≠ 0x11)
      else s.isRoot))

/-- A return frame: taken at its target, where a duplicate is ignored (R310), off the ring at its sender, on its way otherwise; the standby records what
passes it for the manager. -/
def State.returnAct (s : State) (x : Nat) (f : Frame) (act : State → Frame → State) : State :=
  let net := x / 4
  if s.takes net f then (if s.isDup net f then s else act (s.markSeen net f) f)
  else if fHome f = s.netPos net then s
  else
    let s := if s.role = 2 ∧ net = 0 ∧ fDest f = 0 ∧ ¬ s.isDup net f then
        (s.markSeen net f).mgrNote (fHome f) (fSub f) (fArg f) (fw f 5 63 0) (fw f 6 63 0) f.body
      else s
    s.onward x f

/-- A frame on the forward belt that names every device or one: acted on there; off the belt at its target, at its sender,
and at the device on duty where its sender is bypassed. -/
def State.forwardAct (s : State) (x : Nat) (f : Frame) (act : State → Frame → State) : State :=
  let net := x / 4
  if fHome f = s.netPos net then s
  else if fDest f = allPos then
    let s := act s f
    if net = 0 ∧ s.onDuty ∧ s.ring.gone.contains (fHome f) then s else s.onward x f
  else if fDest f = s.netPos net then act s f
  else s.onward x f

/-! ## Brakes (R317, R318) -/

def State.syncBrake (s : State) : State :=
  (s.setFld Fld.BLT_BRAKE_ORIGINS s.ring.brakes.length).setFld Fld.BLT_RING_BRAKED (b2n s.braked)

def State.addBrake (s : State) (p : Nat) : State :=
  if s.ring.brakes.contains p then s
  else ({ s with ring := { s.ring with brakes := s.ring.brakes ++ [p] } }).syncBrake

def State.dropBrake (s : State) (p : Nat) : State :=
  ({ s with ring := { s.ring with brakes := s.ring.brakes.filter (fun x => x ≠ p) } }).syncBrake

/-! ## Query placement (R364) -/

/-- A report's profile fits a query. -/
def DevReport.fits (r : DevReport) (q : Query) : Bool :=
  r.profiles.any (fun w => w / 2 ^ 24 % 16 = q.qfmt && w / 2 ^ 19 % 32 = q.dim128)

/-- The device with most free slots, the lowest position at ties, among those that fit and have not refused. -/
def State.placeFor (s : State) (p : Placed) : Option Nat :=
  let ok := s.ring.reports.filter (fun (r : DevReport) =>
    r.fits p.q && decide (0 < r.free) && !p.tried.contains r.pos && !s.ring.gone.contains r.pos)
  (ok.foldl (fun (b : Option DevReport) r =>
    match b with
    | none => some r
    | some x => if x.free < r.free ∨ (x.free = r.free ∧ r.pos < x.pos) then some r else b) none).map (·.pos)

/-- The manager's count of a device's free slots. -/
def State.modFree (s : State) (p : Nat) (f : Nat → Nat) : State :=
  { s with ring := { s.ring with reports := s.ring.reports.map (fun (r : DevReport) =>
      if r.pos = p then { r with free := f r.free } else r) } }

def State.modPlaced (s : State) (n : W64) (f : Placed → Placed) : State :=
  { s with ring := { s.ring with placed := s.ring.placed.map (fun (p : Placed) => if p.qnum = n then f p else p) } }

def State.dropPlaced (s : State) (n : W64) : State :=
  { s with ring := { s.ring with placed := s.ring.placed.filter (fun (p : Placed) => p.qnum ≠ n) } }

/-- A QUERY frame (Table 9-4). -/
def State.queryFrame (s : State) (net dest : Nat) (n : W64) (q : Query) : State × Frame :=
  let (s, k) := s.nextSeq
  (s, mkFrame { ftype := FT.QUERY, home := s.netPos net, dest := dest, epoch := if net = 0 then s.epoch else 0,
                rev := s.rev, seg := s.seg, seq := k } s.now n.toNat q.par.toNat 0 0
        [⟨[0#64, 0#64, 0#64, 0#64] ++ q.vec⟩] [])

/-- A query not placed is sent to a device, while no brake stops QUERY frames (R317). -/
def State.tryPlace (s : State) (p : Placed) : State :=
  if p.dest.isSome ∨ s.braked then s
  else
    match s.placeFor p with
    | none => s
    | some d =>
      let s := (s.modPlaced p.qnum (fun p => { p with dest := some d })).modFree d (· - 1)
      let (s, f) := s.queryFrame 0 d p.qnum p.q
      s.inject 0 f

def State.placeAll (s : State) : State := s.ring.placed.foldl (fun s p => s.tryPlace p) s

/-- The manager takes on a query, under a number of its own. -/
def State.takeQuery (s : State) (q : Query) (fed : Bool) : State :=
  let n := BitVec.ofNat 64 s.ring.nextQnum
  let p : Placed := ⟨n, q, none, [], fed⟩
  ({ s with ring := { s.ring with placed := s.ring.placed ++ [p], nextQnum := s.ring.nextQnum + 1 } }).tryPlace p

/-- Placed queries of a device that is lost are placed again (R292). -/
def State.replaceFrom (s : State) (d : Nat) : State :=
  ({ s with ring := { s.ring with placed := s.ring.placed.map (fun (p : Placed) =>
      if p.dest = some d then { p with dest := none } else p) } }).placeAll

/-! ## Federation (R330 to R334) -/

/-- Entries of a result's words. -/
def resultEntries (ws : List W64) : List Entry :=
  (chunks 2 (ws.drop 4)).map (fun e =>
    ⟨e.getD 0 0#64, bitsOf (e.getD 1 0#64) 63 16, bitsOf (e.getD 1 0#64) 15 0⟩)

def resultStatus (ws : List W64) : Nat := bitsOf (ws.getD 1 0#64) 63 56
def resultLost (ws : List W64) : Nat := bitsOf (ws.getD 1 0#64) 28 13
def resultRev (ws : List W64) : Nat := bitsOf (ws.getD 2 0#64) 31 0
def resultPair (ws : List W64) : Nat × Nat := (bitsOf (ws.getD 1 0#64) 44 29, bitsOf (ws.getD 2 0#64) 63 32)

/-- The status of a merged list (R331). -/
def mergedStatus (late excluded : Bool) (sts : List Nat) : Nat :=
  if excluded ∨ sts.contains St.FAULT then St.FAULT
  else if late ∨ sts.contains St.TIMEOUT then St.TIMEOUT
  else if sts.contains St.ABORTED then St.ABORTED else St.OK

/-- The root merges what its children answered and ends the query (R331). -/
def State.mergeFed (s : State) (q : FedQuery) : State :=
  let rs := q.results.map (·.2)
  let late := q.expected.any (fun c => !q.results.any (fun r => r.1 = c) && !s.ring.parentGone.contains c)
  let st := mergedStatus late (!s.ring.parentGone.isEmpty) (rs.map resultStatus)
  let es := rs.foldl (fun (l : List Entry) ws => (resultEntries ws).foldl (fun l e => offer q.q.k q.q.best l e) l) []
  let lost := min 65535 (rs.foldl (fun n ws => n + resultLost ws) 0)
  let rev := rs.foldl (fun n ws => max n (resultRev ws)) 0
  let ws := [q.q.qnum, BitVec.ofNat 64 (st * 2 ^ 56 + es.length * 2 ^ 45 + 0xFFFF * 2 ^ 29 + lost * 2 ^ 13),
    BitVec.ofNat 64 (s.fld Fld.BLT_FGEN_FGEN * 2 ^ 32 + rev), BitVec.ofNat 64 s.now]
      ++ es.flatMap (fun e => [e.score, BitVec.ofNat 64 (e.doc * 2 ^ 16 + e.chunk)])
  let s := { s with ring := { s.ring with fed := s.ring.fed.filter (fun (x : FedQuery) => x.qnum ≠ q.qnum) } }
  match q.q.src with
  | .host uid => s.endQuery uid st ws es.length
  | .frame _ => s

/-- A federated query whose every expected child, but those lost, has answered, is merged. -/
def State.settleFed (s : State) : State :=
  (s.ring.fed.filter (fun (q : FedQuery) =>
    q.expected.all (fun c => q.results.any (fun r => r.1 = c) || s.ring.parentGone.contains c))).foldl
      (fun s q => s.mergeFed q) s

/-- One FGEN record: FGEN, then up to four child entries of DIR_GEN, EPOCH, position and the piece's index. -/
def fgenPayload (fgen piece : Nat) (es : List (Nat × Nat × Nat)) : BitVec 288 :=
  BitVec.ofNat 288 ((es.zip (List.range 4)).foldl (fun n (x : (Nat × Nat × Nat) × Nat) =>
    n + (x.1.2.2 + x.1.2.1 * 2 ^ 32 + x.1.1 % 256 * 2 ^ 48 + piece * 2 ^ 56) * 2 ^ (32 + 64 * x.2)) fgen)

/-- The full set of child pairs is journalled under FGEN (R332). -/
def State.journalPairs (s : State) : State :=
  let ps := chunks 4 s.ring.childPairs
  (ps.zip (List.range ps.length)).foldl (fun s (x : List (Nat × Nat × Nat) × Nat) =>
    s.journal JT.FGEN 6 (fgenPayload (s.fld Fld.BLT_FGEN_FGEN) x.2 x.1)) s

/-- Child pairs as words of a FEDGEN message. -/
def pairWords (l : List (Nat × Nat × Nat)) : List W64 :=
  l.map (fun p => BitVec.ofNat 64 (p.1 * 2 ^ 48 + p.2.1 * 2 ^ 32 + p.2.2))

def wordPairs (l : List W64) : List (Nat × Nat × Nat) :=
  l.map (fun w => (bitsOf w 63 48, bitsOf w 47 32, bitsOf w 31 0))

/-- The root advances FGEN, journals the pairs and tells the members (R332, R334). -/
def State.advanceFgen (s : State) : State :=
  let g := (s.fld Fld.BLT_FGEN_FGEN + 1) % 2 ^ 32
  let s := (s.setFld Fld.BLT_FGEN_FGEN g).journalPairs
  s.sendControl 1 allPos 0x0A (w5 := g) (body := pairWords s.ring.childPairs)

/-- A child's (EPOCH, DIR_GEN) as a result reports it. -/
def State.noteChild (s : State) (c : Nat) (ws : List W64) : State :=
  let p := resultPair ws
  if s.ring.childPairs.contains (c, p) then s
  else
    let rest := s.ring.childPairs.filter (fun (x : Nat × Nat × Nat) => x.1 ≠ c)
    let l := (rest ++ [(c, p)]).mergeSort (fun a b => a.1 ≤ b.1)
    ({ s with ring := { s.ring with childPairs := l } }).advanceFgen

/-- A child's result reaches the root. -/
def State.fedResult (s : State) (child : Nat) (n : W64) (ws : List W64) : State :=
  if s.ring.fed.any (fun (q : FedQuery) => q.qnum = n && q.expected.contains child && !q.results.any (fun r => r.1 = child)) then
    let s := s.noteChild child ws
    ({ s with ring := { s.ring with fed := s.ring.fed.map (fun (q : FedQuery) =>
        if q.qnum = n then { q with results := q.results ++ [(child, ws)] } else q) } }).settleFed
  else s

/-- The standby root becomes root (R334). -/
def State.rootTakeover (s : State) : State :=
  let s := ((s.setFld Fld.BLT_FED_ROOT 1).raise Fld.BLT_RING_EVENTS_ROOT_TAKEOVER).event Ev.ROOT_TAKEOVER (s.unitQ s.pos)
  ({ s with ring := { s.ring with rootPos := s.netPos 1 } }).advanceFgen

/-- The federation has lost a member (R333, R334). -/
def State.fedLost (s : State) (p : Nat) : State :=
  (s.raise Fld.BLT_RING_EVENTS_FED_LOST).event Ev.FED_LOST (unitPos s.pos p)

/-- A member of the parent ring is lost (R333, R334): the standby root takes over from position 0; position 1, where it is
none, knows that the federation has no root and tells every member (DESIGN CHOICE: no rule says how they learn it). -/
def State.memberLost (s : State) (p : Nat) : State :=
  if s.ring.parentGone.contains p then s
  else
    let s := { s with ring := { s.ring with parentGone := s.ring.parentGone ++ [p] } }
    let s := if p = 0 ∧ s.ring.imageRootStandby ∧ s.netPos 1 = 1 then s.rootTakeover.fedLost p
      else if s.isRoot then s.fedLost p
      else if p = 0 ∧ s.netPos 1 = 1 then (s.fedLost p).sendControl 1 allPos 0x04 (arg := 2 ^ 27)
      else s
    if s.isRoot then (s.sendControl 1 allPos 0x04 (arg := p * 2 ^ 28 + 2 ^ 27)).settleFed else s

/-! ## A broken ring (R323) -/

/-- What a device gives up when its ring breaks, or is formed anew. -/
def State.stopRing (s : State) : State :=
  let s := s.endAllQueries St.FAULT
  let loads := s.belt.loads.map (fun e => e.2.2)
  let mine := match s.ring.sw with
    | some w => w.uid.toList
    | none => []
  let hosts := s.ring.placed.filterMap (fun (p : Placed) =>
    match p.q.src with
    | .host u => some (u, p.q.qnum)
    | .frame _ => none)
  let brakes := s.ring.brakeOps.map (fun (b : BrakeOp) => b.uid)
  let s := hosts.foldl (fun s e => s.endQuery e.1 St.FAULT (s.resultWords e.2 St.FAULT 0 []) 0) s
  let s := (loads ++ mine ++ brakes).foldl (fun s u => s.completeU u St.FAULT 0) s
  let s := { s with
    belt := { s.belt with tallies := [], tap := [], inject := [], shardQ := [], loads := [], fillSent := [], fillDue := [],
                          fillDone := [], lostDue := [], redo := [], nextDir := none },
    ring := { s.ring with sw := none, placed := [], brakes := [], brakeOps := [], behind := [], quiet := [], staged := [],
                          leavers := [], leaving := none, leaveReady := false, joining := none, linkReady := [], mark := none,
                          resend := [], pieces := [], surplus := [], unheld := [], audit := none, markDue := false,
                          fillTo := 0, phase := .idle } }
  let s := s.scoreClusters.foldl (fun (s : State) c => s.setScore c { s.scoreCl c with ranges := [], shed := [], lastShed := none }) s
  s.syncBrake.syncBelt

/-- A broken ring ends here. -/
def State.breakHere (s : State) (net : Nat) : State :=
  if net = 0 then
    ((s.stopRing.setFld Fld.BLT_RING_FORMED 0).raise Fld.BLT_RING_EVENTS_RING_FAIL).event Ev.RING_FAIL 0
  else
    let s := { s with ring := { s.ring with parentPhase := .idle } }
    let s := s.ring.fed.foldl (fun s q => s.mergeFed { q with results := [(s.netPos 1, s.resultWords q.qnum St.FAULT 0 [])] }) s
    ((s.setFld Fld.BLT_FED_MEMBER 0).raise Fld.BLT_RING_EVENTS_RING_FAIL).event Ev.RING_FAIL 0

/-- The ring is broken at this device: the manager, or the root, is told (DESIGN CHOICE: by REPORT), so that it forms the
ring again. -/
def State.breakRing (s : State) (net : Nat) : State :=
  let mine := if net = 0 then s.isManager else s.isRoot
  (if mine then s else s.sendReturn net 0 0x14 Rep.broken).breakHere net

/-! ## Bypass (R292, R296, R319 to R322, R326) -/

/-- ABANDON for a marker's tally and the two before it (R322). -/
def State.abandonThree (s : State) (r g : Nat) : State :=
  let m1 := prevMark r g
  let m2 := prevMark m1.1 m1.2
  s.scoreClusters.foldl (fun (s : State) c =>
    ((s.abandonTally c m2.1 m2.2).abandonTally c m1.1 m1.2).abandonTally c r g) s

/-- The manager sends ABANDON for its current marker, and applies it. -/
def State.sendAbandon (s : State) : State :=
  (s.abandonThree s.rev s.seg).sendControl 0 allPos 0x03 (arg := s.rev) (w5 := s.seg)

/-- A bypass replay was incomplete: GAP to the manager. -/
def State.reportGap (s : State) (net : Nat) : State :=
  let s := (s.raise Fld.BLT_RING_EVENTS_GAP).event Ev.RING_GAP (s.unitQ s.pos)
  if net ≠ 0 then s else if s.isManager then s.sendAbandon else s.sendReturn 0 0 0x15

/-- TAKEOVER applies here; a home that is taken over while it leaves injects no more (R292, R325). -/
def State.takeTakeover (s : State) (p r g : Nat) (noSource : Bool) : State :=
  let s := s.applyTakeover p r g noSource
  if p = s.pos then
    { s with belt := { s.belt with inject := s.belt.inject.filter (fun (x : Inject) => x.shadow || x.home ≠ p) } }
  else s

/-- TAKEOVER of a home at a marker: sent to all and applied here (R292). -/
def State.sendTakeover (s : State) (p r g : Nat) (noSource : Bool) : State :=
  (s.sendControl 0 allPos 0x02 (arg := p * 2 ^ 28 + r % 2 ^ 28) (w5 := b2n noSource * 2 ^ 63 + g)).takeTakeover p r g noSource

/-- Whether a home has a second copy in service (R296, R491): its shadow is in the ring, not leaving it, and holds it. -/
def State.shadowServes (s : State) (h : Home) : Bool :=
  decide (h.shadow < s.ringSize) && !s.lostHome h.shadow && !s.ring.unheld.contains h.pos
    && !s.ring.leavers.any (fun e => e.2 && e.1 = h.shadow)

/-- A position is bypassed, as this device learns it (R318). -/
def State.seeBypassed (s : State) (p : Nat) : State :=
  let s := { s with ring := { s.ring with
      gone := if s.ring.gone.contains p then s.ring.gone else s.ring.gone ++ [p]
      exHomes := if s.ring.exHomes.contains p then s.ring.exHomes else s.ring.exHomes ++ [p]
      holder := if p = 0 ∧ s.role = 2 then s.pos else s.ring.holder
      behind := s.ring.behind.filter (fun x => x ≠ p)
      quiet := s.ring.quiet.filter (fun q => q.1 ≠ p) } }
  let s := if p = 0 ∧ s.role = 2 then s.setFld Fld.BLT_RING_ELASTIC 1 else s
  s.dropBrake p

/-- Homes that lose their second copy with a device (R296): journalled; one that is bypassed itself has no source any more. -/
def State.unshadow (s : State) (p : Nat) : State :=
  let hs := s.belt.dir.homes.filter (fun h => h.shadow = p)
  let s := hs.foldl (fun s h => s.event Ev.HOME_UNSHADOWED (s.unitQ h.pos)) s
  match s.ring.mark with
  | some (r, g) =>
    (hs.filter (fun h => s.lostHome h.pos && !s.belt.noSource.any (fun x => x.1 = h.pos))).foldl
      (fun s h => s.sendTakeover h.pos r g true) s
  | none => s

/-- What the device on duty does when it learns of a bypass: BYPASSED, TAKEOVER, homes left without a shadow, its queries
placed again. -/
def State.dutyBypass (s : State) (p : Nat) : State :=
  let s := (s.seeBypassed p).sendControl 0 allPos 0x04 (arg := p * 2 ^ 28 + 2 ^ 27)
  let s := s.unshadow p
  let s := match s.belt.dir.home? p, s.ring.mark with
    | some h, some (r, g) => s.sendTakeover p r g (!s.shadowServes h)
    | _, _ => s
  s.replaceFrom p

/-- A bypass reaches the device on duty: at once where that is this device, by REPORT otherwise (DESIGN CHOICE: no rule
says how the manager learns of it). -/
def State.tellBypass (s : State) (net p : Nat) : State :=
  if net = 0 then
    if s.onDuty then s.dutyBypass p else s.sendReturn 0 0 0x14 (arg := Rep.bypass + p * 2 ^ 28)
  else if s.isRoot ∨ (p = 0 ∧ s.ring.imageRootStandby) then s.memberLost p
  else (s.memberLost p).sendReturn 1 0 0x14 (arg := Rep.bypass + p * 2 ^ 28)

def State.setDown (s : State) (net : Nat) (b : Bool) : State :=
  if net = 0 then s.setFld Fld.BLT_BYPASS_DOWN (b2n b) else { s with ring := { s.ring with parentDown := b } }

def State.setUp (s : State) (net : Nat) (b : Bool) : State :=
  if net = 0 then s.setFld Fld.BLT_BYPASS_UP (b2n b) else { s with ring := { s.ring with parentUp := b } }

/-- 4,096 slot times in ticks. -/
def historyTicks : Nat := 6586

/-- RESUME over the skip link: the head of the last frame that the bypassed device had forwarded (R321); a device that
received none lately reports GAP (R322). -/
def State.sendResume (s : State) (net old skip : Nat) : State :=
  let p := s.port old
  let lately := decide (s.now < p.lastRxTb + historyTicks)
  let body := match p.lastRx with
    | some f => if lately then fHead f else []
    | none => []
  let (s, fs) := s.control net (s.portPeer skip) 0x08 0 0 0 body
  let s := fs.foldl (fun s f => s.sendOn skip f) s
  if body.isEmpty then s.reportGap net else s

/-- Whether a ring of this device is formed. -/
def State.formedOn (s : State) (net : Nat) : Bool := if net = 0 then s.formed else s.ring.parentPhase = .formed

/-- This device switches around its neighbour (R320): BYPASS to the other end, RESUME, the manager told. A bypass that
needs a link or a neighbour that is gone breaks the ring (R323). -/
def State.bypass (s : State) (net : Nat) (down tell : Bool) : State :=
  let old := 4 * net + (if down then 1 else 0)
  let skip := old + 2
  let d := s.portPeer old
  if (if down then s.down net else s.up net) then s
  else if ¬ s.portUp skip ∨ (s.goneOn net).contains (s.portPeer skip) then
    if s.formedOn net then s.breakRing net else s
  else
    let s := if tell then s.sendLop skip .bypass d else s
    let s := s.activate skip
    let s := (if down then s.setDown net true else s.setUp net true).settlePorts net
    let s := if net = 0 then s.incFld Fld.BLT_BYPASS_COUNT else s
    let s := (s.raise Fld.BLT_RING_EVENTS_BYPASS).event Ev.RING_BYPASS (if net = 0 then s.unitQ d else unitPos s.pos d)
    if s.formedOn net then
      let s := s.sendResume net old skip
      let known := decide (net = 0) && s.ring.gone.contains d
      let s := if net = 0 then s.seeBypassed d else s
      if known then s else s.tellBypass net d
    else s

/-- A port goes down. -/
def State.portDown (s : State) (x : Nat) : State :=
  if s.portUp x then (s.setFld (Fld.BLT_PORT_STAT_STATE x) 0).setFld (Fld.BLT_PORT_STAT_LOCKED x) 0 else s

/-- A link is lasting-faulty (R308): its forward-downstream end is bypassed; where that is this device, its ports go down
and its neighbours bypass it. -/
def State.linkLasting (s : State) (x : Nat) : State :=
  let s := (s.raise Fld.BLT_RING_EVENTS_LASTING).event Ev.LINK_LASTING x
  let s := s.portDown x
  if x % 4 = 1 then s.bypass (x / 4) true true
  else if x % 4 = 0 then s.portDown (x + 1)
  else if (if x % 4 = 2 then s.up (x / 4) else s.down (x / 4)) then s.breakRing (x / 4)
  else s

/-! ## Directories (R272, R295, R311, R314) -/

/-- The circulation length in slots: floor(RTT × 96.8 × 10^6), RTT in ticks of 6.4 ns. -/
def circulation (rtt : Nat) : Nat := rtt * 61952 / 100000

/-- A circulation length rounded up to a multiple of the number of homes. -/
def roundSlots (c homes : Nat) : Nat := if homes = 0 then c else (c + homes - 1) / homes * homes

/-- P, from a round trip (R314). -/
def slotsP (rtt homes : Nat) : Nat := roundSlots (circulation rtt) homes

/-- A home's rank by remainder, the largest first, the lower position at ties. -/
def remBefore (p total : Nat) (a b : Home) : Bool :=
  let x := p * a.frames % total
  let y := p * b.frames % total
  decide (y < x) || (x = y && decide (a.pos ≤ b.pos))

/-- Owned slots in proportion to N_h, the rest by largest remainder (R272). -/
def allotSlots (p : Nat) (hs : List Home) : List Home :=
  let total := hs.foldl (fun n h => n + h.frames) 0
  if total = 0 then hs
  else
    let given := hs.foldl (fun n h => n + p * h.frames / total) 0
    let first := ((hs.mergeSort (remBefore p total)).take (p - given)).map (·.pos)
    hs.map (fun (h : Home) => { h with slots := p * h.frames / total + b2n (first.contains h.pos) })

/-- The last completed pair of reports that meets a condition. -/
def State.lastPair (s : State) (p : StagedPair → Bool) : Option StagedPair := (s.ring.pairs.filter p).getLast?

/-- Where a shard lies in the directory in force. -/
def Directory.find (d : Directory) (id : Nat) : Option (Nat × Shard) :=
  d.homes.findSome? (fun h => (h.shards.find? (fun x => x.id = id)).map (fun x => (h.pos, x)))

/-- The shadow that the new directory names for a home. -/
def State.newShadow (s : State) (h : Nat) : Nat :=
  match s.lastPair (fun p => p.home = h) with
  | some p => p.shadow
  | none => s.belt.dir.shadowOf h

/-- The home and the shard that the new directory takes for a SHARD_ID (R295). -/
def State.chooseShard (s : State) (id : Nat) : Option (Nat × Shard) :=
  match s.lastPair (fun p => p.id = id) with
  | some p =>
    if decide (p.home < s.ringSize) && !s.ring.gone.contains p.home && decide (p.shadow = s.newShadow p.home) then
      some (p.home, ⟨id, p.gen, p.records⟩)
    else s.belt.dir.find id
  | none => s.belt.dir.find id

/-- P for a number of homes: after STORE_HIGH from the circulation length as last measured (R315). -/
def State.slotsFor (s : State) (homes : Nat) : Nat :=
  if s.ring.storeHigh then roundSlots s.ring.circ homes else slotsP (s.fld Fld.BLT_RTT_RTT) homes

/-- The directory built from every shard staged and reported, and the shards in force that stay (R295), 16 for each home at
most (R270; DESIGN CHOICE: those of the lowest SHARD_IDs). -/
def State.buildDir (s : State) : Directory × Nat :=
  let ids := ((s.belt.dir.homes.flatMap (fun h => h.shards.map (·.id))) ++ s.ring.pairs.map (·.id)).eraseDups.mergeSort
  let picks := ids.filterMap (fun i => s.chooseShard i)
  let ps := ((picks.map (·.1)).eraseDups).mergeSort
  let hs := ps.map (fun h => (⟨h, s.newShadow h, 0, ((picks.filter (fun e => e.1 = h)).map (·.2)).take 16⟩ : Home))
  let p := s.slotsFor hs.length
  (⟨(s.belt.dir.gen + 1) % 2 ^ 32, allotSlots p hs⟩, p)

/-- Homes read from the entries of a DIRECTORY message. -/
def readHomes : List (List W64) → List Home
  | [] => []
  | e :: t =>
    let n := (e.getD 0 0#64).toNat + (e.getD 1 0#64).toNat * 2 ^ 64
    let hs := readHomes t
    if n / 2 ^ 120 = 1 then
      let shards := (t.take (min 16 (n / 2 ^ 72 % 256))).map (fun x =>
        let m := (x.getD 0 0#64).toNat + (x.getD 1 0#64).toNat * 2 ^ 64
        (⟨m / 2 ^ 88 % 2 ^ 32, m / 2 ^ 72 % 2 ^ 16, m / 2 ^ 32 % 2 ^ 40⟩ : Shard))
      ⟨n / 2 ^ 108 % 4096, n / 2 ^ 96 % 4096, n / 2 ^ 80 % 2 ^ 16, shards⟩ :: hs
    else hs

/-- A directory reaches this device: at an epoch switch it waits for the TOP_NOTE, otherwise it is in force at once; the
one in force changes nothing but the wait for it. -/
def State.takeDir (s : State) (d : Directory) : State :=
  let s := s.effectDone (fun f => fSub f = 0x14 ||
    (fSub f = 0x16 && d.homes.any (fun h => h.shards.any (fun x => x.id = fw f 5 63 32 && x.gen = fw f 5 31 16))))
  if d = s.belt.dir then { s with belt := { s.belt with needDir := false } }
  else if s.flag Fld.BLT_POS_ADMIT_HOLD then { s with belt := { s.belt with nextDir := some d, needDir := false } }
  else s.installDir d s.epoch

/-! ## The epoch switch (R294, R295) -/

/-- Step 4: every device in the ring that is not bypassed has sent QUIET at the current marker or later. -/
def State.allQuiet (s : State) : Bool :=
  match s.ring.mark with
  | none => false
  | some (r, g) =>
    (List.range s.ringSize).all (fun p => s.ring.gone.contains p
      || s.ring.quiet.any (fun q => q.1 = p && markAtOrAfter q.2.1 q.2.2 r g))

def State.trySwitch (s : State) : State :=
  match s.ring.sw with
  | some w =>
    if s.isManager ∧ w.holding ∧ w.dir.isNone ∧ s.allQuiet then
      let (d, p) := s.buildDir
      let s := (s.setFld Fld.BLT_SLOTS_P p).sendDir d
      { s with ring := { s.ring with sw := some { w with dir := some d }, storeHigh := false }
               belt := { s.belt with nextDir := some d } }
    else s
  | none => s

/-! ## Markers sent (R274, R275, R294) -/

/-- A marker of (r, g). -/
def State.markerFrame (s : State) (r g epoch : Nat) (d : Directory) (hold : Bool) : State × Frame :=
  let (s, k) := s.nextSeq
  (s, mkFrame { ftype := if g = 0 then FT.TOP_NOTE else FT.SEGMENT, home := s.pos, epoch := epoch, rev := r, seg := g, seq := k }
    s.now (d.expect g * 2 ^ 24) (d.gen * 2 ^ 32 + d.homes.length * 2 ^ 16 + b2n hold) 0 0 [] [])

/-- TAKEOVER for the homes of devices that have asked to leave (R325); BYPASSED for those whose path has switched. -/
def State.serveLeavers (s : State) (top : Bool) : State :=
  s.ring.leavers.foldl (fun (s : State) (e : Nat × Bool) =>
    if e.2 then
      let s := { s with ring := { s.ring with leavers := s.ring.leavers.filter (fun x => x.1 ≠ e.1) } }
      let s := (s.seeBypassed e.1).sendControl 0 allPos 0x04 (arg := e.1 * 2 ^ 28 + 2 ^ 27)
      (s.raise Fld.BLT_RING_EVENTS_LEFT).event Ev.RING_LEAVE (s.unitQ e.1)
    else if top then
      let s := { s with ring := { s.ring with leavers := s.ring.leavers.map (fun (x : Nat × Bool) =>
          if x.1 = e.1 then (x.1, true) else x) } }
      let s := match s.belt.dir.home? e.1 with
        | some h => s.sendTakeover e.1 s.rev 0 (!s.shadowServes h)
        | none => s
      s.unshadow e.1
    else s) s

/-- A position has rejoined, as this device learns it (R324). -/
def State.seeJoined (s : State) (p : Nat) : State :=
  let s := { s with ring := { s.ring with gone := s.ring.gone.filter (fun x => x ≠ p)
                                          seen := s.ring.seen.filter (fun k => k.take 2 ≠ [0, p])
                                          joining := if s.ring.joining = some p then none else s.ring.joining } }
  (s.raise Fld.BLT_RING_EVENTS_JOINED).event Ev.RING_JOIN (s.unitQ p)

/-- A LAST slot without a frame leaves a port (R324). -/
def State.sendLast (s : State) (x : Nat) : State :=
  if s.portUp x then s.transmit ⟨x, 4, 0, .none, 0, none⟩ else s

/-- At a TOP_NOTE the upstream neighbour of a joining device switches its path back to it. -/
def State.pathBack (s : State) : State :=
  match s.ring.joining with
  | some p => if s.down 0 ∧ s.neighbour 0 true 1 = p ∧ s.portUp 1 then ((s.sendLast 3).setDown 0 false).settlePorts 0 else s
  | none => s

/-- No query is pending or resident. -/
def State.noQueries (s : State) : Bool := s.resident.isEmpty && s.belt.pend.isEmpty

/-- A device that leaves (R325): ready once it holds no query, it stops injecting at a TOP_NOTE; at the next marker it
sends LAST both ways and is out of the ring. -/
def State.leaveStep (s : State) (top : Bool) : State :=
  match s.ring.leaving with
  | none => s
  | some _ =>
    if s.ring.leaveReady then
      let s := (s.sendLast (s.fwdOut 0)).sendLast (s.retOut 0)
      let s := (s.raise Fld.BLT_RING_EVENTS_LEFT).event Ev.RING_LEAVE (s.unitQ s.pos)
      let s := (s.stopRing).setFld Fld.BLT_RING_FORMED 0
      [0, 1, 2, 3].foldl (fun (s : State) x => s.idlePort x) s
    else if ¬ s.noQueries then s
    else if top then { s with ring := { s.ring with leaveReady := true } }
    else s.tellManager 0x14 Rep.leave

/-- Whether this device owns slots of the ring. -/
def State.ownsSlots (s : State) : Bool :=
  match s.belt.dir.home? s.pos with
  | some h => decide (0 < h.slots) && !s.belt.rejoined
  | none => false

/-- The manager sends marker (r, g), in a slot it owns where it owns any (R274), and takes it itself first as every device
does; with a TOP_NOTE the audit of the slots begins (R316). -/
def State.sendMarker (s : State) (r g epoch : Nat) (d : Directory) (hold : Bool) : State :=
  let (s, f) := s.markerFrame r g epoch d hold
  let s := s.atMarker f
  let due := s.now + slotTicks (s.fld Fld.BLT_SLOTS_P)
  let s := if g = 0 then s.pathBack else s
  let s := if g = 0 then { s with ring := { s.ring with audit := some (due, []) } } else s
  let s := (if s.ownsSlots then s.sendFwd 0 f else s.inject 0 f).leaveStep (g = 0)
  let s := match s.ring.joining with
    | some p => if g = 0 then (s.seeJoined p).sendControl 0 allPos 0x04 (arg := p * 2 ^ 28) else s
    | none => s
  (s.serveLeavers (g = 0)).trySwitch

/-- The TOP_NOTE of a new epoch (R294 step 5); the SHARD_LOAD that asked for it completes (R365). -/
def State.switchEpoch (s : State) (w : EpochSwitch) (d : Directory) : State :=
  let s := { s with ring := { s.ring with sw := none, quiet := [] } }
  let s := s.sendMarker ((s.rev + 1) % revMod) 0 ((s.epoch + 1) % 2 ^ 16) d false
  match w.uid with
  | some u => s.completeU u St.OK 0
  | none => s

/-- The next marker, with ADMIT_HOLD while a switch waits for QUIET. -/
def State.nextMarker (s : State) : State :=
  let (r, g) := match s.ring.mark with
    | some m => succMark m.1 m.2
    | none => (0, 0)
  match s.ring.sw with
  | some w =>
    match w.dir with
    | some d => s.switchEpoch w d
    | none => s.sendMarker r g s.epoch s.belt.dir true
  | none => s.sendMarker r g s.epoch s.belt.dir false

/-- The next marker goes out: in the next slot of the manager's own, or at once where it owns none. -/
def State.markNow (s : State) : State :=
  if s.ownsSlots then { s with ring := { s.ring with markDue := true } } else s.nextMarker

/-- I_s in slot times, the largest of ceil(F(h, s) × P / slots_h) over all homes (R274). -/
def State.interval (s : State) (g : Nat) : Nat :=
  s.belt.dir.homes.foldl (fun n h =>
    max n (if h.slots = 0 then 0 else (h.count g * s.fld Fld.BLT_SLOTS_P + h.slots - 1) / h.slots)) 0

/-- Whether the interval of the last marker has passed (R274), and two round trips (R314). -/
def State.intervalOver (s : State) : Bool :=
  match s.ring.mark with
  | some (_, g) => decide (s.ring.lastMarkTb + max (slotTicks (s.interval g)) (2 * s.fld Fld.BLT_RTT_RTT) ≤ s.now)
  | none => true

/-- Nothing holds the manager's markers: no brake, no HOME_BEHIND (R273, R274, R317). -/
def State.mayMark (s : State) : Bool :=
  s.isManager && s.formed && s.ready && !s.braked && s.ring.behind.isEmpty && s.ring.phase = .formed

/-! ## Formation (R312 to R314) -/

/-- A ROLL_CALL frame (Table 10-9). -/
def State.rollCall (s : State) (net phase size join rtt p : Nat) : State × Frame :=
  let (s, k) := s.nextSeq
  (s, mkFrame { ftype := FT.ROLL_CALL, home := s.netPos net, seq := k } s.now
    (phase * 2 ^ 56 + s.ring.imageRingId * 2 ^ 40 + size * 2 ^ 28 + join * 2 ^ 16) s.ring.mgrUid.toNat
    (rtt * 2 ^ 32 + p * 2 ^ 16) 0 [] [])

/-- DISCOVER leaves with HOPS = 1, or 2 over a skip link. -/
def State.sendDiscover (s : State) (net : Nat) : State :=
  let s := { s with ring := { s.ring with mgrUid := (s.regAt Off.CFG_UID_HI) ++ (s.regAt Off.CFG_UID_LO) } }
  let (s, f) := s.rollCall net 1 0 0 0 0
  s.inject net (s.hop net f)

/-- The identity REPORT (Table 10-7): unique ID, strap role, tier, profiles, free slots. -/
def State.sendIdentity (s : State) (net : Nat) : State :=
  let uid := ((s.regAt Off.CFG_UID_HI) ++ (s.regAt Off.CFG_UID_LO)).toNat
  let w6 := s.boot.strap.toNat * 2 ^ 56 + s.fld Fld.HIF_STATUS_TIER * 2 ^ 48 + s.fld Fld.BLT_QUEUE_FREE
  let body := (List.range 16).map (fun c => (s.regAt (Off.BLT_PROF c)).setWidth 64)
  if net = 0 then s.tellManager 0x14 Rep.identity uid w6 body else s.sendReturn 1 0 0x14 Rep.identity uid w6 body

/-- Formation fails (R314). -/
def State.failFormation (s : State) (net : Nat) : State :=
  let s := if net = 0 then { s with ring := { s.ring with phase := .idle } } else { s with ring := { s.ring with parentPhase := .idle } }
  (s.raise Fld.BLT_RING_EVENTS_RING_FAIL).event Ev.RING_FAIL 0

/-! ## After a belt command -/

/-- A QUERY_CANCEL completes when the query has ended. -/
def State.settleCancels (s : State) : State :=
  let alive := fun (n : W64) =>
    let hostQ := fun (q : Query) => q.qnum = n && (match q.src with | .host _ => true | .frame _ => false)
    s.belt.pend.any hostQ || s.belt.slots.any (fun e => hostQ e.2.q && !e.2.done)
      || s.ring.placed.any (fun (p : Placed) => hostQ p.q) || s.ring.fed.any (fun (q : FedQuery) => hostQ q.q)
  (s.host.cmds.filter (fun c => c.stage = .running && c.opcode = 0x31 && !alive (c.w.getD 2 0#64))).foldl
    (fun s c => s.completeU c.uid St.OK 0) s

/-- What follows every command of the belt: rounds start, cancels complete. -/
def State.beltDone (s : State) : State := s.kickAll.settleCancels

end Sys2Proof.Machine
end

