-- ==== Sys2Proof/Machine/Belt.lean ====
section
/-! DEFINITION. The belt's commands: frames of the corpus, markers, queries, shards, scoring (09_belt_scoring.md R273 to
R298; 12_host.md R364, R365). -/

namespace Sys2Proof.Machine

/-! ## EMPTY and CORPUS frames (R273, R276, R287, R292, R296) -/

/-- Whether a home's slots are absorbed: it has no source, or its shadow does not serve (R296). -/
def State.heirOf (s : State) (p : Nat) : Option Nat :=
  match s.belt.dir.home? p with
  | some h => if s.shadowServes h ∧ ¬ s.belt.noSource.any (fun x => x.1 = p) then some h.shadow else none
  | none => none

/-- A slot stays in the elastic store, if there is room (R296, R315, R316). -/
def State.absorb (s : State) (f : Frame) : State :=
  if s.storeSize < 3072 then ({ s with ring := { s.ring with spare := s.ring.spare ++ [f] } }).syncStore else s

/-- An EMPTY frame of an owner is absorbed. -/
def State.absorbEmpty (s : State) (o : Nat) : State :=
  let (s, f) := s.emptyFrame o
  s.absorb f

/-- The slot of a bypassed owner, at the device on duty: its shadow's from now on, or absorbed (R292). -/
def State.inherit (s : State) (p : Nat) : State :=
  match s.heirOf p with
  | some h => if h = s.pos then s.useSlot else s.sendEmpty h
  | none => s.absorbEmpty p

/-- A slot of this device's own (R273, R274): the manager's marker that is due goes into it, else its next frame. -/
def State.ownSlot (s : State) : State :=
  if s.ring.markDue ∧ s.mayMark then ({ s with ring := { s.ring with markDue := false } }).nextMarker else s.useSlot

/-- A surplus EMPTY frame of an owner is taken out of the ring (R316). -/
def State.takeSurplus (s : State) (o : Nat) : Option State :=
  match s.ring.surplus.find? (fun e => e.1 = o && decide (0 < e.2)) with
  | some e =>
    let rest : List (Nat × Nat) := s.ring.surplus.map (fun (x : Nat × Nat) => if x.1 = o then (o, e.2 - 1) else x)
    some (({ s with ring := { s.ring with surplus := rest.filter (fun x => x.2 ≠ 0) } }).absorbEmpty o)
  | none => none

def State.emptyAct (s : State) (x : Nat) (f : Frame) : State :=
  let o := fHome f
  if x / 4 ≠ 0 then s.onward x f
  else
    match s.takeSurplus o with
    | some t => t
    | none =>
      if o = s.pos ∧ ¬ s.belt.rejoined then s.ownSlot
      else if s.onDuty ∧ s.lostHome o then s.inherit o
      else s.onward x f

/-- A FILL_IN whose frame has come is answered (R297). -/
def State.fillAnswered (s : State) (f : Frame) : State :=
  let x : FillIn := ⟨fHome f, fRev f, fSeg f, fSeq f⟩
  if fShadow f ∧ fHome f = s.pos ∧ s.belt.fillSent.contains x then
    ({ s with belt := { s.belt with fillSent := s.belt.fillSent.filter (fun (y : FillIn) => y ≠ x) } }).effectDone
      (fun r => fSub r = 0x13 && fw r 5 63 48 = x.home && fw r 5 37 32 = x.seg && fw r 5 31 0 = x.rev && fw r 6 63 0 = x.seq)
  else s

/-- An intact frame of the current epoch is copied and counted, unless the device sleeps in Q3 or Q4 (R276, R287, R459). -/
def State.tapFrame (s : State) (f : Frame) : State :=
  if fEpoch f = s.epoch ∧ s.fld Fld.PWR_STATUS_DSTATE ≤ 2 ∧ s.ready then s.tapIn f else s

/-- A CORPUS frame (R273, R276, R287): taken off by its remover, whose slot it is; elsewhere copied, counted and sent on;
a bypassed remover's frame ends at the device on duty. -/
def State.corpusAct (s : State) (x : Nat) (f : Frame) : State :=
  if x / 4 ≠ 0 then s.onward x f
  else if s.originOf f = s.pos then s.ownSlot
  else
    let s := (s.fillAnswered f).tapFrame f
    if s.onDuty ∧ s.ring.gone.contains (s.originOf f) then s.inherit (s.originOf f) else s.onward x f

/-! ## Markers (R275 to R280, R294) -/

/-- The manager's marker has come back: the circulation length is measured, and its slot is used again. -/
def State.markerBack (s : State) (f : Frame) : State :=
  let wait := if s.ownsSlots then s.ring.store.length else 0
  let s := { s with ring := { s.ring with circ := circulation (s.now - fTb f) - wait } }
  if s.ownsSlots then s.ownSlot else s

/-- A marker passes: a sleeping device takes its registers alone (R458), and reports QUIET as every device does (R295). -/
def State.markerAct (s : State) (x : Nat) (f : Frame) : State :=
  if x / 4 ≠ 0 then s.onward x f
  else if fHome f = s.pos then s.markerBack f
  else if s.onDuty ∧ s.ring.gone.contains (fHome f) then
    if (s.belt.dir.home? (fHome f)).isSome then s.inherit (fHome f) else s
  else
    let top := decide (fType f = FT.TOP_NOTE)
    let s := if s.fld Fld.PWR_STATUS_DSTATE ≤ 2 ∧ s.ready then s.atMarker f
      else (s.takeMarker f).reportQuiet (fRev f) (fSeg f)
    let s := if top then s.pathBack else s
    (s.onward x f).leaveStep top

/-! ## Queries (R279, R280, R330, R364) -/

/-- A query in a QUERY frame. -/
def frameQuery (f : Frame) : Query :=
  ⟨f.w.getD 4 0#64, f.w.getD 5 0#64, match f.recs with
    | r :: _ => r.words.drop 4
    | [] => [], .frame (fHome f)⟩

/-- A query for this device: onto the pending list, or refused (R280, R325). -/
def State.acceptQuery (s : State) (q : Query) (sender : Nat) : State :=
  if s.ring.leaving.isSome ∨ ¬ s.queryOk q ∨ 4096 ≤ s.belt.pend.length ∨ ¬ s.slotFor q then
    s.sendReturn 0 sender 0x11 (w5 := q.qnum.toNat)
  else ({ s with belt := { s.belt with pend := s.belt.pend ++ [q] } }).syncBelt

/-- A device has not taken a placed query: the manager tries another. -/
def State.refused (s : State) (n : W64) (d : Nat) : State :=
  match s.ring.placed.find? (fun (p : Placed) => p.qnum = n && p.dest = some d) with
  | some p =>
    let s := s.modPlaced n (fun p => { p with dest := none, tried := p.tried ++ [d] })
    s.tryPlace { p with dest := none, tried := p.tried ++ [d] }
  | none => s

def State.queryAct (s : State) (x : Nat) (f : Frame) : State :=
  let q := frameQuery f
  if x / 4 = 0 then
    if fDest f = s.pos then s.acceptQuery q (fHome f)
    else if fHome f = s.pos then s.refused q.qnum (fDest f)
    else if s.onDuty ∧ s.ring.gone.contains (fHome f) then s
    else s.onward x f
  else if fHome f = s.netPos 1 then s
  else
    let s := if s.isManager then s.takeQuery q true else s
    s.onward x f

/-- The query that a QUERY_SUBMIT describes. -/
def State.cmdQuery (s : State) (c : Cmd) : Query :=
  ⟨c.w.getD 2 0#64, c.w.getD 3 0#64, getWords s.host.mem (c.f 4 63 0) 128, .host c.uid⟩

def Query.ofHost (q : Query) (n : W64) : Bool :=
  q.qnum = n && (match q.src with
    | .host _ => true
    | .frame _ => false)

/-- Whether a QNUM of the host is pending or resident, here, on the ring or in the federation. -/
def State.qnumBusy (s : State) (n : W64) : Bool :=
  s.belt.pend.any (fun q => q.ofHost n) || s.resident.any (fun e => e.2.q.ofHost n)
    || s.ring.placed.any (fun (p : Placed) => p.q.ofHost n) || s.ring.fed.any (fun (q : FedQuery) => q.q.ofHost n)

/-- The parameters of a query that another device scores. -/
def Query.sound (q : Query) : Bool :=
  decide (1 ≤ q.dim128) && decide (q.dim128 ≤ 16) && q.par' 3 0 = 0
    && match vecFmt q.qfmt with
       | some .e4m3 => (vecElems .e4m3 q.vec (min 1024 (128 * q.dim128))).all (fun v => !v.isNan)
       | some _ => true
       | none => false

/-- QUERY_SUBMIT's checks (R279, R280, R364, Table 12-6). -/
def queryCheck (s : State) (c : Cmd) : Verdict :=
  let q := s.cmdQuery c
  let scope := c.f 5 1 0
  if (scope = 1 ∧ ¬ s.isManager) ∨ (scope = 2 ∧ ¬ (s.isRoot ∧ s.ring.parentPhase = .formed)) then .refuse St.STATE 0x1C
  else if s.qnumBusy q.qnum then .refuse St.STATE 0x1B
  else if c.capacity < 32 + 16 * q.k then .refuse St.INVALID 0
  else if ¬ (if scope = 0 then s.queryOk q else q.sound) then .refuse St.INVALID 0
  else if scope = 0 ∧ (4096 ≤ s.belt.pend.length ∨ ¬ s.slotFor q) then .wait St.NO_RESOURCE 0
  else .ok

/-- The root takes a federated query (R330): to every member, and to its own ring. -/
def State.fedSubmit (s : State) (q : Query) : State :=
  let n := BitVec.ofNat 64 s.ring.nextQnum
  let kids := (List.range s.ring.parentSize).filter (fun p => !s.ring.parentGone.contains p)
  let s := { s with ring := { s.ring with nextQnum := s.ring.nextQnum + 1, fed := s.ring.fed ++ [(⟨n, q, kids, []⟩ : FedQuery)] } }
  let (s, f) := s.queryFrame 1 allPos n q
  (s.inject 1 f).takeQuery { q with qnum := n, src := .frame (s.netPos 1) } true

/-- QUERY_SUBMIT (R279, R280, R330, R364). -/
def execQuerySubmit (sq cid : Nat) (s : State) : Host.Outcome State Fault Refusal :=
  .next ((s.clearTx.accept sq cid 0x30 queryCheck noRows (fun s c =>
    let q := s.cmdQuery c
    let s := s.dmaIn 1024
    match c.f 5 1 0 with
    | 0 => ({ s with belt := { s.belt with pend := s.belt.pend ++ [q] } }).syncBelt
    | 1 => s.takeQuery q false
    | _ => s.fedSubmit q)).beltDone)

/-- A query that the manager placed ends with ABORTED before it is scored, or its device is told (R364). -/
def State.cancelPlaced (s : State) (p : Placed) : State :=
  match p.dest with
  | some d => s.sendControl 0 d 0x09 (arg := p.qnum.toNat % 2 ^ 40) (w5 := p.qnum.toNat)
  | none =>
    let s := s.dropPlaced p.qnum
    match p.q.src with
    | .host uid => s.endQuery uid St.ABORTED (s.resultWords p.q.qnum St.ABORTED 0 []) 0
    | .frame r =>
      let ws := s.resultWords p.q.qnum St.ABORTED 0 []
      if r = s.netPos 1 then s.fedResult r p.q.qnum ws else s.sendReturn 1 r 0x10 (w5 := p.q.qnum.toNat) (body := ws)

/-- QUERY_CANCEL's check. -/
def cancelCheck (s : State) (c : Cmd) : Verdict :=
  if s.qnumBusy (c.w.getD 2 0#64) then .ok else .refuse St.STATE 0x1A

/-- QUERY_CANCEL takes effect on the query of a QNUM. -/
def State.cancelByHost (s : State) (n : W64) : State :=
  let s := s.cancelQuery (fun q => q.ofHost n)
  let s := (s.ring.placed.filter (fun (p : Placed) => p.q.ofHost n)).foldl (fun s p => s.cancelPlaced p) s
  (s.ring.fed.filter (fun (q : FedQuery) => q.q.ofHost n)).foldl (fun (s : State) (q : FedQuery) =>
    let s := s.sendControl 1 allPos 0x09 (arg := q.qnum.toNat % 2 ^ 40) (w5 := q.qnum.toNat)
    (s.ring.placed.filter (fun (p : Placed) => p.fed && p.q.qnum = q.qnum && p.q.src = .frame (s.netPos 1))).foldl
      (fun s p => s.cancelPlaced p) s) s

/-- QUERY_CANCEL (R291, R364): it completes when the query has ended. -/
def execQueryCancel (sq cid : Nat) (s : State) : Host.Outcome State Fault Refusal :=
  .next ((s.clearTx.accept sq cid 0x31 cancelCheck noRows (fun s c => s.cancelByHost (c.w.getD 2 0#64))).beltDone)

/-- QUERY_PLACEMENT_TIMEOUT (R364): no device has taken a ring-scope query within DEFER_MAX_MS. -/
def execQueryPlacementTimeout (sq cid : Nat) (s : State) : Host.Outcome State Fault Refusal :=
  .next (match s.cmd? sq cid with
    | some c =>
      match s.ring.placed.find? (fun (p : Placed) => p.q.src = .host c.uid && p.dest.isNone) with
      | some p => ((s.clearTx.dropPlaced p.qnum).completeU c.uid St.NO_RESOURCE 0).settleCancels
      | none => s
    | none => s)

/-! ## Shards (R271, R295, R365) -/

/-- The position that holds this home's copies: the directory's shadow, or the next device downstream that is not bypassed
(DESIGN CHOICE: no rule names a shadow before the directory does). -/
def State.myShadow (s : State) : Option Nat :=
  let n := s.ringSize
  match s.belt.dir.home? s.pos with
  | some h => if s.ring.gone.contains h.shadow then downstream n else some h.shadow
  | none => downstream n
where
  /-- The next device downstream in the ring. -/
  downstream (n : Nat) : Option Nat :=
    ((List.range (n - 1)).map (fun i => (s.pos + 1 + i) % n)).find? (fun p => !s.ring.gone.contains p)

/-- SHARD frames of a shard (Table 9-4), INJ_TB to be set as each is injected; word 6 carries its record count (DESIGN
CHOICE). -/
def State.shardFrames (s : State) (dest id : Nat) (recs : List BeltRec) : List Frame :=
  let ps := chunks 4 recs
  (ps.zip (List.range ps.length)).map (fun (x : List BeltRec × Nat) =>
    mkFrame { ftype := FT.SHARD, home := s.pos, dest := dest, epoch := s.epoch, seq := x.2 } 0 (id * 2 ^ 32)
      (x.2 * 2 ^ 24) recs.length 0 x.1 [])

/-- SHARD_LOAD's checks (R365, Table 12-6). -/
def shardCheck (s : State) (c : Cmd) : Verdict :=
  if c.f 5 0 0 = 1 ∧ ¬ s.isManager then .refuse St.STATE 0x1C
  else if s.ring.sw.isSome ∨ s.flag Fld.BLT_POS_ADMIT_HOLD then .refuse St.STATE 0x1E
  else if c.f 5 0 0 = 0 ∧ c.f 3 39 0 = 0 then .refuse St.INVALID 0
  else .ok

/-- MODE 0: the shard is stored here, STAGED is sent, and its copy queues for the shadow. -/
def State.stageShard (s : State) (c : Cmd) : State :=
  let id := c.f 2 63 32
  let gen := c.f 2 31 16
  let n := c.f 3 39 0
  let recs := (List.range n).map (fun i => (⟨getWords s.host.mem (c.f 4 63 0 + 1056 * i) 132⟩ : BeltRec))
  let h : HeldShard := ⟨id, gen, s.pos, true, true, recs.map some⟩
  let keep := s.belt.held.filter (fun (x : HeldShard) => !(x.id = id && x.gen = gen && x.home = s.pos && x.asHome))
  let s := ({ s with belt := { s.belt with held := keep ++ [h] } }).dmaIn (1056 * n)
  match s.myShadow with
  | none => s.completeU c.uid St.FAULT 0
  | some d =>
    let s := { s with belt := { s.belt with
        loads := s.belt.loads ++ [(id, gen, c.uid)], shardQ := s.belt.shardQ ++ s.shardFrames d id recs } }
    s.tellManager 0x16 0 (id * 2 ^ 32 + gen * 2 ^ 16 + s.pos) n

/-- SHARD_LOAD (R294, R295, R365). -/
def execShardLoad (sq cid : Nat) (s : State) : Host.Outcome State Fault Refusal :=
  .next ((s.clearTx.accept sq cid 0x32 shardCheck noRows (fun s c =>
    if c.f 5 0 0 = 1 then
      { s with ring := { s.ring with sw := some ⟨some c.uid, true, none⟩, quiet := [] } }
    else s.stageShard c)).beltDone)

/-- A shadow's copy with the records of one frame in place. -/
def putRecs (i : Nat) (rs : List BeltRec) (n : Nat) (old : List (Option BeltRec)) : List (Option BeltRec) :=
  let full := old ++ List.replicate (n - old.length) none
  (rs.zip (List.range rs.length)).foldl (fun (l : List (Option BeltRec)) (x : BeltRec × Nat) => l.set (4 * i + x.2) (some x.1)) full

/-- The shadow stores the records of a SHARD frame; with the last it reports STAGED to the manager and to the home (ARG bit
0: the sender's part, shadow; bit 1: the copy for the home). -/
def State.storeShard (s : State) (f : Frame) : State :=
  let id := fw f 4 63 32
  let gen := match f.recs with
    | r :: _ => recGen r.words
    | [] => 0
  let home := fHome f
  let mine := fun (x : HeldShard) => x.id = id && x.gen = gen && x.home = home && !x.asHome
  let old := match s.belt.held.find? mine with
    | some h => h
    | none => ⟨id, gen, home, false, false, []⟩
  let recs := putRecs (fw f 5 63 24) f.recs (fw f 6 39 0) old.recs
  let whole := recs.all (fun x => x.isSome)
  let h : HeldShard := { old with recs := recs, whole := whole }
  let s := { s with belt := { s.belt with held := s.belt.held.filter (fun (x : HeldShard) => !mine x) ++ [h] } }
  if whole ∧ ¬ old.whole then
    let w5 := id * 2 ^ 32 + gen * 2 ^ 16 + home
    (s.tellManager 0x16 1 w5 recs.length).sendReturn 0 home 0x16 3 w5 recs.length
  else s

/-- A SHARD frame (R271): stored at its target; the slot stays its sender's (R316). -/
def State.shardAct (s : State) (x : Nat) (f : Frame) : State :=
  if x / 4 ≠ 0 then s.onward x f
  else if fHome f = s.pos then s.ownSlot
  else if fDest f = s.pos then (s.storeShard f).sendEmpty (fHome f)
  else s.onward x f

/-! ## A received frame (R306, R307) -/

/-- A frame of which the header says that this device puts its own frame in its slot. -/
def State.replacesFrame (s : State) (f : Frame) : Bool :=
  (fType f = FT.EMPTY && fHome f = s.pos && !s.belt.rejoined) || (fType f = FT.CORPUS && s.originOf f = s.pos)
    || (fType f = FT.SHARD && fHome f = s.pos)

/-- A frame of which the header says that this device takes it off without another in its place. -/
def State.removesFrame (s : State) (x : Nat) (f : Frame) : Bool :=
  if x % 2 = 1 then s.takes (x / 4) f || fHome f = s.netPos (x / 4)
  else (fType f = FT.QUERY || fType f = FT.CONTROL) && (fHome f = s.netPos (x / 4) || fDest f = s.netPos (x / 4))

/-- A frame that proves not intact (R306): one that passes goes on stomped; in the place of one that is replaced, what
leaves is stomped and is injected again later; the removal of one is undone. -/
def State.badAct (s : State) (x : Nat) (f : Frame) : State :=
  if s.dropsStomped x ∨ s.removesFrame x f then s
  else if x = s.fwdIn 0 ∧ s.replacesFrame f then
    let (s, g) := s.ownFrame
    (s.putBack g).sendFwd 0 (stomped g)
  else if x = s.fwdIn 0 ∧ fType f = FT.SHARD ∧ fDest f = s.pos then
    let (s, g) := s.emptyFrame (fHome f)
    s.sendFwd 0 (stomped g)
  else s.forwardStomped x f

/-- A received slot with a frame, of a kind, under its checks: acted on when intact, sent on stomped when not. -/
def State.receiveAs (s : State) (rx : Rx) (kind : Nat) (f : Frame) (act : State → Frame → State) : State :=
  match s.clearTx.rxCheck rx kind f with
  | (s, .take) => act (s.noteAudit rx.port f) f
  | (s, .stomped) => s.forwardStomped rx.port f
  | (s, .bad) => s.badAct rx.port f
  | (s, .dropped) => s

/-- A received FRAME slot. -/
def State.receive (s : State) (rx : Rx) (f : Frame) (act : State → Frame → State) : State := s.receiveAs rx 0 f act

/-! ## The frames' commands -/

/-- EMPTY_FRAME (R273, R292, R296, R316). -/
def execEmptyFrame (rx : Rx) (f : Frame) (s : State) : Host.Outcome State Fault Refusal :=
  .next (if fType f = FT.EMPTY then (s.receive rx f (fun s f => s.emptyAct rx.port f)).beltDone else s)

/-- CORPUS_FRAME (R273, R276, R277, R287, R292, R305 to R307). -/
def execCorpusFrame (rx : Rx) (f : Frame) (s : State) : Host.Outcome State Fault Refusal :=
  .next (if fType f = FT.CORPUS then (s.receive rx f (fun s f => s.corpusAct rx.port f)).beltDone else s)

/-- TOP_NOTE (R275, R280, R294, R324, R325). -/
def execTopNote (rx : Rx) (f : Frame) (s : State) : Host.Outcome State Fault Refusal :=
  .next (if fType f = FT.TOP_NOTE then (s.receive rx f (fun s f => s.markerAct rx.port f)).beltDone else s)

/-- SEGMENT (R275, R277, R278, R280, R290, R295). -/
def execSegment (rx : Rx) (f : Frame) (s : State) : Host.Outcome State Fault Refusal :=
  .next (if fType f = FT.SEGMENT then (s.receive rx f (fun s f => s.markerAct rx.port f)).beltDone else s)

/-- QUERY_FRAME (R279, R280, R330). -/
def execQueryFrame (rx : Rx) (f : Frame) (s : State) : Host.Outcome State Fault Refusal :=
  .next (if fType f = FT.QUERY then (s.receive rx f (fun s f => s.queryAct rx.port f)).beltDone else s)

/-- SHARD_FRAME (R271, R295). -/
def execShardFrame (rx : Rx) (f : Frame) (s : State) : Host.Outcome State Fault Refusal :=
  .next (if fType f = FT.SHARD then (s.receive rx f (fun s f => s.shardAct rx.port f)).beltDone else s)

/-! ## Markers sent (R274, R314) -/

/-- MARKER_INTERVAL_EXPIRY (R274, R293, R294): the manager's next marker, unless a brake or a HOME_BEHIND holds it. -/
def execMarkerIntervalExpiry (s : State) : Host.Outcome State Fault Refusal :=
  .next (if s.mayMark ∧ s.intervalOver then (s.clearTx.markNow).beltDone else s)

/-! ## Scoring (R282 to R287) -/

/-- SCORE_ROUND_END (R282 to R291): a mismatch of the row check that the re-run mends is a transient of its tile; a second
one retires the tile, and the batch is scored on another. -/
def execScoreRoundEnd (c : Nat) (fault : Option (Nat × Bool)) (s : State) : Host.Outcome State Fault Refusal :=
  .next (if s.roundRuns c then
      let s := s.clearTx
      let s := match fault with
        | some (t, twice) =>
          match s.phys? c t with
          | some p => if twice then s.retireTile c p Ev.TILE_TRANSIENT else s.transient c p
          | none => s
        | none => s
      (if s.roundRuns c then (s.roundEnd c).roundIdle c else s).beltDone
    else s)

/-- Frames of the buffer that a cluster has not consumed. -/
def State.backlog (s : State) (c : Nat) : Nat :=
  (s.belt.tap.filter (fun f => f.left.contains c || f.taken.contains c)).length

/-- The water marks in frames; LW at or above HW acts as HW − 1 (Table 9-13). -/
def State.highWater (s : State) : Nat := s.fld Fld.BLT_SCORE_CTL_HW * 61680 / 256
def State.lowWater (s : State) : Nat :=
  let hw := s.fld Fld.BLT_SCORE_CTL_HW
  (if s.fld Fld.BLT_SCORE_CTL_LW ≥ hw then hw - 1 else s.fld Fld.BLT_SCORE_CTL_LW) * 61680 / 256

/-- The home that a cluster sheds next (R287). -/
def State.nextShed (s : State) (k : ScoreCl) : Option Nat :=
  let all := s.belt.dir.homes.map (·.pos)
  let ring := match k.lastShed with
    | some l => all.filter (fun p => decide (l < p)) ++ all.filter (fun p => decide (p ≤ l))
    | none => all
  let cand := ring.filter (fun p => !k.shed.contains p)
  match cand.find? (fun p => !k.ranges.any (fun r => r.home = p && r.rev = s.rev && r.seg = s.seg)) with
  | some p => some p
  | none => cand.head?

/-- SHED_CHECK (R287). -/
def execShedCheck (c : Nat) (s : State) : Host.Outcome State Fault Refusal :=
  .next (if s.scoreClusters.contains c ∧ s.clusterUp c then
      let k := s.scoreCl c
      let b := s.backlog c
      let s := s.setScore c { k with backlog := b }
      let s := if s.highWater ≤ b ∧ k.backlog ≤ b then
          match s.nextShed k with
          | some p =>
            let k := s.scoreCl c
            let s := s.setScore c { k with shed := k.shed ++ [p], lastShed := some p }
            ((s.raise Fld.BLT_EVENTS_SHED).event Ev.BELT_SHED c).letPassTap c (fun f => f.home = p)
          | none => s
        else if b ≤ s.lowWater then
          let k := s.scoreCl c
          s.setScore c { k with shed := k.shed.drop 1 }
        else s
      ((s.settleScore c).syncBelt).beltDone
    else s)

/-- FILL_IN_TIMEOUT (R298): the shadow has not answered within a segment interval; the home injects the frame with LOST. -/
def execFillInTimeout (home rev seg seq : Nat) (s : State) : Host.Outcome State Fault Refusal :=
  let x : FillIn := ⟨home, rev, seg, seq⟩
  .next (if s.belt.fillSent.contains x then
      let s := { s with belt := { s.belt with fillSent := s.belt.fillSent.filter (fun (y : FillIn) => y ≠ x),
                                              lostDue := s.belt.lostDue ++ [x] } }
      let s := s.effectDone (fun r => fSub r = 0x13 && fw r 5 63 48 = home && fw r 5 37 32 = seg && fw r 5 31 0 = rev && fw r 6 63 0 = seq)
      s.event Ev.BELT_LOST_RECORD (s.unitQ home)
    else s)

end Sys2Proof.Machine
end

