-- ==== Sys2Proof/Machine/Verify.lean ====
section
/-! DEFINITION. Verification of images, sections and stage programs (13_configuration.md R380 to R387; the rules R386
names). -/

namespace Sys2Proof.Machine

/-! ## Stage programs (R82, R100, R106, R129, R146, R164) -/

/-- A program's load: OK, INVALID, or LICENCE where a descriptor asks for two-way array read below Oud (R9, R82). -/
def progStatus (tier : Nat) (p : Program) : Nat :=
  let isK := fun (e : List W64 × Nat) => p.kernels.contains (p.descBase + e.2)
  let ds := p.descs.zipIdx
  let ok := ds.all (fun e => e.1.length = 4
    && (if isK e then (kDesc e.1).loadOk p.codeBytes else (matDesc e.1).loadOk))
  if ¬ (decide (p.descBase + p.descs.length ≤ 1024) && decide (p.commitBound ≤ 1024) && p.codeOk && !p.codeUsesUluverSfg
      && ok) then St.INVALID
  else if decide (tier ≠ 2) && ds.any (fun e => !isK e && (matDesc e.1).bRead) then St.LICENCE
  else St.OK

/-- The services that Table 6-1 gives a role. -/
def roleServices (role : Nat) : List Service :=
  match role with
  | 3 => [.kvAppend]
  | 4 => [.kvRead, .kvAppend]
  | 7 => [.beltInject]
  | 8 => [.beltTap]
  | 9 => [.returnRing]
  | 10 => [.kvAppend, .kvRead, .beltInject, .returnRing]
  | _ => []

/-- Whether a program's kernels use only services of a role (R164). -/
def roleOk (role : Nat) (p : Program) : Bool := p.services.all (fun x => (roleServices role).contains x)

/-- Whether each cluster's program suits its role. -/
def rolesServe (g : PartCfg) : Bool :=
  g.roles.all (fun e => match g.programs.find? (fun p => p.index = e.2.2) with
    | some p => roleOk e.2.1 p
    | none => true)

/-- Whether some role of Table 6-1 gives all the services that a program uses: what R164 asks of an object before a section
names its role. -/
def anyRole (p : Program) : Bool := (List.range 11).any (fun r => roleOk r p)

/-- The object that a PROGRAM record names, loaded and of the record's SHA-384 (R366, R390). -/
def State.object? (s : State) (p : Program) : Option Program :=
  match p.objId with
  | none => some p
  | some id =>
    match s.ppl.objects.find? (fun e => e.1 = id) with
    | some e => if e.2.hash = p.hash then some { e.2 with index := p.index, descBase := p.descBase,
                                                          commitBound := p.commitBound, objId := p.objId } else none
    | none => none

/-! ## Records (R382, R383) -/

/-- Types that may stand in a section of a kind. -/
def typesOf (kind : Nat) : List Nat :=
  if kind = 1 then [0x0001, 0x0002, 0x0003, 0x0004]
  else [0x0002, 0x0003, 0x0101, 0x0102, 0x0103, 0x0104, 0x0105, 0x0106, 0x0107]

/-- Fields that Table 13-5 does not name are zero; masks of W1, W2, … for the fixed records. -/
def recMasks (ty : Nat) : List Nat :=
  match ty with
  | 0x0001 => [mask 63 61 + mask 15 0, mask 63 0, mask 18 0, mask 63 0, mask 13 0]
  | 0x0002 => [mask 63 59 + mask 31 0, mask 63 0, mask 15 0, mask 63 0, mask 31 0]
  | 0x0101 => [mask 63 39 + mask 15 0, mask 63 52 + mask 14 0]
  | 0x0102 => [mask 63 48]
  | 0x0105 => [mask 31 0]
  | 0x0106 => [mask 63 60 + mask 31 19]
  | 0x0107 => [mask 7 0, mask 63 0, mask 31 0]
  | _ => []

def recOk (kind : Nat) (r : ImgRecord) : Bool :=
  if ¬ r.wellLen then false
  else if (typesOf 1 ++ typesOf 2).contains r.type then
    (typesOf kind).contains r.type
      && ((recMasks r.type).zipIdx.all (fun e => (recW r (e.2 + 1)).toNat &&& (2 ^ 64 - 1 - e.1) = 0))
  else r.optional

/-! ## Header and table (R380, R381) -/

/-- Sections lie within LENGTH, at multiples of 4,096 after the table, and do not overlap. -/
def sectionsApart : List ImgSection → Bool
  | [] => true
  | x :: t => t.all (fun y => decide (x.offset + x.size ≤ y.offset) || decide (y.offset + y.size ≤ x.offset))
      && sectionsApart t

def headerOk (i : Image) : Bool :=
  let n := i.sections.length
  i.magic = 0x4D49524D#32 && i.format = 1 && decide (i.keyId ≤ 2) && decide (1 ≤ i.gen) && decide (i.gen < 2 ^ 32)
    && decide (i.length ≤ 100663296) && i.zeros && decide (1 ≤ n) && decide (n ≤ 9)
    && (match i.sections with
        | d :: ps => d.kind = 1 && d.part = 0 && d.gen = 0
            && ps.all (fun p => p.kind = 2 && decide (p.part < 8) && decide (1 ≤ p.gen) && decide (p.gen ≤ 65535))
            && decide ((ps.map (·.part)).eraseDups.length = ps.length)
        | [] => false)
    && i.sections.all (fun x => x.offset % 4096 = 0 && decide (256 + 64 * n ≤ x.offset)
        && decide (x.offset + x.size ≤ i.length))
    && sectionsApart i.sections

/-! ## Partitions -/

/-- The role records of a section: cluster, role, program index. -/
def rolesOf (x : ImgSection) : List (Nat × Nat × Nat) :=
  (recsOf x 0x0102).map (fun r => (recF r 1 63 60, recF r 1 59 56, recF r 1 55 48))

def progsOf (x : ImgSection) : List Program := (recsOf x 0x0103).filterMap (fun r => r.prog)

/-- The partition that a section describes. -/
def partCfg (x : ImgSection) : Option PartCfg :=
  match oneRec x 0x0101 with
  | none => none
  | some r =>
    let train := match oneRec x 0x0107 with
      | some t => some (recF t 1 7 0, (recW t 2).toNat, recF t 3 31 0)
      | none => none
    some { pipe := recF r 1 44 44 = 1, reserve := if recF r 1 43 43 = 1 then some (recF r 1 42 39) else none,
           clusters := recF r 1 15 0, blockWin := recF r 2 63 59, plen32 := recF r 2 58 52, inBytes := recF r 2 14 0,
           train := train, roles := rolesOf x, programs := progsOf x, sect := x }

/-- The route entries of a section (R383). -/
def routesOf (x : ImgSection) : List W64 :=
  match oneRec x 0x0104 with
  | some r => (r.body.drop 1).take (recF r 1 8 0)
  | none => []

/-- Whether a section names objects (R390). -/
def namesObjects (g : PartCfg) : Bool := g.programs.any (fun p => p.objId.isSome)

/-- A profile word's bits 31:19 (R281). -/
def profileOk (w : Nat) : Bool :=
  let rf := w / 2 ^ 28 % 16
  let qf := w / 2 ^ 24 % 16
  let d := w / 2 ^ 19 % 32
  let wide := fun (f : Nat) => f = 0 || f = 2
  let narrow := fun (f : Nat) => f = 1 || f = 6
  if wide rf && wide qf then decide (1 ≤ d) && decide (d ≤ 8)
  else if narrow rf && narrow qf then d % 2 = 0 && decide (2 ≤ d) && decide (d ≤ 16)
  else false

/-- Counts and contents of a partition section's records (Table 13-5, R200, R281, R386). -/
def partRecordsOk (x : ImgSection) (g : PartCfg) : Bool :=
  match oneRec x 0x0101 with
  | none => false
  | some r =>
    let cs := maskList g.clusters
    let score := (g.roles.filter (fun e => e.2.1 = 8)).map (·.1)
    let profs := (recsOf x 0x0106).map (fun p => recF p 1 63 60)
    let count := fun ty => (recsOf x ty).length
    let one := fun (l : List Nat) (c : Nat) => (l.filter (fun y => y = c)).length = 1
    count 0x0101 = 1 && recF r 1 63 48 = x.gen && recF r 1 47 45 = x.part
      && g.roles.all (fun e => cs.contains e.1 && decide (e.2.1 ≤ 10)
          && (if e.2.1 = 0 then e.2.2 = 0xFF else g.programs.any (fun p => p.index = e.2.2)))
      && cs.all (fun c => one (g.roles.map (·.1)) c)
      && decide (count 0x0103 ≤ 32) && decide (g.programs.length = count 0x0103)
      && decide ((g.programs.map (·.index)).eraseDups.length = g.programs.length)
      && count 0x0104 = (if g.pipe then 1 else 0)
      && decide (count 0x0105 ≤ (if g.pipe then 1 else 0)) && decide (count 0x0107 ≤ (if g.pipe then 1 else 0))
      && score.all (fun c => one profs c) && profs.all (fun c => score.contains c)
      && (recsOf x 0x0106).all (fun p => profileOk (recF p 1 31 0))
      && g.inBytes % 32 = 0 && decide (g.inBytes ≤ 16384) && decide (g.plen32 ≤ 64)
      && (match g.reserve with
          | some c => cs.contains c && g.roles.any (fun e => e.1 = c && e.2.1 = 0)
          | none => true)
      && (!g.pipe || (decide (1 ≤ (routesOf x).length) && decide ((routesOf x).length ≤ 256)))
      && (match oneRec x 0x0105 with
          | some k =>
            let h := shapeOf (BitVec.ofNat 32 (recF k 1 31 0))
            decide (1 ≤ h.layers) && decide (h.lt2 ≤ 24) && decide (recF k 1 15 14 ≠ 3) && recF k 1 12 0 = 0
          | none => true)

/-! ## Windows (R174, R238, R243) -/

def WinRec.size (w : WinRec) : Nat := 2 ^ bitsOf w.attr 30 25

def WinRec.ok (w : WinRec) (hbm : Nat) : Bool :=
  let log := bitsOf w.attr 30 25
  let view := bitsOf w.attr 15 15 = 1
  let inHbm := decide (w.base + w.size ≤ hbm)
  let inView := decide (viewBase ≤ w.base) && decide (w.base + w.size ≤ viewEnd)
  bitsOf w.attr 31 31 = 1 && decide (21 ≤ log) && decide (log ≤ 37) && w.base % w.size = 0
    && (if view then inView else inHbm)
    && decide (bitsOf w.attr 22 18 ≤ 16) && decide (bitsOf w.attr 14 12 ≤ 4) && bitsOf w.attr 7 0 = 0
    && (match w.part with
        | none => bitsOf w.attr 8 8 = 1
        | some p => bitsOf w.attr 8 8 = 0 && bitsOf w.attr 11 9 = p)
    && (if view then decide (bitsOf w.src 63 48 ≠ 0) && bitsOf w.src 4 0 = 0 && decide (bitsOf w.shape 31 30 ≠ 3)
        else w.src = 0#64 && w.shape = 0#32)

def windowsApart : List WinRec → Bool
  | [] => true
  | w :: t => t.all (fun v => decide (w.num ≠ v.num)
      && (decide (w.base + w.size ≤ v.base) || decide (v.base + v.size ≤ w.base))) && windowsApart t

/-- The classes that a partition uses (R384). -/
def classesOf (x : ImgSection) : Nat := (winRecs x).foldl (fun m w => m ||| w.classes) 0

/-- The block window of a pipeline (R174): PIN, LIGHT, with a class of the partition's, large enough for each queue entry,
entry-queue slot and forming buffer; one forming buffer for each class the partition uses (DESIGN CHOICE). -/
def blockWinOk (x : ImgSection) (g : PartCfg) : Bool :=
  if ¬ g.pipe then true
  else
    match (winRecs x).find? (fun w => w.num = g.blockWin) with
    | none => false
    | some w =>
      let cs := maskList ((routesOf x).foldl (fun m r => m ||| rtCmask r) 0)
      let n := 8 * cs.length + 4 + (maskList (classesOf x)).length
      decide (w.classes ≠ 0) && bitsOf w.attr 24 23 = 3 && bitsOf w.attr 17 17 = 1 && bitsOf w.attr 14 12 = 2
        && decide (n * (1536 + 128 * g.inBytes) ≤ w.size)

/-! ## Route tables (R168, R192) -/

/-- What a route table is held against: roles and programs of every cluster. -/
abbrev Stages := List (Nat × Nat × Option Program)

/-- Every cluster of a CMASK holds one role fed by route tables and a program with a kernel descriptor in slot KSET. -/
def cmaskOk (st : Stages) (r : W64) : Bool :=
  let hit := (maskList (rtCmask r)).map (fun c => st.find? (fun e => e.1 = c))
  let roles := (hit.map (fun e => match e with | some e => e.2.1 | none => 0)).eraseDups
  decide (roles.length ≤ 1) && roles.all (fun x => [1, 2, 3, 4, 5, 6, 7, 10].contains x)
    && hit.all (fun e => match e with
      | some e => (match e.2.2 with
          | some p => (progSlot p (rtKset r)).isSome && p.kernels.contains (rtKset r)
          | none => false)
      | none => false)

/-- The path from a (layer, step): each matches exactly one entry, and it ends at EXIT. -/
def pathOk (rs : List W64) : Nat → Nat → Nat → Bool
  | 0, _, _ => false
  | n + 1, layer, step =>
    match rs.filter (fun r => decide (rtLayerLo r ≤ layer) && decide (layer ≤ rtLayerHi r) && rtStep r = step) with
    | [r] => rtExit r || pathOk rs n (layer + rtNextLayer r) (rtNextStep r)
    | _ => false

def routesOk (st : Stages) (rs : List W64) : Bool :=
  let layers := (List.range 256).filter (fun l => rs.any (fun r => decide (rtLayerLo r ≤ l) && decide (l ≤ rtLayerHi r)))
  rs.all (fun r => bitsOf r 7 0 = 0 && (rtExit r || rtNextLayer r = 1 || decide (rtStep r < rtNextStep r)))
    && decide (layers.length ≤ 255) && rs.all (cmaskOk st) && pathOk rs 16385 0 0

/-- A TRAIN record (R192): its gradient area lies within HBM_BYTES. -/
def trainOk (g : PartCfg) (hbm : Nat) : Bool :=
  match g.train with
  | none => true
  | some (_, base, bytes) => base % 4096 = 0 && bytes % 256 = 0 && decide (512 ≤ bytes) && decide (base + 512 * bytes ≤ hbm)

/-- The stages that sections describe; a section that names objects has its clusters without a role (R390). -/
def stagesOf (gs : List PartCfg) : Stages :=
  gs.flatMap (fun g => g.roles.map (fun e =>
    if namesObjects g then (e.1, 0, none) else (e.1, e.2.1, g.programs.find? (fun p => p.index = e.2.2))))

/-! ## Settings and regulation (R337, R338, R341, R384) -/

/-- The pairs of a section: offset, value. -/
def settingsOf (x : ImgSection) : List (Nat × W32) :=
  (recsOf x 0x0003).flatMap (fun r => r.body.map (fun w => (bitsOf w 63 32, BitVec.ofNat 32 (bitsOf w 31 0))))

/-- The cluster index of a register indexed by one. -/
def offCluster (off : Nat) : Option Nat :=
  if inStride off (Off.PPL_WDOG 0) 16 0x10 then some ((off - Off.PPL_WDOG 0) / 0x10)
  else if inStride off (Off.PWR_REGION 0) 16 (Off.PWR_REGION 1 - Off.PWR_REGION 0) then
    some ((off - Off.PWR_REGION 0) / (Off.PWR_REGION 1 - Off.PWR_REGION 0))
  else if inStride off (Off.RGL_GRT 0 0) 64 4 then some ((off - Off.RGL_GRT 0 0) / 16)
  else none

/-- The class index of a register indexed by one. -/
def offClass (off : Nat) : Option Nat :=
  [Off.PPL_CLASS 0, Off.KVL_CLASS 0, Off.RGL_CLASS 0].findSome? (fun b =>
    if inStride off b 16 4 then some ((off - b) / 4) else none)

def pairOk (clusters classes : Option Nat) (e : Nat × W32) : Bool :=
  (match regRow? e.1 with
    | some r => decide (r.img ≠ 0#32) && e.2 &&& ~~~ r.img = 0#32
    | none => false)
  && (match clusters, classes with
    | some cs, some ks =>
      (match offCluster e.1, offClass e.1 with
        | some c, _ => cs.testBit c
        | none, some k => ks.testBit k
        | none, none => false)
    | _, _ => true)

/-- The value a setting leaves in a register: the last pair that names it, else the table's default. -/
def settled (ps : List (Nat × W32)) (off : Nat) : W32 :=
  match (ps.filter (fun e => e.1 = off)).getLast? with
  | some e => e.2
  | none => regReset off

/-- Pairs that Table 11-1 marks. -/
def pairExists (m r : Nat) : Bool := decide ((grtDefault m r).1 ≠ 0)

/-- What R337, R338 and R341 ask of the regulation registers. -/
def regulationOk (at? : Nat → W32) : Bool :=
  let g := fun m r => bitsOf (at? (Off.RGL_GRT m r)) 10 0
  let cls := fun k => at? (Off.RGL_CLASS k)
  (List.range 22).all (fun m => (List.range 4).all (fun r => g m r = 0 || (pairExists m r && decide (g m r ≤ 1024))))
    && (List.range 4).all (fun r => decide ((List.range 22).foldl (fun n m => n + g m r) 0 ≤ 1024))
    && (List.range 16).all (fun k => decide (bitsOf (cls k) 5 0 ≤ 32) && decide (bitsOf (cls k) 12 8 ≤ 16))
    && decide ((List.range 16).foldl (fun n k => n + bitsOf (cls k) 5 0) 0 ≤ 192)
    && decide ((List.range 16).foldl (fun n k => n + bitsOf (cls k) 12 8) 0 ≤ 96)

/-! ## Banks (R386, Table 13-6) -/

/-- Codes of Table 13-6. -/
def BR.UNREAD : Nat := 0
def BR.VERIFIED : Nat := 1
def BR.BLANK : Nat := 2
def BR.HEADER : Nat := 3
def BR.SIGNATURE : Nat := 4
def BR.KEY : Nat := 5
def BR.HASH : Nat := 6
def BR.RULE : Nat := 7
def BR.LEVEL : Nat := 8
def BR.BOUND : Nat := 9
def BR.WRITING : Nat := 10

/-- The DEVICE record: its counts, alignments and regions (Table 13-5, R203, R370, R386). -/
def deviceOk (d : ImgSection) (hbm : Nat) : Bool :=
  match recsOf d 0x0001 with
  | [r] =>
    let rb := (recW r 2).toNat
    let rn := recF r 3 18 0 * 4096
    let pb := (recW r 4).toNat
    let pn := recF r 5 13 0 * 16777216
    rb % 4096 = 0 && pb % 16777216 = 0 && decide (recF r 3 18 0 ≤ 262144) && decide (recF r 5 13 0 ≤ 12288)
      && decide (rn = 0 ∨ rb + rn ≤ hbm) && decide (pn = 0 ∨ pb + pn ≤ hbm)
      && decide (rn = 0 ∨ pn = 0 ∨ rb + rn ≤ pb ∨ pb + pn ≤ rb)
      && decide ((recsOf d 0x0004).length ≤ 1)
  | _ => false

def clustersOnce : List PartCfg → Bool
  | [] => true
  | g :: t => t.all (fun h => g.clusters &&& h.clusters = 0) && clustersOnce t

/-- The records and rules of R386. -/
def imageRules (i : Image) (tier hbm : Nat) : Bool :=
  match i.sections with
  | [] => false
  | d :: ps =>
    let gs := ps.filterMap partCfg
    let wins := i.sections.flatMap winRecs
    let pairs := i.sections.flatMap settingsOf
    i.sections.all (fun x => x.records.all (recOk x.kind)) && deviceOk d hbm
      && decide (gs.length = ps.length) && clustersOnce gs
      && ps.all (fun x => match partCfg x with
          | some g => partRecordsOk x g && blockWinOk x g && trainOk g hbm
              && (namesObjects g || (g.programs.all (fun p => progStatus tier p = St.OK) && rolesServe g))
              && (namesObjects g || !g.pipe || routesOk (stagesOf gs) (routesOf x))
              && (settingsOf x).all (pairOk (some g.clusters) (some (classesOf x)))
          | none => false)
      && decide (wins.length ≤ 32) && wins.all (fun w => w.ok hbm) && windowsApart wins
      && (settingsOf d).all (pairOk none none) && regulationOk (settled pairs)

/-- The result code of a bank's verification (R386, R387). -/
def verifyBank (bank : Option Image) (uid : W64) (owners tier hbm : Nat) : Nat :=
  match bank with
  | none => BR.BLANK
  | some i =>
    if ¬ headerOk i then BR.HEADER
    else if i.keyId ≠ 0 ∧ ¬ owners.testBit (i.keyId - 1) then BR.KEY
    else if ¬ i.sigOk then BR.SIGNATURE
    else if ¬ i.sections.all (fun x => x.hashOk) then BR.HASH
    else if i.bindUid ≠ 0#64 ∧ i.bindUid ≠ uid then BR.BOUND
    else if i.level ≠ 1 then BR.LEVEL
    else if imageRules i tier hbm then BR.VERIFIED
    else BR.RULE

/-- The device's unique ID. -/
def State.uid (s : State) : W64 := (s.regAt Off.CFG_UID_HI) ++ (s.regAt Off.CFG_UID_LO)

/-- A licence slot verifies: layout and root signature (R395, R396). -/
def licenceOk (l : LicenceRec) : Bool :=
  l.wellFormed && l.sigOk && decide (l.tier ≤ 2) && decide (1 ≤ l.serial) && decide (l.serial < 2 ^ 32)

end Sys2Proof.Machine
end

