-- ==== Sys2Proof/Machine/FlashOps.lean ====
section
/-! DEFINITION. The flash and the journal's segments (13_configuration.md R377 to R379, R392, R394, R395, R400 to R406). -/

namespace Sys2Proof.Machine

/-! ## Segments -/

/-- Slots of a segment (Table 13-2: 8 MiB of 64-byte records). -/
def segSlots : Nat := 131072

def State.activeSeg (s : State) : Nat := s.fld Fld.JRN_STATUS_ACTIVE

def State.jseg (s : State) (k : Nat) : List JSlot := if k = 0 then s.jrn.seg0 else s.jrn.seg1

def State.setSeg (s : State) (k : Nat) (l : List JSlot) : State :=
  { s with jrn := if k = 0 then { s.jrn with seg0 := l } else { s.jrn with seg1 := l } }

/-- FILL of the active segment in 1/256. -/
def State.syncFill (s : State) : State :=
  s.setFld Fld.JRN_STATUS_FILL (min 255 ((s.jseg s.activeSeg).length / 512))

/-- A record of types SEG_HEAD, SNAP_BEGIN and COMMIT: it carries the last number issued (R400). -/
def State.segRec (s : State) (type payload : Nat) : JRec :=
  { s.jrec type 9 (BitVec.ofNat 288 payload) with seq := s.jrn.nextSeq - 1 }

def State.segHead (s : State) (gen : Nat) : JRec := s.segRec JT.SEG_HEAD (gen % 2 ^ 32 + 2 ^ 32)

/-- The intact records of a segment. -/
def goodOf (l : List JSlot) : List JRec :=
  l.filterMap (fun x => match x with
    | .good r => some r
    | .bad => none)

/-- Kind and unit of a DEFECT record; kind of a CONFIG record. -/
def JRec.defect (r : JRec) : Defect :=
  ⟨bitsOf r.payload 7 0, BitVec.ofNat 48 (bitsOf r.payload 63 16), bitsOf r.payload 15 8, bitsOf r.payload 79 64⟩

def JRec.configKind (r : JRec) : Nat := bitsOf r.payload 7 0

/-! ## Operations (R379) -/

/-- The operation that the flash serves: of the highest priority, the first to arrive. -/
def State.flashOp? (s : State) : Option FlashOp :=
  let top := s.flash.ops.foldl (fun m o => min m o.prio) 3
  s.flash.ops.find? (fun o => o.prio = top)

def State.pushOp (s : State) (k : FlashOpKind) (prio : Nat) : State :=
  { s with flash := { s.flash with ops := s.flash.ops ++ [⟨k, prio, false⟩] } }

def State.swapOp (s : State) (o new : FlashOp) : State :=
  { s with flash := { s.flash with ops := modFirst (fun x => x = o) (fun _ => new) s.flash.ops } }

def State.dropOp (s : State) (o : FlashOp) : State :=
  { s with flash := { s.flash with ops := dropFirst (fun x => x = o) s.flash.ops } }

/-- An operation failed twice. -/
def State.flashFail (s : State) : State := (s.raise Fld.CFG_NVM_EVENTS_FLASH_FAIL).event Ev.FLASH_FAIL 0

/-! ## Compaction (R403, Table 13-12, R406) -/

/-- Compaction begins: its step 1. -/
def State.startCompaction (s : State) : State :=
  if s.jrn.compaction.isSome ∨ s.jrn.fail then s
  else
    (({ s with jrn := { s.jrn with compaction := some ⟨1, [], 0⟩ } }).setFld Fld.JRN_STATUS_COMPACTING 1).pushOp .compactStep 3

/-- The latest record of a kind in a list. -/
def latest (p : JRec → Bool) (l : List JRec) : List JRec := ((l.filter p).getLast?).toList

/-- The snapshot: SNAP_BEGIN, a copy of each defect list entry, the latest LICENCE and IMAGE records. A defect that no
record holds is recorded by its copy (R402). -/
def State.snapshot (s : State) : List JRec :=
  let all := goodOf (s.jseg s.activeSeg) ++ s.jrn.queue
  let copy := fun (d : Defect) =>
    match all.find? (fun r => r.type = JT.DEFECT && r.defect.kind = d.kind && r.defect.unit = d.unit) with
    | some r => { r with snap := true }
    | none => { s.segRec JT.DEFECT (d.kind + d.origin * 2 ^ 8 + d.unit.toNat * 2 ^ 16 + d.cause * 2 ^ 64) with snap := true }
  let cfg := fun k => (latest (fun r => r.type = JT.CONFIG && r.configKind = k) all).map (fun r => { r with snap := true })
  s.segRec JT.SNAP_BEGIN (s.fld Fld.JRN_SEG_GEN_GEN + s.jrn.defects.length * 2 ^ 32)
    :: s.jrn.defects.map copy ++ cfg 1 ++ cfg 2

/-- COMMIT of a snapshot: how many records, their CRC, the generation it supersedes. -/
def State.commitRec (s : State) (snap : List JRec) : JRec :=
  s.segRec JT.COMMIT (snap.length + crc32c (snap.flatMap JRec.bytes) * 2 ^ 32 + s.fld Fld.JRN_SEG_GEN_GEN * 2 ^ 64)

def State.setCompaction (s : State) (c : Option Compaction) : State := { s with jrn := { s.jrn with compaction := c } }

/-- The new segment is active. -/
def State.commitSeg (s : State) : State :=
  let k := 1 - s.activeSeg
  let snap := (goodOf (s.jseg k)).drop 1
  let s := s.setSeg k (s.jseg k ++ [.good (s.commitRec snap)])
  let s := { s with jrn := { s.jrn with ended := false, failedOnce := false, defectsPending := [] } }
  let s := (s.setFld Fld.JRN_STATUS_ACTIVE k).setFld Fld.JRN_SEG_GEN_GEN (s.fld Fld.JRN_SEG_GEN_GEN + 1)
  ((s.raise Fld.JRN_EVENTS_COMPACTED).setFld Fld.JRN_STATUS_DEFECT_PENDING 0).syncFill

/-- A step of the compaction is done. -/
def State.compactDone (s : State) (o : FlashOp) (c : Compaction) : State :=
  let t := 1 - s.activeSeg
  let again := { o with failedOnce := false }
  match c.phase with
  | 1 => ((s.setSeg t []).setCompaction (some { c with phase := 2 })).swapOp o again
  | 2 =>
    let s := s.setSeg t [.good (s.segHead (s.fld Fld.JRN_SEG_GEN_GEN + 1))]
    (s.setCompaction (some { c with phase := 3, todo := s.snapshot })).swapOp o again
  | 3 =>
    let s := s.setSeg t (s.jseg t ++ (c.todo.take 4).map .good)
    let todo := c.todo.drop 4
    (s.setCompaction (some ⟨if todo = [] then 4 else 3, todo, c.written + min 4 c.todo.length⟩)).swapOp o again
  | 4 => ((s.commitSeg).setCompaction (some { c with phase := 6 })).swapOp o ⟨.segErase (1 - t), 3, false⟩
  | _ => s.dropOp o

/-- The target fails as well: FAIL (R406). -/
def State.compactFail (s : State) : State :=
  let s := (s.setCompaction none).setFld Fld.JRN_STATUS_COMPACTING 0
  let s := { s with jrn := { s.jrn with fail := true } }
  (s.raise Fld.JRN_EVENTS_FAIL).event Ev.JOURNAL_FAIL 0

/-- An erase of a segment ends; a compaction's step 6 ends the compaction. -/
def State.eraseEnds (s : State) : State :=
  match s.jrn.compaction with
  | some c => if c.phase = 6 then (s.setCompaction none).setFld Fld.JRN_STATUS_COMPACTING 0 else s
  | none => s

/-! ## Programming the queue (R402, R404) -/

/-- Whether records may be appended: in READY, to a segment that has not ended and no erase of which is due, outside steps
3 and 4. -/
def State.mayAppend (s : State) : Bool :=
  s.ready && !s.jrn.ended && !s.flash.ops.any (fun o => o.kind = .segErase s.activeSeg)
    && (match s.jrn.compaction with
    | some c => decide (c.phase ≤ 2) || decide (4 < c.phase)
    | none => true)

/-- Records of the next page operation: up to four, inside the page and the segment. -/
def State.pageRecs (s : State) : List JRec :=
  let n := (s.jseg s.activeSeg).length
  s.jrn.queue.take (min (4 - n % 4) (segSlots - n))

/-- The page operation succeeds; a new journal first receives its SEG_HEAD. -/
def State.pageDone (s : State) : State :=
  let k := s.activeSeg
  if s.jseg k = [] then (s.setSeg k [.good (s.segHead (s.fld Fld.JRN_SEG_GEN_GEN))]).syncFill
  else
    let rs := s.pageRecs
    let s := s.setSeg k (s.jseg k ++ rs.map .good)
    { s with jrn := { s.jrn with queue := s.jrn.queue.drop rs.length, failedOnce := false } }.syncFill

/-- The page operation fails: it is repeated once, and a second failure ends the segment. -/
def State.pageFails (s : State) : State :=
  if s.jrn.failedOnce then
    (({ s with jrn := { s.jrn with failedOnce := false, ended := true } }).flashFail).startCompaction
  else { s with jrn := { s.jrn with failedOnce := true } }

/-! ## NVM_WRITE (R392, R394, R395, Table 13-7) -/

/-- A bank whose content an erase or a cut-short write has destroyed. -/
def tornBank : Image := ⟨0#32, 0, 0, 0, 0, 0, 0#64, false, false, []⟩

def State.bank (s : State) (k : Nat) : Option Image := if k = 0 then s.flash.bankA else s.flash.bankB

def State.setBank (s : State) (k : Nat) (i : Option Image) : State :=
  { s with flash := if k = 0 then { s.flash with bankA := i } else { s.flash with bankB := i } }

def State.setBankResult (s : State) (k code : Nat) : State :=
  if k = 0 then s.setFld Fld.CFG_BANK_STAT_A_RESULT code else s.setFld Fld.CFG_BANK_STAT_B_RESULT code

/-- The hash of an image's device section. -/
def deviceHash (i : Image) : Option (BitVec 384) := (i.sections.head?).map (fun x => x.hash)

/-- The reload bank becomes another (R392). -/
def State.setReloadBank (s : State) (k gen : Nat) : State :=
  if s.fld Fld.CFG_IMAGE_RELOAD_BANK = k then s
  else ((s.setFld Fld.CFG_IMAGE_RELOAD_BANK k).setFld Fld.CFG_RELOAD_GEN_RELOAD_GEN gen).raise Fld.CFG_NVM_EVENTS_RELOAD_MOVED

/-- The target's content is lost, and the reload bank reverts where it is the target. -/
def State.clearTarget (s : State) (r : NvmRun) : State :=
  match r.content with
  | .image _ =>
    let s := (s.setBank r.target (some tornBank)).setBankResult r.target BR.WRITING
    if s.fld Fld.CFG_IMAGE_RELOAD_BANK = r.target ∧ ¬ s.flag Fld.CFG_IMAGE_RECOVERY then
      s.setReloadBank (s.fld Fld.CFG_IMAGE_START_BANK) (s.fld Fld.CFG_IMAGE_GEN_START_GEN)
    else s
  | .licences _ => { s with flash := { s.flash with licences := [] } }

/-- An NVM_WRITE begins on the flash: NVM_BUSY, and the erase of its target. -/
def State.nvmBegin (s : State) (r : NvmRun) : State :=
  ((s.setFld Fld.CFG_IMAGE_NVM_BUSY 1).clearTarget r).pushOp (.erase r.target) 3

/-- The NVM_WRITE in front ends with a status; the next begins. -/
def State.nvmEnd (s : State) (r : NvmRun) (status : Nat) : State :=
  let s := { s with flash := { s.flash with nvm := s.flash.nvm.drop 1 } }
  let s := if status = St.OK then s.raise Fld.CFG_NVM_EVENTS_NVM_DONE else s.raise Fld.CFG_NVM_EVENTS_NVM_FAIL
  let s := (s.complete r.sq r.cid status).jrnConfig 4 1 (r.target + status * 2 ^ 8)
  match s.flash.nvm with
  | [] => s.setFld Fld.CFG_IMAGE_NVM_BUSY 0
  | r' :: _ => s.nvmBegin r'

/-- The target holds the content written; DEV_DIFFERS compares a bank's device section with the one in use. -/
def State.fillTarget (s : State) (r : NvmRun) : State :=
  match r.content with
  | .licences l => { s with flash := { s.flash with licences := l } }
  | .image i =>
    let s := (s.setBank r.target (some i)).setBankResult r.target BR.VERIFIED
    match s.flash.startImage with
    | none => s
    | some st =>
      if deviceHash i = deviceHash st then (s.setReloadBank r.target i.gen).setFld Fld.CFG_IMAGE_DEV_DIFFERS 0
      else s.raise Fld.CFG_IMAGE_DEV_DIFFERS

/-- Programming and read-back are done. -/
def State.nvmDone (s : State) (r : NvmRun) : State := (s.fillTarget r).nvmEnd r St.OK

/-- The target of a write cut short fails verification. -/
def State.nvmTorn (s : State) (r : NvmRun) : State :=
  match r.content with
  | .image _ => s.setBankResult r.target BR.HEADER
  | .licences _ => s

/-- Every NVM_WRITE ends at a reset (R394, R430); their commands end as the reset ends commands. -/
def State.nvmAbort (s : State) : State :=
  match s.flash.nvm with
  | [] => s
  | r :: _ =>
    let keep := fun (o : FlashOp) => match o.kind with
      | .erase _ => false
      | .program _ => false
      | .readBack _ => false
      | _ => true
    let s := s.nvmTorn r
    ({ s with flash := { s.flash with nvm := [], ops := s.flash.ops.filter keep } }.raise
      Fld.CFG_NVM_EVENTS_NVM_FAIL).setFld Fld.CFG_IMAGE_NVM_BUSY 0

/-! ## An operation ends -/

/-- A second failure of an operation (R379), as its own rule states. -/
def State.opLost (s : State) (o : FlashOp) : State :=
  let s := (s.dropOp o).flashFail
  match o.kind with
  | .reload _ => s
  | .compactStep => s.compactFail
  | .segErase _ => s.eraseEnds
  | _ =>
    match s.flash.nvm with
    | r :: _ => (s.nvmTorn r).nvmEnd r St.FAULT
    | [] => s

/-- An operation succeeds. -/
def State.opDone (s : State) (o : FlashOp) : State :=
  match o.kind with
  | .reload _ => s.dropOp o
  | .erase t => s.swapOp o ⟨.program t, 3, false⟩
  | .program t => s.swapOp o ⟨.readBack t, 3, o.failedOnce⟩
  | .readBack _ =>
    let s := s.dropOp o
    (match s.flash.nvm with
      | r :: _ => s.nvmDone r
      | [] => s)
  | .segErase k => ((s.dropOp o).setSeg k []).eraseEnds
  | .compactStep =>
    match s.jrn.compaction with
    | some c => s.compactDone o c
    | none => s.dropOp o

/-- An operation fails: repeated once; a read-back repeats the programming. -/
def State.opFails (s : State) (o : FlashOp) : State :=
  if o.failedOnce then s.opLost o
  else
    match o.kind with
    | .reload _ => s.dropOp o
    | .readBack t => s.swapOp o ⟨.program t, 3, true⟩
    | _ => s.swapOp o { o with failedOnce := true }

end Sys2Proof.Machine
end

