-- ==== Sys2Proof/Machine/LedgerOps.lean ====
section
/-! DEFINITION. The ledger at work (07_kv_ledger.md R205, R210 to R213, R218, R219, R225): placing rows, copies, forks,
resumes, the row that exits. -/

namespace Sys2Proof.Machine

/-! ## Copies (R218, R219) -/

/-- A copy begins: SOURCE on the old page, the copy counted. -/
def State.startCopy (s : State) (n page : Nat) (old : PageEntry) (new upto : Nat) (fork : Bool) : State :=
  let k : KvCopy := ⟨s.kvl.nextCopy, n, page, old.unit, new, old.cls, upto, fork⟩
  let s := { s with kvl := { s.kvl with copies := s.kvl.copies ++ [k], nextCopy := s.kvl.nextCopy + 1 } }
  s.incFld Fld.KVL_COUNTS_COPIES

/-- Copy on write (R219): the reference to the old page is dropped at the decision. -/
def State.copyOnWrite (s : State) (n page : Nat) (e : PageEntry) (new upto : Nat) : State :=
  let r := s.pageRef e.unit
  let s := s.setRef e.unit { r with refs := r.refs - 1, source := r.source + 1 }
  ((s.startCopy n page e new upto false).raise Fld.KVL_EVENTS_COPY).syncKv

/-- Page i of a sequence takes another block. -/
def State.setPage (s : State) (n i u : Nat) : State :=
  s.modSeq n (fun q => { q with pages := q.pages.zipIdx.map (fun (e : PageEntry × Nat) =>
    if e.2 = i then { e.1 with unit := u } else e.1) })

/-! ## The next row of a sequence (R210, R213) -/

/-- The command whose tokens are placed next: of those with tokens left, the first to start. -/
def State.rowCmd (s : State) (n : Nat) : Option Cmd :=
  (s.host.cmds.filter (fun c => c.rowSeq = some n && c.stage = .running && decide (c.placed < c.rows) && !c.late)).foldl
    (fun (m : Option Cmd) c => match m with
      | some x => if c.since < x.since then some c else m
      | none => some c) none

/-- The next row: its command and, for a supplied one, its token's index; a held fed-back row comes first. -/
structure NextRow where
  cmd : Cmd
  fed : Bool
  token : List Byte
deriving DecidableEq, Repr

def State.nextRow (s : State) (n : Nat) (q : Seq) : Option NextRow :=
  match q.fed with
  | some (t, uid) => (s.cmdU uid).map (fun c => ⟨c, true, leBytes 4 t⟩)
  | none => (s.rowCmd n).map (fun c => ⟨c, false, getBytes s.host.mem (c.f 4 63 0 + 4 * c.placed) 4⟩)

/-- A position is made writable (R210): the new state, and whether it is so now. -/
def State.writable (s : State) (n : Nat) (q : Seq) (w : LWait) : State × Bool :=
  let i := q.pageOf (s.shape q.pipe) q.resv
  match q.pages[i]? with
  | some e =>
    if (s.pageRef e.unit).refs ≤ 1 then (s, true)
    else if (s.pageRef e.unit).poison then (s.faultSeq n, false)
    else
      (match s.takePage e.cls with
        | none => (s.waitFor w, false)
        | some (u, s) => ((s.endWait n).copyOnWrite n i e u q.resv, false))
  | none =>
    match s.takePage (q.pageClass i) with
    | none => (s.waitFor w, false)
    | some (u, s) =>
      (((s.endWait n).modSeq n (fun q => { q with pages := q.pages ++ [⟨u, q.pageClass i, false, 0#32⟩] })).syncKv, true)

/-- The row enters its forming block: RESV follows (R210). -/
def State.enterRow (s : State) (n : Nat) (q : Seq) (x : NextRow) : State :=
  let r : RowDesc := ⟨true, false, false, b2n x.fed, n, q.resv, x.cmd.origin, x.cmd.uid, x.cmd.nextIndex⟩
  let bytes := x.token ++ List.replicate (s.inBytes q.pipe - 4) 0#8
  let s := s.placeRow q.pipe q.cls none r (bytes.take (s.inBytes q.pipe))
  let s := s.modSeq n (fun q => { q with resv := q.resv + 1, fed := if x.fed then none else q.fed })
  s.modCmdU x.cmd.uid (fun c => { c with nextIndex := c.nextIndex + 1, placed := if x.fed then c.placed else c.placed + 1 })

/-- A row at or beyond MAX_LEN is never placed (R210). -/
def State.beyondMax (s : State) (n : Nat) (x : NextRow) : State :=
  if x.fed then
    let s := s.modSeq n (fun q => { q with fed := none, genLeft := if q.gen = some x.cmd.uid then 0 else q.genLeft })
    (s.modCmdU x.cmd.uid (fun c => { c with late := true })).checkSeqCmd x.cmd.uid
  else s.endSeqCmd x.cmd.uid St.NO_RESOURCE

/-- Whether rows of a sequence may be placed: OPEN, whole, and no copy of its own running. -/
def State.placing (s : State) (n : Nat) (q : Seq) : Bool :=
  q.state = 1 && q.list.isSome && q.fork.isNone && !s.kvl.copies.any (fun k => k.seq = n)

/-- The next row of a sequence is placed, waits for blocks, or is refused (R184, R210, R211). -/
def State.placeNext (s : State) (n : Nat) : State :=
  match s.seq? n with
  | none => s
  | some q =>
    if ¬ s.placing n q then s
    else
      match s.nextRow n q with
      | none => s
      | some x =>
        if s.flag (Fld.PPL_PART_STAT_DEGRADED q.pipe) then s.endSeqCmd x.cmd.uid St.FAULT
        else if q.maxLen ≤ q.resv then s.beyondMax n x
        else if ¬ s.roomFor q.pipe q.cls none then s
        else
          let (s, now) := s.writable n q ⟨if x.fed then .fedBack else .row, n, x.cmd.sq, x.cmd.cid⟩
          if now then (s.enterRow n q x).dmaIn (if x.fed then 0 else 4) else s

/-! ## List pages and forks (R205, R218) -/

/-- A sequence just opened takes its list page, or waits. -/
def State.openList (s : State) (n sq cid : Nat) : State :=
  match s.takeList with
  | none => s.waitFor ⟨.list, n, sq, cid⟩
  | some (u, s) => ((s.endWait n).modSeq n (fun q => { q with list := some u })).syncKv

/-- The copies a fork still needs, one block each; the fuel is their number. -/
def State.forkCopies : Nat → State → Nat → Nat → Nat → State
  | 0, s, _, _, _ => s
  | k + 1, s, n, sq, cid =>
    match s.seq? n with
    | none => s
    | some q =>
      match q.fork with
      | none => s
      | some [] => (s.endWait n).setSeq n { q with fork := none }
      | some (e :: t) =>
        match s.takePage e.cls with
        | none => s.waitFor ⟨.fork, n, sq, cid⟩
        | some (u, s) =>
          let i := q.pages.idxOf e
          let s := (s.startCopy n i e u q.len true).raise Fld.KVL_EVENTS_REF_SAT
          let s := (s.setPage n i u).modSeq n (fun q => { q with fork := some t })
          State.forkCopies k s n sq cid

/-- A fork goes on: its list page, then the pages it copies. -/
def State.forkOn (s : State) (n sq cid : Nat) : State :=
  match s.seq? n with
  | none => s
  | some q =>
    let s := match q.list with
      | some _ => s
      | none =>
        (match s.takeList with
          | none => s.waitFor ⟨.fork, n, sq, cid⟩
          | some (u, s) => (s.endWait n).modSeq n (fun q => { q with list := some u }))
    if ((s.seq? n).bind (fun q => q.list)).isNone then s
    else (State.forkCopies ((q.fork.getD []).length + 1) s n sq cid).syncKv

/-- A child shares the pages of its parent: REFS rises, or SOURCE holds a page that it will copy. -/
def State.sharePages (s : State) (es : List PageEntry) : State × List PageEntry :=
  es.foldl (fun (acc : State × List PageEntry) e =>
    let r := acc.1.pageRef e.unit
    if r.refs < 65535 then (acc.1.setRef e.unit { r with refs := r.refs + 1 }, acc.2)
    else (acc.1.holdSource e.unit, acc.2 ++ [e])) (s, [])

/-- A sequence that never came to be is FREE again (R205, R218); other commands that name it meet it so (R227). -/
def State.undoOpen (s : State) (n : Nat) : State :=
  let mine := s.kvl.copies.filter (fun k => k.seq = n)
  let s := { s with kvl := { s.kvl with copies := s.kvl.copies.filter (fun k => k.seq ≠ n) } }
  let s := mine.foldl (fun s k => s.dropSource k.old) s
  let s := (s.dropFork n).releaseSeq n
  (s.host.cmds.filter (fun c => c.rowSeq = some n && c.stage = .running)).foldl (fun s c => s.completeU c.uid St.STATE 0 0) s

/-! ## Resume (R225) -/

/-- Every block of a resume is held: RESUMING. -/
def State.startResume (s : State) (n : Nat) (sq cid : Nat) (l : List (Nat × Nat)) (f : Tab Nat) : State :=
  let s := { s with kvl := { s.kvl with free := f } }
  let others := s.kvl.waits.filter (fun w => w.seq = n && !(w.sq = sq && w.cid = cid))
  let s := (s.endWait n).modSeq n (fun q => { q with state := 4, taken := l, waitCmd := some (sq, cid) })
  let s := (s.modCmd sq cid (fun c => { c with stage := .running })).updDefer
  (others.foldl (fun s w => s.complete w.sq w.cid St.STATE 0 4) s).syncKv

/-- Whether a pre-emption may still give a resume its blocks. -/
def State.mayReclaim (s : State) (q : Seq) : Bool := s.kvl.victim.isSome || (s.chooseVictim q).isSome

/-- A resume that waits without DEFER ends at once when no pre-emption can give its blocks. -/
def State.resumeFails (s : State) (n : Nat) (q : Seq) (sq cid : Nat) : State :=
  match s.cmd? sq cid with
  | some c =>
    if c.stage = .deferred ∨ s.mayReclaim q then s
    else ((s.endWait n).complete sq cid St.NO_RESOURCE q.len)
  | none => s.endWait n

/-- The blocks of a resume are taken, or it waits. -/
def State.tryResume (s : State) (n sq cid : Nat) : State :=
  match s.seq? n with
  | none => s
  | some q =>
    if q.state ≠ 3 then s
    else
      match buddyTakeAll s.kvl.free (q.pages.map (·.cls)) with
      | some (l, f) => s.startResume n sq cid l f
      | none => s.resumeFails n q sq cid

/-! ## Waits are retried (R211) -/

/-- One wait is tried again. -/
def State.retryWait (s : State) (w : LWait) : State :=
  if ¬ s.kvl.waits.contains w then s
  else
    match w.kind with
    | .list =>
      let s := s.openList w.seq w.sq w.cid
      (match s.cmd? w.sq w.cid with
        | some c => s.checkSeqCmd c.uid
        | none => s)
    | .fork =>
      let s := s.forkOn w.seq w.sq w.cid
      (match s.cmd? w.sq w.cid with
        | some c => s.checkSeqCmd c.uid
        | none => s)
    | .row => s.placeNext w.seq
    | .fedBack => s.placeNext w.seq
    | .resume => s.tryResume w.seq w.sq w.cid

/-- Every wait is tried again, in order; then a victim is sought. -/
def State.retryAll (s : State) : State := (s.kvl.waits.foldl (fun s w => s.retryWait w) s).reclaim

/-! ## A row exits (R212, R213, R368) -/

/-- LEN advances over the run of positions that have exited validly. -/
def advanceLen : Nat → Nat → List (Nat × Nat) → Nat × List (Nat × Nat)
  | 0, len, l => (len, l)
  | k + 1, len, l =>
    if l.any (fun p => p.1 = len) then advanceLen k (len + 1) (l.filter (fun p => p.1 ≠ len)) else (len, l)

/-- The words of an exit record (Table 12-11) and its payload of PLEN bytes. -/
def recWords (r : RowDesc) (plen32 : Nat) (x : ExitRec) : List W64 :=
  [BitVec.ofNat 64 (r.seq * 2 ^ 48 + r.pos * 2 ^ 30 + r.kind * 2 ^ 28 + b2n x.last * 2 ^ 27 + b2n x.hasToken * 2 ^ 26
      + plen32 * 2 ^ 19),
    BitVec.ofNat 64 (x.token % 2 ^ 32 * 2 ^ 32 + r.index % 2 ^ 32), BitVec.ofNat 64 (r.origin % 2 ^ 22), 0#64]
  ++ (List.range (4 * plen32)).map (fun i => x.payload.getD i 0#64)

/-- The next token of a generating sequence (R213). -/
def State.feedBack (s : State) (n : Nat) (r : RowDesc) (x : Option ExitRec) : State :=
  match s.seq? n with
  | none => s
  | some q =>
    match q.gen.bind s.cmdU with
    | none => s
    | some c =>
      if c.uid ≠ r.uid ∨ c.placed ≠ c.rows ∨ r.pos + 1 ≠ q.resv ∨ q.genLeft = 0 ∨ q.fed.isSome then s
      else
        match x with
        | some x =>
          if x.hasToken && !x.last then
            s.setSeq n { q with genLeft := q.genLeft - 1, fed := some (x.token % 2 ^ 32, c.uid) }
          else s.setSeq n { q with genLeft := 0 }
        | none => s.setSeq n { q with genLeft := 0 }

/-- A row counts as exited validly for its command, with its record. -/
def State.countExit (s : State) (r : RowDesc) (plen32 : Nat) (x : Option ExitRec) : State :=
  s.modCmdU r.uid (fun c => { c with exited := c.exited + 1, valid := c.valid + 1,
                                     recs := match x with
                                       | some x => c.recs ++ [(r.index, recWords r plen32 x)]
                                       | none => c.recs })

/-- A row of a sequence exits validly: LEN follows, whatever the state (R212); a command still open counts it. -/
def State.seqExit (s : State) (r : RowDesc) (plen32 : Nat) (x : Option ExitRec) : State :=
  match s.seq? r.seq with
  | none => s
  | some q =>
    let (len, ex) := advanceLen (q.exited.length + 1) q.len (q.exited ++ [(r.pos, r.uid)])
    let s := s.setSeq r.seq { q with len := len, exited := ex }
    if q.state ≠ 1 then s
    else
      (((s.countExit r plen32 x).feedBack r.seq r x).checkSeqCmd r.uid).syncKv

end Sys2Proof.Machine
end

