-- ==== Sys2Proof/Machine/Pipeline.lean ====
section
/-! DEFINITION. The pipeline's commands: rows, blocks, the mesh, sweeps, stage operations, exits, role moves
(06_pipeline.md R169 to R184; 07_kv_ledger.md R210, R212, R213). -/

namespace Sys2Proof.Machine

/-! ## Rows (R175, R210) -/

/-- ROW_PLACE (R175, R193, R210): the next row of a command's sequence, or the held fed-back row; rows of a pipeline
command enter as their forming block has room. -/
def execRowPlace (src : RowSource) (s : State) : Host.Outcome State Fault Refusal :=
  .next (match src with
    | .command sq cid =>
      (match s.cmd? sq cid with
        | none => s
        | some c =>
          if c.stage ≠ .running then s
          else
            match c.pipeRows, c.rowSeq with
            | some p, _ => s.feedPipe p
            | none, some n =>
              (match (s.seq? n).bind (s.nextRow n) with
                | some x => if ¬ x.fed ∧ x.cmd.uid = c.uid ∧ ¬ s.kvl.waits.any (fun w => w.seq = n) then (s.placeNext n).noteConds
                    else s
                | none => s)
            | none, none => s)
    | .fedBack n =>
      (match (s.seq? n).bind (s.nextRow n) with
        | some x => if x.fed ∧ ¬ s.kvl.waits.any (fun w => w.seq = n) then (s.placeNext n).noteConds else s
        | none => s))

/-- FILL_TIMEOUT_EXPIRY (R175): the condition of a forming block with a timeout of its own is met. -/
def execFillTimeoutExpiry (pipe cls : Nat) (s : State) : Host.Outcome State Fault Refusal :=
  .next (match s.form? pipe cls with
    | some f =>
      if f.train.isNone ∧ f.cond.isNone ∧ f.timeout ≠ 0 then s.setForm pipe cls { f with cond := some s.now } else s
    | none => s)

/-! ## The entry (R176) -/

/-- A forming block closes into the entry queue. -/
def State.closeForm (s : State) (pipe cls : Nat) (f : Forming) : State :=
  let s := s.setEntries pipe (s.entries pipe ++ [s.closedBlock pipe cls f])
  let s := { s with ppl := { s.ppl with forming := tabErase s.ppl.forming (formKey pipe cls) } }
  match f.train, s.train? pipe with
  | some _, some t => s.setTrain pipe { t with closed := t.closed + 1 }
  | _, _ => s

/-- Whether the run of consecutive positions that a forming block ends with goes on: the next row of its last row's sequence
can enter it (R175). -/
def State.runGoesOn (s : State) (pipe cls : Nat) (f : Forming) : Bool :=
  match f.rows.getLast? with
  | none => false
  | some (r, _) =>
    match s.seq? r.seq with
    | none => false
    | some q =>
      decide (r.kind ≤ 1) && decide (f.rows.length < 128) && q.pipe = pipe && q.cls = cls && q.resv = r.pos + 1
        && decide (q.resv < q.maxLen) && s.placing r.seq q && (s.nextRow r.seq q).isSome
        && !s.kvl.waits.any (fun w => w.seq = r.seq) && !s.flag (Fld.PPL_PART_STAT_DEGRADED pipe)

/-- BLOCK_CLOSE (R175, R176): in the order in which conditions were met, into a free place, and never between two rows of a
run that has room; waiting rows then form anew. -/
def execBlockClose (pipe cls : Nat) (s : State) : Host.Outcome State Fault Refusal :=
  let s' := s.noteConds
  .next (match s'.form? pipe cls with
    | some f =>
      (match f.cond with
        | some t =>
          if (s'.entries pipe).length < 4 ∧ s'.firstToClose pipe cls t ∧ ¬ s'.runGoesOn pipe cls f then (s'.closeForm pipe cls f).feedPipe pipe else s
        | none => s)
    | none => s)

/-- A block takes its HANDLE, ENTRY_TB and generation vector. -/
def State.stamped (s : State) (b : Block) : Block :=
  { b with handle := BitVec.ofNat 64 s.ppl.nextHandle, entryTb := s.now, genv := (List.range 8).map s.partGen }

/-- Work queued for a cluster in Q2 wakes it (Table 15-5). -/
def State.wakeFor (s : State) (c : Nat) : State := s.requestWake c

/-- A block enters a reserved entry of a cluster (R171, R178). -/
def State.enter (s : State) (c : Nat) (b : Block) (isSenior : Bool) : State :=
  (s.enqueue c b (((s.cluster c).entryFor isSenior b.handle).getD false)).wakeFor c

/-- A block leaves the entry for its first step. -/
def State.leaveEntry (s : State) (pipe : Nat) (b : Block) (t : List Block) : State :=
  let b := s.stamped b
  match s.routeOf b with
  | none => s
  | some r =>
    if s.stepLost (rtCmask r) then (s.setEntries pipe t).looseFault pipe b.rows
    else
      let isSenior := s.seniorHandle.isNone
      match s.chooseCluster b (rtCmask r) isSenior none with
      | none => s
      | some c =>
        let s := s.setEntries pipe t
        ({ s with ppl := { s.ppl with nextHandle := s.ppl.nextHandle + 1 } }).enter c b isSenior

/-- BLOCK_LEAVE_ENTRY (R169, R176, R185): the oldest closed block, while entry hold is not in force. -/
def execBlockLeaveEntry (pipe : Nat) (s : State) : Host.Outcome State Fault Refusal :=
  .next (match s.entries pipe with
    | [] => s
    | b :: t => if s.entryHeld pipe then s else s.leaveEntry pipe b t)

/-! ## The stream network (R169 to R172, R177, R178) -/

/-- A block that has completed its step moves to a cluster of its next that the mesh reaches (R170). -/
def State.moveBlock (s : State) (c : Nat) (e : QEntry) (r : W64) : State :=
  let h := e.block.handle
  if s.stepLost (rtCmask r) then s.blockFault h
  else
    let isSenior := s.seniorHandle = some h.toNat
    match s.chooseCluster e.block (rtCmask r) isSenior (some c) with
    | none => s
    | some d =>
      let senior := ((s.cluster d).entryFor isSenior h).getD false
      (((s.dequeue c h).enqueue d e.block senior)).wakeFor d

/-- BLOCK_TRANSFER (R169, R171, R177, R184): credit, handshakes and the end of the sender's entry; a block retained by a
retired cluster without a reserve moves to another cluster of its step. -/
def execBlockTransfer (handle : W64) (s : State) : Host.Outcome State Fault Refusal :=
  .next (match s.entryOf handle with
    | none => s
    | some (c, e) =>
      if (e.done || (!s.clusterUp c && !s.moving? c)) && e.exits.isEmpty then
        (match s.routeOf e.block with
          | some r => s.moveBlock c e r
          | none => s)
      else s)

/-- A mesh link is retired, and with it a cluster left with no usable link. -/
def State.retireLink (s : State) (link : Nat) : State :=
  let s := s.setBit Fld.PPL_MESH_RETIRED link
  let s := (s.eventReg Ev.MESH_LINK_RETIRED link Off.PPL_MESH Ev.MESH_LINK_RETIRED).addDefect 0x0A link Ev.MESH_LINK_RETIRED
  ((List.range 16).filter (fun c => (linksOf c).all (fun l => s.fbit Fld.PPL_MESH_RETIRED l))).foldl
    (fun s c => s.retireCluster c Ev.MESH_LINK_RETIRED) s

/-- MESH_HANDSHAKE_PARITY_ERROR (R172): counted where the repeat passes, else the link is retired. -/
def execMeshHandshakeParityError (link : Nat) (repeatFails : Bool) (s : State) : Host.Outcome State Fault Refusal :=
  .next (if 24 ≤ link ∨ s.fbit Fld.PPL_MESH_RETIRED link then s
    else if repeatFails then s.retireLink link
    else s.incFld Fld.PPL_MESH_RETRY)

/-! ## Sweeps (R179 to R181, R441) -/

/-- Whether a cluster may start an operation now. -/
def State.mayOperate (s : State) (c : Nat) : Bool :=
  decide (c < 16) && s.clusterUp c && (s.region c = RS.Q1 || s.region c = RS.A) && !s.paused c
    && !(s.cluster c).queue.any (fun e => e.sweep)

/-- L1 of every tile of a cluster is dropped at its first block of a new generation, the one in force (R118, R187). -/
def State.firstRun (s : State) (c gen : Nat) : State :=
  if (s.cluster c).runGen = gen ∨ gen ≠ s.partGen (s.partOf c) then s
  else
    let s := (List.range 16).foldl (fun s p => s.setTile c p (s.tile c p).invalL1) s
    s.modCluster c (fun k => { k with runGen := gen })

/-- The sweep starts: its blocks, the region in A. -/
def State.sweepOn (s : State) (c : Nat) : State :=
  match s.nextSweep c with
  | [] => s.modCluster c (fun k => { k with noticeAt := none })
  | e :: t =>
    let hs := (e :: t).map (fun x => x.block.handle)
    let s := (e :: t).foldl (fun s x => s.firstRun c (x.block.genOf (s.partOf c))) s
    let s := s.modCluster c (fun k => { k with noticeAt := none, queue := k.queue.map (fun (x : QEntry) =>
      if hs.contains x.block.handle then { x with sweep := true } else x) })
    s.setRegion c RS.A

/-- SWEEP_START (R179 to R181): the oldest eligible blocks of one step; a planned level that needs notice waits for it.
The level that the scheduler plans is left open: a free value from 1 to 8. -/
def execSweepStart (c : Nat) (s : State) : Host.Outcome State Fault Refusal :=
  .next (if ¬ s.mayOperate c ∨ (s.cluster c).noticeAt.isSome ∨ (s.nextSweep c).isEmpty then s
    else
      let (s, l) := s.fresh 8
      let wait := s.needsNotice c (l + 1)
      let s := s.setLevel c (l + 1)
      if wait then s.modCluster c (fun k => { k with noticeAt := some s.now }) else s.sweepOn c)

/-- LOAD_NOTICE_ELAPSED (R181, R441): the work that waited starts. -/
def execLoadNoticeElapsed (c : Nat) (s : State) : Host.Outcome State Fault Refusal :=
  .next (if (s.cluster c).noticeAt.isSome ∧ s.mayOperate c then
      (if s.fld (Fld.PPL_STAGE_ROLE c) = 8 then (s.startRound c).syncBelt else s.sweepOn c)
    else s)

/-! ## A stage operation ends (R100, R179, R183, R195) -/

/-- The elements that a KVPUT writes (R202, R215): address, bytes. -/
def Shape.putRuns (h : Shape) (base tpp f layer p : Nat) (src : List Byte) : List (Nat × List Byte) :=
  let part := h.heads * tpp * h.dim * h.e
  let at' := base + layer * tpp * h.tl
  let row := fun (x : Nat) => (src.drop (x * h.dim * h.e)).take (h.dim * h.e)
  let k := if h.dimMajor then
      (List.range (h.heads * h.dim)).map (fun y => (at' + (y * tpp + p - f) * h.e, (src.drop (y * h.e)).take h.e))
    else (List.range h.heads).map (fun x => (at' + (x * tpp + p - f) * h.dim * h.e, row x))
  k ++ (List.range h.heads).map (fun x => (at' + part + (x * tpp + p - f) * h.dim * h.e, row (h.heads + x)))

/-- The page of a position: its entry, first position and base address. -/
def State.pageOfPos (s : State) (q : Seq) (pos : Nat) : Option (PageEntry × Nat × Nat) :=
  let h := s.shape q.pipe
  let i := q.pageOf h pos
  (q.pages[i]?).map (fun e => (e, q.pageFirst h i, s.unitAddr e.unit))

/-- The ledger writes a released KVPUT. -/
def State.writeKv (s : State) (seq pos layer : Nat) (src : List Byte) : State :=
  match s.seq? seq with
  | none => s
  | some q =>
    match s.pageOfPos q pos with
    | none => s
    | some (e, f, base) =>
      let h := s.shape q.pipe
      (h.putRuns base (h.tpp e.cls) f layer pos src).foldl (fun s r => s.devWrite r.1 r.2) s

/-- A released commit entry: an in-cache reduction is sent, a KVPUT is written. -/
def State.releaseCommit (s : State) (k : Commit) : State :=
  match k.op with
  | .kvput seq pos layer bytes => s.writeKv seq pos layer bytes
  | .red r => s.submit ⟨.reduce, r⟩

/-- The commit entries of a block on a cluster's tiles are released, in order. -/
def State.releaseBlock (s : State) (c : Nat) (h : W64) : State :=
  (List.range 16).foldl (fun (s : State) p =>
    let t := s.tile c p
    let mine := t.commit.filter (fun (k : Commit) => k.handle = h)
    let s := s.setTile c p { t with commit := t.commit.filter (fun (k : Commit) => k.handle ≠ h) }
    mine.foldl (fun s k => s.releaseCommit k) s) s

/-- A block's buffer and header after a step: what its kernels wrote, and the next (layer, step) or its exit. -/
def nextEntry (r : W64) (out : Option BlockOut) (e : QEntry) : QEntry :=
  let b := e.block
  let b := match out with
    | some o => { b with data := o.data.foldl (fun (m : Tab Byte) d => tabPut 0#8 m d.1 d.2) b.data,
                         carry := if o.carry.length = 3 then o.carry else b.carry }
    | none => b
  if rtExit r then { e with block := b, sweep := false, done := true, exits := List.range b.rows.length }
  else { e with block := { b with layer := b.layer + rtNextLayer r, step := rtNextStep r }, sweep := false, done := true }

/-- One block of the sweep ends its stage operation. -/
def State.blockDone (s : State) (c : Nat) (outs : List BlockOut) (e : QEntry) : State :=
  let h := e.block.handle
  let out := outs.find? (fun o => o.handle = h)
  let fault := match out with | some o => o.fault | none => false
  match s.routeOf e.block with
  | none => s
  | some r =>
    if fault then s.blockFault h
    else (((s.releaseBlock c h).incFld (Fld.PPL_STAGE_DONE_DONE c)).modEntry c h (nextEntry r out))

/-- Launches of a sweep still resident on a cluster. -/
def State.stillRuns (s : State) (c : Nat) (hs : List W64) : Bool :=
  (List.range 16).any (fun p => (s.tile c p).launches.any (fun l => hs.contains l.handle && !l.faulted))

/-- An operation of a stage that the belt feeds ends once its launches have: their commit entries are released (R100,
R165). -/
def State.releaseBelt (s : State) (c : Nat) : State :=
  if (List.range 16).any (fun p => !(s.tile c p).launches.isEmpty) then s
  else
    let hs := ((List.range 16).flatMap (fun p => (s.tile c p).commit.map (·.handle))).eraseDups
    hs.foldl (fun (s : State) h => s.releaseBlock c h) s

/-- STAGE_OPERATION_COMPLETE (R99, R100, R168, R177, R179, R183): every block of the sweep, once those that lost a tile have
been dispatched again; what the kernels wrote into block buffers is an operand. -/
def execStageOperationComplete (c : Nat) (outs : List BlockOut) (s : State) : Host.Outcome State Fault Refusal :=
  let sweep := (s.cluster c).queue.filter (fun (e : QEntry) => e.sweep)
  .next (if s.beltStage c then s.releaseBelt c
    else if sweep.isEmpty ∨ sweep.any (fun e => e.again) ∨ s.stillRuns c (sweep.map (fun e => e.block.handle)) then s
    else
      let s := sweep.foldl (fun s e => s.blockDone c outs e) s
      let s := s.modCluster c (fun k => { k with lastOp := s.now })
      (s.setRegion c RS.Q1).faultStuck)

/-! ## A row exits (R177, R198, R212) -/

/-- PLEN of a pipeline in units of 32 bytes. -/
def State.plen32 (s : State) (pipe : Nat) : Nat := match tabFind s.ppl.cfg pipe with | some g => g.plen32 | none => 0

/-- A row without a sequence exits: its command ends with its last. -/
def State.runExit (s : State) (r : RowDesc) (plen : Nat) (x : Option ExitRec) : State :=
  let s := s.countExit r plen x
  match s.cmdU r.uid with
  | some c => if c.exited = c.rows then s.endRows r.uid St.OK c.valid else s
  | none => s

/-- A valid row's exit. -/
def State.validExit (s : State) (pipe : Nat) (r : RowDesc) (x : Option ExitRec) : State :=
  if r.kind ≤ 1 then s.seqExit r (s.plen32 pipe) x
  else if r.kind = 2 then s.runExit r (s.plen32 pipe) x
  else s

/-- The block has exited: its entry is freed, a training block counted. -/
def State.blockExit (s : State) (c : Nat) (b : Block) : State :=
  let s := s.dequeue c b.handle
  match b.train, s.train? b.pipe with
  | some _, some t =>
    if b.rows.all (fun r => r.uid = t.uid) then
      let n := t.exited + 1
      s.setTrain b.pipe { t with exited := n, holding := decide (t.cuts.length ≤ n) }
    else s
  | _, _ => s

/-- ROW_EXIT (R177, R212, R213, R368): a valid row counts, an invalid one is dropped; with its last row the block is
gone. -/
def execRowExit (handle : W64) (row : Nat) (rec : Option ExitRec) (s : State) : Host.Outcome State Fault Refusal :=
  .next (match s.entryOf handle with
    | none => s
    | some (c, e) =>
      (match e.exits.contains row, e.block.rows[row]? with
        | true, some r =>
          let left := e.exits.filter (fun i => i ≠ row)
          let s := s.modEntry c handle (fun e => { e with exits := left })
          let s := if left.isEmpty then s.blockExit c e.block else s
          let s := if r.valid then s.validExit e.block.pipe r rec else s
          (if r.kind ≤ 1 then s.trimSeq r.seq else s).noteConds
        | _, _ => s))

/-! ## Role moves (R184, Table 6-5) -/

/-- A CMASK with one cluster's bit in place of another's. -/
def swapMask (old new : Nat) (r : W64) : W64 :=
  if (rtCmask r).testBit old then
    (r &&& ~~~(BitVec.ofNat 64 (2 ^ (26 + old)))) ||| BitVec.ofNat 64 (2 ^ (26 + new))
  else r

/-- The reserve takes the role: programs, profile, CMASK bits, queue entries. -/
def State.takeRole (s : State) (c old : Nat) : State :=
  let k := s.cluster old
  let s := s.putCluster c { s.cluster c with progs := k.progs ++ k.newProgs, moveFrom := none, queue := k.queue, runGen := 0 }
  let s := s.modCluster old (fun k => { k with queue := [], progs := [], newProgs := [] })
  let s := s.setFld (Fld.PPL_STAGE_ROLE c) (s.fld (Fld.PPL_STAGE_ROLE old))
  let s := s.setReg (Off.BLT_PROF c) (s.regAt (Off.BLT_PROF old))
  let banks := s.ppl.banks.map (fun (b : Nat × List (Nat × List W64)) =>
    (b.1, b.2.map (fun (g : Nat × List W64) => (g.1, g.2.map (swapMask old c)))))
  let s := { s with ppl := { s.ppl with banks := banks } }
  (List.range 8).foldl (fun s p => s.showRoutes p (s.shownGen p)) s

/-- ROLE_MOVE_LOADED (R184): the reserve is awake and holds the programs. -/
def execRoleMoveLoaded (c : Nat) (s : State) : Host.Outcome State Fault Refusal :=
  .next (match (s.cluster c).moveFrom with
    | some old =>
      if s.clusterUp c ∧ (s.region c = RS.Q1 ∨ s.region c = RS.A) then
        ((s.takeRole c old).eventReg Ev.ROLE_MOVED c (Off.PPL_STAGE c)).checkDegraded
      else s
    | none => s)

end Sys2Proof.Machine
end

