-- ==== Sys2Proof/Machine/Change.lean ====
section
/-! DEFINITION. Generations and changes under load (06_pipeline.md R185 to R190; 13_configuration.md R391 to R393). -/

namespace Sys2Proof.Machine

/-! ## A partition in force -/

/-- The value of KVL_SHAPE_Pp with its derived MIN_CLASS (R200). -/
def shapeWord (g : PartCfg) : W32 :=
  match oneRec g.sect 0x0105 with
  | some k =>
    let w := BitVec.ofNat 32 (recF k 1 31 0)
    BitVec.ofNat 32 (w.toNat + (shapeOf w).minClass * 2 ^ 9)
  | none => 0#32

/-- The cluster that acts for a cluster of the image: the reserve once it has taken the role (R184). -/
def State.actor (s : State) (c : Nat) : Nat :=
  match s.ppl.reserveUsed.find? (fun e => e.2.1 = c) with
  | some e => if (s.cluster e.2.2).moveFrom.isNone then e.2.2 else c
  | none => c

/-- A route table as it runs: CMASK bits of a retired cluster replaced by its reserve's. -/
def State.actingRoutes (s : State) (rs : List W64) : List W64 :=
  s.ppl.reserveUsed.foldl (fun (rs : List W64) e =>
    if (s.cluster e.2.2).moveFrom.isNone then rs.map (swapMask e.2.1 e.2.2) else rs) rs

/-- Registers of a partition take its section's generation: GEN, PIPE, shape, roles, profiles, routes; a
cluster that the licence leaves unpowered reads zero (R191). -/
def State.installPart (s : State) (p : Nat) (g : PartCfg) : State :=
  let s := (s.setFld (Fld.PPL_PART_GEN p) g.sect.gen).setFld (Fld.PPL_PART_STAT_PIPE p) (b2n g.pipe)
  let s := s.setReg (Off.KVL_SHAPE p) (shapeWord g)
  let on := fun (s : State) (c : Nat) => s.fbit Fld.CFG_LICENCE_ENABLED c
  let s := g.roles.foldl (fun s e =>
    if on s (s.actor e.1) then s.setFld (Fld.PPL_STAGE_ROLE (s.actor e.1)) e.2.1 else s) s
  let s := (recsOf g.sect 0x0106).foldl (fun s r =>
    let c := s.actor (recF r 1 63 60)
    if ¬ on s c then s else s.setReg (Off.BLT_PROF c) ((s.regAt (Off.BLT_PROF c) &&& 0x0007FFFF#32) ||| BitVec.ofNat 32 (recF r 1 31 19 * 2 ^ 19))) s
  let s := { s with ppl := { s.ppl with cfg := tabInsert s.ppl.cfg p g } }
  s.showRoutes p g.sect.gen

/-! ## RELOAD_PARTITION (R186, R190, R391 to R393) -/

/-- What a section keeps of the one in force (R242, R393). -/
def keepsPart (old g : PartCfg) : Bool :=
  let belt := fun (x : PartCfg) => x.roles.filterMap (fun e => if e.2.1 = 8 ∨ e.2.1 = 9 then some (e.1, e.2.1) else none)
  let prof := fun (x : PartCfg) => (recsOf x.sect 0x0106).map (fun r => (recF r 1 63 60, recF r 1 31 0))
  let same := fun (xs ys : List (Nat × Nat)) => xs.all (fun e => ys.contains e) && ys.all (fun e => xs.contains e)
  let fixed := fun (w : W32) => w &&& ~~~(BitVec.ofNat 32 (mask 24 23 + mask 22 18))
  let wins := winRecs old.sect
  old.clusters = g.clusters && old.reserve = g.reserve && old.pipe = g.pipe && old.inBytes = g.inBytes
    && old.plen32 = g.plen32 && old.blockWin = g.blockWin && shapeWord old = shapeWord g
    && same (belt old) (belt g) && same (prof old) (prof g)
    && decide (wins.length = (winRecs g.sect).length) && decide ((winRecs g.sect).map (fun w => w.num)).Nodup
    && (winRecs g.sect).all (fun w => wins.any (fun v => v.num = w.num && v.base = w.base && v.src = w.src
        && v.shape = w.shape && fixed v.attr = fixed w.attr))

/-- A section with its objects in the place of the records that name them. -/
def State.withObjects (s : State) (g : PartCfg) : Option PartCfg :=
  (g.programs.mapM s.object?).map (fun ps => { g with programs := ps })

/-- One named section: its partition where it passes. -/
def State.sectionOk (s : State) (x : ImgSection) : Option PartCfg :=
  match partCfg x, tabFind s.ppl.cfg x.part with
  | some g, some old =>
    if x.hashOk && x.records.all (recOk 2) && partRecordsOk x g && blockWinOk x g && trainOk g s.hbmBytes
        && (winRecs x).all (fun w => w.ok s.hbmBytes) && (settingsOf x).all (pairOk (some g.clusters) (some (classesOf x)))
        && decide (x.gen ≠ s.partGen x.part) && keepsPart old g then
      (s.withObjects g).bind (fun x => if rolesServe x then some x else none)
    else none
  | _, _ => none

/-- The roles and programs a change set's route tables are held against: its own sections', and those in force
elsewhere. -/
def State.changeStages (s : State) (gs : List (Nat × PartCfg)) : Stages :=
  let rest := s.ppl.cfg.filter (fun e => !(gs.any (fun x => x.1 = e.1)) && decide (s.partGen e.1 ≠ 0))
  (gs ++ rest).flatMap (fun e => e.2.roles.map (fun r =>
    (r.1, r.2.1, e.2.programs.find? (fun p => p.index = r.2.2))))

/-- The sections that a change set names, read from the reload bank in image order and verified; the status where they
fail. -/
def State.readSections (s : State) (pmask : Nat) : Except Nat (List (Nat × PartCfg)) :=
  match s.bank (s.fld Fld.CFG_IMAGE_RELOAD_BANK) with
  | none => .error St.INVALID
  | some i =>
    let owners := s.fld Fld.CFG_LICENCE_OWNERS
    let xs := i.sections.filter (fun x => x.kind = 2 && pmask.testBit x.part)
    if ¬ (headerOk i && (i.keyId = 0 || owners.testBit (i.keyId - 1)) && i.sigOk && i.level = 1
        && (i.bindUid = 0#64 || i.bindUid = s.uid) && decide (xs.length = (maskList pmask).length) && decide (xs ≠ [])) then
      .error St.INVALID
    else
      match xs.mapM (fun x => (s.sectionOk x).map (fun g => (x.part, g))) with
      | none => .error St.INVALID
      | some gs =>
        let sts := gs.flatMap (fun e => e.2.programs.map (progStatus (s.fld Fld.HIF_STATUS_TIER)))
        let st := s.changeStages gs
        if sts.contains St.INVALID ∨ ¬ gs.all (fun e => !e.2.pipe || routesOk st (routesOf e.2.sect)) then .error St.INVALID
        else if sts.contains St.LICENCE then .error St.LICENCE
        else .ok gs

def reloadCheck (s : State) (c : Cmd) : Verdict :=
  if s.ppl.change.isSome then .refuse St.STATE 0x15
  else
    match s.readSections (c.f 2 7 0) with
    | .error st => .refuse st 0
    | .ok _ => .ok

/-- A change set begins: its sections are read over the flash and staged. -/
def State.beginChange (s : State) (c : Cmd) : State :=
  match s.readSections (c.f 2 7 0) with
  | .error _ => s
  | .ok gs =>
    let x : ChangeSet := ⟨c.sq, c.cid, gs.map (·.1), gs, false, [], [], [], 0⟩
    let s := { s with ppl := { s.ppl with change := some x } }
    let s := ((s.raise Fld.PPL_CHANGE_ACTIVE).setFld Fld.PPL_CHANGE_SET (c.f 2 7 0)).setFld Fld.PPL_CHANGE_SWITCHED 0
    s.pushOp (.reload (c.f 2 7 0)) 2

/-- RELOAD_PARTITION (R186, R190, R392, R393). -/
def execReloadPartition (sq cid : Nat) (s : State) : Host.Outcome State Fault Refusal :=
  .next (s.accept sq cid 0x41 reloadCheck noRows (fun s c => s.beginChange c))

/-! ## Applying (R130, R187) -/

def State.setChange (s : State) (x : ChangeSet) : State := { s with ppl := { s.ppl with change := some x } }

def State.modChange (s : State) (f : ChangeSet → ChangeSet) : State :=
  match s.ppl.change with
  | some x => s.setChange (f x)
  | none => s

/-- The program that a section gives a cluster. -/
def newProg (g : PartCfg) (idx : Nat) : Option Program := g.programs.find? (fun p => p.index = idx)

/-- A cluster loads the new generation beside the old, or first drains the old (R130). -/
def State.loadBeside (s : State) (g : PartCfg) (e : Nat × Nat × Nat) : State :=
  let a := s.actor e.1
  match newProg g e.2.2 with
  | none => s
  | some pr =>
    let k := s.cluster a
    let held := k.progs.foldl (fun n x => n + x.2.descs.length) 0
    if ¬ s.clusterUp a ∧ ¬ s.moving? a then s
    else if held + pr.descs.length ≤ 1024 then s.modCluster a (fun k => { k with newProgs := [(g.sect.gen, pr)] })
    else (s.raise Fld.PPL_CHANGE_HOLDING).modChange (fun x => { x with draining := x.draining ++ [a] })

/-- A partition of the set is applied: programs beside the old, the route table as a second bank. -/
def State.applyPart (s : State) (p : Nat) (g : PartCfg) : State :=
  let s := (s.setFld (Fld.PPL_PART_STAT_STATE p) 1).setFld (Fld.PPL_PART_STAT_GEN_NEW p) g.sect.gen
  let bank := tabGet [] s.ppl.banks p ++ [(g.sect.gen, s.actingRoutes (routesOf g.sect))]
  let s := if g.pipe then { s with ppl := { s.ppl with banks := tabPut [] s.ppl.banks p bank } } else s
  g.roles.foldl (fun s e => s.loadBeside g e) s

/-- The next partition of the set is applied. -/
def State.applyNext (s : State) : State :=
  match s.ppl.change with
  | none => s
  | some x =>
    match x.todo.head?.bind (fun p => x.sects.find? (fun e => e.1 = p)) with
    | some (p, g) => s.applyPart p g
    | none => s

/-- CHANGE_SECTIONS_STAGED (R187, R197): the sections are read, and no TRAIN_STEP holds a partition of the set. -/
def execChangeSectionsStaged (s : State) : Host.Outcome State Fault Refusal :=
  .next (match s.ppl.change with
    | some x =>
      let reading := s.flash.ops.any (fun o => match o.kind with
        | .reload _ => true
        | _ => false)
      if x.staged || x.aborting ≠ 0 || reading || x.parts.any (fun p => (s.train? p).isSome) then s
      else (s.setChange { x with staged := true }).applyNext
    | none => s)

/-- Whether a block in flight still needs a cluster at its partition's old generation. -/
def State.oldBlocks (s : State) (c gen : Nat) : Bool :=
  let p := s.partOf c
  s.allEntries.any (fun e => e.2.block.genOf p = gen
    && (s.routes e.2.block.pipe (e.2.block.genOf e.2.block.pipe)).any (fun r => (rtCmask r).testBit c))

/-- CLUSTER_OLD_GEN_DRAINED (R130, R187, R188): no block in flight needs a generation that the cluster holds, and the old
descriptors make way. -/
def execClusterOldGenDrained (c : Nat) (s : State) : Host.Outcome State Fault Refusal :=
  .next (match s.ppl.change with
    | some x =>
      let p := s.partOf c
      (match x.draining.contains c, x.sects.find? (fun e => e.1 = p) with
        | true, some (_, g) =>
          if (s.partGen p :: (s.cluster c).progs.map (·.1)).any (fun n => s.oldBlocks c n) then s
          else
            let mine := g.roles.find? (fun e => s.actor e.1 = c)
            let s := s.setChange { x with draining := x.draining.filter (fun d => d ≠ c), restoring := x.restoring ++ [c] }
            (match mine.bind (fun e => newProg g e.2.2) with
              | some pr => s.modCluster c (fun k => { k with progs := [], newProgs := [(g.sect.gen, pr)] })
              | none => s)
        | _, _ => s)
    | none => s)

/-! ## Switching (R187, R242) -/

/-- The last partition has switched: the entries stamp the new generations, hold ends, the command completes. -/
def State.finishChange (s : State) (x : ChangeSet) : State :=
  let s := x.sects.foldl (fun s e => s.installPart e.1 e.2) s
  let cs := (List.range 16).filter (fun c => x.parts.contains (s.partOf c))
  let s := cs.foldl (fun s c => s.modCluster c (fun k => { k with progs := k.progs ++ k.newProgs, newProgs := [] })) s
  (s.endChange x St.OK 1 Ev.CHANGE_COMPLETED).checkDegraded

/-- PARTITION_SWITCHED (R187, R197, R242): once no TRAIN_STEP runs on a partition of the set, hold begins with the first; the next partition is applied, or the set completes. -/
def execPartitionSwitched (p : Nat) (s : State) : Host.Outcome State Fault Refusal :=
  .next (match s.ppl.change with
    | some x =>
      (match x.sects.find? (fun e => e.1 = p) with
        | some (_, g) =>
          if ¬ x.staged ∨ x.aborting ≠ 0 ∨ x.todo.head? ≠ some p ∨ x.draining ≠ []
              ∨ x.parts.any (fun p => (s.train? p).isSome) then s
          else
            let s := (s.setFld (Fld.PPL_PART_STAT_STATE p) 2).setBit Fld.PPL_CHANGE_SWITCHED p
            let x := { x with todo := x.todo.drop 1, switched := x.switched ++ [p] }
            let s := (((s.setChange x).raise Fld.PPL_CHANGE_HOLDING).applyWindows g.sect).showRoutes p g.sect.gen
            if x.todo = [] then s.finishChange x else s.applyNext
        | none => s)
    | none => s)

/-- The generation that a change set applies to a partition. -/
def State.applying (s : State) (p : Nat) : Option Nat :=
  s.ppl.change.bind (fun x => (x.sects.find? (fun e => e.1 = p)).map (fun e => e.2.sect.gen))

/-- OLD_GENERATION_RELEASE (R188): generations of a cluster that no block in flight names, and none that is in force
or being applied. -/
def execOldGenerationRelease (c : Nat) (s : State) : Host.Outcome State Fault Refusal :=
  let p := s.partOf c
  let live := fun (g : Nat) => g = s.partGen p || s.applying p = some g || s.allEntries.any (fun e => e.2.block.genOf p = g)
  .next (if s.partGen p == 0 then s
    else
      let s := s.modCluster c (fun k => { k with progs := k.progs.filter (fun (x : Nat × Program) => live x.1) })
      let bank := (tabGet [] s.ppl.banks p).filter (fun (x : Nat × List W64) => live x.1)
      { s with ppl := { s.ppl with banks := tabPut [] s.ppl.banks p bank } })

/-! ## Abort (R189) -/

/-- ENTRY_HOLD_TIMEOUT (R189, R197): hold, or the wait for a TRAIN_STEP that counts toward it, reaches its limit. -/
def execEntryHoldTimeout (s : State) : Host.Outcome State Fault Refusal :=
  .next (match s.ppl.change with
    | some x =>
      if s.flag Fld.PPL_CHANGE_HOLDING ∨ x.parts.any (fun p => (s.train? p).isSome) then s.abortChange 2 else s
    | none => s)

/-- A cluster that drained reloads the old generation's program. -/
def State.restoreCluster (s : State) (c : Nat) : State :=
  let p := s.partOf c
  match tabFind s.ppl.cfg p with
  | none => s
  | some g =>
    match (g.roles.find? (fun e => s.actor e.1 = c)).bind (fun e => newProg g e.2.2) with
    | some pr => s.modCluster c (fun k => { k with progs := [(s.partGen p, pr)], newProgs := [] })
    | none => s

/-- CHANGE_RESTORE_COMPLETE (R189): the clusters that drained hold the old generation again, entry hold ends. -/
def execChangeRestoreComplete (s : State) : Host.Outcome State Fault Refusal :=
  .next (match s.ppl.change with
    | some x =>
      if x.aborting = 0 then s
      else
        let s := x.restoring.foldl (fun s c => s.restoreCluster c) s
        s.endChange x St.ABORTED x.aborting Ev.CHANGE_ABORTED
    | none => s)

end Sys2Proof.Machine
end

