-- ==== Sys2Proof/Machine/Host.lean ====
section
/-! DEFINITION. The host interface's commands: doorbells, queues, fetch, results, NOP, IDENTIFY, objects, the PCIe link
(12_host.md R348 to R371, R374; 16_pins_test.md R476). -/

namespace Sys2Proof.Machine

/-! ## Doorbells (R349) -/

def State.sqBase (s : State) (q : Nat) : Nat :=
  (s.regAt (Off.HIF_SQ_BASE_HI q)).toNat * 2 ^ 32 + (s.regAt (Off.HIF_SQ_BASE_LO q)).toNat / 4096 * 4096

def State.sqSize (s : State) (q : Nat) : Nat := queueSize (s.fld (Fld.HIF_SQ_CFG_SIZE_LOG2 q))

/-- Steps from one index of a ring to another. -/
def ringGap (n a b : Nat) : Nat := (b + n - a % n) % n

/-- SQ_TAIL_DOORBELL (R349): the new tail, ignored with DB_ERR where it lies outside the ring or would pass the head. -/
def execSqTailDoorbell (q : Nat) (v : W32) (s : State) : Host.Outcome State Fault Refusal :=
  let t := bitsOf v 11 0
  let n := s.sqSize q
  let head := s.fld (Fld.HIF_SQ_STAT_HEAD q)
  .next (
    if 64 ≤ q ∨ ¬ s.linked ∨ ¬ s.flag (Fld.HIF_SQ_CFG_EN q) then s
    else if n ≤ t ∨ ringGap n head t < ringGap n head (s.fld (Fld.HIF_SQ_STAT_TAIL q)) then s.raise Fld.HIF_EVENTS_DB_ERR
    else s.setFld (Fld.HIF_SQ_STAT_TAIL q) t)

/-- CQ_HEAD_DOORBELL (R349, R351): entries are free again, and waiting completions are written. -/
def execCqHeadDoorbell (q : Nat) (v : W32) (s : State) : Host.Outcome State Fault Refusal :=
  let h := bitsOf v 11 0
  let n := s.cqSize q
  let head := s.fld (Fld.HIF_CQ_STAT_HEAD q)
  .next (
    if 64 ≤ q ∨ ¬ s.linked ∨ ¬ s.flag (Fld.HIF_CQ_CFG_EN q) then s
    else if n ≤ h ∨ ringGap n head (s.fld (Fld.HIF_CQ_STAT_TAIL q)) < ringGap n head h then s.raise Fld.HIF_EVENTS_DB_ERR
    else
      let s := s.setFld (Fld.HIF_CQ_STAT_HEAD q) h
      State.cqDrain s.host.cqWait.length s q)

/-! ## Queue configuration (R348, R353) -/

def State.reject (s : State) : State := s.raise Fld.HIF_EVENTS_REJECT

/-- A write of a queue's CFG register keeps every RW field but EN. -/
def State.cfgSame (s : State) (off : Nat) (v : W32) : Bool :=
  match regRow? off with
  | some r => (s.regAt off ^^^ v) &&& r.rw &&& 0x7FFFFFFF#32 = 0#32
  | none => true

/-- A write of an SQ's CFG register. -/
def State.writeSqCfg (s : State) (q : Nat) (v : W32) : State :=
  let off := Off.HIF_SQ_CFG q
  let en := bitsOf v 31 31 = 1
  if s.flag (Fld.HIF_SQ_CFG_EN q) then
    if ¬ s.cfgSame off v then s.reject else s.hostWrite off v
  else if en ∧ ¬ s.flag (Fld.HIF_CQ_CFG_EN (bitsOf v 29 24)) then s.reject
  else
    let s := s.hostWrite off v
    if en then (s.setFld (Fld.HIF_SQ_STAT_HEAD q) 0).setFld (Fld.HIF_SQ_STAT_TAIL q) 0 else s

/-- Whether an SQ that names a CQ is enabled or busy. -/
def State.cqNamed (s : State) (q : Nat) : Bool :=
  (List.range 64).any (fun i => s.fld (Fld.HIF_SQ_CFG_CQ i) = q
    && (s.flag (Fld.HIF_SQ_CFG_EN i) || s.flag (Fld.HIF_SQ_CFG_BUSY i)))

/-- A write of a CQ's CFG register. -/
def State.writeCqCfg (s : State) (q : Nat) (v : W32) : State :=
  let off := Off.HIF_CQ_CFG q
  let en := bitsOf v 31 31 = 1
  if s.flag (Fld.HIF_CQ_CFG_EN q) then
    if ¬ s.cfgSame off v ∨ (¬ en ∧ s.cqNamed q) then s.reject else s.hostWrite off v
  else
    let s := s.hostWrite off v
    if en then
      let s := { s with host := { s.host with cqNew := tabErase s.host.cqNew q } }
      ((s.setFld (Fld.HIF_CQ_STAT_HEAD q) 0).setFld (Fld.HIF_CQ_STAT_TAIL q) 0).setFld (Fld.HIF_CQ_STAT_PHASE q) 1
    else s

/-- SQ_ENABLE (R348, R349): a write of EN as 1. -/
def execSqEnable (q : Nat) (v : W32) (s : State) : Host.Outcome State Fault Refusal :=
  .next (if 64 ≤ q ∨ ¬ s.linked ∨ bitsOf v 31 31 = 0 then s else s.writeSqCfg q v)

/-- SQ_DISABLE (R353): a write of EN as 0. -/
def execSqDisable (q : Nat) (v : W32) (s : State) : Host.Outcome State Fault Refusal :=
  .next (if 64 ≤ q ∨ ¬ s.linked ∨ bitsOf v 31 31 = 1 then s else s.writeSqCfg q v)

/-- CQ_ENABLE (R348, R349): a write of EN as 1. -/
def execCqEnable (q : Nat) (v : W32) (s : State) : Host.Outcome State Fault Refusal :=
  .next (if 64 ≤ q ∨ ¬ s.linked ∨ bitsOf v 31 31 = 0 then s else s.writeCqCfg q v)

/-- CQ_DISABLE (R353): a write of EN as 0. -/
def execCqDisable (q : Nat) (v : W32) (s : State) : Host.Outcome State Fault Refusal :=
  .next (if 64 ≤ q ∨ ¬ s.linked ∨ bitsOf v 31 31 = 1 then s else s.writeCqCfg q v)

/-! ## Fetch (R350, R175) -/

/-- The pipeline that a command's rows enter. -/
def State.rowsOf (s : State) (c : Cmd) : Option Nat :=
  match c.pipeRows with
  | some p => some p
  | none =>
    if c.opcode = 0x21 then some (c.f 2 47 45)
    else
      match c.seqs.head? with
      | some n => if c.opcode = 0x22 ∨ c.opcode = 0x23 then (s.seq? n).map (fun q => q.pipe) else none
      | none => none

/-- Whether a row of a TRAIN_STEP of a pipeline and class waits for a place in its forming block. -/
def State.trainRowWaits (s : State) (pipe cls : Nat) : Bool :=
  match s.train? pipe with
  | some t =>
    (match s.cmdU t.uid with
      | some c => c.cls = cls && decide (c.placed < c.rows) && !s.roomFor pipe cls (some t.closed)
      | none => false)
  | none => false

/-- A pipeline's entry has stalled: a full entry queue, and a row of some class that waits for its forming block (R176). -/
def State.stalled (s : State) (pipe : Nat) : Bool :=
  decide (4 ≤ (s.entries pipe).length) && (List.range 16).any (fun cls =>
    (s.pendingRow pipe cls && !s.roomFor pipe cls none) || s.trainRowWaits pipe cls)

/-- The command at the head of an SQ. -/
def State.headCmd (s : State) (q : Nat) : Cmd :=
  let head := s.fld (Fld.HIF_SQ_STAT_HEAD q)
  let w := getWords s.host.mem (s.sqBase q + 64 * head) 8
  ⟨s.host.nextUid, q, bitsOf (w.getD 0 0#64) 47 32, w, (head + 1) % s.sqSize q, .ready, s.now, 0, 0, 0, 0, false, 0, [], false⟩

/-- Whether an SQ has an entry to fetch. -/
def State.fetchable (s : State) (q : Nat) : Bool :=
  s.flag (Fld.HIF_SQ_CFG_EN q) && s.fld (Fld.HIF_SQ_STAT_HEAD q) ≠ s.fld (Fld.HIF_SQ_STAT_TAIL q)
    && !(match s.rowsOf (s.headCmd q) with
      | some p => s.stalled p
      | none => false)

/-- The SQ of the next fetch, and how many entries of its turn that makes (R350). -/
def State.nextSq (s : State) : Option (Nat × Nat) :=
  let cur := s.host.rrSq
  if s.fetchable cur ∧ s.host.rrCount < max 1 (s.fld (Fld.HIF_SQ_CFG_WEIGHT cur)) then some (cur, s.host.rrCount + 1)
  else
    match ((List.range 64).map (fun i => (cur + 1 + i) % 64)).find? (fun q => s.fetchable q) with
    | some q => some (q, 1)
    | none => none

/-- Whether a CID of an SQ is outstanding: until its completion is written (R360). -/
def State.cidBusy (s : State) (sq cid : Nat) : Bool :=
  s.host.cmds.any (fun c => c.is sq cid) || s.host.cqWait.any (fun c => c.sq = sq && c.cid = cid)

/-- What a fetched command meets before anything else: its structure, its licence, its CID. -/
def State.fetchVerdict (s : State) (c : Cmd) : Option (Nat × Nat) :=
  if ¬ c.wellFormed then some (St.INVALID, 0)
  else if c.opcode = 0x70 ∧ s.fld Fld.HIF_STATUS_TIER ≠ 2 then some (St.LICENCE, 0)
  else if s.cidBusy c.sq c.cid then some (St.STATE, 0x19)
  else none

/-- A completion of a command that never became outstanding. -/
def State.refuseFetched (s : State) (c : Cmd) (status code : Nat) : State :=
  let s := if c.opcode = 0x40 then s.raise Fld.CFG_NVM_EVENTS_NVM_FAIL else s
  (s.cqPost ⟨s.fld (Fld.HIF_SQ_CFG_CQ c.sq), 0#64, c.cid, c.sq, c.sqHead, status, code⟩).updBusy c.sq

/-- An entry is fetched: its SQ entry is free at once. -/
def State.takeCmd (s : State) (q n : Nat) : State :=
  let c := s.headCmd q
  let s := { s with host := { s.host with rrSq := q, rrCount := n, nextUid := s.host.nextUid + 1 } }
  let s := (s.setFld (Fld.HIF_SQ_STAT_HEAD q) c.sqHead).dmaIn 64
  match s.fetchVerdict c with
  | some (st, code) => s.refuseFetched c st code
  | none => { s with host := { s.host with cmds := s.host.cmds ++ [c] } }.updBusy q

/-- Fetching runs: a host is there, and the device is in none of Q3, Q4 and warm reset. -/
def State.fetching (s : State) : Bool :=
  s.linked && decide (s.dstate ≠ DS.WARM) && decide (s.fld Fld.PWR_STATUS_DSTATE ≤ 2)

/-- COMMAND_FETCH (R350, R358): the next entry in round-robin order; a fetch error disables its SQ. -/
def execCommandFetch (fetchError : Bool) (s : State) : Host.Outcome State Fault Refusal :=
  .next (
    if ¬ s.fetching then s
    else
      match s.nextSq with
      | none => s
      | some (q, n) =>
        if fetchError then
          ((s.setFld (Fld.HIF_SQ_CFG_EN q) 0).raise Fld.HIF_EVENTS_FETCH_ERR).raise (Fld.HIF_SQ_STAT_FETCH_ERR q)
        else s.takeCmd q n)

/-- DEFER_TIMEOUT (R359): a deferred command, but a SEQ_RESUME, which waits under R225. -/
def execDeferTimeout (sq cid : Nat) (s : State) : Host.Outcome State Fault Refusal :=
  .next (match s.cmd? sq cid with
    | some c => if c.stage = .deferred ∧ c.opcode ≠ 0x26 then s.completeU c.uid St.TIMEOUT 0 else s
    | none => s)

/-- INTERRUPT_COALESCE_TIMEOUT (R352): the message of a CQ that holds entries written since its last. -/
def execInterruptCoalesceTimeout (cq : Nat) (s : State) : Host.Outcome State Fault Refusal :=
  .next (if s.flag (Fld.HIF_CQ_CFG_IEN cq) ∧ 0 < tabGet 0 s.host.cqNew cq then s.cqMessage cq else s)

/-- SLOT_RELEASE (R371): every slot of a ready result. -/
def execSlotRelease (n : Nat) (s : State) : Host.Outcome State Fault Refusal :=
  .next (match tabFind s.host.slots n with
    | some e =>
      if e.ready ∧ s.linked then
        { s with host := { s.host with slots := s.host.slots.filter (fun (x : Nat × Slot) => x.2.rseq ≠ e.rseq) } }
      else s
    | none => s)

/-! ## NOP, IDENTIFY, objects (R361, R366, R367) -/

/-- NOP (R361). -/
def execNop (sq cid : Nat) (s : State) : Host.Outcome State Fault Refusal :=
  .next (s.accept sq cid 0x01 noCheck noRows (fun s c => s.finish c []))

/-- The identify page (Table 12-10): offset, size, content. -/
def State.identifyPage (s : State) : List Byte :=
  let put := fun (m : Tab Byte) (e : Nat × Nat × Nat) => putBytes m e.1 (leBytes e.2.1 e.2.2)
  let reg := fun off => (s.regView off).toNat
  let plen := fun p => match tabFind s.ppl.cfg p with
    | some g => g.plen32 * 32
    | none => 0
  let fixed := [(0x000, 8, s.uid.toNat), (0x008, 4, reg Off.CFG_ARITH), (0x00C, 4, reg Off.HIF_STATUS),
    (0x010, 2, s.fld Fld.CFG_LICENCE_ENABLED), (0x018, 8, s.hbmBytes), (0x020, 4, reg Off.HIF_RSLOT_COUNT),
    (0x024, 4, reg Off.BLT_RING)]
  let pipes := (List.range 8).flatMap (fun p => [(0x040 + 16 * p, 4, s.inBytes p), (0x044 + 16 * p, 4, plen p),
    (0x048 + 16 * p, 4, reg (Off.KVL_SHAPE p)), (0x04C + 16 * p, 4, reg (Off.PPL_PART p))])
  let profs := (List.range 16).map (fun c => (0x0C0 + 4 * c, 4, reg (Off.BLT_PROF c)))
  getBytes ((fixed ++ pipes ++ profs).foldl put []) 0 1024

/-- IDENTIFY (R367). -/
def execIdentify (sq cid : Nat) (s : State) : Host.Outcome State Fault Refusal :=
  .next (s.accept sq cid 0x02 noCheck noRows (fun s c => s.finish c s.identifyPage))

/-- Whether a range of whole lines lies in Table 8-1's regions. -/
def State.rangeIn (s : State) (a n : Nat) : Bool :=
  s.hbmRange a n || (List.range (n / 256)).all (fun i => s.addrOk (a + 256 * i))

/-- LOAD_OBJECT's checks: alignment and place of its range; a program object's under R366. -/
def loadCheck (obj : Option Program) (s : State) (c : Cmd) : Verdict :=
  let len := c.f 4 63 32
  let place := decide ((c.f 2 63 0) % 256 = 0 ∧ len % 256 = 0 ∧ c.f 4 31 24 ≤ 1) && s.hbmRange (c.f 2 63 0) len
  if c.f 4 31 24 = 1 then
    match obj with
    | none => .refuse St.INVALID 0
    | some p =>
      let st := progStatus (s.fld Fld.HIF_STATUS_TIER) p
      if st = St.LICENCE then .refuse St.LICENCE 0
      else if place ∧ st = St.OK ∧ anyRole p then .ok else .refuse St.INVALID 0
  else if place then .ok else .refuse St.INVALID 0

/-- LOAD_OBJECT (R366): the bytes are stored; a program object is kept under its OBJ_ID. -/
def execLoadObject (sq cid : Nat) (obj : Option Program) (s : State) : Host.Outcome State Fault Refusal :=
  .next (s.accept sq cid 0x10 (loadCheck obj) noRows (fun s c =>
    let s := (s.devWrite (c.f 2 63 0) (getBytes s.host.mem (c.f 3 63 0) (c.f 4 63 32))).dmaIn (c.f 4 63 32)
    let id := c.f 5 31 0
    let s := match obj with
      | some p => if c.f 4 31 24 = 1 then
          { s with ppl := { s.ppl with objects := s.ppl.objects.filter (fun (e : Nat × Program) => e.1 ≠ id) ++ [(id, p)] } }
        else s
      | none => s
    s.finish c []))

def readCheck (s : State) (c : Cmd) : Verdict :=
  let a := c.f 2 63 0
  let len := c.f 4 63 32
  if a % 256 = 0 ∧ len % 256 = 0 ∧ s.rangeIn a len ∧ len ≤ c.capacity then .ok else .refuse St.INVALID 0

/-- READ_OBJECT (R361): lines read in order, the owners of unbacked ones told (R261); lost data ends it with FAULT (DESIGN
CHOICE). -/
def execReadObject (sq cid : Nat) (s : State) : Host.Outcome State Fault Refusal :=
  .next (s.accept sq cid 0x11 readCheck noRows (fun s c =>
    let l := c.f 2 63 0 / 256
    let n := c.f 4 63 32 / 256
    let x := (s.unbackedSectors ((List.range n).flatMap (fun i => s.readSecs (l + i))) .plain).readLines l c.cls n
    if x.2.2 then x.1.completeU c.uid St.FAULT 0 else x.1.finish c x.2.1))

/-! ## The PCIe link (R356, R374, R476) -/

/-- The number of no SQ: what a command that has ended leaves behind. -/
def noSq : Nat := 64

/-- What the ended commands left running runs on for nobody: waits for rows go, training steps end, NVM_WRITE is cut
short. -/
def State.forgetCommands (s : State) : State :=
  let s := (s.ppl.trains.map (·.1)).foldl (fun (s : State) p =>
    { s with ppl := { s.ppl with trains := tabErase s.ppl.trains p,
                                 forming := s.ppl.forming.filter (fun (e : Nat × Forming) => !(e.1 / 16 = p && e.2.train.isSome)) } }) s
  let s := s.nvmAbort
  let waits := (s.kvl.waits.filter (fun w => w.kind ≠ .row)).map (fun (w : LWait) => { w with sq := noSq })
  let seqs := s.kvl.seqs.map (fun (e : Nat × Seq) => (e.1, { e.2 with waitCmd := none, gen := none, genLeft := 0, fed := none }))
  let ranges := s.ul.ranges.map (fun (r : RangeRec) => { r with cmd := none })
  { s with kvl := { s.kvl with waits := waits, seqs := seqs }
           ul := { s.ul with ranges := ranges }
           ppl := { s.ppl with change := s.ppl.change.map (fun (x : ChangeSet) => { x with sq := noSq }) } }

/-- Whether an offset lies in the MSI-X table or its pending-bit array (R347). -/
def msixOff (off : Nat) : Bool := decide (0x8000 ≤ off) && decide (off < 0x9020)

/-- Every HIF queue register and the MSI-X table at its reset value. -/
def State.resetQueues (s : State) : State :=
  let offs := (List.range 64).flatMap (fun q => [Off.HIF_SQ_BASE_LO q, Off.HIF_SQ_BASE_HI q, Off.HIF_SQ_CFG q,
    Off.HIF_SQ_STAT q, Off.HIF_CQ_BASE_LO q, Off.HIF_CQ_BASE_HI q, Off.HIF_CQ_CFG q, Off.HIF_CQ_STAT q])
  let s := { s with host := { s.host with cqNew := [], rrSq := 0, rrCount := 0 } }
  { s with regs := s.regs.filter (fun (e : Nat × W32) => !offs.contains e.1 && !msixOff e.1)
           pairLo := s.pairLo.filter (fun (e : Nat × W32) => !offs.contains e.1) }

/-- Every accepted command ends without a completion. -/
def State.dropHost (s : State) : State := (s.forgetCommands).endCommands

/-- PCIE_HOT_RESET (R476): an in-band hot reset, or a link that was down and retrains. -/
def execPcieHotReset (s : State) : Host.Outcome State Fault Refusal :=
  .next (if s.host.hostless then s
    else
      let s := (s.dropHost).resetQueues
      { s with host := { s.host with linkDown := none } })

/-- PCIE_LINK_DOWN (R476): the 1 s bound begins. -/
def execPcieLinkDown (s : State) : Host.Outcome State Fault Refusal :=
  .next (if s.linked then { s with host := { s.host with linkDown := some s.now } } else s)

/-- PCIE_LINK_FAILURE (R374): the endpoint retires, the device is hostless, swap disabled, its commands lost. -/
def execPcieLinkFailure (s : State) : Host.Outcome State Fault Refusal :=
  .next (if s.host.hostless then s
    else
      let s := s.dropHost
      let s := { s with host := { s.host with hostless := true, linkDown := none } }
      (s.setFld Fld.KVL_SWAP_SIZE_EN 0).event Ev.PCIE_RETIRED 0)

end Sys2Proof.Machine
end

