-- ==== Sys2Proof/Machine/Flash.lean ====
section
/-! DEFINITION. NVM_WRITE, JOURNAL_READ, flash operations and the journal's programming (13_configuration.md R379, R392,
R394, R395, R402 to R406). -/

namespace Sys2Proof.Machine

/-! ## NVM_WRITE (R394, R395) -/

/-- The content verifies before anything is erased. -/
def State.nvmContentOk (s : State) (target : Nat) (content : NvmContent) : Bool :=
  match content with
  | .image i =>
    decide (target < 2) && verifyBank (some i) s.uid (s.fld Fld.CFG_LICENCE_OWNERS) (s.fld Fld.CFG_LICENCE_TIER) s.hbmBytes
      = BR.VERIFIED
  | .licences l => decide (target = 2) && decide (l.length ≤ 2048) && l.all licenceOk

def nvmCheck (content : NvmContent) (s : State) (c : Cmd) : Verdict :=
  let t := c.f 2 1 0
  if t < 2 ∧ s.flash.startImage.isSome ∧ t = s.fld Fld.CFG_IMAGE_START_BANK then .refuse St.STATE 0x1D
  else if s.nvmContentOk t content then .ok
  else .refuse St.INVALID 0

/-- NVM_WRITE (R394, R395): verified, then written behind those before it. -/
def execNvmWrite (sq cid : Nat) (content : NvmContent) (s : State) : Host.Outcome State Fault Refusal :=
  .next (match s.fetched sq cid 0x40 with
    | none => s
    | some c =>
      match s.verdict c (nvmCheck content) with
      | .refuse st code => (s.refuse c st code).raise Fld.CFG_NVM_EVENTS_NVM_FAIL
      | _ => s.accept sq cid 0x40 (nvmCheck content) noRows (fun s c =>
          let r : NvmRun := ⟨c.sq, c.cid, c.f 2 1 0, content⟩
          let first := s.flash.nvm = []
          let s := { s with flash := { s.flash with nvm := s.flash.nvm ++ [r] } }
          if first then s.nvmBegin r else s))

/-! ## JOURNAL_READ (R405, R368) -/

/-- Readable records from a number on, in ascending SEQ; a record and its SNAP copy are one. -/
def State.readable (s : State) (from' : Nat) : List JRec :=
  let hidden := fun (r : JRec) => r.type = JT.SEG_HEAD || r.type = JT.SNAP_BEGIN || r.type = JT.COMMIT
  let all := (goodOf (s.jseg s.activeSeg) ++ s.jrn.queue).filter (fun r => !hidden r && decide (from' ≤ r.seq))
  let sorted := all.mergeSort (fun a b => a.seq ≤ b.seq)
  sorted.foldl (fun (l : List JRec) r => if (l.getLast?).any (fun q => q.seq = r.seq) then l else l ++ [r]) []

/-- JOURNAL_READ (R405): up to COUNT records, those that do not fit left out whole. -/
def execJournalRead (sq cid : Nat) (s : State) : Host.Outcome State Fault Refusal :=
  .next (s.accept sq cid 0x60 noCheck noRows (fun s c =>
    let recs := (s.readable (c.f 2 63 0)).take (c.f 3 31 0)
    let fit := recs.take (c.capacity / 64)
    let bytes := fit.flatMap JRec.bytes
    let info := bytes.length * 2 ^ 32 + b2n (decide (fit.length < recs.length)) * 2 ^ 31 + fit.length
    (s.writeResult c St.OK bytes).completeU c.uid St.OK info))

/-! ## Operations -/

/-- FLASH_OPERATION_COMPLETE (R379): the operation the flash serves ends or fails. -/
def execFlashOperationComplete (ok : Bool) (s : State) : Host.Outcome State Fault Refusal :=
  .next (match s.flashOp? with
    | none => s
    | some o => if ok then s.opDone o else s.opFails o)

/-- JOURNAL_PAGE_PROGRAM (R402, R406): queued records are programmed in order. -/
def execJournalPageProgram (ok : Bool) (s : State) : Host.Outcome State Fault Refusal :=
  .next (
    if ¬ s.mayAppend ∨ (s.jseg s.activeSeg ≠ [] ∧ s.pageRecs = []) then s
    else if ok then s.pageDone
    else s.pageFails)

/-- JOURNAL_COMPACTION (R403, R406): the active segment has reached 98,304 records, or has ended. -/
def execJournalCompaction (s : State) : Host.Outcome State Fault Refusal :=
  .next (if s.ready ∧ (98304 ≤ (s.jseg s.activeSeg).length ∨ s.jrn.ended) then s.startCompaction else s)

end Sys2Proof.Machine
end

