-- ==== Sys2Proof/Machine/Groups.lean ====
section
/-! DEFINITION. Instructions of thread groups: arithmetic, memory, divergence, barriers, locks (02_numbers.md R55, R56,
R66, R67; 04_thread_groups.md R109 to R128). -/

namespace Sys2Proof.Machine

/-! ## Arithmetic (R55, R66, R67) -/

/-- Saturation of an exact signed integer to n bits. -/
def satSigned (n : Nat) (i : Int) : Nat :=
  let top : Int := (2 ^ (n - 1) : Nat)
  wrapInt n (max (-top) (min (top - 1) i))

/-- An integer operation on n-bit words (R66): wrapping, saturating as two's complement, shifts by the whole second
operand. -/
def intOp (n : Nat) (op : IntOp) (a b : Nat) : Nat :=
  let sa := signedOf n a
  let sb := signedOf n b
  match op with
  | .add => wrapInt n (sa + sb)
  | .sub => wrapInt n (sa - sb)
  | .mul => wrapInt n (sa * sb)
  | .satAdd => satSigned n (sa + sb)
  | .satSub => satSigned n (sa - sb)
  | .satMul => satSigned n (sa * sb)
  | .smin => if sa ≤ sb then a else b
  | .smax => if sa ≤ sb then b else a
  | .umin => min a b
  | .umax => max a b
  | .and => Nat.land a b
  | .or => Nat.lor a b
  | .xor => Nat.xor a b
  | .shl => if n ≤ b then 0 else a * 2 ^ b % 2 ^ n
  | .shrU => if n ≤ b then 0 else a / 2 ^ b
  | .shrS => wrapInt n (if n ≤ b then (if sa < 0 then -1 else 0) else sa / (2 ^ b : Nat))

/-- An integer comparison of n-bit words. -/
def intCmp (n : Nat) (op : CmpOp) (signed : Bool) (a b : Nat) : Bool :=
  let x : Int := if signed then signedOf n a else (a : Int)
  let y : Int := if signed then signedOf n b else (b : Int)
  match op with
  | .eq => decide (x = y)
  | .lt => decide (x < y)
  | .le => decide (x ≤ y)

/-- A code of a format is held in one register, a Sterling value in a pair. -/
def fmtSize : NumFmt → Nat
  | .sterling => 3
  | _ => 2

/-- One result of an FP32 operation per active thread. -/
def Group.mapF (gr : Group) (d : Nat) (f : Group → Nat → F32R) : Group :=
  gr.mapThreads (fun x t => let r := f gr t; (x.setV t d r.1).flags r.2)

/-- One predicate bit per active thread. -/
def Group.mapP (gr : Group) (d : Nat) (f : Group → Nat → Bool × AswBits) : Group :=
  gr.mapThreads (fun x t =>
    let r := f gr t
    let b := BitVec.ofNat 64 (2 ^ t)
    (x.setP d (if r.1 then x.pred d ||| b else x.pred d &&& ~~~b)).flags r.2)

/-- MX quantisation of the active threads' values, 32 consecutive threads to a block (R55): element codes in d, the
block's scale code in c. -/
def Group.mxQuantise (gr : Group) (f : NumFmt) (d a c : Nat) : Group :=
  gr.mapThreads (fun x t =>
    let blk := gr.threads.filter (fun u => u / 32 = t / 32)
    let vs := blk.map (fun u => fv32 (gr.vreg u a))
    let sc := mxScaleCode f vs
    let e := mxElement f sc.1 (fv32 (gr.vreg t a))
    ((x.setV t c (BitVec.ofNat 32 sc.1)).setV t d (BitVec.ofNat 32 e.1)).flags (sc.2 ||| e.2))

/-- The vector reduction over the active threads in ascending index (R67); its result in every active thread. -/
def Group.reduceSum (gr : Group) (d a : Nat) : Group :=
  let r := tree32 (gr.threads.map (fun t => gr.vreg t a))
  gr.mapThreads (fun x t => (x.setV t d r.1).flags r.2)

/-- Whether the registers of a vector operation exist (R106, R110). -/
def vecRegsOk (op : VecOp) (k : KDesc) (d a b c : Nat) : Bool :=
  match op with
  | .fadd | .fsub | .fmul | .fmin | .fmax => k.vOk d && k.vOk a && k.vOk b
  | .ffma => k.vOk d && k.vOk a && k.vOk b && k.vOk c
  | .fcmp _ => decide (d < 8) && k.vOk a && k.vOk b
  | .fsel => k.vOk d && k.vOk a && k.vOk b && decide (c < 8)
  | .cvt dst src _ => k.elemOk (fmtSize dst) d && k.elemOk (fmtSize src) a
  | .int32 _ => k.vOk d && k.vOk a && k.vOk b
  | .int64 _ => k.pairOk d && k.pairOk a && k.pairOk b
  | .icmp _ _ => decide (d < 8) && k.vOk a && k.vOk b
  | .redSum => k.vOk d && k.vOk a
  | .mxScale _ => k.vOk d && k.vOk a && k.vOk c

/-- The effect of a vector operation on the group's registers. -/
def vecRun (op : VecOp) (gr : Group) (d a b c : Nat) : Group :=
  match op with
  | .fadd => gr.mapF d (fun g t => add32 (g.vreg t a) (g.vreg t b))
  | .fsub => gr.mapF d (fun g t => sub32 (g.vreg t a) (g.vreg t b))
  | .fmul => gr.mapF d (fun g t => mul32 (g.vreg t a) (g.vreg t b))
  | .ffma => gr.mapF d (fun g t => fma32 (g.vreg t a) (g.vreg t b) (g.vreg t c))
  | .fmin => gr.mapF d (fun g t => min32 (g.vreg t a) (g.vreg t b))
  | .fmax => gr.mapF d (fun g t => max32 (g.vreg t a) (g.vreg t b))
  | .fcmp o => gr.mapP d (fun g t => cmp32 o (g.vreg t a) (g.vreg t b))
  | .fsel => gr.mapF d (fun g t => (if (g.pred c).getLsbD t then g.vreg t a else g.vreg t b, 0#32))
  | .cvt dst src sat => gr.mapThreads (fun x t =>
      let r := convertCode dst src sat (gr.elem (fmtSize src) t a)
      (x.setElem (fmtSize dst) t d r.1).flags r.2)
  | .int32 o => gr.mapF d (fun g t => (BitVec.ofNat 32 (intOp 32 o (g.vreg t a).toNat (g.vreg t b).toNat), 0#32))
  | .int64 o => gr.mapThreads (fun x t =>
      x.setV64 t d (BitVec.ofNat 64 (intOp 64 o (gr.vreg64 t a).toNat (gr.vreg64 t b).toNat)))
  | .icmp o sg => gr.mapP d (fun g t => (intCmp 32 o sg (g.vreg t a).toNat (g.vreg t b).toNat, 0#32))
  | .redSum => gr.reduceSum d a
  | .mxScale f => gr.mxQuantise f d a c

/-- VECTOR_ARITH (R55, R66, R67). -/
def execVectorArith (g : GroupRef) (op : VecOp) (d a b c : Nat) (s : State) : Host.Outcome State Fault Refusal :=
  .next (s.issue g (fun p gr =>
    if vecRegsOk op (s.kernelOf g.cluster p gr) d a b c then s.stepOn g p (vecRun op gr d a b c) else s))

/-- The effect of a scalar operation on the group's scalar file. -/
def scalarRun (op : ScalarOp) (gr : Group) (d a b : Nat) : Group :=
  match op with
  | .int64 o => gr.setS d (BitVec.ofNat 64 (intOp 64 o (gr.sreg a).toNat (gr.sreg b).toNat))
  | .cmp o sg => gr.setS d (BitVec.ofNat 64 (b2n (intCmp 64 o sg (gr.sreg a).toNat (gr.sreg b).toNat)))
  | .mov => gr.setS d (gr.sreg a)
  | .imm v => gr.setS d v
  | .aswRead => gr.setS d (gr.asw.setWidth 64)
  | .aswClear => { gr with asw := gr.asw &&& ~~~((gr.sreg a).setWidth 32) }

/-- SCALAR_ARITH (R56, R109). -/
def execScalarArith (g : GroupRef) (op : ScalarOp) (d a b : Nat) (s : State) : Host.Outcome State Fault Refusal :=
  .next (s.issue g (fun p gr =>
    if d < 64 ∧ a < 64 ∧ b < 64 then s.stepOn g p (scalarRun op gr d a b) else s))

/-! ## The local store (R111, R116, R119, R126) -/

/-- LS_LOAD (R86, R111, R116, R119). -/
def execLsLoad (g : GroupRef) (log2Size d a : Nat) (s : State) : Host.Outcome State Fault Refusal :=
  .next (s.issue g (fun p gr =>
    let k := s.kernelOf g.cluster p gr
    if ¬ (k.elemOk log2Size d && k.vOk a) then s
    else if ¬ lsAddrsOk k gr log2Size a then s.groupFault g p gr KF.BAD_ADDRESS
    else
      let t := s.tile g.cluster p
      if t.loadStalls (lsRanges gr log2Size a) then s
      else s.stepOn g p (gr.mapThreads (fun x i =>
        x.setElem log2Size i d (leNat (getBytes t.ls (gr.vreg i a).toNat (2 ^ log2Size)))))))

/-- LS_STORE (R86, R111, R116, R119): threads write in ascending index. -/
def execLsStore (g : GroupRef) (log2Size a src : Nat) (s : State) : Host.Outcome State Fault Refusal :=
  .next (s.issue g (fun p gr =>
    let k := s.kernelOf g.cluster p gr
    if ¬ (k.elemOk log2Size src && k.vOk a) then s
    else if ¬ lsAddrsOk k gr log2Size a then s.groupFault g p gr KF.BAD_ADDRESS
    else
      let t := s.tile g.cluster p
      if t.storeStalls (lsRanges gr log2Size a) then s
      else s.stepLs g p gr (gr.threads.foldl (fun (m : Tab Byte) i =>
        putBytes m (gr.vreg i a).toNat (leBytes (2 ^ log2Size) (gr.elem log2Size i src))) t.ls)))

/-- The new value of an atomic's word of n bits (R126). -/
def atomicNew (op : AtomicOp) (n old v cmp : Nat) : Nat :=
  match op with
  | .add => (old + v) % 2 ^ n
  | .xchg => v
  | .cas => if old = cmp then v else old
  | .and => Nat.land old v
  | .or => Nat.lor old v
  | .smin => if signedOf n old ≤ signedOf n v then old else v
  | .smax => if signedOf n old ≤ signedOf n v then v else old
  | .umin => min old v
  | .umax => max old v

/-- One thread's atomic: the store and the group after it; old values are returned in d. -/
def atomicStep (op : AtomicOp) (e d a src cmp : Nat) (gr0 : Group) (acc : Tab Byte × Group) (t : Nat) : Tab Byte × Group :=
  let x := (gr0.vreg t a).toNat
  let old := leNat (getBytes acc.1 x (2 ^ e))
  let new := atomicNew op (8 * 2 ^ e) old (gr0.elem e t src) (gr0.elem e t cmp)
  (putBytes acc.1 x (leBytes (2 ^ e) new), acc.2.setElem e t d old)

/-- LS_ATOMIC (R126): aligned 32-bit or 64-bit words, in ascending thread index. -/
def execLsAtomic (g : GroupRef) (op : AtomicOp) (wide : Bool) (d a src cmp : Nat) (s : State) :
    Host.Outcome State Fault Refusal :=
  .next (s.issue g (fun p gr =>
    let e := if wide then 3 else 2
    let k := s.kernelOf g.cluster p gr
    if ¬ (k.elemOk e d && k.vOk a && k.elemOk e src && (op ≠ .cas || k.elemOk e cmp)) then s
    else if ¬ lsAddrsOk k gr e a then s.groupFault g p gr KF.BAD_ADDRESS
    else
      let t := s.tile g.cluster p
      if t.storeStalls (lsRanges gr e a) then s
      else
        let r := gr.threads.foldl (atomicStep op e d a src cmp gr) (t.ls, gr)
        s.stepLs g p r.2 r.1))

/-! ## Global memory (R117, R118) -/

/-- GLOBAL_LOAD (R117): through L1. -/
def execGlobalLoad (g : GroupRef) (log2Size d a : Nat) (evict : List Nat) (s : State) : Host.Outcome State Fault Refusal :=
  .next (s.issue g (fun p gr => s.issueLoad g p gr log2Size d a false evict))

/-- LD_NC (R118): past L1. -/
def execLdNc (g : GroupRef) (log2Size d a : Nat) (s : State) : Host.Outcome State Fault Refusal :=
  .next (s.issue g (fun p gr => s.issueLoad g p gr log2Size d a true []))

/-- The elements of a group store: address, bytes, value, in ascending thread index. -/
def Group.storeEls (gr : Group) (n a src : Nat) : List (Nat × Nat × Nat) :=
  gr.threads.map (fun t => (gr.gaddr t a, 2 ^ n, gr.elem n t src))

/-- GLOBAL_STORE (R117): written through; held L1 sectors are updated. -/
def execGlobalStore (g : GroupRef) (log2Size a src : Nat) (s : State) : Host.Outcome State Fault Refusal :=
  .next (s.issue g (fun p gr =>
    let k := s.kernelOf g.cluster p gr
    if ¬ (k.elemOk log2Size src && k.pairOk a) then s
    else if ¬ s.gAddrsOk gr (2 ^ log2Size) a true then s.groupFault g p gr KF.BAD_ADDRESS
    else
      let els := gr.storeEls log2Size a src
      let h := match s.launchOf g.cluster p gr with | some l => l.handle | none => 0#64
      let secs := (els.map (fun e => e.1 / 32)).eraseDups
      let (s, ids) := s.sendStores g.cluster (s.classAt g.cluster h) els (groupSectors (g.ltile = 0) secs)
      let t := s.tile g.cluster p
      (s.setTile g.cluster p { t.noFill (fun x => secs.contains x) with l1 := storeL1 t.l1 els }).stepOn g p
        { gr with stores := gr.stores ++ ids }))

/-- The rounds of a group reduction: a request carries one value for an element, so a repeated element opens a further
round, in ascending thread index. -/
def reduceRounds : List (Nat × Nat × Nat) → List (List (Nat × Nat × Nat)) → List (List (Nat × Nat × Nat))
  | [], acc => acc
  | e :: t, acc =>
    let free := acc.findIdx (fun (r : List (Nat × Nat × Nat)) => r.all (fun x => x.1 ≠ e.1))
    reduceRounds t (if free < acc.length then acc.modify free (fun r => r ++ [e]) else acc ++ [[e]])

/-- The requests of one round. -/
def roundReds (lead : Bool) (c cls code : Nat) (els : List (Nat × Nat × Nat)) : List CommitOp :=
  (groupSectors lead ((els.map (fun e => e.1 / 32)).eraseDups)).map (fun (q : Nat × BitVec 8) =>
    let (d, b) := storeImage q.1 els
    .red ⟨0, c, cls, q.1, q.2, d, keepSectors b q.2, code⟩)

/-- GLOBAL_REDUCTION (R100, R117, R249): requests are held in the commit buffer. -/
def execGlobalReduction (g : GroupRef) (op : RedOp) (a src : Nat) (s : State) : Host.Outcome State Fault Refusal :=
  .next (s.issue g (fun p gr =>
    let k := s.kernelOf g.cluster p gr
    let e := if redSize op.code = 8 then 3 else 2
    if ¬ (k.elemOk e src && k.pairOk a && decide (op.code % 16 ≤ 6)) then s
    else if ¬ s.gAddrsOk gr (2 ^ e) a true then s.groupFault g p gr KF.BAD_ADDRESS
    else
      let h := match s.launchOf g.cluster p gr with | some l => l.handle | none => 0#64
      let rounds := reduceRounds (gr.storeEls e a src) []
      s.placeCommit g p gr (rounds.flatMap (roundReds (g.ltile = 0) g.cluster (s.classAt g.cluster h) op.code))))

/-- CONSTANT_LOAD (R129): offsets from the kernel's constants; beyond the program's constant segment the value is left
open. -/
def execConstantLoad (g : GroupRef) (log2Size d a : Nat) (s : State) : Host.Outcome State Fault Refusal :=
  .next (s.issue g (fun p gr =>
    let k := s.kernelOf g.cluster p gr
    if ¬ (k.elemOk log2Size d && k.vOk a) then s
    else if ¬ gr.threads.all (fun t => (gr.vreg t a).toNat % 2 ^ log2Size = 0) then s.groupFault g p gr KF.BAD_ADDRESS
    else
      match (s.launchOf g.cluster p gr).bind (fun l => (s.cluster g.cluster).prog? l.gen) with
      | none => s
      | some pr =>
        let r := gr.threads.foldl (fun (acc : State × Group) t =>
          let x := k.constBase * 256 + (gr.vreg t a).toNat
          if x + 2 ^ log2Size ≤ pr.constBytes then
            (acc.1, acc.2.setElem log2Size t d (leNat (getBytes pr.consts x (2 ^ log2Size))))
          else
            let v := acc.1.fresh (2 ^ 64)
            (v.1, acc.2.setElem log2Size t d v.2)) (s, gr)
        r.1.stepOn g p r.2))

/-- INVAL_L1 (R118). -/
def execInvalL1 (g : GroupRef) (s : State) : Host.Outcome State Fault Refusal :=
  .next (s.issue g (fun p gr => (s.setTile g.cluster p (s.tile g.cluster p).invalL1).stepOn g p gr))

/-- FENCE_GL (R120, R246): every earlier store and reduction that the group has sent is acknowledged, its range operations
are over. -/
def execFenceGl (g : GroupRef) (s : State) : Host.Outcome State Fault Refusal :=
  .next (s.issue g (fun p gr =>
    if gr.stores = [] ∧ ¬ s.ul.ranges.any (fun r => r.group = some g) then s.stepOn g p gr else s))

/-- FENCE_LS (R120): a local-store access has taken effect when its instruction has. -/
def execFenceLs (g : GroupRef) (s : State) : Host.Outcome State Fault Refusal :=
  .next (s.issue g (fun p gr => s.stepOn g p gr))

/-! ## Divergence (R121 to R124) -/

/-- Every thread of the active path takes a branch (R122): a backward one changes places with a pending path. -/
def Group.take (gr : Group) (target : BitVec 24) : Group :=
  match gr.stack with
  | top :: rest =>
    if target.toNat ≤ gr.pc.toNat ∧ top.pending then
      { gr with active := top.mask, pc := top.pc, stack := { top with mask := gr.active, pc := target } :: rest }
    else { gr with pc := target }
  | [] => { gr with pc := target }

/-- The stack a divergent branch pushes onto: a matching reconvergence point on top is reused (R121). -/
def Group.reconvStack (gr : Group) (reconv : BitVec 24) : List MaskEntry :=
  match gr.stack with
  | top :: _ => if top.pending = false ∧ top.pc = reconv then gr.stack else ⟨false, reconv, gr.active⟩ :: gr.stack
  | [] => [⟨false, reconv, gr.active⟩]

/-- BRC (R121 to R123). -/
def execBrc (g : GroupRef) (p target reconv : Nat) (s : State) : Host.Outcome State Fault Refusal :=
  .next (s.issue g (fun ph gr =>
    if 8 ≤ p then s
    else
      let taken := gr.active &&& gr.pred p
      let fall := gr.active &&& ~~~(gr.pred p)
      if taken = 0#64 then s.stepOn g ph gr
      else if fall = 0#64 then s.setGroup g.cluster ph g.slot (gr.take (BitVec.ofNat 24 target)).fetch
      else
        let st := ⟨true, BitVec.ofNat 24 target, taken⟩ :: gr.reconvStack (BitVec.ofNat 24 reconv)
        if 32 < st.length then s.groupFault g ph gr KF.MASK_OVERFLOW
        else s.stepOn g ph { gr with active := fall, stack := st }))

/-- BACKWARD_BRANCH (R122): a branch that every thread of the active path takes. -/
def execBackwardBranch (g : GroupRef) (target : Nat) (s : State) : Host.Outcome State Fault Refusal :=
  .next (s.issue g (fun p gr => s.setGroup g.cluster p g.slot (gr.take (BitVec.ofNat 24 target)).fetch))

/-- The path that goes on when no active thread remains: the nearest entry of the stack that holds one (R124). -/
def Group.refill (gr : Group) : List MaskEntry → Group
  | [] => { gr with active := 0#64, stack := [], ended := true }
  | e :: t => if e.mask = 0#64 then gr.refill t else { gr with active := e.mask, pc := e.pc, stack := t }

/-- EXIT (R124): active threads leave for good. -/
def Group.exitThreads (gr : Group) : Group :=
  let gone := gr.active
  let st := gr.stack.map (fun e => { e with mask := e.mask &&& ~~~gone })
  ({ gr with live := gr.live &&& ~~~gone }).refill st

/-- Every group of a launch that has not ended waits at barrier n: they go on (R128). -/
def Tile.releaseBar (t : Tile) (launch : Nat) : Tile :=
  let mine := t.groups.filter (fun (e : Nat × Group) => e.2.launch = launch && !e.2.ended)
  match mine with
  | [] => t
  | (_, g0) :: _ =>
    if g0.atBar.isSome ∧ mine.all (fun (e : Nat × Group) => e.2.atBar = g0.atBar) then
      { t with groups := t.groups.map (fun (e : Nat × Group) =>
          if e.2.launch = launch && !e.2.ended then (e.1, { e.2 with atBar := none }) else e) }
    else t

/-- EXIT (R114, R115, R124, R127, R128). -/
def execExit (g : GroupRef) (s : State) : Host.Outcome State Fault Refusal :=
  .next (s.issue g (fun p gr =>
    let s := s.setGroup g.cluster p g.slot gr.exitThreads.fetch
    s.putTile g.cluster p ((s.tile g.cluster p).releaseBar gr.launch).sweepEnded))

/-! ## Barriers and locks (R127, R128) -/

/-- BAR (R125, R128). -/
def execBar (g : GroupRef) (n : Nat) (s : State) : Host.Outcome State Fault Refusal :=
  .next (s.issue g (fun p gr =>
    if 3 < n then s
    else if ¬ gr.whole then s.groupFault g p gr KF.DIVERGED_BARRIER
    else
      let s := s.stepOn g p { gr with atBar := some n }
      s.setTile g.cluster p ((s.tile g.cluster p).releaseBar gr.launch)))

/-- The tag of a thread's lock. -/
def lockTag (slot t : Nat) : Nat := 2 ^ 31 + slot * 64 + t

/-- One thread's acquire: store, held locks, predicate. -/
def lockStep (slot a pr : Nat) (gr0 : Group) (acc : Tab Byte × List Lock × Group) (t : Nat) : Tab Byte × List Lock × Group :=
  let x := (gr0.vreg t a).toNat
  let b := BitVec.ofNat 64 (2 ^ t)
  if leNat (getBytes acc.1 x 4) = 0 ∧ acc.2.1.length < 64 then
    (putBytes acc.1 x (leBytes 4 (lockTag slot t)), acc.2.1 ++ [⟨x, slot, t, gr0.launch⟩], acc.2.2.setP pr (acc.2.2.pred pr ||| b))
  else (acc.1, acc.2.1, acc.2.2.setP pr (acc.2.2.pred pr &&& ~~~b))

/-- LOCK_ACQ (R127). -/
def execLockAcq (g : GroupRef) (a p : Nat) (s : State) : Host.Outcome State Fault Refusal :=
  .next (s.issue g (fun ph gr =>
    let k := s.kernelOf g.cluster ph gr
    if ¬ (k.vOk a && decide (p < 8)) then s
    else if ¬ lsAddrsOk k gr 2 a then s.groupFault g ph gr KF.BAD_ADDRESS
    else
      let t := s.tile g.cluster ph
      if t.storeStalls (lsRanges gr 2 a) then s
      else
        let r := gr.threads.foldl (lockStep g.slot a p gr) (t.ls, t.locks, gr)
        (s.setTile g.cluster ph { t with ls := r.1, locks := r.2.1 }).stepOn g ph r.2.2))

/-- One thread's release; none where the word does not hold its tag. -/
def unlockStep (slot a : Nat) (gr : Group) (acc : Option (Tab Byte × List Lock)) (t : Nat) : Option (Tab Byte × List Lock) :=
  match acc with
  | none => none
  | some (ls, locks) =>
    let x := (gr.vreg t a).toNat
    if leNat (getBytes ls x 4) = lockTag slot t then
      some (putBytes ls x (leBytes 4 0), locks.filter (fun (l : Lock) => !(l.addr = x && l.slot = slot && l.thread = t)))
    else none

/-- LOCK_REL (R127). -/
def execLockRel (g : GroupRef) (a : Nat) (s : State) : Host.Outcome State Fault Refusal :=
  .next (s.issue g (fun p gr =>
    let k := s.kernelOf g.cluster p gr
    if ¬ k.vOk a then s
    else if ¬ lsAddrsOk k gr 2 a then s.groupFault g p gr KF.BAD_ADDRESS
    else
      let t := s.tile g.cluster p
      if t.storeStalls (lsRanges gr 2 a) then s
      else
        match gr.threads.foldl (unlockStep g.slot a gr) (some (t.ls, t.locks)) with
        | none => s.groupFault g p gr KF.LOCK_NOT_HELD
        | some r => (s.setTile g.cluster p { t with ls := r.1, locks := r.2 }).stepOn g p gr))

/-- SHREADY (R115): the fresh launch declares its shared area filled. -/
def execShready (g : GroupRef) (s : State) : Host.Outcome State Fault Refusal :=
  .next (s.issue g (fun p gr =>
    let t := s.tile g.cluster p
    let ls : List Launch := t.launches.map (fun (l : Launch) => if l.num = gr.launch then { l with shready := true } else l)
    (s.setTile g.cluster p { t with launches := ls }).stepOn g p gr))

end Sys2Proof.Machine
end

