-- ==== Sys2Proof/Machine/I3cTarget.lean ====
section
/-! DEFINITION. Board management over I3C (16_pins_test.md R480 to R482). -/

namespace Sys2Proof.Machine

/-- The provisioned ID (R480): bits 47:33 0x2B71, bit 32 one, bits 31:0 of the unique device ID. -/
def State.i3cPid (s : State) : Nat := 0x2B71 * 2 ^ 33 + 2 ^ 32 + (s.regAt Off.CFG_UID_LO).toNat

/-- The registers mirrored in the telemetry block: first index, registers in order (Table 16-7). -/
def i3cRegs : List (Nat × List Nat) := [
  (0x0000, [Off.CFG_UID_LO, Off.CFG_UID_HI]),
  (0x0008, [Off.CFG_DIE_STRAPS]),
  (0x000C, [Off.FLT_STATUS]),
  (0x0010, [Off.HIF_STATUS]),
  (0x0014, [Off.BLT_RING]),
  (0x0018, [Off.THM_TEMP, Off.THM_STATUS]),
  (0x0020, [Off.PWR_STATUS, Off.PWR_SUPPLY]),
  (0x0028, [Off.FLT_CAPTURE_LO, Off.FLT_CAPTURE_HI]),
  (0x0030, [Off.JRN_SEQ_LO, Off.JRN_SEQ_HI])]

/-- The mirrored register under an index, and the byte of it. -/
def i3cReg? (i : Nat) : List (Nat × List Nat) → Option (Nat × Nat)
  | [] => none
  | (b, rs) :: t =>
    if b ≤ i ∧ i < b + 4 * rs.length then (rs[(i - b) / 4]?).map (fun o => (o, (i - b) % 4)) else i3cReg? i t

/-- The record in a tail slot: entry number c occupies slot c mod 64 (R482). -/
def State.tailSlot (s : State) (j : Nat) : List Byte :=
  let n := s.jrn.tail.length
  let first := s.jrn.tailCount - n
  match (List.range n).find? (fun k => (first + k) % 64 = j) with
  | some k => ((s.jrn.tail[k]?).map JRec.bytes).getD (List.replicate 64 0#8)
  | none => List.replicate 64 0#8

/-- The byte at a telemetry index (Table 16-7); other indices read zero (R481). -/
def State.i3cByte (s : State) (i : Nat) : Byte :=
  match i3cReg? i i3cRegs with
  | some (off, k) => BitVec.ofNat 8 ((s.regView off).toNat / 2 ^ (8 * k))
  | none =>
    if 0x0100 ≤ i ∧ i < 0x0200 then
      BitVec.ofNat 8 ((s.regView (Off.THM_HK ((i - 0x0100) / 4))).toNat / 2 ^ (8 * ((i - 0x0100) % 4)))
    else if 0x0FFC ≤ i ∧ i < 0x1000 then BitVec.ofNat 8 (s.jrn.tailCount / 2 ^ (8 * (i - 0x0FFC)))
    else if 0x1000 ≤ i ∧ i < 0x2000 then
      let j := (i - 0x1000) / 64
      let bytes := match s.i3c.captured with
        | some (k, b) => if k = j then b else s.tailSlot j
        | none => s.tailSlot j
      bytes.getD ((i - 0x1000) % 64) 0#8
    else 0#8

/-- A read that starts at a tail slot's first byte captures the slot whole (R482). -/
def State.i3cCapture (s : State) : State :=
  let i := s.i3c.index.toNat
  if 0x1000 ≤ i ∧ i < 0x2000 ∧ (i - 0x1000) % 64 = 0 then
    let j := (i - 0x1000) / 64
    { s with i3c := { s.i3c with captured := some (j, s.tailSlot j) } }
  else s

/-- Read one byte at the index, which advances. -/
def State.i3cTake (s : State) : State :=
  let i := s.i3c.index.toNat
  { s with i3c := { s.i3c with out := s.i3c.out ++ [s.i3cByte i], index := s.i3c.index + 1#16 } }

/-- n bytes read one after the other. -/
def State.i3cTakeN : Nat → State → State
  | 0, s => s
  | n + 1, s => State.i3cTakeN n s.i3cTake

/-- I3C_ENTDAA (R480): a target without a dynamic address takes the one assigned; it answers with its provisioned ID.
The target works whenever VAUX is in range. -/
def execI3cEntdaa (addr : Nat) (s : State) : Host.Outcome State Fault Refusal :=
  if s.pins.vaux ∧ s.i3c.addr = none then
    .next { s with i3c := { s.i3c with addr := some (addr % 128), out := (leBytes 6 s.i3cPid).reverse } }
  else .next s

/-- I3C_COMMON_COMMAND (R480): RSTDAA drops the address; ENEC and DISEC set the event enables; GETPID answers the
provisioned ID, most significant byte first; the other mandatory reads answer bytes this specification does not give
(PRESUMED: the codes are MIPI's; log entry 8). -/
def execI3cCommonCommand (code : Byte) (direct : Bool) (data : List Byte) (s : State) :
    Host.Outcome State Fault Refusal :=
  if !s.pins.vaux then .next s
  else if direct ∧ s.i3c.addr = none then .next s
  else if code = 0x06#8 then .next { s with i3c := { s.i3c with addr := none } }
  else if code = 0x00#8 ∨ code = 0x80#8 then .next { s with i3c := { s.i3c with events := s.i3c.events || !data.isEmpty } }
  else if code = 0x01#8 ∨ code = 0x81#8 then .next { s with i3c := { s.i3c with events := false } }
  else if code = 0x8D#8 then .next { s with i3c := { s.i3c with out := (leBytes 6 s.i3cPid).reverse } }
  else if code = 0x8E#8 ∨ code = 0x8F#8 then
    .next { s with i3c := { s.i3c with out := [Config.i3cByte code.toNat 0] } }
  else if code = 0x90#8 then
    .next { s with i3c := { s.i3c with out := [Config.i3cByte code.toNat 0, Config.i3cByte code.toNat 1] } }
  else .next s

/-- I3C_PRIVATE_WRITE (R481): two bytes set the index, high byte first. -/
def execI3cPrivateWrite (hi lo : Byte) (s : State) : Host.Outcome State Fault Refusal :=
  if s.pins.vaux then
    .next { s with i3c := { s.i3c with index := BitVec.ofNat 16 (hi.toNat * 256 + lo.toNat), captured := none } }
  else .next s

/-- I3C_PRIVATE_READ (R481, R482): n bytes from the index onward; the index advances with each byte. -/
def execI3cPrivateRead (n : Nat) (s : State) : Host.Outcome State Fault Refusal :=
  .next (if s.pins.vaux then
      let s := s.i3cCapture
      State.i3cTakeN n { s with i3c := { s.i3c with out := [] } }
    else s)

end Sys2Proof.Machine
end

