-- ==== Sys2Proof/Machine/Train.lean ====
section
/-! DEFINITION. RUN_PIPELINE and adapter training (12_host.md R361; 06_pipeline.md R192 to R199). -/

namespace Sys2Proof.Machine

/-! ## RUN_PIPELINE -/

/-- The partition of a pipeline is in the image and not loaded (state code 0x20, R390). -/
def State.notLoaded (s : State) (p : Nat) : Bool :=
  match tabFind s.ppl.cfg p with
  | some g => g.pipe && s.partGen p = 0
  | none => false

/-- Whether a partition owns a pipeline without KV state. -/
def State.plainPipe (s : State) (p : Nat) : Bool :=
  (match tabFind s.ppl.cfg p with
    | some g => g.pipe
    | none => false) && !s.keepsKv p

def runCheck (s : State) (c : Cmd) : Verdict :=
  let p := c.f 2 63 61
  if s.notLoaded p then .refuse St.STATE 0x20
  else if ¬ s.plainPipe p then .refuse St.INVALID 0
  else if s.flag (Fld.PPL_PART_STAT_DEGRADED p) then .refuse St.FAULT 0
  else .ok

/-- RUN_PIPELINE (R175, R361): rows without a sequence, entering as the forming block has room. -/
def execRunPipeline (sq cid : Nat) (s : State) : Host.Outcome State Fault Refusal :=
  .next (s.accept sq cid 0x20 runCheck (fun c => c.f 2 15 0 + 1) (fun s c => s.feedPipe (c.f 2 63 61)))

/-! ## The adapter (R194, Tables 6-22, 6-23) -/

def up256 (n : Nat) : Nat := (n + 255) / 256 * 256

/-- A matrix of an adapter: layer, step, widths, scale, offsets of its arrays and its gradients. -/
structure AMat where
  layer : Nat
  step : Nat
  din : Nat
  dout : Nat
  aOff : Nat
  gOff : Nat
deriving DecidableEq, Repr

/-- An adapter: matrices, rank, header numbers. -/
structure Adapter where
  rank : Nat
  lr : W32
  mu : W32
  decay : W32
  clip : W32
  steps : Nat
  mats : List AMat
deriving DecidableEq, Repr

def State.devWord (s : State) (a : Nat) : W64 := BitVec.ofNat 64 (s.devNat a 8)

/-- FP32 that is finite and at least zero in value. -/
def nonNeg (w : W32) : Bool := (fv32 w).isFin && ((fv32 w).isZero || !(fv32 w).neg?)

/-- The adapter at an address, where its header and entries are well formed. -/
def State.adapter? (s : State) (a : Nat) : Option Adapter :=
  let w := fun i => s.devWord (a + 8 * i)
  let nmat := bitsOf (w 0) 31 16
  let rank := bitsOf (w 0) 15 8
  let half := fun (x : W64) (hi : Bool) => (if hi then (x >>> 32) else x).setWidth 32
  let e := fun i k => s.devWord (a + 256 + 32 * i + 8 * k)
  let lr := half (w 1) true
  let mu := half (w 1) false
  let decay := half (w 2) true
  if a % 4096 = 0 && s.hbmRange a (256 + 32 * nmat) && bitsOf (w 0) 63 32 = 0x41444150 && decide (1 ≤ nmat)
      && decide (nmat ≤ 512) && decide (1 ≤ rank) && decide (rank ≤ 128) && bitsOf (w 0) 7 0 = 0
      && nonNeg lr && nonNeg mu && (fv32 mu).lt (.ofInt 1) && nonNeg decay
      && (List.range 28).all (fun i => w (4 + i) = 0#64)
      && (List.range nmat).all (fun i => bitsOf (e i 0) 21 0 = 0 && bitsOf (e i 1) 31 0 = 0
          && (e i 2).toNat % 256 = 0 && (e i 3).toNat % 256 = 0) then
    some ⟨rank, lr, mu, decay, half (w 2) false, (w 3).toNat, (List.range nmat).map (fun i =>
      ⟨bitsOf (e i 0) 63 56, bitsOf (e i 0) 55 50, bitsOf (e i 0) 49 36 + 1, bitsOf (e i 0) 35 22 + 1,
        (e i 2).toNat, (e i 3).toNat⟩)⟩
  else none

/-- Bytes of A and of B. -/
def AMat.aBytes (m : AMat) (r : Nat) : Nat := 4 * r * m.din
def AMat.bBytes (m : AMat) (r : Nat) : Nat := 4 * r * m.dout

/-- Offsets of A, B and their momenta from DADDR. -/
def AMat.bOff (m : AMat) (r : Nat) : Nat := up256 (m.aOff + m.aBytes r)
def AMat.maOff (m : AMat) (r : Nat) : Nat := up256 (m.bOff r + m.bBytes r)
def AMat.mbOff (m : AMat) (r : Nat) : Nat := up256 (m.maOff r + m.aBytes r)

/-- The arrays of an adapter as ranges from DADDR. -/
def Adapter.arrays (x : Adapter) : List Range :=
  x.mats.flatMap (fun m => [(m.aOff, m.aBytes x.rank), (m.bOff x.rank, m.bBytes x.rank),
    (m.maOff x.rank, m.aBytes x.rank), (m.mbOff x.rank, m.bBytes x.rank)])

def rangesApart : List Range → Bool
  | [] => true
  | x :: t => t.all (fun y => !x.overlaps y) && rangesApart t

/-- Whether a layer's step is a PROJ step of the pipeline. -/
def State.isProj (s : State) (p layer step : Nat) : Bool :=
  match routeFor (s.routes p (s.partGen p)) layer step with
  | some r => (match maskList (rtCmask r) with
      | c :: _ => s.fld (Fld.PPL_STAGE_ROLE c) = 3
      | [] => false)
  | none => false

/-- The checks of R194. -/
def State.adapterOk (s : State) (p a gBase gBytes : Nat) : Bool :=
  match s.adapter? a with
  | none => false
  | some x =>
    let rs := x.arrays.map (fun r => (a + r.1, r.2))
    x.mats.all (fun m => s.isProj p m.layer m.step) && rangesApart x.arrays
      && rs.all (fun r => s.hbmRange r.1 r.2 && !Range.overlaps r (gBase, 512 * gBytes))

/-! ## Training blocks (R193) -/

/-- The pair index of each row, in the reference layout: bytes 4 to 7. -/
def State.pairIndices (s : State) (haddr inBytes rows : Nat) : List Nat :=
  (List.range rows).map (fun i => leNat (getBytes s.host.mem (haddr + i * inBytes + 4) 4))

/-- Lengths of the runs of equal elements. -/
def runLengths : List Nat → List Nat
  | [] => []
  | [_] => [1]
  | a :: b :: t =>
    match runLengths (b :: t) with
    | n :: l => if a = b then (n + 1) :: l else 1 :: n :: l
    | [] => [1]

/-- Where blocks end: before a pair that would not fit whole, and at the last row. -/
def blockCuts (pairs : List Nat) : List Nat :=
  let r := pairs.foldl (fun (acc : List Nat × Nat × Nat) n =>
    let (cuts, pos, cur) := acc
    if 128 < cur + n then (cuts ++ [pos], pos + n, n) else (cuts, pos + n, cur + n)) ([], 0, 0)
  r.1 ++ [r.2.1]

def trainCheck (s : State) (c : Cmd) : Verdict :=
  let p := c.f 2 63 61
  if s.notLoaded p then .refuse St.STATE 0x20
  else if (s.train? p).isSome then .refuse St.STATE 0x1F
  else
    match tabFind s.ppl.cfg p with
    | none => .refuse St.INVALID 0
    | some g =>
      match g.train with
      | none => .refuse St.INVALID 0
      | some (_, gBase, gBytes) =>
        let pairs := runLengths (s.pairIndices (c.f 3 63 0) g.inBytes (c.f 2 15 0 + 1))
        if s.plainPipe p && s.adapterOk p (c.f 4 63 0) gBase gBytes && pairs.all (fun n => decide (n ≤ 128))
            && decide ((blockCuts pairs).length ≤ 512) then .ok
        else .refuse St.INVALID 0

/-- The step begins: its rows wait for their blocks. -/
def State.beginTrain (s : State) (c : Cmd) : State :=
  let p := c.f 2 63 61
  let pairs := runLengths (s.pairIndices (c.f 3 63 0) (s.inBytes p) (c.f 2 15 0 + 1))
  (s.setTrain p ⟨c.sq, c.cid, c.uid, blockCuts pairs, 0, 0, false, false, pairs.length⟩).feedPipe p

/-- TRAIN_STEP (R192 to R194, R197). -/
def execTrainStep (sq cid : Nat) (s : State) : Host.Outcome State Fault Refusal :=
  .next (s.accept sq cid 0x70 trainCheck (fun c => c.f 2 15 0 + 1) (fun s c => s.beginTrain c))

/-! ## The update (R195 to R199) -/

/-- Pipelines that read a trained pipeline's adapters. -/
def State.readersOf (s : State) (p : Nat) : List Nat :=
  match tabFind s.ppl.cfg p with
  | some g => (match g.train with
      | some (rd, _, _) => (List.range 8).filter (fun i => rd.testBit i)
      | none => [])
  | none => []

/-- Every block of the step has exited validly. -/
def Train.done (t : Train) : Bool := decide (t.cuts.length ≤ t.exited)

/-- TRAIN_READERS_DRAINED (R197): the readers' entries are held from the last exit on; none of their blocks is in
flight. -/
def execTrainReadersDrained (pipe : Nat) (s : State) : Host.Outcome State Fault Refusal :=
  .next (match s.train? pipe with
    | some t =>
      if t.done && !s.allEntries.any (fun e => (s.readersOf pipe).contains e.2.block.pipe) then
        s.setTrain pipe { t with holding := true, drained := true }
      else s
    | none => s)

def State.dev32 (s : State) (a : Nat) : W32 := BitVec.ofNat 32 (s.devNat a 4)

/-- Addresses of a matrix's parameters, momenta and gradients from DADDR and a partial's base: elements of A, then of
B. -/
def AMat.elems (m : AMat) (r : Nat) : List (Nat × Nat × Nat) :=
  ((List.range (r * m.din)).map (fun i => (m.aOff + 4 * i, m.maOff r + 4 * i, m.gOff + 4 * i)))
  ++ (List.range (r * m.dout)).map (fun i =>
      (m.bOff r + 4 * i, m.mbOff r + 4 * i, up256 (m.gOff + m.aBytes r) + 4 * i))

/-- A gradient: the tree over the partials in block order, over n. -/
def State.gradient (s : State) (gBase gBytes blocks n g : Nat) : W32 :=
  (div32 (tree32 ((List.range blocks).map (fun b => s.dev32 (gBase + b * gBytes + g)))).1 (nat32 n)).1

/-- Rows of the blocks that cuts give. -/
def blockRows : Nat → List Nat → List Nat
  | _, [] => []
  | last, c :: t => (c - last) :: blockRows c t

/-- Every row's loss, in row order. -/
def State.losses (s : State) (gBase gBytes : Nat) (cuts : List Nat) : List W32 :=
  (blockRows 0 cuts).zipIdx.flatMap (fun e => (List.range e.1).map (fun i => s.dev32 (gBase + e.2 * gBytes + 4 * i)))

/-- One parameter's new momentum and value. -/
def stepParam (x : Adapter) (m w g : W32) : W32 × W32 :=
  let m' := (fma32 x.mu m g).1
  (m', (sub32 w (mul32 x.lr (fma32 x.decay w m').1).1).1)

/-- The update of R196 on the gradients g of the parameters es. -/
def State.writeAdapter (s : State) (a : Nat) (x : Adapter) (es : List (Nat × Nat × Nat)) (gs : List W32) : State :=
  let s := (es.zip gs).foldl (fun (s : State) e =>
    let r := stepParam x (s.dev32 (a + e.1.2.1)) (s.dev32 (a + e.1.1)) e.2
    (s.devWrite (a + e.1.2.1) (leBytes 4 r.1.toNat)).devWrite (a + e.1.1) (leBytes 4 r.2.toNat)) s
  s.devWrite (a + 24) (leBytes 8 (x.steps + 1))

/-- The reduction, the norm, clipping, the update and the result. -/
def State.update (s : State) (pipe : Nat) (t : Train) (a gBase gBytes : Nat) (x : Adapter) : State :=
  let es := x.mats.flatMap (fun m => m.elems x.rank)
  let gs := es.map (fun e => s.gradient gBase gBytes t.cuts.length t.lossRows e.2.2)
  let q := (tree32 (gs.map (fun g => (mul32 g g).1))).1
  let norm := (sqrt32 q).1
  let loss := (tree32 (s.losses gBase gBytes t.cuts)).1
  if ¬ (gs.all (fun g => (fv32 g).isFin) && (fv32 q).isFin) then
    s.endTrain pipe St.FAULT loss.toNat norm.toNat 4
  else
    let clips := (FV.lt (.fin false 0 0) (fv32 x.clip)) && (fv32 x.clip).lt (fv32 norm)
    let f := (div32 x.clip norm).1
    let gs := if clips then gs.map (fun g => (mul32 g f).1) else gs
    (s.writeAdapter a x es gs).endTrain pipe St.OK loss.toNat norm.toNat (1 + 2 * b2n clips)

/-- TRAIN_UPDATE (R196, R197, R199): once every block has exited and the readers have drained. -/
def execTrainUpdate (pipe : Nat) (s : State) : Host.Outcome State Fault Refusal :=
  .next (match s.train? pipe, tabFind s.ppl.cfg pipe with
    | some t, some g =>
      (match g.train, s.cmdU t.uid with
        | some (_, gBase, gBytes), some c =>
          if ¬ (t.done && t.drained) then s
          else
            (match s.adapter? (c.f 4 63 0) with
              | some x => s.update pipe t (c.f 4 63 0) gBase gBytes x
              | none => s.failTrain pipe St.FAULT)
        | _, _ => s)
    | _, _ => s)

end Sys2Proof.Machine
end

