-- ==== Sys2Proof/Machine/Ledger.lean ====
section
/-! DEFINITION. The KV ledger's commands: kernel access, waits, sequence commands, copies, swaps, its registers
(07_kv_ledger.md R205 to R230). -/

namespace Sys2Proof.Machine

/-! ## Kernel access (R214, R215) -/

/-- A position of a sequence as KVADDR and KVPUT name it, checked: the sequence, its page, the page's first position. -/
def State.kvCheck (s : State) (h : W64) (w : W64) : Option (Seq × PageEntry × Nat) :=
  let pos := bitsOf w 39 22
  match s.seq? (bitsOf w 55 40), s.entryOf h with
  | some q, some e =>
    if q.state = 3 ∨ q.state = 4 ∨ q.resv ≤ pos ∨ (s.shape q.pipe).layers ≤ bitsOf w 7 0 ∨ q.pipe ≠ e.2.block.pipe then none
    else
      match s.pageOfPos q pos with
      | some (p, f, _) => if (s.pageRef p.unit).poison then none else some (q, p, f)
      | none => none
  | _, _ => none

/-- RUN and LOG2_TPP beside the address of K element (0, POS, 0). -/
def State.kvAnswer (s : State) (w : W64) (q : Seq) (p : PageEntry) (f : Nat) : W64 × W64 :=
  let h := s.shape q.pipe
  let tpp := h.tpp p.cls
  let pos := bitsOf w 39 22
  let run := min (f + tpp) q.resv - pos
  (BitVec.ofNat 64 (h.kAddr (s.unitAddr p.unit) tpp f (bitsOf w 7 0) pos), BitVec.ofNat 64 (run * 2 ^ 32 + Nat.log2 tpp))

/-- The handle of the block a group works for. -/
def State.groupHandle (s : State) (c p : Nat) (gr : Group) : W64 :=
  match s.launchOf c p gr with
  | some l => l.handle
  | none => 0#64

/-- KVADDR (R214). -/
def execKvaddr (g : GroupRef) (sd ss : Nat) (s : State) : Host.Outcome State Fault Refusal :=
  .next (s.issue g (fun p gr =>
    if 64 ≤ sd ∨ 64 ≤ ss then s
    else if sd % 2 = 1 then s.groupFault g p gr KF.ILLEGAL_INSTRUCTION
    else
      match s.kvCheck (s.groupHandle g.cluster p gr) (gr.sreg ss) with
      | none => s.groupFault g p gr KF.BAD_ADDRESS
      | some (q, e, f) =>
        let r := s.kvAnswer (gr.sreg ss) q e f
        s.stepOn g p ((gr.setS sd r.1).setS (sd + 1) r.2)))

/-- KVPUT (R100, R215): the source is read at issue, the entry released at the end of the stage operation. -/
def execKvput (g : GroupRef) (ss sa : Nat) (s : State) : Host.Outcome State Fault Refusal :=
  .next (s.issue g (fun p gr =>
    if 64 ≤ ss ∨ 64 ≤ sa then s
    else
      let w := gr.sreg ss
      match s.kvCheck (s.groupHandle g.cluster p gr) w with
      | none => s.groupFault g p gr KF.BAD_ADDRESS
      | some (q, _, _) =>
        let a := (gr.sreg sa).toNat
        let n := (s.shape q.pipe).tl
        let t := s.tile g.cluster p
        if bitsOf w 39 22 < q.len ∨ ¬ (s.kernelOf g.cluster p gr).inArea gr.priv a n then s.groupFault g p gr KF.BAD_ADDRESS
        else if t.loadStalls [(a, n)] then s
        else s.placeCommit g p gr [.kvput (bitsOf w 55 40) (bitsOf w 39 22) (bitsOf w 7 0) (getBytes t.ls a n)]))

/-! ## Waits (R211) -/

/-- RESERVATION_RETRY (R211, R222): blocks have returned to the pool. -/
def execReservationRetry (s : State) : Host.Outcome State Fault Refusal := .next s.retryAll.noteConds

/-- The wait that a command or a fed-back row stands in. -/
def State.waitNamed (s : State) (w : WaitRef) : Option LWait :=
  match w with
  | .command sq cid => s.kvl.waits.find? (fun x => x.sq = sq && x.cid = cid && decide (x.kind ≠ .fedBack))
  | .fedBack n => s.kvl.waits.find? (fun x => x.seq = n && decide (x.kind = .fedBack))

def State.starve (s : State) (n : Nat) : State := (s.raise Fld.KVL_EVENTS_STARVE).event Ev.KV_STARVE n

/-- A wait has reached its bound: a row's command ends, an OPEN or FORK has no effect, a resume stays SWAPPED. -/
def State.stallOut (s : State) (w : LWait) : State :=
  match s.cmd? w.sq w.cid with
  | none => s
  | some c =>
    match w.kind with
    | .row => (s.endSeqCmd c.uid St.NO_RESOURCE).starve w.seq
    | .fedBack => (s.endSeqCmd c.uid St.NO_RESOURCE).starve w.seq
    | .list => ((s.endSeqCmd c.uid St.NO_RESOURCE).undoOpen w.seq).starve w.seq
    | .fork => ((s.endSeqCmd c.uid St.NO_RESOURCE).undoOpen w.seq).starve w.seq
    | .resume =>
      let len := match s.seq? w.seq with | some q => q.len | none => 0
      let s := { s with kvl := { s.kvl with waits := s.kvl.waits.filter (fun x => x ≠ w) } }
      s.completeU c.uid St.NO_RESOURCE len

/-- RESERVATION_STALL_TIMEOUT (R211, R218, R225): a wait reaches STALL_MAX_US. -/
def execReservationStallTimeout (w : WaitRef) (s : State) : Host.Outcome State Fault Refusal :=
  .next (match s.waitNamed w with
    | some x => (s.stallOut x).noteConds
    | none => s)

/-! ## Opening, appending, forking (R205 to R207, R213, R218, R227) -/

def Cmd.tokens (c : Cmd) : Nat := c.f 3 44 26
def Cmd.genTokens (c : Cmd) : Nat := c.f 3 63 45

/-- Generation needs a token, and tokens are 4-byte aligned (R361, Table 12-9). -/
def Cmd.tokensOk (c : Cmd) : Bool :=
  (c.genTokens = 0 || decide (0 < c.tokens)) && (c.tokens = 0 || c.f 4 63 0 % 4 = 0)

def openCheck (s : State) (c : Cmd) : Verdict :=
  let p := c.f 2 47 45
  let h := s.shape p
  let am := s.seqClasses h (c.f 2 21 3) (c.f 2 44 41)
  let maxLen := c.f 2 40 22
  if s.seqState (c.f 2 63 48) ≠ 0 then .refuse St.STATE (s.seqState (c.f 2 63 48))
  else if s.notLoaded p then .refuse St.STATE 0x20
  else if maxLen = 0 ∨ 262144 < maxLen ∨ ¬ s.keepsKv p ∨ ¬ c.tokensOk
      ∨ 2047 < pageIndex (h.tpp am.1) (h.tpp am.2) (am.2 - am.1) (maxLen - 1) then .refuse St.INVALID 0
  else .ok

/-- A sequence comes into being, the youngest. -/
def State.newSeq (s : State) (n : Nat) (q : Seq) (c : Cmd) : State :=
  let q := { q with order := s.kvl.nextOrder, genLeft := c.genTokens, gen := if 0 < c.genTokens then some c.uid else none }
  ({ s with kvl := { s.kvl with nextOrder := s.kvl.nextOrder + 1 } }).setSeq n q

def openGo (s : State) (c : Cmd) : State :=
  let n := c.f 2 63 48
  let p := c.f 2 47 45
  let am := s.seqClasses (s.shape p) (c.f 2 21 3) (c.f 2 44 41)
  let q : Seq := ⟨1, p, c.cls, am.1, am.2, c.f 2 40 22, 0, 0, 0, 0, none, [], none, none, [], none, [], [], none⟩
  ((((s.newSeq n q c).syncKv).openList n c.sq c.cid).checkSeqCmd c.uid).noteConds

/-- SEQ_OPEN (R205 to R209, R227): the sequence, its list page, its first tokens. -/
def execSeqOpen (sq cid : Nat) (s : State) : Host.Outcome State Fault Refusal :=
  .next (s.accept sq cid 0x21 openCheck Cmd.tokens openGo)

def appendCheck (s : State) (c : Cmd) : Verdict :=
  let st := s.seqState (c.f 2 63 48)
  let left := match s.seq? (c.f 2 63 48) with | some q => q.genLeft | none => 0
  if st = 2 ∨ st = 3 then .refuse St.PREEMPTED 0
  else if st = 6 then .refuse St.FAULT 0
  else if st ≠ 1 ∨ 0 < left then .refuse St.STATE st
  else if c.tokens = 0 ∨ ¬ c.tokensOk then .refuse St.INVALID 0
  else .ok

def appendGo (s : State) (c : Cmd) : State :=
  (if 0 < c.genTokens then
    s.modSeq (c.f 2 63 48) (fun q => { q with genLeft := c.genTokens, gen := some c.uid })
   else s).noteConds

/-- SEQ_APPEND (R210, R213, R227): tokens of an OPEN sequence. -/
def execSeqAppend (sq cid : Nat) (s : State) : Host.Outcome State Fault Refusal :=
  .next (s.accept sq cid 0x22 appendCheck Cmd.tokens appendGo)

/-- Whether a sequence is OPEN with its list page and every page of its own. -/
def State.wholeSeq (s : State) (n : Nat) (q : Seq) : Bool :=
  q.list.isSome && q.fork.isNone && !s.kvl.copies.any (fun k => k.fork && k.seq = n)

def forkCheck (s : State) (c : Cmd) : Verdict :=
  let n := c.f 2 63 48
  let child := s.seqState (c.f 2 47 32)
  match s.seq? n with
  | none => .refuse St.STATE 0
  | some q =>
    let still := s.wholeSeq n q && decide (q.resv = q.len)
    if q.state = 2 ∨ q.state = 3 then .refuse St.PREEMPTED 0
    else if q.state ≠ 1 then .refuse St.STATE q.state
    else if ¬ still ∧ ¬ c.defer then .refuse St.STATE 1
    else if child ≠ 0 then .refuse St.STATE child
    else if ¬ c.tokensOk then .refuse St.INVALID 0
    else if ¬ still then .wait St.STATE 1
    else .ok

def forkGo (s : State) (c : Cmd) : State :=
  let n := c.f 2 47 32
  match s.seq? (c.f 2 63 48) with
  | none => s
  | some p =>
    let es := p.pages.take (p.pagesFor (s.shape p.pipe) p.len)
    let cls := if c.f 2 31 31 = 1 then c.cls else p.cls
    let (s, copied) := s.sharePages es
    let q : Seq := ⟨1, p.pipe, cls, p.first, p.max, p.maxLen, p.len, p.len, 0, 0, none, es, none, none, [], some copied, [],
      [], none⟩
    ((((s.newSeq n q c).syncKv).forkOn n c.sq c.cid).checkSeqCmd c.uid).noteConds

/-- SEQ_FORK (R205, R218, R227): the child shares the parent's pages. -/
def execSeqFork (sq cid : Nat) (s : State) : Host.Outcome State Fault Refusal :=
  .next (s.accept sq cid 0x23 forkCheck Cmd.tokens forkGo)

/-! ## Copies (R218, R219, R228) -/

/-- The commands that supply rows of a sequence are checked for their end. -/
def State.checkSeqCmds (s : State) (n : Nat) : State :=
  (s.host.cmds.filter (fun c => c.rowSeq = some n && c.stage = .running)).foldl (fun s c => s.checkSeqCmd c.uid) s

/-- A copy ends: data moved, the new entry in the list, the old page let go. A copy that would read a poisoned page
faults its sequence instead. -/
def State.endCopy (s : State) (k : KvCopy) (q : Seq) : State :=
  let h := s.shape q.pipe
  let tpp := h.tpp k.cls
  let f := q.pageFirst h k.page
  let bad := (s.pageRef k.old).poison
  let s := if bad then s
    else s.copyRuns (s.unitAddr k.old) (s.unitAddr k.new) (h.runs tpp f f (min k.upto (f + tpp)))
  let s := s.setPage k.seq k.page k.new
  let s := { s with kvl := { s.kvl with copies := s.kvl.copies.filter (fun (x : KvCopy) => x.id ≠ k.id) } }
  let s := s.dropSource k.old
  let s := if bad then s.faultSeq k.seq
    else if k.fork then s.checkSeqCmds k.seq
    else s.placeNext k.seq
  ((s.trimSeq k.seq).syncKv).noteConds

/-- KV_COPY_COMPLETE (R218, R219, R228). -/
def execKvCopyComplete (id : Nat) (s : State) : Host.Outcome State Fault Refusal :=
  .next (match s.kvl.copies.find? (fun k => k.id = id) with
    | some k =>
      (match s.seq? k.seq with
        | some q => s.endCopy k q
        | none => s)
    | none => s)

/-! ## Close (R220, R227) -/

def closeCheck (s : State) (c : Cmd) : Verdict :=
  let st := s.seqState (c.f 2 63 48)
  if st = 1 ∨ st = 3 ∨ st = 6 then .ok else .refuse St.STATE st

/-- A SWAPPED sequence closes at once: its resumes end, its swap blocks are freed. -/
def State.closeSwapped (s : State) (n : Nat) (q : Seq) (uid : Nat) : State :=
  let s := (s.kvl.waits.filter (fun w => w.seq = n)).foldl (fun s w => s.complete w.sq w.cid St.ABORTED q.len) s
  ((s.endSeqCmds n St.ABORTED).completeU uid St.OK q.len).releaseSeq n

/-- A sequence in the pool closes once its rows have left. -/
def State.closeResident (s : State) (n : Nat) (c : Cmd) : State :=
  let s := (s.invalidateSeq n).endSeqCmds n St.ABORTED
  let s := (s.endWait n).modSeq n (fun q =>
    { q with state := 5, fed := none, genLeft := 0, gen := none, waitCmd := some (c.sq, c.cid) })
  s.trimSeq n

def closeGo (s : State) (c : Cmd) : State :=
  let n := c.f 2 63 48
  match s.seq? n with
  | none => s
  | some q =>
    (if q.state = 3 then s.closeSwapped n q c.uid
     else if q.state = 1 && !s.wholeSeq n q then ((s.endSeqCmds n St.ABORTED).undoOpen n).completeU c.uid St.OK q.len
     else s.closeResident n c).noteConds

/-- SEQ_CLOSE (R220, R227). -/
def execSeqClose (sq cid : Nat) (s : State) : Host.Outcome State Fault Refusal :=
  .next (s.accept sq cid 0x24 closeCheck noRows closeGo)

/-! ## Pre-emption and swap-out (R223, R224) -/

def preemptCheck (s : State) (c : Cmd) : Verdict :=
  match s.seq? (c.f 2 63 48) with
  | none => .refuse St.STATE 0
  | some q =>
    if q.state ≠ 1 then .refuse St.STATE q.state
    else if ¬ s.wholeSeq (c.f 2 63 48) q then .refuse St.STATE 1
    else .ok

/-- The sequence becomes PREEMPTING: swap blocks taken, its rows invalid, its commands ended. -/
def State.preemptBy (s : State) (n : Nat) (q : Seq) (c : Cmd) (l : List (Nat × Nat)) (f : Tab Nat) : State :=
  let s := s.setSeq n { q with state := 2, swapResv := l, waitCmd := some (c.sq, c.cid) }
  let s := ({ s with kvl := { s.kvl with swapFree := f } }).invalidateSeq n
  let s := (s.endSeqCmds n St.PREEMPTED).endWait n
  let s := (s.raise Fld.KVL_EVENTS_PREEMPT).incFld Fld.KVL_COUNTS_PREEMPTS
  (((s.event Ev.KV_PREEMPT n).trimSeq n).syncKv).noteConds

def preemptGo (s : State) (c : Cmd) : State :=
  let n := c.f 2 63 48
  match s.seq? n with
  | none => s
  | some q =>
    match s.flag Fld.KVL_SWAP_SIZE_EN, buddyTakeAll s.kvl.swapFree (q.pages.map (·.cls)) with
    | true, some (l, f) => s.preemptBy n q c l f
    | _, _ => s.completeU c.uid St.NO_RESOURCE q.len

/-- SEQ_PREEMPT (R224, R226): the swap blocks are reserved at acceptance, or the command has no effect. -/
def execSeqPreempt (sq cid : Nat) (s : State) : Host.Outcome State Fault Refusal :=
  .next (s.accept sq cid 0x25 preemptCheck noRows preemptGo)

/-- The host address of the swap area. -/
def State.swapBase (s : State) : Nat :=
  (s.regAt Off.KVL_SWAP_BASE_HI).toNat * 2 ^ 32 + s.fld Fld.KVL_SWAP_BASE_LO_BASE_LO * 2 ^ 24

def State.swapAddr (s : State) (u : Nat) : Nat := s.swapBase + u * unitBytes

/-- A block is written to the swap area; its entry there. -/
def State.swapOne (s : State) (e : PageEntry) (u : Nat) : State × PageEntry :=
  let b := s.devRead (s.unitAddr e.unit) (unitBytes * 2 ^ e.cls)
  let s := ({ s with host := { s.host with mem := putBytes s.host.mem (s.swapAddr u) b } }).swapDma 0 b.length
  (s, ⟨u, e.cls, true, BitVec.ofNat 32 (crc32c b)⟩)

/-- Every block in ascending index. -/
def State.swapPages (s : State) : List (PageEntry × (Nat × Nat)) → State × List PageEntry
  | [] => (s, [])
  | (e, u) :: t =>
    let (s, x) := s.swapOne e u.1
    let (s, l) := s.swapPages t
    (s, x :: l)

/-- SWAPPED: references dropped after the last write, blocks not needed returned. -/
def State.swapOut (s : State) (n : Nat) (q : Seq) : State :=
  let (s, es) := s.swapPages (q.pages.zip q.swapResv)
  let s := q.pages.foldl (fun s e => s.dropRef e.unit) s
  let s := s.freeSwap (q.swapResv.drop q.pages.length)
  let s := s.setSeq n { q with state := 3, pages := es, swapResv := [] }
  let s := { s with kvl := { s.kvl with victim := if s.kvl.victim = some n then none else s.kvl.victim } }
  (s.endWaitCmd n St.OK).syncKv

/-- SWAP_OUT_COMPLETE (R220, R223, R228). -/
def execSwapOutComplete (seq : Nat) (s : State) : Host.Outcome State Fault Refusal :=
  .next (match s.seq? seq with
    | none => s
    | some q =>
      if q.state ≠ 2 ∨ s.rowsOfSeq seq ≠ 0 ∨ s.kvl.copies.any (fun k => k.seq = seq) then s
      else if q.pages.any (fun e => (s.pageRef e.unit).poison) then
        (((s.freeSwap q.swapResv).setSeq seq { q with swapResv := [] }).faultSeq seq).syncKv
      else s.swapOut seq q)

/-! ## Resume (R225) -/

def resumeCheck (s : State) (c : Cmd) : Verdict :=
  let st := s.seqState (c.f 2 63 48)
  if st = 3 then .ok else .refuse St.STATE st

/-- A resume takes its blocks, waits for them, or ends. -/
def State.resumeGo (s : State) (c : Cmd) : State :=
  let n := c.f 2 63 48
  match s.seq? n with
  | none => s
  | some q =>
    match buddyTakeAll s.kvl.free (q.pages.map (·.cls)) with
    | some (l, f) => (s.started c 0).startResume n c.sq c.cid l f
    | none =>
      if c.defer then
        if c.stage = .deferred then s
        else if 256 ≤ (s.host.cmds.filter (fun k => k.stage = .deferred)).length then s.completeU c.uid St.NO_RESOURCE q.len
        else (s.deferCmd c St.NO_RESOURCE 0).waitFor ⟨.resume, n, c.sq, c.cid⟩
      else if s.mayReclaim q then (s.started c 0).waitFor ⟨.resume, n, c.sq, c.cid⟩
      else s.completeU c.uid St.NO_RESOURCE q.len

/-- SEQ_RESUME (R222, R225, R227). -/
def execSeqResume (sq cid : Nat) (s : State) : Host.Outcome State Fault Refusal :=
  .next (match s.fetched sq cid 0x26 with
    | none => s
    | some c =>
      match s.verdict c resumeCheck with
      | .refuse st code => s.refuse c st code
      | _ => s.resumeGo c)

/-- Whether a swapped block reads back as it was written. -/
def State.swapCrcOk (s : State) (e : PageEntry) : Bool :=
  crc32c (getBytes s.host.mem (s.swapAddr e.unit) (unitBytes * 2 ^ e.cls)) = e.crc.toNat

/-- The pages move to the blocks that the resume holds; the data comes with them where the resume passes. -/
def State.swapBack (s : State) (n : Nat) (q : Seq) (data : Bool) : State :=
  let ps := q.pages.zip q.taken
  let s := if data then
      ps.foldl (fun s (x : PageEntry × (Nat × Nat)) =>
        (s.devWrite (s.unitAddr x.2.1) (getBytes s.host.mem (s.swapAddr x.1.unit) (unitBytes * 2 ^ x.1.cls))).swapDma 1
          (unitBytes * 2 ^ x.1.cls)) s
    else s
  let s := ps.foldl (fun s (x : PageEntry × (Nat × Nat)) => s.setRef x.2.1 ⟨1, false, 0, x.2.2, []⟩) s
  let s := s.freeSwap (q.pages.map (fun e => (e.unit, e.cls)))
  s.setSeq n { q with pages := ps.map (fun (x : PageEntry × (Nat × Nat)) => ⟨x.2.1, x.2.2, false, 0#32⟩), taken := [],
                      resv := q.len }

/-- A resume that fails its CRC or its DMA. -/
def State.swapFail (s : State) (n : Nat) (q : Seq) : State :=
  let s := ((s.swapBack n q false).raise Fld.KVL_EVENTS_SWAP_FAIL).event Ev.KV_SWAP_FAIL n
  s.faultSeq n

/-- SWAP_IN_COMPLETE (R225): OPEN again, or FAULTED. -/
def execSwapInComplete (seq : Nat) (readError : Bool) (s : State) : Host.Outcome State Fault Refusal :=
  .next (match s.seq? seq with
    | none => s
    | some q =>
      if q.state ≠ 4 then s
      else if readError || !q.pages.all (fun e => s.swapCrcOk e) then (s.swapFail seq q).syncKv
      else
        (((((s.swapBack seq q true).modSeq seq (fun q => { q with state := 1 })).endWaitCmd seq St.OK).syncKv).noteConds))

/-! ## Registers (R226, R230) -/

/-- A held _LO value and the upper half take effect together (R15). -/
def State.commitPair (s : State) (lo hi : Nat) (v : W32) : State :=
  let t := match tabFind s.pairLo lo with
    | some held => ({ s with pairLo := tabErase s.pairLo lo }).hostWrite lo held
    | none => s
  t.hostWrite hi v

/-- A write of KVL_SWAP_SIZE. -/
def State.writeSwapSize (s : State) (v : W32) : State :=
  if s.flag Fld.KVL_SWAP_SIZE_BUSY then
    (if bitsOf v 31 31 = 1 then s.raise Fld.KVL_SWAP_SIZE_EN else s)
  else
    let s := s.hostWrite Off.KVL_SWAP_SIZE v
    { s with kvl := { s.kvl with swapFree := buddyInit (s.fld Fld.KVL_SWAP_SIZE_BLOCKS) } }

/-- A write of the swap area's registers: base and size, ignored while a sequence is out of the pool. -/
def State.writeSwapArea (s : State) (off : Nat) (v : W32) : State :=
  if off = Off.KVL_SWAP_SIZE then s.writeSwapSize v
  else if s.flag Fld.KVL_SWAP_SIZE_BUSY then s
  else if off = Off.KVL_SWAP_BASE_LO then { s with pairLo := tabInsert s.pairLo off v }
  else if off = Off.KVL_SWAP_BASE_HI then s.commitPair Off.KVL_SWAP_BASE_LO off v
  else s

/-- SWAP_AREA_WRITE (R226, R15). -/
def execSwapAreaWrite (off : Nat) (v : W32) (s : State) : Host.Outcome State Fault Refusal :=
  .next (if s.linked then s.writeSwapArea off v else s)

/-- The entry of a sequence in KVL_SEQ_INFO0 to KVL_SEQ_INFO2; zero where it is FREE. -/
def State.captureSeq (s : State) (n : Nat) : State :=
  match s.seq? n with
  | none => ((s.setReg Off.KVL_SEQ_INFO0 0#32).setReg Off.KVL_SEQ_INFO1 0#32).setReg Off.KVL_SEQ_INFO2 0#32
  | some q =>
    let s := ((s.setReg Off.KVL_SEQ_INFO0 0#32).setFld Fld.KVL_SEQ_INFO0_STATE q.state).setFld Fld.KVL_SEQ_INFO0_CLASS q.cls
    let s := (s.setFld Fld.KVL_SEQ_INFO0_PIPE q.pipe).setFld Fld.KVL_SEQ_INFO0_FED (b2n q.fed.isSome)
    let s := (s.setFld Fld.KVL_SEQ_INFO0_LEN q.len).setFld Fld.KVL_SEQ_INFO1_FIRST_CLASS q.first
    let s := (s.setFld Fld.KVL_SEQ_INFO1_MAX_CLASS q.max).setFld Fld.KVL_SEQ_INFO1_RESV q.resv
    (s.setFld Fld.KVL_SEQ_INFO2_PAGES q.pages.length).setFld Fld.KVL_SEQ_INFO2_GEN_LEFT q.genLeft

/-- A write of KVL_SEQ_SEL: one snapshot of three words. -/
def State.writeSeqSel (s : State) (v : W32) : State := (s.hostWrite Off.KVL_SEQ_SEL v).captureSeq (bitsOf v 15 0)

/-- SEQ_SEL_WRITE (R230). -/
def execSeqSelWrite (v : W32) (s : State) : Host.Outcome State Fault Refusal :=
  .next (if s.linked then s.writeSeqSel v else s)

end Sys2Proof.Machine
end

