-- ==== Sys2Proof/Machine/Power.lean ====
section
/-! DEFINITION. Power, idle states and temperature: load notice, phases, caps, wakes, housekeeping, guard, cadence
(15_power_thermal.md R441 to R466; 01_stack.md R46, R49). -/

namespace Sys2Proof.Machine

/-! ## The board notice (R443, R444) -/

/-- Whether the device drives its stack: after a start, outside FAILED. -/
def State.running (s : State) : Bool := s.ready && s.pins.vddUp

/-- LOAD_NOTICE takes a code and NOTICE_STB strobes it. -/
def State.notice (s : State) (code : Nat) : State :=
  { (s.setFld Fld.PWR_STATUS_NOTICE code) with pins := { s.pins with noticeStrobes := s.pins.noticeStrobes + 1 } }

/-- BOARD_NOTICE_RAISE (R443, R444): the planned demand comes within one level of the code. -/
def execBoardNoticeRaise (demand : Nat) (s : State) : Host.Outcome State Fault Refusal :=
  let code := min 7 (demand + 1)
  .next (if s.ready ∧ demand ≤ 7 ∧ s.fld Fld.PWR_STATUS_NOTICE < code then
      let s := s.notice code
      { s with power := { s.power with demand := demand, boardRaised := true } }
    else s)

/-- BOARD_HOLD_EXPIRY (R444): the demand has stayed two levels below the code, which falls to one above it. -/
def execBoardHoldExpiry (demand : Nat) (s : State) : Host.Outcome State Fault Refusal :=
  .next (if s.ready ∧ demand + 2 ≤ s.fld Fld.PWR_STATUS_NOTICE then
      let s := s.notice (demand + 1)
      { s with power := { s.power with demand := demand, boardRaised := false } }
    else s)

/-- BOARD_NOTICE_ELAPSED (R443): current may exceed the old bound. -/
def execBoardNoticeElapsed (s : State) : Host.Outcome State Fault Refusal :=
  .next { s with power := { s.power with boardRaised := false } }

/-! ## Caps and phases (R446, R449 to R451) -/

/-- A region whose lost count reaches 3 is off, and its cluster retired (R450). -/
def State.regionOff (s : State) (r cause : Nat) : State :=
  let s := ((s.dropWake r).setLevel r 0).grantWakes r
  let s := (s.setFld (Fld.PWR_REGION_STAT_CAP r) 0).setFld (Fld.PWR_REGION_STAT_VNOW r) 0
  let s := ((s.setRegion r RS.OFF_FAULT).raise Fld.PWR_EVENTS_REGION_OFF).event Ev.REGION_OFF r cause
  s.retireCluster r Ev.REGION_OFF

/-- A region's lost count and cap follow its phases and sense groups (R446); the limit of R445 stays below the cap. A change
of cap is journalled with the code of its cause; a sense group's own event has journalled it. -/
def State.updCap (s : State) (r cause unit : Nat) : State :=
  let lost := s.lostCount r
  let s := s.setFld (Fld.PWR_REGION_STAT_LOST r) (min 15 lost)
  if s.region r < 2 then s
  else if 3 ≤ lost then s.regionOff r cause
  else
    let old := s.fld (Fld.PWR_REGION_STAT_CAP r)
    let new := if s.power.vinLimiting then min old (capOf lost) else capOf lost
    if new = old then s
    else
      let s := (s.setFld (Fld.PWR_REGION_STAT_CAP r) new).raise Fld.PWR_EVENTS_REGION_CAPPED
      if cause = Ev.PHASE_FAILED then s.eventReg cause unit (Off.PWR_REGION_STAT r) else s

def State.trial? (s : State) (r ph : Nat) : Option PhaseTrial :=
  s.power.trials.find? (fun t => t.region = r && t.phase = ph)

def State.dropTrial (s : State) (r ph : Nat) : State :=
  { s with power := { s.power with trials := s.power.trials.filter (fun t => !(t.region = r && t.phase = ph)) } }

/-- PHASE_MISMATCH (R449): the first turns the phase off; a second while it is tried again is lasting. -/
def execPhaseMismatch (r ph : Nat) (s : State) : Host.Outcome State Fault Refusal :=
  .next (if 16 ≤ r ∨ 8 ≤ ph ∨ s.region r < 2 then s
    else
      match s.trial? r ph with
      | some t =>
        if t.retried then
          let s := (s.dropTrial r ph).raise Fld.PWR_EVENTS_PHASE_FAILED
          ((s.event Ev.PHASE_FAILED (unitPhase r ph)).addDefect 0x0D (unitPhase r ph) Ev.PHASE_FAILED).updCap r Ev.PHASE_FAILED (unitPhase r ph)
        else s
      | none =>
        if s.fbit (Fld.PWR_REGION_STAT_PHASE_OK r) ph then
          let s := s.clrBit (Fld.PWR_REGION_STAT_PHASE_OK r) ph
          let s := { s with power := { s.power with trials := s.power.trials ++ [(⟨r, ph, false⟩ : PhaseTrial)] } }
          s.updCap r Ev.PHASE_FAILED (unitPhase r ph)
        else s)

/-- PHASE_RETRY (R449): the phase is on again for its check; the cap stays until it has tracked the mean. -/
def execPhaseRetry (r ph : Nat) (s : State) : Host.Outcome State Fault Refusal :=
  .next { s with power := { s.power with trials := s.power.trials.map (fun (t : PhaseTrial) =>
    if t.region = r ∧ t.phase = ph then { t with retried := true } else t) } }

/-- PHASE_TRACK_WINDOW_END (R449): the mismatch was transient. -/
def execPhaseTrackWindowEnd (r ph : Nat) (s : State) : Host.Outcome State Fault Refusal :=
  .next (match s.trial? r ph with
    | some t =>
      if t.retried then
        let s := (s.dropTrial r ph).setBit (Fld.PWR_REGION_STAT_PHASE_OK r) ph
        (s.raise Fld.PWR_EVENTS_PHASE_TRANSIENT).updCap r Ev.PHASE_FAILED (unitPhase r ph)
      else s
    | none => s)

/-- PHASE_SHED (R442): a region idle for IDLE_NOTICE_US, and not paused, plans level 0. -/
def execPhaseShed (r : Nat) (s : State) : Host.Outcome State Fault Refusal :=
  .next (if s.region r = RS.Q1 ∧ ¬ s.paused r ∧ (s.cluster r).noticeAt = none then s.setLevel r 0 else s)

/-! ## Wakes of a region (R452) -/

/-- Whether work waits for a cluster (R163, R184, Table 15-5): a queued block, the role that a reserve takes, on a SCORE
cluster with occupied slots a frame of the tap, on a TOPK cluster, whose work no state shows, at any time. A cluster without a
role has none. -/
def State.workWaits (s : State) (c : Nat) : Bool :=
  (s.cluster c).moveFrom.isSome || (s.fld (Fld.PPL_STAGE_ROLE c) ≠ 0 && (!(s.cluster c).queue.isEmpty
    || s.fld (Fld.PPL_STAGE_ROLE c) = 9
    || (s.fld (Fld.PPL_STAGE_ROLE c) = 8 && decide (s.occupied c ≠ 0) && s.belt.tap.any (fun f => f.left.contains c))))

/-- REGION_WAKE_REQUEST (R163, R452): work waits for a cluster in Q2. -/
def execRegionWakeRequest (r : Nat) (s : State) : Host.Outcome State Fault Refusal :=
  .next (if r < 16 ∧ s.fld Fld.PWR_STATUS_DSTATE ≤ 2 ∧ s.clusterUp r ∧ s.workWaits r then s.requestWake r else s)

/-- The region of a group to pause next: the highest level, the lowest-numbered among equals. -/
def State.pauseNext (s : State) (r : Nat) : Option Nat :=
  let cand := (groupOf r).filter (fun x => x ≠ r && !s.paused x && decide (0 < s.level x))
  let top := cand.foldl (fun m x => max m (s.level x)) 0
  cand.find? (fun x => s.level x = top)

/-- Regions are paused until the slot is free; the fuel is the group's size. -/
def State.pauseFor : Nat → State → Nat → State
  | 0, s, _ => s
  | n + 1, s, r =>
    if s.slotFree r then s
    else
      match s.pauseNext r with
      | none => s
      | some x =>
        let s := { s with power := { s.power with wakes := s.power.wakes.map (fun (w : Wake) =>
            if w.region = r then { w with paused := w.paused ++ [x] } else w) } }
        State.pauseFor n (s.raise Fld.PWR_EVENTS_NEIGHBOUR_PAUSED) r

/-- WAKE_SLOT_WAIT_TIMEOUT (R452): the wait ends; where a wake of the group still ramps, the wake waits on. -/
def execWakeSlotWaitTimeout (r : Nat) (s : State) : Host.Outcome State Fault Refusal :=
  .next (match s.wakeOf r with
    | none => s
    | some w =>
      if w.ramping ∨ s.power.wakes.any (fun v => v.ramping && v.region / 4 = r / 4) then s
      else
        let s := State.pauseFor 4 s r
        if s.slotFree r then s.startRamp r else s)

/-- A region returns to the voltage it left (R453). -/
def State.wakeV (s : State) (r : Nat) : Nat := (tabFind s.power.leftV r).getD (s.vset r)

/-- REGION_WAKE_COMPLETE (R452, R453): Q1 at the voltage it left; paused regions resume, the next wake may begin. -/
def execRegionWakeComplete (r : Nat) (s : State) : Host.Outcome State Fault Refusal :=
  .next (match s.wakeOf r with
    | none => s
    | some w =>
      if w.ramping then
        let s := (s.dropWake r).setFld (Fld.PWR_REGION_STAT_VNOW r) (s.wakeV r)
        ((s.setRegion r RS.Q1).grantWakes r).kickAll
      else s)

/-- REGION_VSET_WRITE (R453): the rail then moves one step at each window's end. -/
def execRegionVsetWrite (r : Nat) (v : W32) (s : State) : Host.Outcome State Fault Refusal :=
  .next (if r < 16 ∧ s.linked then s.hostWrite (Off.PWR_REGION r) v else s)

/-- Q2_DWELL_EXPIRY (R454, R163): retention, where the tolerance allows it or the cluster has no role. -/
def execQ2DwellExpiry (r : Nat) (s : State) : Host.Outcome State Fault Refusal :=
  .next (if s.region r = RS.Q1 ∧ (s.cluster r).noticeAt = none ∧ (25 ≤ s.tolUs ∨ s.fld (Fld.PPL_STAGE_ROLE r) = 0) then
      let s := { s with power := { s.power with
          leftV := tabInsert s.power.leftV r (s.fld (Fld.PWR_REGION_STAT_VNOW r)) } }
      ((s.setLevel r 0).setFld (Fld.PWR_REGION_STAT_VNOW r) 100).setRegion r RS.Q2
    else s)

/-! ## Device idle states (R455 to R459, R264) -/

/-- Whether this device has frames to inject as a home or as a shadow. -/
def State.hasInjection (s : State) : Bool :=
  s.formed && (!s.belt.inject.isEmpty || s.belt.dir.homes.any (fun h => h.pos = s.pos && decide (0 < h.frames)))

/-- What Q3 and Q4 require (R457). -/
def State.deepOk (s : State) : Bool :=
  s.ready && s.powered.all (fun r => s.region r = RS.Q2)
    && s.allEntries.isEmpty && s.ppl.forming.isEmpty && s.ppl.entryQ.all (fun e => e.2.isEmpty)
    && s.host.cmds.isEmpty && s.host.cqWait.isEmpty
    && s.belt.pend.isEmpty && s.belt.slots.isEmpty
    && s.kvl.seqs.all (fun e => e.2.state ≠ 2 && e.2.state ≠ 4)
    && s.ul.ranges.isEmpty && s.ppl.change.isNone && s.ppl.clusters.all (fun e => e.2.moveFrom.isNone)
    && s.belt.loads.isEmpty && s.belt.shardQ.isEmpty && s.flash.nvm.isEmpty
    && !s.elastic && !(s.formed && (s.isManager || s.role = 2 || s.flag Fld.BLT_FED_ROOT))
    && (!s.hasInjection || s.braked)

/-- The underlayer is written back and off: every line invalid. -/
def State.ulOff (s : State) : State :=
  let s := (s.ul.lines.map (fun (e : Nat × Line) => e.1)).foldl (fun (s : State) k => s.writeBack k) s
  { s with ul := { s.ul with lines := [], lru := [] } }

/-- IDLE_DWELL_EXPIRY (R456, R457, R264): Q3 or Q4; the compute die is off. -/
def execIdleDwellExpiry (state : Nat) (s : State) : Host.Outcome State Fault Refusal :=
  .next (if s.deepOk ∧ s.fld Fld.PWR_STATUS_DSTATE ≤ 3 ∧ s.fld Fld.PWR_STATUS_DSTATE < state ∧ (state = 3 ∨ state = 4)
        ∧ state ≤ s.allowed then
      let s := (s.powered).foldl (fun s r => s.setFld (Fld.PWR_REGION_STAT_VNOW r) 0) s
      let s := { (s.setFld Fld.PWR_STATUS_DSTATE state) with tiles := [] }
      if state = 3 then s.incFld Fld.PWR_IDLE_Q3_ENTRIES else (s.ulOff).incFld Fld.PWR_IDLE_Q4_ENTRIES
    else s)

/-- Whether a cause of R458 holds, as far as the state shows it; frames that concern the device are the sender's to tell. -/
def State.wakes (s : State) (cause : WakeCause) : Bool :=
  match cause with
  | .doorbell => s.linked
  | .brakesEmpty => !s.braked && s.hasInjection
  | .tolerance => decide (s.allowed < s.fld Fld.PWR_STATUS_DSTATE)
  | .reset => s.boot.coldReq || s.boot.warmReq.isSome
  | .queryFrame => true
  | .controlFrame => true
  | .fillIn => true
  | .join => true

/-- DEVICE_WAKE (R458): a wake cause in Q3 or Q4, which the device remembers. -/
def execDeviceWake (cause : WakeCause) (s : State) : Host.Outcome State Fault Refusal :=
  .next (if (s.fld Fld.PWR_STATUS_DSTATE = 3 ∨ s.fld Fld.PWR_STATUS_DSTATE = 4) ∧ s.wakes cause then
      ({ s with power := { s.power with wakeFrom := s.fld Fld.PWR_STATUS_DSTATE } }).setFld Fld.PWR_STATUS_DSTATE 5
    else s)

/-- Every resident PIN window is filled by PREFETCH (R264), for the lowest of its classes. -/
def State.refillPins (s : State) : State :=
  (List.range 32).foldl (fun s w =>
    if s.winValid w ∧ s.fld (Fld.ULC_WIN_STAT_PIN_STATE w) = 1 then
      let k := ((maskList (s.fld (Fld.ULC_WIN_CLASS_CLASSES w))).head?).getD 0
      (List.range (s.winSize w / 256)).foldl (fun s i => s.prefetchLine (s.winBase w / 256 + i) k) s
    else s) s

/-- Regions rise again: Q1 at the voltage they left, or Q2 where their cluster has no role. -/
def State.raiseRegions (s : State) : State :=
  (s.powered).foldl (fun s r =>
    if s.fld (Fld.PPL_STAGE_ROLE r) = 0 then (s.setFld (Fld.PWR_REGION_STAT_VNOW r) 100).setFld (Fld.PWR_REGION_STAT_STATE r) RS.Q2
    else (s.setFld (Fld.PWR_REGION_STAT_VNOW r) (s.wakeV r)).setFld (Fld.PWR_REGION_STAT_STATE r) RS.Q1) s

/-- DEVICE_WAKE_COMPLETE (R30, R264, R455): followers aligned, regions woken, pinned windows restored after Q4. -/
def execDeviceWakeComplete (s : State) : Host.Outcome State Fault Refusal :=
  .next (if s.fld Fld.PWR_STATUS_DSTATE = 5 then
      let s := { s with stack := { s.stack with tbU1 := s.stack.tbMaster, tbCd := s.stack.tbMaster } }
      let s := if s.power.wakeFrom = 4 then s.raiseRegions.refillPins else s.raiseRegions
      (s.setFld Fld.PWR_STATUS_DSTATE 1).syncDstate
    else s)

/-! ## Housekeeping (R445, R460 to R466) -/

/-- HK_CHANNEL_READ (R460, R482): reserved channels read zero; without VIN_IB only the diode and VAUX stay current. -/
def execHkChannelRead (n : Nat) (v : W16) (s : State) : Host.Outcome State Fault Refusal :=
  .next (if n < 64 ∧ s.pins.vaux ∧ (s.pins.vinIb ∨ n = 0 ∨ n = 3) then s.setFld (Fld.THM_HK_VALUE n) (if n < 44 then v.toNat else 0) else s)

def State.hk (s : State) (n : Nat) : Nat := s.fld (Fld.THM_HK_VALUE n)

/-- A 16-bit reading as a signed number, and back. -/
def signed16 (n : Nat) : Int := if n < 32768 then (n : Int) else (n : Int) - 65536
def unsigned16 (i : Int) : Nat := (i % 65536).toNat

/-- THERM_ALERT# (R466). -/
def State.syncAlert (s : State) : State :=
  let low := s.flag Fld.THM_STATUS_WARN || s.flag Fld.THM_STATUS_THROTTLE || s.flag Fld.THM_STATUS_GUARD
    || s.flag Fld.THM_STATUS_SENSOR_FAULT || s.boot.thermLatch
  { s with pins := { s.pins with thermAlertLow := low } }

/-- The input current limit (R445). -/
def State.vinLimit (s : State) : State :=
  let i := s.hk 2
  let s := if 2550 ≤ i then { s with power := { s.power with vinLimiting := true } }
    else if i < 2400 then { s with power := { s.power with vinLimiting := false } } else s
  let s := if s.power.vinLimiting then s.raise Fld.PWR_EVENTS_VIN_LIMIT else s
  (s.powered).foldl (fun s r =>
    let cap := s.fld (Fld.PWR_REGION_STAT_CAP r)
    let top := capOf (s.lostCount r)
    s.setFld (Fld.PWR_REGION_STAT_CAP r)
      (if s.power.vinLimiting then (if 8 < cap then cap - 1 else cap) else min top (cap + 1))) s

/-- The estimate of U1's temperature in 1/16 °C, rounded down (R464; the rounding is a DESIGN CHOICE). -/
def State.tU1 (s : State) : Int :=
  let pUl := s.hk 36 * s.hk 37
  let pCd := (List.range 16).foldl (fun n r => n + s.hk (4 + r) * s.hk (20 + r)) 0
  let heat := s.fld Fld.THM_COEF_K_UL * pUl + s.fld Fld.THM_COEF_K_CD * pCd
  signed16 (s.hk 0) + Int.ofNat (16 * heat / (65536 * 10000)) + signed16 (s.fld Fld.THM_GUARD_OFFSET)

/-- The stack's rails are down: what it held is lost. -/
def State.stackLost (s : State) : State :=
  let z := State.reset
  let s := (List.range 16).foldl (fun (s : State) r =>
    (s.setFld (Fld.PWR_REGION_STAT_VNOW r) 0).setFld (Fld.PWR_REGION_STAT_LEVEL r) 0) s
  { s with ul := z.ul, rgl := { z.rgl with winStart := s.now }, tiles := [], ppl := z.ppl, kvl := z.kvl, belt := z.belt, ring := z.ring
           power := { z.power with demand := s.power.demand }, pins := { s.pins with vddUp := false } }

/-- The shut-down of R463. -/
def State.shutDown (s : State) : State :=
  let s := (s.event Ev.THERM_SHUTDOWN 0).dropHost
  let s := (s.setDstate DS.FAILED).setFld Fld.FLT_STATUS_CAUSE 0x07
  let s := (s.portsDown).stackLost
  { s with boot := { s.boot with thermLatch := true }, host := { s.host with linkDown := some s.now } }.syncAlert

/-- A threshold: a run of rounds at or above its level, tripped on the second, cleared at or below the other. -/
def State.threshold (s : State) (t level clear run : Int) (f e : Fld) (code : Nat) : State :=
  if s.flag f then (if t ≤ clear then s.setFld f 0 else s)
  else if level ≤ t ∧ 2 ≤ run then ((s.raise f).raise e).event code 0
  else s

/-- The throttle duty (R462). -/
def State.stepDuty (s : State) (t : Int) : State :=
  let d := s.fld Fld.THM_STATUS_DUTY
  if s.flag Fld.THM_STATUS_SENSOR_FAULT then s.setFld Fld.THM_STATUS_DUTY 4
  else if s.flag Fld.THM_STATUS_THROTTLE ∨ s.flag Fld.THM_STATUS_GUARD then s.setFld Fld.THM_STATUS_DUTY (max 4 (d - 1))
  else if t ≤ 1600 then s.setFld Fld.THM_STATUS_DUTY (min 16 (d + 1))
  else s

/-- The thresholds of Table 15-8 at an effective temperature. -/
def State.thermal (s : State) (t : Int) : State :=
  let w := if 1520 ≤ t then s.power.warnRun + 1 else 0
  let h := if 1680 ≤ t then s.power.throttleRun + 1 else 0
  let x := if 1888 ≤ t then s.power.shutRun + 1 else 0
  let s := { s with power := { s.power with warnRun := w, throttleRun := h, shutRun := x } }
  let peak := signed16 (s.fld Fld.THM_STATUS_PEAK)
  let s := s.setFld Fld.THM_STATUS_PEAK (unsigned16 (max peak t))
  let s := s.threshold t 1520 1440 w Fld.THM_STATUS_WARN Fld.THM_EVENTS_WARNING Ev.THERM_WARNING
  let s := s.threshold t 1680 1600 h Fld.THM_STATUS_THROTTLE Fld.THM_EVENTS_THROTTLE Ev.THERM_THROTTLE
  if s.boot.thermLatch then s else if 2 ≤ x ∨ 2000 ≤ t then s.shutDown else s

/-- A round whose diode reads out of range (R461). -/
def State.sensorBad (s : State) : State :=
  let s := if s.flag Fld.THM_STATUS_SENSOR_FAULT then s
    else ((s.raise Fld.THM_STATUS_SENSOR_FAULT).raise Fld.THM_EVENTS_SENSOR_FAULT).event Ev.THERM_WARNING 0
  ({ s with power := { s.power with sensorGood := 0, warnRun := 0, throttleRun := 0, shutRun := 0 } }.setFld Fld.THM_STATUS_DUTY 4).syncAlert

/-- A round whose diode reads within range: a sensor fault ends after ten of them. -/
def State.sensorGood (s : State) : State :=
  if s.flag Fld.THM_STATUS_SENSOR_FAULT then
    let n := s.power.sensorGood + 1
    let s := { s with power := { s.power with sensorGood := n } }
    if 10 ≤ n then s.setFld Fld.THM_STATUS_SENSOR_FAULT 0 else s
  else s

/-- HOUSEKEEPING_ROUND (R460 to R464, R445): the rules of each round; their registers hold while VIN_IB is absent (R482). -/
def execHousekeepingRound (s : State) : Host.Outcome State Fault Refusal :=
  .next (if ¬ s.pins.vaux ∨ ¬ s.pins.vinIb then s
    else
      let s := ((s.setFld Fld.PWR_SUPPLY_VIN_MV (s.hk 1)).setFld Fld.PWR_SUPPLY_VIN_DA (s.hk 2)).vinLimit
      let tCd := signed16 (s.hk 0)
      let tU1 := s.tU1
      let s := (s.setFld Fld.THM_TEMP_T_CD (s.hk 0)).setFld Fld.THM_TEMP_T_U1 (unsigned16 tU1)
      if tCd < -640 ∨ 2400 < tCd then s.sensorBad
      else
        let t := max tCd tU1
        (((s.sensorGood).thermal t).stepDuty t).syncAlert)

/-- The end of a second of the guard's count (R465). -/
def State.guardSecond (s : State) : State :=
  let n := s.power.u1Corrections
  let rate := s.fld Fld.THM_GUARD_GUARD_RATE
  let s := { s with power := { s.power with u1Corrections := 0 } }
  let quiet := fun (s : State) (k : Nat) => { s with power := { s.power with guardQuiet := k } }
  if rate = 0 then ((quiet s 0).setFld Fld.THM_STATUS_GUARD 0).syncAlert
  else if rate ≤ n then
    if s.flag Fld.THM_STATUS_GUARD then quiet s 0
    else (((quiet s 0).raise Fld.THM_STATUS_GUARD).raise Fld.THM_EVENTS_GUARD).event Ev.UL_THERMAL_GUARD 0 |>.syncAlert
  else if s.flag Fld.THM_STATUS_GUARD then
    if 4 * n < rate then
      if 10 ≤ s.power.guardQuiet + 1 then ((quiet s 0).setFld Fld.THM_STATUS_GUARD 0).syncAlert
      else quiet s (s.power.guardQuiet + 1)
    else quiet s 0
  else s

/-- GUARD_SECOND (R465): its registers hold while VIN_IB is absent (R482). -/
def execGuardSecond (s : State) : Host.Outcome State Fault Refusal :=
  .next (if ¬ s.pins.vaux ∨ ¬ s.pins.vinIb then s else s.guardSecond)

/-! ## Cadence (R46, R49, R453) -/

/-- One region's rail at a window's end: one step toward VSET, or toward the target cadence. -/
def State.moveRail (s : State) (r : Nat) : State :=
  if s.region r = RS.Q1 ∨ s.region r = RS.A then
    let v := s.fld (Fld.PWR_REGION_STAT_VNOW r)
    let put := fun (s : State) (x : Nat) => s.setFld (Fld.PWR_REGION_STAT_VNOW r) x
    if s.fld (Fld.PWR_REGION_MODE r) = 0 then
      let t := s.vset r
      if v < t then put s (v + 1) else if t < v then put s (v - 1) else s
    else
      let now := s.fld (Fld.PWR_CAD_CAD_NOW r)
      let t := s.fld (Fld.PWR_REGION_TARGET r)
      if now = 0 then s
      else if now < t then (if 180 ≤ v then s.raise Fld.PWR_EVENTS_CAD_SHORT else put s (max 124 (v + 1)))
      else if 101 * t < 100 * now then put s (min 180 (max 124 (v - 1)))
      else s
  else s

/-- One cluster's counters at a window's end; none where it was not powered for the whole window. -/
def State.cadence (s : State) (n : Nat) (count : Option (Nat × Nat)) : State :=
  match count with
  | none => (s.setFld (Fld.PWR_CAD_CAD_NOW n) 0).setFld (Fld.PWR_BUSY_BUSY n) 0
  | some (a, b) =>
    let now := min 65535 (a / 4)
    let s := (s.setFld (Fld.PWR_CAD_CAD_NOW n) now).setFld (Fld.PWR_BUSY_BUSY n) (min 65535 (b / 4))
    let s := s.setFld (Fld.PWR_CAD_CAD_MIN n) (min now (s.fld (Fld.PWR_CAD_CAD_MIN n)))
    if now ≠ 0 ∧ now < s.fld Fld.PWR_CAD_CTL_CAD_LOW then
      (s.setBit Fld.PWR_CAD_LOW_LOW n).eventReg Ev.CADENCE_LOW n Off.PWR_CAD_LOW
    else s

/-- CADENCE_WINDOW_END (R46, R49, R453): counts of replica completions and array steps by cluster. -/
def execCadenceWindowEnd (counts : List (Option (Nat × Nat))) (s : State) : Host.Outcome State Fault Refusal :=
  .next (if s.running then
      (List.range 16).foldl (fun s n =>
        let on := s.region n = RS.Q1 ∨ s.region n = RS.A
        (s.cadence n (if on then counts.getD n none else none)).moveRail n) s
    else s)

/-- Every CAD_MIN is cleared. -/
def State.clearMin (s : State) : State := (List.range 16).foldl (fun (s : State) n => s.setFld (Fld.PWR_CAD_CAD_MIN n) 0xFFFF) s

/-- MIN_CLEAR (R49). -/
def execMinClear (s : State) : Host.Outcome State Fault Refusal :=
  .next (if s.linked then s.clearMin else s)

end Sys2Proof.Machine
end

