-- ==== Sys2Proof/Machine/Ring.lean ====
section
/-! DEFINITION. The rings' commands: brake and release, roll-call, CONTROL messages, return frames, link operations,
ports, formation, the standby, federation (10_rings.md R300 to R334). -/

namespace Sys2Proof.Machine

/-! ## Brake and release (R317, R318) -/

def brakeCheck (s : State) (_ : Cmd) : Verdict := if s.ring.brakes.contains s.pos then .refuse St.STATE 0x16 else .ok

def releaseCheck (s : State) (_ : Cmd) : Verdict := if s.ring.brakes.contains s.pos then .ok else .refuse St.STATE 0x17

/-- An origin's operation starts: sent upstream on the return direction. -/
def State.startBrake (s : State) (uid : Nat) (release : Bool) : State :=
  let s := if release then (s.dropBrake s.pos).placeAll else s.addBrake s.pos
  let s := { s with ring := { s.ring with brakeOps := s.ring.brakeOps ++ [(⟨uid, release, false⟩ : BrakeOp)] } }
  s.sendLop (s.retOut 0) (if release then .release else .brake) s.pos

/-- RING_BRAKE (R317): it completes one round trip after its BRAKE has come back. -/
def execRingBrake (sq cid : Nat) (s : State) : Host.Outcome State Fault Refusal :=
  .next (s.clearTx.accept sq cid 0x33 brakeCheck noRows (fun s c => s.startBrake c.uid false))

/-- RING_RELEASE (R318): it completes when its RELEASE has come back. -/
def execRingRelease (sq cid : Nat) (s : State) : Host.Outcome State Fault Refusal :=
  .next ((s.clearTx.accept sq cid 0x34 releaseCheck noRows (fun s c => s.startBrake c.uid true)).beltDone)

/-- BRAKE (R317): its origin takes it off the return direction; every other device joins it to its set and sends it on. -/
def execLopBrake (origin : Nat) (s : State) : Host.Outcome State Fault Refusal :=
  .next (if ¬ s.formed then s
    else
      let s := s.clearTx.setFld Fld.BLT_BRAKE_LAST origin
      if origin = s.pos then
        { s with ring := { s.ring with brakeOps := s.ring.brakeOps.map (fun (b : BrakeOp) =>
            if b.release then b else { b with back := true }) } }
      else (s.addBrake origin).sendLop (s.retOut 0) .brake origin)

/-- RELEASE (R318). -/
def execLopRelease (origin : Nat) (s : State) : Host.Outcome State Fault Refusal :=
  .next (if ¬ s.formed then s
    else
      let s := s.clearTx
      if origin = s.pos then
        let done := s.ring.brakeOps.filter (fun (b : BrakeOp) => b.release)
        let s := { s with ring := { s.ring with brakeOps := s.ring.brakeOps.filter (fun (b : BrakeOp) => !b.release) } }
        done.foldl (fun s b => s.completeU b.uid St.OK 0) s
      else (((s.dropBrake origin).sendLop (s.retOut 0) .release origin).placeAll).beltDone)

/-- BRAKE_RESEND_TIMEOUT (R318): what has not come back is sent again. -/
def execBrakeResendTimeout (s : State) : Host.Outcome State Fault Refusal :=
  .next ((s.ring.brakeOps.filter (fun (b : BrakeOp) => !b.back)).foldl (fun s b =>
    s.sendLop (s.retOut 0) (if b.release then .release else .brake) s.pos) s.clearTx)

/-- BRAKE_STOPPING_DISTANCE_ELAPSED (R317, Table 10-11): RING_BRAKE completes. -/
def execBrakeStoppingDistanceElapsed (s : State) : Host.Outcome State Fault Refusal :=
  let done := s.ring.brakeOps.filter (fun (b : BrakeOp) => b.back && !b.release)
  .next (
    let s := { s with ring := { s.ring with brakeOps := s.ring.brakeOps.filter (fun (b : BrakeOp) => !(b.back && !b.release)) } }
    done.foldl (fun s b => s.completeU b.uid St.OK 0) s)

/-! ## Roll-call (R312, R313, R324) -/

/-- The unique device ID. -/
def State.devUid (s : State) : Nat := ((s.regAt Off.CFG_UID_HI) ++ (s.regAt Off.CFG_UID_LO)).toNat

/-- Whether this device forms a ring: as manager of ring 0, as root of the parent ring. -/
def State.forms (s : State) (net : Nat) : Bool := if net = 0 then s.role = 1 else s.isRoot || s.ring.imageRoot

def State.phaseOf (s : State) (net : Nat) : FormPhase := if net = 0 then s.ring.phase else s.ring.parentPhase

def State.setPhase (s : State) (net : Nat) (p : FormPhase) : State :=
  if net = 0 then { s with ring := { s.ring with phase := p } } else { s with ring := { s.ring with parentPhase := p } }

def State.setNetPos (s : State) (net p : Nat) : State :=
  if net = 0 then s.setFld Fld.BLT_RING_POSITION p else s.setFld Fld.BLT_RING_ID_PARENT_POS p

/-- 600 µs in ticks (R314). -/
def rttMax : Nat := 93750

/-- The manager's own DISCOVER has returned: the limits of R314, then CONFIRM. -/
def State.discoverBack (s : State) (net : Nat) (f : Frame) : State :=
  let n := f.hops
  let rtt := s.now - fTb f
  if s.phaseOf net ≠ .discover then s
  else if n < 4 ∨ (if net = 0 then 2048 else 256) < n ∨ rttMax < rtt then s.failFormation net
  else
    let p := slotsP rtt s.belt.dir.homes.length
    let (s, g) := s.rollCall net 2 n 0 rtt p
    (s.setPhase net .confirm).inject net g

/-- A second manager is found (R313): the lower MGR_UID keeps the role. -/
def State.roleConflict (s : State) (net : Nat) : State :=
  let s := if net = 0 then s.setRole 0 else s.setFld Fld.BLT_FED_ROOT 0
  let s := { s with ring := { s.ring with acting := if net = 0 then false else s.ring.acting,
                                          imageRoot := if net = 0 then s.ring.imageRoot else false } }
  ((s.setPhase net .idle).raise Fld.BLT_RING_EVENTS_ROLE_CONFLICT).event Ev.ROLE_CONFLICT (s.unitQ s.pos)

/-- DISCOVER passes (R312): its HOPS are the position; one of its own manager tells a device of a formed ring that the ring
has broken (R323). A standby root that has taken over gives the role back to a
returning root (R334). -/
def State.discoverAct (s : State) (x : Nat) (f : Frame) : State :=
  let net := x / 4
  let uid := fw f 5 63 0
  let pass := fun (s : State) =>
    let s := if s.formedOn net ∧ ¬ s.forms net ∧ s.ring.mgrUid = BitVec.ofNat 64 uid then s.breakHere net else s
    (({ s with ring := { s.ring with mgrUid := BitVec.ofNat 64 uid } }).setNetPos net f.hops).onward x f
  if s.role = 3 ∨ ¬ s.ready then s
  else if ¬ s.forms net then (if net = 0 ∨ s.isManager then pass s else s.onward x f)
  else if uid = s.devUid then s.discoverBack net f
  else if net = 1 ∧ s.isRoot ∧ s.ring.imageRootStandby then pass (s.setFld Fld.BLT_FED_ROOT 0)
  else if s.devUid < uid then s
  else pass (s.roleConflict net)

/-- What was left of an older ring is given up, and no brake or TOL frame is remembered (R373). -/
def State.freshRing (s : State) : State :=
  let s := if s.formed then s.stopRing else s
  let r := { s.ring with gone := [], brakes := [], brakeOps := [], mark := none, reports := [], holder := 0, exHomes := [],
                         seen := s.ring.seen.filter (fun k => k.head? ≠ some 0) }
  { s with host := { s.host with tolFrame := none }, ring := r }

/-- The registers that CONFIRM gives: N, RING_ID, RTT, P, FORMED. -/
def State.confirmRegs (s : State) (f : Frame) : State :=
  let s := (s.setFld Fld.BLT_RING_SIZE (fw f 4 39 28)).setFld Fld.BLT_RING_ID_RING_ID (fw f 4 55 40)
  ((s.setFld Fld.BLT_RTT_RTT (fw f 6 63 32)).setFld Fld.BLT_SLOTS_P (fw f 6 31 16)).raise Fld.BLT_RING_FORMED

/-- Idle ports show the position (R300). -/
def State.heartbeats (s : State) : State :=
  ((List.range 8).filter (fun x => s.portUp x)).foldl (fun (s : State) x => s.heartbeat x) s

/-- A device's ring is formed anew, as CONFIRM says; a standby acts as one at position 1 alone (R313). -/
def State.confirmed (s : State) (net : Nat) (f : Frame) : State :=
  if net = 0 then
    let s := s.freshRing.confirmRegs f
    let s := if s.role = 2 ∧ s.pos ≠ 1 then (s.setRole 0).raise Fld.BLT_RING_EVENTS_MISPLACED else s
    s.syncBrake.syncAllowed.heartbeats
  else
    let r := { s.ring with rootPos := 0, seen := s.ring.seen.filter (fun k => k.head? ≠ some 1), parentSize := fw f 4 39 28, parentRtt := fw f 6 63 32, parentGone := [], parentPhase := .formed }
    ({ s with ring := r }).raise Fld.BLT_FED_MEMBER

/-- A device whose downstream neighbour was skipped in the formation tells the manager. -/
def State.tellSkipped (s : State) (net : Nat) : State :=
  if s.down net then
    let d := s.neighbour net true 1
    if net = 0 then (s.seeBypassed d).tellBypass 0 d else s.tellBypass 1 d
  else s

/-- CONFIRM passes (R312, R313). -/
def State.confirmAct (s : State) (x : Nat) (f : Frame) : State :=
  let net := x / 4
  if s.forms net ∧ fw f 5 63 0 = s.devUid then
    if s.phaseOf net ≠ .confirm then s
    else if net = 0 then
      let s := ((s.confirmed 0 f).setPhase 0 .reports).setFld Fld.BLT_RING_ELASTIC 1
      (s.tellSkipped 0).sendIdentity 0
    else ((s.confirmed 1 f).raise Fld.BLT_FED_ROOT).tellSkipped 1
  else if net = 1 ∧ ¬ s.isManager then s.onward x f
  else (((s.confirmed net f).tellSkipped net).sendIdentity net).onward x f

/-- The joining device takes its position, as a worker (R324, R431). -/
def State.joinHere (s : State) (net : Nat) (f : Frame) : State :=
  let s := s.setNetPos net (fw f 4 27 16)
  let s := if net = 0 then ({ s with belt := { s.belt with rejoined := true } }).setRole 0 else s
  let s := { s with ring := { s.ring with mgrUid := f.w.getD 5 0#64 } }
  (s.confirmed net f).sendIdentity net

/-- The parent ring carries no TOP_NOTE: its path switches back as JOIN passes (DESIGN CHOICE). -/
def State.parentBack (s : State) (p : Nat) : State :=
  if s.down 1 ∧ s.neighbour 1 true 1 = p then ((s.sendLast 7).setDown 1 false).settlePorts 1 else s

/-- JOIN passes (R324): the neighbour upstream of the position also sends it over the link that has qualified. -/
def State.joinAct (s : State) (x : Nat) (f : Frame) : State :=
  let net := x / 4
  let p := fw f 4 27 16
  if ¬ s.formedOn net then (if s.ready ∧ s.role ≠ 3 ∧ (net = 0 ∨ s.isManager) then s.joinHere net f else s)
  else if fHome f = s.netPos net then
    if net = 0 then s
    else
      let s := { s with ring := { s.ring with parentGone := s.ring.parentGone.filter (fun q => q ≠ p) } }
      s.sendControl 1 allPos 0x04 (arg := p * 2 ^ 28)
  else
    let s := s.effectDone (fun r => fSub r = 0x18 && fArg r / 2 ^ 28 = p)
    let s := if s.down net ∧ s.neighbour net true 1 = p then s.sendOn (4 * net + 1) { f with hops := f.hops + 1 } else s
    let s := if net = 0 then { s with ring := { s.ring with joining := some p } } else s
    let s := s.onward x f
    if net = 0 then s else s.parentBack p

/-- A ROLL_CALL frame of one phase (Table 10-9). -/
def isCall (f : Frame) (phase : Nat) : Bool := fType f = FT.ROLL_CALL && fw f 4 63 56 = phase

/-- DISCOVER (R312 to R314). -/
def execDiscover (rx : Rx) (f : Frame) (s : State) : Host.Outcome State Fault Refusal :=
  .next (if isCall f 1 then (s.receive rx f (fun s f => s.discoverAct rx.port f)).beltDone else s)

/-- CONFIRM (R312 to R314). -/
def execConfirm (rx : Rx) (f : Frame) (s : State) : Host.Outcome State Fault Refusal :=
  .next (if isCall f 2 then (s.receive rx f (fun s f => s.confirmAct rx.port f)).beltDone else s)

/-- JOIN (R324, R431). -/
def execJoin (rx : Rx) (f : Frame) (s : State) : Host.Outcome State Fault Refusal :=
  .next (if isCall f 3 then (s.receive rx f (fun s f => s.joinAct rx.port f)).beltDone else s)

/-! ## CONTROL messages on the forward belt -/

/-- DIRECTORY (R270, R294, R311). -/
def State.directoryAct (s : State) (x : Nat) (f : Frame) : State :=
  s.forwardAct x f (fun s f =>
    match s.assemble f with
    | (s, some ws) => s.takeDir ⟨fw f 5 31 0, readHomes (chunks 2 ws)⟩
    | (s, none) => s)

/-- A revolution of which the low 28 bits are known: the last one not after the current. -/
def State.revOf28 (s : State) (low : Nat) : Nat := (s.rev + revMod - (s.rev + 2 ^ 28 - low % 2 ^ 28) % 2 ^ 28) % revMod

/-- TAKEOVER (R292, R296). -/
def State.takeoverAct (s : State) (x : Nat) (f : Frame) : State :=
  s.forwardAct x f (fun s f =>
    s.takeTakeover (fArg f / 2 ^ 28) (s.revOf28 (fArg f)) (fw f 5 5 0) (fw f 5 63 63 = 1))

/-- ABANDON (R322). -/
def State.abandonAct (s : State) (x : Nat) (f : Frame) : State :=
  s.forwardAct x f (fun s f => s.abandonThree (fArg f % revMod) (fw f 5 5 0))

/-- BYPASSED (R318, R324, R333, R334). -/
def State.bypassedAct (s : State) (x : Nat) (f : Frame) : State :=
  let p := fArg f / 2 ^ 28
  let lost := fArg f / 2 ^ 27 % 2 = 1
  s.forwardAct x f (fun s f =>
    if x / 4 = 0 then
      if lost then ({ s.seeBypassed p with ring := { (s.seeBypassed p).ring with holder := fHome f } }).placeAll
      else s.seeJoined p
    else if lost then
      let s := s.memberLost p
      if p = s.ring.rootPos ∧ ¬ s.isRoot then s.fedLost p else s
    else { s with ring := { s.ring with parentGone := s.ring.parentGone.filter (fun q => q ≠ p) } })

/-- A planned removal is asked for (R325): with FORCE, resident queries end with ABORTED. -/
def State.startLeave (s : State) (force : Bool) : State :=
  if ¬ s.formed then s
  else
    let old := s.ring.leaving.getD false
    let s := { s with ring := { s.ring with leaving := some (old || force) } }
    if force then
      (s.resident.foldl (fun s e => s.endSlot e.1 e.2 St.ABORTED []) s).syncBelt
    else s

def State.leaveAct (s : State) (x : Nat) (f : Frame) : State := s.forwardAct x f (fun s _ => s.startLeave false)

/-- The old manager is a worker (R328): its stored frames go forward, what it had not placed is lost, its epoch switch does
not take place. -/
def State.demoted (s : State) : State :=
  if s.role ≠ 1 ∨ s.pos ≠ 0 then s
  else
    let s := ((s.setRole 0).raise Fld.BLT_RING_EVENTS_DEMOTED).event Ev.MGR_DEMOTED (s.unitQ 0)
    let store := s.ring.store ++ s.ring.spare
    let s := ({ s with ring := { s.ring with store := [], spare := [], fillTo := 0, holder := 1, audit := none,
                                             markDue := false } }).setFld Fld.BLT_RING_ELASTIC 0
    let s := (store.foldl (fun s f => s.sendOn (s.fwdOut 0) f) s).syncStore
    let lost := s.ring.placed.filter (fun (p : Placed) => p.dest.isNone)
    let s := lost.foldl (fun s p =>
      match p.q.src with
      | .host u => s.endQuery u St.FAULT (s.resultWords p.q.qnum St.FAULT 0 []) 0
      | .frame _ => s) s
    let mine := match s.ring.sw with
      | some w => w.uid
      | none => none
    let s := { s with ring := { s.ring with placed := s.ring.placed.filter (fun (p : Placed) => p.dest.isSome), sw := none,
                                            phase := .idle } }
    match mine with
    | some u => s.completeU u St.FAULT 0
    | none => s

def State.demoteAct (s : State) (x : Nat) (f : Frame) : State := s.forwardAct x f (fun s _ => s.demoted)

/-- TOL (R373). -/
def State.tolAct (s : State) (x : Nat) (f : Frame) : State :=
  s.forwardAct x f (fun s f => ({ s with host := { s.host with tolFrame := some (fArg f) } }).syncAllowed)

/-- The device that takes a frame off the ring (R321). -/
def State.removerOf (s : State) (f : Frame) : Nat :=
  if (fType f = FT.QUERY ∨ fType f = FT.SHARD ∨ fType f = FT.CONTROL) ∧ fDest f ≠ allPos then fDest f else s.originOf f

/-- The frames of a history after the last one with a header; none where no frame has it. -/
def afterHead (head : List W64) : List Frame → Option (List Frame)
  | [] => none
  | f :: t =>
    match afterHead head t with
    | some l => some l
    | none => if fHead f = head then some t else none

/-- RESUME (R321, R322): the history of the old path is replayed over the skip link, but what the bypassed device would
remove; a header not found is a GAP. An empty one comes from an end that reports the GAP itself. -/
def State.resumeAct (s : State) (x : Nat) (f : Frame) : State :=
  let old := x - 2
  let d := s.portPeer old
  if x % 4 < 2 ∨ f.body.isEmpty then s
  else
    match afterHead f.body (s.port old).hist with
    | none => s.reportGap (x / 4)
    | some l =>
      (l.filter (fun g => s.removerOf g ≠ d)).foldl (fun s g => s.sendOn x { g with hops := g.hops + b2n (decide (x % 4 = 3)) }) s

/-- QCANCEL (R291, R364). -/
def State.qcancelAct (s : State) (x : Nat) (f : Frame) : State :=
  let n := f.w.getD 5 0#64
  s.forwardAct x f (fun s _ =>
    if x / 4 = 0 then s.cancelQuery (fun q => q.qnum = n && !q.ofHost n)
    else (s.ring.placed.filter (fun (p : Placed) => p.fed && p.q.qnum = n)).foldl (fun s p => s.cancelPlaced p) s)

/-- FEDGEN (R332, R334): the standby root journals FGEN and the pairs. -/
def State.fedgenAct (s : State) (x : Nat) (f : Frame) : State :=
  s.forwardAct x f (fun s f =>
    if x / 4 = 0 then s
    else
      match s.assemble f with
      | (s, some ws) =>
        let s := ({ s with ring := { s.ring with childPairs := wordPairs ws, rootPos := fHome f } }).setFld Fld.BLT_FGEN_FGEN (fw f 5 31 0)
        if s.ring.imageRootStandby then s.journalPairs else s
      | (s, none) => s)

/-! ## Return frames -/

/-- RESULT (R291, R331, R364): of a placed query to its submitter, of a federated one to the root. -/
def State.resultHere (s : State) (net sender : Nat) (ws : List W64) : State :=
  let n := ws.getD 0 0#64
  if net ≠ 0 then s.fedResult sender n ws
  else
    match s.ring.placed.find? (fun (p : Placed) => p.qnum = n) with
    | none => s
    | some p =>
      let s := (s.dropPlaced n).modFree sender (· + 1)
      let ws := ws.set 0 p.q.qnum
      match p.q.src with
      | .host u => s.endQuery u (resultStatus ws) ws (resultEntries ws).length
      | .frame r =>
        if r = s.netPos 1 then s.fedResult r p.q.qnum ws else s.sendReturn 1 r 0x10 (w5 := p.q.qnum.toNat) (body := ws)

def State.resultAct (s : State) (x : Nat) (f : Frame) : State :=
  s.returnAct x f (fun s f =>
    match s.assemble f with
    | (s, some ws) => s.resultHere (x / 4) (fHome f) ws
    | (s, none) => s)

/-- REFUSE (R280, R364). -/
def State.refuseAct (s : State) (x : Nat) (f : Frame) : State :=
  s.returnAct x f (fun s f => s.refused (f.w.getD 5 0#64) (fHome f))

/-- What the manager records of a return frame. -/
def State.noteFrame (s : State) (f : Frame) : State :=
  s.mgrNote (fHome f) (fSub f) (fArg f) (fw f 5 63 0) (fw f 6 63 0) f.body

/-- HOME_BEHIND (R273). -/
def State.homeBehindAct (s : State) (x : Nat) (f : Frame) : State := s.returnAct x f (fun s f => s.noteFrame f)

/-- FILL_IN (R297, R491): a shadow that can read the records injects their frame. -/
def State.fillInHere (s : State) (f : Frame) : State :=
  let x : FillIn := ⟨fw f 5 63 48, fw f 5 31 0, fw f 5 37 32, fw f 6 63 0⟩
  match s.belt.dir.home? x.home with
  | some h =>
    if h.shadow = s.pos ∧ ¬ unreadable (s.recordsOf h false x.seq).2 ∧ ¬ s.belt.fillDone.contains x then
      { s with belt := { s.belt with fillDue := s.belt.fillDue ++ [x], fillDone := s.belt.fillDone ++ [x] } }
    else s
  | none => s

def State.fillInAct (s : State) (x : Nat) (f : Frame) : State := s.returnAct x f (fun s f => s.fillInHere f)

/-- A REPORT reaches the manager or the root, which journals it. -/
def State.reportHere (s : State) (net : Nat) (f : Frame) : State :=
  let p := fHome f
  let k := fArg f % 256
  let uid := if k = Rep.identity then f.w.getD 5 0#64
    else match s.ring.reports.find? (fun (r : DevReport) => r.pos = p) with
      | some r => r.uid
      | none => 0#64
  let s := s.jrnPeer p uid 0x14 (fArg f + fw f 5 63 0 * 2 ^ 40)
  if k = Rep.broken then (if s.formedOn net then s.breakHere net else s)
  else if net ≠ 0 then (if k = Rep.bypass then s.memberLost (fArg f / 2 ^ 28) else s)
  else
    let s := (s.noteFrame f).placeAll
    if k = Rep.dirRequest ∧ s.isManager then s.sendDir s.belt.dir
    else if k = Rep.bypass ∧ ¬ s.ring.gone.contains (fArg f / 2 ^ 28) then s.dutyBypass (fArg f / 2 ^ 28)
    else s

def State.reportAct (s : State) (x : Nat) (f : Frame) : State := s.returnAct x f (fun s f => s.reportHere (x / 4) f)

/-- GAP (R322). -/
def State.gapAct (s : State) (x : Nat) (f : Frame) : State := s.returnAct x f (fun s _ => s.sendAbandon)

/-- STAGED (R295, R365): recorded by the manager; the shadow's copy for the home ends its SHARD_LOAD. -/
def State.stagedHere (s : State) (f : Frame) : State :=
  if fArg f % 4 = 3 then
    match s.belt.loads.find? (fun e => e.1 = fw f 5 63 32 && e.2.1 = fw f 5 31 16) with
    | some e => ({ s with belt := { s.belt with loads := dropFirst (fun x => x = e) s.belt.loads } }).completeU e.2.2 St.OK 0
    | none => s
  else s.noteFrame f

def State.stagedAct (s : State) (x : Nat) (f : Frame) : State := s.returnAct x f (fun s f => s.stagedHere f)

/-- QUIET (R295). -/
def State.quietAct (s : State) (x : Nat) (f : Frame) : State := s.returnAct x f (fun s f => (s.noteFrame f).trySwitch)

/-- The manager holds LINK_READY from both neighbours of a bypassed position: JOIN (R324); the standby sends none before its
takeover (Table 10-14). -/
def State.tryJoin (s : State) (net p : Nat) : State :=
  let key := p + 4096 * net
  let n := if net = 0 then s.ringSize else s.ring.parentSize
  let has := fun (q : Nat) => s.ring.linkReady.any (fun e => e.1 = key && e.2 = q)
  if (if net = 0 then s.isManager else s.isRoot) ∧ n ≠ 0 ∧ has ((p + n - 1) % n) ∧ has ((p + 1) % n) ∧ (s.goneOn net).contains p then
    let s := { s with ring := { s.ring with linkReady := s.ring.linkReady.filter (fun e => e.1 ≠ key) } }
    let (s, f) := s.rollCall net 3 n p (if net = 0 then s.fld Fld.BLT_RTT_RTT else s.ring.parentRtt) (s.fld Fld.BLT_SLOTS_P)
    let s := if net = 0 then { s with ring := { s.ring with joining := some p } } else s
    let s := if s.down net ∧ s.neighbour net true 1 = p then s.sendOn (4 * net + 1) f else s
    s.inject net (s.hop net { f with hops := 0 })
  else s

/-- A neighbour's link to a joining device has qualified. -/
def State.noteLink (s : State) (net p q : Nat) : State :=
  let e := (p + 4096 * net, q)
  let s := if s.ring.linkReady.contains e then s else { s with ring := { s.ring with linkReady := s.ring.linkReady ++ [e] } }
  s.tryJoin net p

def State.linkReadyAct (s : State) (x : Nat) (f : Frame) : State :=
  s.returnAct x f (fun s f => s.noteLink (x / 4) (fArg f / 2 ^ 28) (fHome f))

/-! ## Any frame -/

/-- A CONTROL frame by its subtype; reserved ones are dropped (Table 10-7). -/
def State.controlAct (s : State) (x : Nat) (f : Frame) : State :=
  match fSub f with
  | 0x01 => s.directoryAct x f
  | 0x02 => s.takeoverAct x f
  | 0x03 => s.abandonAct x f
  | 0x04 => s.bypassedAct x f
  | 0x05 => s.leaveAct x f
  | 0x06 => s.demoteAct x f
  | 0x07 => s.tolAct x f
  | 0x08 => s.resumeAct x f
  | 0x09 => s.qcancelAct x f
  | 0x0A => s.fedgenAct x f
  | 0x10 => s.resultAct x f
  | 0x11 => s.refuseAct x f
  | 0x12 => s.homeBehindAct x f
  | 0x13 => s.fillInAct x f
  | 0x14 => s.reportAct x f
  | 0x15 => s.gapAct x f
  | 0x16 => s.stagedAct x f
  | 0x17 => s.quietAct x f
  | 0x18 => s.linkReadyAct x f
  | _ => s

/-- What an intact frame does, by its type; reserved types are dropped (Table 9-4). -/
def State.frameAct (s : State) (x : Nat) (f : Frame) : State :=
  match fType f with
  | 0 => s.emptyAct x f
  | 1 => s.corpusAct x f
  | 2 | 3 => s.markerAct x f
  | 4 => s.queryAct x f
  | 5 => s.shardAct x f
  | 6 => if isCall f 1 then s.discoverAct x f else if isCall f 2 then s.confirmAct x f else if isCall f 3 then s.joinAct x f
    else s
  | 7 => s.controlAct x f
  | _ => s

/-- A CONTROL frame of a subtype arrives. -/
def State.onControl (s : State) (rx : Rx) (f : Frame) (sub : Nat) (act : State → Nat → Frame → State) : State :=
  if fType f = FT.CONTROL ∧ fSub f = sub then (s.receive rx f (fun s f => act s rx.port f)).beltDone else s

/-- DIRECTORY (R270, R294, R311). -/
def execDirectory (rx : Rx) (f : Frame) (s : State) : Host.Outcome State Fault Refusal :=
  .next (s.onControl rx f 0x01 State.directoryAct)

/-- TAKEOVER (R292, R296). -/
def execTakeover (rx : Rx) (f : Frame) (s : State) : Host.Outcome State Fault Refusal :=
  .next (s.onControl rx f 0x02 State.takeoverAct)

/-- ABANDON (R290, R322). -/
def execAbandon (rx : Rx) (f : Frame) (s : State) : Host.Outcome State Fault Refusal :=
  .next (s.onControl rx f 0x03 State.abandonAct)

/-- BYPASSED (R318, R324, R333, R334). -/
def execBypassed (rx : Rx) (f : Frame) (s : State) : Host.Outcome State Fault Refusal :=
  .next (s.onControl rx f 0x04 State.bypassedAct)

/-- LEAVE (R325): by message, or by the register. -/
def execLeave (src : LeaveSrc) (s : State) : Host.Outcome State Fault Refusal :=
  .next (match src with
    | .message rx f => s.onControl rx f 0x05 State.leaveAct
    | .register force => if s.linked then (s.clearTx.startLeave force).beltDone else s)

/-- DEMOTE (R328). -/
def execDemote (rx : Rx) (f : Frame) (s : State) : Host.Outcome State Fault Refusal :=
  .next (s.onControl rx f 0x06 State.demoteAct)

/-- TOL (R373). -/
def execTol (rx : Rx) (f : Frame) (s : State) : Host.Outcome State Fault Refusal :=
  .next (s.onControl rx f 0x07 State.tolAct)

/-- RESUME (R321, R322). -/
def execResume (rx : Rx) (f : Frame) (s : State) : Host.Outcome State Fault Refusal :=
  .next (s.onControl rx f 0x08 State.resumeAct)

/-- QCANCEL (R291, R364). -/
def execQcancel (rx : Rx) (f : Frame) (s : State) : Host.Outcome State Fault Refusal :=
  .next (s.onControl rx f 0x09 State.qcancelAct)

/-- FEDGEN (R334). -/
def execFedgen (rx : Rx) (f : Frame) (s : State) : Host.Outcome State Fault Refusal :=
  .next (s.onControl rx f 0x0A State.fedgenAct)

/-- RESULT (R291, R331, R364). -/
def execResult (rx : Rx) (f : Frame) (s : State) : Host.Outcome State Fault Refusal :=
  .next (s.onControl rx f 0x10 State.resultAct)

/-- REFUSE (R364). -/
def execRefuse (rx : Rx) (f : Frame) (s : State) : Host.Outcome State Fault Refusal :=
  .next (s.onControl rx f 0x11 State.refuseAct)

/-- HOME_BEHIND (R273). -/
def execHomeBehind (rx : Rx) (f : Frame) (s : State) : Host.Outcome State Fault Refusal :=
  .next (s.onControl rx f 0x12 State.homeBehindAct)

/-- FILL_IN (R297, R491). -/
def execFillIn (rx : Rx) (f : Frame) (s : State) : Host.Outcome State Fault Refusal :=
  .next (s.onControl rx f 0x13 State.fillInAct)

/-- REPORT (R310, R312, R491). -/
def execReport (rx : Rx) (f : Frame) (s : State) : Host.Outcome State Fault Refusal :=
  .next (s.onControl rx f 0x14 State.reportAct)

/-- GAP (R322). -/
def execGap (rx : Rx) (f : Frame) (s : State) : Host.Outcome State Fault Refusal :=
  .next (s.onControl rx f 0x15 State.gapAct)

/-- STAGED (R295, R365). -/
def execStaged (rx : Rx) (f : Frame) (s : State) : Host.Outcome State Fault Refusal :=
  .next (s.onControl rx f 0x16 State.stagedAct)

/-- QUIET (R294, R295). -/
def execQuiet (rx : Rx) (f : Frame) (s : State) : Host.Outcome State Fault Refusal :=
  .next (s.onControl rx f 0x17 State.quietAct)

/-- LINK_READY (R324). -/
def execLinkReady (rx : Rx) (f : Frame) (s : State) : Host.Outcome State Fault Refusal :=
  .next (s.onControl rx f 0x18 State.linkReadyAct)

/-- A message of which no effect reaches its sender: REFUSE, and a REPORT that asks for nothing. -/
def noEffect (f : Frame) : Bool := fSub f = 0x11 || (fSub f = 0x14 && decide (2 ≤ fArg f % 256))

/-- RETURN_RESEND_TIMEOUT (R310): the frames of a message whose effect has not followed; one of which no effect reaches its
sender is sent again once (DESIGN CHOICE). -/
def execReturnResendTimeout (id : Nat) (s : State) : Host.Outcome State Fault Refusal :=
  let mine := s.ring.resend.filter (fun r => r.id = id)
  .next (mine.foldl (fun (s : State) (r : Resend) =>
    let s := s.sendRet r.net r.frame
    if noEffect r.frame then
      { s with ring := { s.ring with resend := s.ring.resend.filter (fun y => y.id ≠ id) } }
    else s) s.clearTx)

/-- CONTROL_PIECE_TIMEOUT (R310): an incomplete set is discarded. -/
def execControlPieceTimeout (sender sub seq : Nat) (s : State) : Host.Outcome State Fault Refusal :=
  .next { s with ring := { s.ring with pieces := s.ring.pieces.filter (fun (p : Pieces) =>
    !(p.sender = sender && p.sub = sub && p.seq = seq)) } }

/-! ## Hop retry (R307, R308) -/

/-- LOP_RETRY (R307, R308): the frame is due as REPLAY in the next slot; one no longer in the replay buffer makes the link
lasting-faulty. -/
def execLopRetry (port hseq : Nat) (s : State) : Host.Outcome State Fault Refusal :=
  .next (if ¬ s.portUp port then s
    else
      match (s.port port).replay.find? (fun e => e.1 = hseq % 4096) with
      | some e => s.clearTx.setPort port { s.port port with due := (s.port port).due ++ [e] }
      | none => (s.clearTx.linkLasting port).beltDone)

/-- RETRY_TIMEOUT (R308): a second RETRY, then the link is lasting-faulty. -/
def execRetryTimeout (port hseq : Nat) (s : State) : Host.Outcome State Fault Refusal :=
  let p := s.port port
  .next (match p.asked.find? (fun e => e.1 = hseq) with
    | none => s
    | some e =>
      if e.2 < 2 then
        let asked := p.asked.map (fun (x : Nat × Nat) => if x.1 = hseq then (hseq, 2) else x)
        (s.clearTx.setPort port { p with asked := asked }).sendLop port .retry hseq
      else
        ((s.clearTx.setPort port { p with asked := p.asked.filter (fun x => x.1 ≠ hseq) }).linkLasting port).beltDone)

/-- Transient hop errors of a port within the last second (R308). -/
def State.transientsNow (s : State) (x : Nat) : List Nat :=
  (s.port x).transients.filter (fun t => decide (s.now < t + 156250000))

/-- Whether a port's transient errors of the last second have reached RETRY_LIMIT. -/
def State.overRetries (s : State) (x : Nat) : Bool :=
  let lim := s.fld Fld.BLT_RING_CTL_RETRY_LIMIT
  lim ≠ 0 && decide (lim ≤ (s.transientsNow x).length)

/-- A hop error was mended (R308). -/
def State.mended (s : State) (x : Nat) (f : Frame) : State :=
  let p := s.port x
  let last := if s.originOf f = s.portPeer x then p.lastRx else some f
  let s := s.setPort x { p with transients := s.now :: s.transientsNow x, lastRx := last, lastRxTb := s.now }
  (s.incFld (Fld.BLT_PORT_ERR_HOP_RETRIES x)).raise Fld.BLT_RING_EVENTS_HOP_RETRY

/-- An intact replay acts as its frame would have; with RETRY_LIMIT reached the link is lasting-faulty. -/
def State.replayed (s : State) (x : Nat) (f : Frame) : State :=
  let s := ((s.mended x f).noteAudit x f).frameAct x f
  if s.overRetries x then s.linkLasting x else s

/-- REPLAY_SLOT (R306 to R308): an intact frame acts as it would have; one that fails again makes the link
lasting-faulty; a copy stomped further upstream goes on stomped. -/
def execReplaySlot (rx : Rx) (f : Frame) (s : State) : Host.Outcome State Fault Refusal :=
  let x := rx.port
  let h := rxHseq rx
  let p := s.port x
  .next (if ¬ s.portUp x ∨ ¬ p.asked.any (fun e => e.1 = h) then s
    else
      let s := s.clearTx.setPort x { p with asked := p.asked.filter (fun e => e.1 ≠ h) }
      (if rxIs rx 1 ∧ rxFrame rx f = .good then s.replayed x f
        else if rxIs rx 1 ∧ rxFrame rx f = .inverted then s.forwardStomped x f
        else (s.badAct x f).linkLasting x).beltDone)

/-! ## Ports (R300, R303, R304, R319, R320, R324, R325) -/

/-- LOP_BYPASS (R320): the other end of a skip link has met the trigger. -/
def execLopBypass (port pos : Nat) (s : State) : Host.Outcome State Fault Refusal :=
  .next (if port % 4 < 2 ∨ ¬ s.portUp port ∨ (s.formedOn (port / 4) ∧ s.portPeer (port - 2) ≠ pos) then s
    else (s.clearTx.bypass (port / 4) (port % 4 = 3) false).beltDone)

/-- HEARTBEAT (R300): the partner's position; an idle port sends this device's in its own slot. -/
def execHeartbeat (port pos : Nat) (s : State) : Host.Outcome State Fault Refusal :=
  .next (if s.portUp port then (s.clearTx.setFld (Fld.BLT_PORT_STAT_PARTNER port) pos).heartbeat port else s)

/-- A neighbour that leaves has ended its path: this device switches to its skip link (R325). -/
def State.leftBy (s : State) (x : Nat) : State :=
  let net := x / 4
  let d := s.portPeer x
  let s := s.sendLast x
  let s := (if x % 4 = 0 then s.setUp net true else s.setDown net true).settlePorts net
  let s := if net = 0 then (s.incFld Fld.BLT_BYPASS_COUNT).seeBypassed d else s
  (s.raise Fld.BLT_RING_EVENTS_LEFT).event Ev.RING_LEAVE (s.unitQ d)

/-- The receiver of LAST takes the new path (R324, R325). -/
def State.lastPath (s : State) (x : Nat) : State :=
  let net := x / 4
  if ¬ s.formedOn net then s
  else if x % 4 = 2 then (if s.up net then ((s.sendLast x).setUp net false).settlePorts net else s)
  else if x % 4 = 3 then s
  else if (if x % 4 = 0 then s.up net else s.down net) then s
  else s.leftBy x

/-- LAST_SLOT (R307, R324, R325): after the frame it may carry, which is checked as any, the receiver takes the new path; a
slot that is not intact is no LAST. -/
def execLastSlot (rx : Rx) (f : Option Frame) (s : State) : Host.Outcome State Fault Refusal :=
  .next (if ¬ s.portUp rx.port then s
    else
      let go := fun (s : State) => if rxIs rx 4 then s.lastPath rx.port else s
      (match f with
        | some f => go (s.receiveAs rx 4 f (fun s f => s.frameAct rx.port f))
        | none => go s.clearTx).beltDone)

/-- SD_LOSS_TIMEOUT (R319, R320, R323): no intact slot delimiter for 640 ns. -/
def execSdLossTimeout (port : Nat) (s : State) : Host.Outcome State Fault Refusal :=
  .next (if ¬ s.portUp port then s
    else
      let net := port / 4
      let s := s.clearTx.portDown port
      (if port % 4 = 1 then s.bypass net true true
        else if port % 4 = 0 then s.bypass net false true
        else if s.formedOn net ∧ (if port % 4 = 2 then s.up net else s.down net) then s.breakRing net
        else s).beltDone)

/-- LANE_BER_WINDOW (R304, R308, Tables 10-24 to 10-26): the error ratio of the last second, the FEC symbols corrected and
the uncorrectable codewords received in it, and its transient hop errors. -/
def execLaneBerWindow (port berExp corrected uncorr : Nat) (aboveLimit : Bool) (s : State) :
    Host.Outcome State Fault Refusal :=
  .next (if ¬ s.portUp port then s
    else
      let s := ((s.clearTx.setFld (Fld.BLT_PORT_STAT_BER_EXP port) berExp).addFld (Fld.BLT_PORT_CORR_CORRECTED port)
        corrected).addFld (Fld.BLT_PORT_ERR_UNCORR port) uncorr
      if aboveLimit ∨ s.overRetries port then (s.linkLasting port).beltDone else s)

/-- PORT_QUALIFIED (R304, R324, R416): a port whose partner has appeared; a link to a bypassed neighbour is reported. -/
def execPortQualified (port partner : Nat) (s : State) : Host.Outcome State Fault Refusal :=
  .next (if 8 ≤ port ∨ 2 ≤ s.fld (Fld.BLT_PORT_STAT_STATE port) then s
    else
      let net := port / 4
      let s := (s.clearTx.setFld (Fld.BLT_PORT_STAT_STATE port) 2).setFld (Fld.BLT_PORT_STAT_PARTNER port) partner
      let s := ((s.setFld (Fld.BLT_PORT_STAT_LOCKED port) 1).setPort port emptyPort).heartbeat port
      let bypassed := if port % 4 = 0 then s.up net else if port % 4 = 1 then s.down net else false
      if s.formedOn net ∧ bypassed then
        let p := s.portPeer port
        if (if net = 0 then s.isManager else s.isRoot) then (s.noteLink net p (s.netPos net)).beltDone
        else s.sendReturn net 0 0x18 (arg := p * 2 ^ 28)
      else s)

/-- The port that sends on what another receives. -/
def onwardPort (s : State) (x : Nat) : Nat := if x % 2 = 0 then s.fwdOut (x / 4) else s.retOut (x / 4)

/-- ALIGN_SLOT (R303): the receiver is locked; in the slot that brings no frame the port ahead sends what waits, or ALIGN. -/
def execAlignSlot (port : Nat) (s : State) : Host.Outcome State Fault Refusal :=
  .next (if s.portUp port then
      let s := s.clearTx.setFld (Fld.BLT_PORT_STAT_LOCKED port) 1
      if s.onPath port ∧ s.portUp (onwardPort s port) then s.slotTime (onwardPort s port) else s
    else s)

/-- ALIGNMENT_LOCK_LOST (R303). -/
def execAlignmentLockLost (port : Nat) (s : State) : Host.Outcome State Fault Refusal :=
  .next (if port < 8 then s.setFld (Fld.BLT_PORT_STAT_LOCKED port) 0 else s)

/-! ## Formation (R312, R314, R316) -/

/-- FORMATION_START (R312): DISCOVER; a root whose child ring runs forms the parent ring. -/
def execFormationStart (s : State) : Host.Outcome State Fault Refusal :=
  .next (
    let start := fun (s : State) (net : Nat) =>
      let s := ((s.clearTx.setNetPos net 0).setPhase net .discover).sendDiscover net
      { s with ring := { s.ring with formTb := s.now } }
    if ¬ s.ready then s
    else if s.role = 1 ∧ ¬ s.formed then (if s.ring.phase = .idle then start s 0 else s)
    else if s.forms 1 ∧ s.isManager ∧ s.ring.parentPhase = .idle then start s 1
    else s)

/-- DISCOVER_RETRY (R312). -/
def execDiscoverRetry (s : State) : Host.Outcome State Fault Refusal :=
  .next (if s.ring.phase = .discover then s.clearTx.sendDiscover 0
    else if s.ring.parentPhase = .discover then s.clearTx.sendDiscover 1
    else s)

/-- FORMATION_TIMEOUT (R314): no loop within 1 s; formation begins again. -/
def execFormationTimeout (s : State) : Host.Outcome State Fault Refusal :=
  .next (
    let again := fun (net : Nat) => ((s.clearTx.failFormation net).setPhase net .discover).sendDiscover net
    if s.ring.phase = .discover ∨ s.ring.phase = .confirm ∨ s.ring.phase = .reports then again 0
    else if s.ring.parentPhase = .discover ∨ s.ring.parentPhase = .confirm then again 1
    else s)

/-- Whether every device in the ring has reported. -/
def State.allReported (s : State) : Bool :=
  (List.range s.ringSize).all (fun p => s.ring.gone.contains p || s.ring.reports.any (fun (r : DevReport) => r.pos = p))

/-- The slots of a directory, each owned by its home, or by the heir of one that is bypassed. -/
def State.slotOwners (s : State) : List Nat :=
  s.belt.dir.homes.flatMap (fun h =>
    List.replicate h.slots (if s.ring.gone.contains h.pos then (s.heirOf h.pos).getD h.pos else h.pos))

/-- The slots are issued (R272): those for which the circulation has room leave, the rest enter the store. -/
def State.issueSlots (s : State) : State :=
  let os := s.slotOwners
  let c := circulation (s.fld Fld.BLT_RTT_RTT)
  let s := (os.take c).foldl (fun s o =>
    let (s, f) := s.emptyFrame o
    s.sendOn (s.fwdOut 0) f) s
  ((os.drop c).foldl (fun s o =>
    let (s, f) := s.emptyFrame o
    if s.ring.store.length < 3072 then { s with ring := { s.ring with store := s.ring.store ++ [f] } } else s) s).syncStore

/-- REPORT_COLLECTION_COMPLETE (R272, R312): DIRECTORY, the slots, the TOP_NOTE of revolution 0. -/
def execReportCollectionComplete (s : State) : Host.Outcome State Fault Refusal :=
  .next (if s.ring.phase = .reports ∧ s.allReported then
      let s := s.clearTx
      let (d, p) := s.buildDir
      let s := ((s.setFld Fld.BLT_SLOTS_P p).sendDir d).installDir d s.epoch
      let s := (s.issueSlots).setPhase 0 .formed
      (s.markNow.placeAll).beltDone
    else s)

/-- Whose a home's slots are: the home's, its shadow's once it is bypassed, nobody's where it has no source (R292, R296). -/
def State.ownerNow (s : State) (h : Home) : Option Nat := if s.lostHome h.pos then s.heirOf h.pos else some h.pos

/-- The owned count of a device, with the slots it has inherited. -/
def State.ownedCount (s : State) (o : Nat) : Nat :=
  s.belt.dir.homes.foldl (fun n h => if s.ownerNow h = some o then n + h.slots else n) 0

/-- A new EMPTY frame of an owner leaves from the store, in the place of an absorbed one where there is one. -/
def State.reissue (s : State) (o : Nat) : State :=
  ({ s with ring := { s.ring with spare := s.ring.spare.drop 1 } }).sendEmpty o

/-- One owner's correction (R316): of n frames that passed against k owned. -/
def State.auditOwner (s : State) (o n k : Nat) : State :=
  if n = k then s
  else
    let s := (s.raise Fld.BLT_RING_EVENTS_SLOT_AUDIT).event Ev.SLOT_AUDIT (s.unitQ o)
    if n < k then ((List.range (k - n)).foldl (fun s _ => s.reissue o) s).syncStore
    else
      let rest := s.ring.surplus.filter (fun (e : Nat × Nat) => e.1 ≠ o)
      { s with ring := { s.ring with surplus := rest ++ [(o, n - k)] } }

/-- SLOT_AUDIT (R316): P slot times after a TOP_NOTE, the frames that passed for each owner against its owned count. The
model counts them itself (RingSt.audit): the command carries nothing. -/
def execSlotAudit (_ : Unit) (s : State) : Host.Outcome State Fault Refusal :=
  .next (match s.ring.audit with
    | some (t, counts) =>
      if s.isManager ∧ s.formed ∧ s.ring.phase = .formed ∧ t ≤ s.now then
        let owners := (s.belt.dir.homes.filterMap (fun h => s.ownerNow h)).eraseDups
        let s := s.clearTx
        owners.foldl (fun (s : State) o => s.auditOwner o (tabGet 0 counts o) (s.ownedCount o))
          { s with ring := { s.ring with audit := none } }
      else s
    | none => s)

/-! ## The standby and the root (R327, R328, R331) -/

/-- STANDBY_TAKEOVER_TIMEOUT (R326 to R328). -/
def execStandbyTakeoverTimeout (s : State) : Host.Outcome State Fault Refusal :=
  .next (if s.role = 2 ∧ s.formed ∧ s.ready ∧ ¬ s.braked ∧ s.ring.behind.isEmpty then
      let s := (s.clearTx.setRole 1).raise Fld.BLT_RING_EVENTS_TAKEOVER
      let s := s.event Ev.MGR_TAKEOVER (s.unitQ s.pos)
      let fill := if s.elastic then 0 else s.fld Fld.BLT_SLOTS_P - circulation (s.fld Fld.BLT_RTT_RTT)
      let s := { s with ring := { s.ring with acting := true, phase := .formed, sw := none, quiet := [], holder := s.pos,
                                              fillTo := fill } }
      let s := if s.ring.gone.contains 0 then s else s.sendControl 0 0 0x06
      let s := s.setFld Fld.BLT_RING_ELASTIC 1
      let s := [4, 5, 6, 7].foldl (fun (s : State) x =>
        if s.fld (Fld.BLT_PORT_STAT_STATE x) = 5 then s.setFld (Fld.BLT_PORT_STAT_STATE x) 0 else s) s
      let s := (s.ring.linkReady.filter (fun e => e.1 < 4096)).foldl (fun (s : State) e => s.tryJoin 0 e.1) s
      (s.markNow).beltDone
    else s)

/-- FED_TIMEOUT (R331): the root merges a federated query, by its own number, without the children that have not
answered. -/
def execFedTimeout (qnum : W64) (s : State) : Host.Outcome State Fault Refusal :=
  .next (match s.ring.fed.find? (fun (q : FedQuery) => q.qnum = qnum) with
    | some q => (s.mergeFed q).settleCancels
    | none => s)

end Sys2Proof.Machine
end

