-- ==== Sys2Proof/Machine/Regulation.lean ====
section
/-! DEFINITION. Bandwidth regulation: windows, misses, register changes (11_regulation.md R337, R338, R341 to R344). -/

namespace Sys2Proof.Machine

/-- A write is ignored under R337, R338 or R341. -/
def State.rglReject (s : State) : State := s.raise Fld.RGL_EVENTS_REJECT

/-- The guarantees of all masters on a resource, one of them replaced. -/
def State.grtSum (s : State) (m r g : Nat) : Nat :=
  (List.range 22).foldl (fun n i => n + (if i = m then g else s.fld (Fld.RGL_GRT_GUAR i r))) 0

/-- A write of a guarantee and weight: in force from the next window boundary. -/
def State.writeGrt (s : State) (m r : Nat) (v : W32) : State :=
  let g := bitsOf v 10 0
  let off := Off.RGL_GRT m r
  if 22 ≤ m ∨ 4 ≤ r then s
  else if (g ≠ 0 ∧ ¬ pairExists m r) ∨ 1024 < s.grtSum m r g then s.rglReject
  else
    let old := if (tabFind s.rgl.old off).isSome then s.rgl.old else tabInsert s.rgl.old off (s.regAt off)
    ({ s with rgl := { s.rgl with old := old } }).hostWrite off v

/-- GUARANTEE_WRITE (R337, R338, R344). -/
def execGuaranteeWrite (m r : Nat) (v : W32) (s : State) : Host.Outcome State Fault Refusal :=
  .next (if s.linked then s.writeGrt m r v else s)

/-- The sum of a reservation over the classes, one of them replaced. -/
def State.rsvSum (s : State) (f : Nat → Fld) (k n : Nat) : Nat :=
  (List.range 16).foldl (fun x j => x + (if j = k then n else s.fld (f j))) 0

/-- A write of a class's way share and reservations. -/
def State.writeRglClass (s : State) (k : Nat) (v : W32) : State :=
  let e := bitsOf v 5 0
  let q := bitsOf v 12 8
  if 16 ≤ k then s
  else if 32 < e ∨ 16 < q ∨ 192 < s.rsvSum Fld.RGL_CLASS_MSHR_RSV k e ∨ 96 < s.rsvSum Fld.RGL_CLASS_QSLOT_RSV k q then
    s.rglReject
  else s.hostWrite (Off.RGL_CLASS k) v

/-- CLASS_RESERVATION_WRITE (R340, R341, R344). -/
def execClassReservationWrite (k : Nat) (v : W32) (s : State) : Host.Outcome State Fault Refusal :=
  .next (if s.linked then s.writeRglClass k v else s)

/-- Bytes in units of 256, saturating at n bits. -/
def units256 (b n : Nat) : Nat := min (b / 256) (2 ^ n - 1)

/-- The report of a miss to the manager (R343): word 5 holds the pair, the class and the counts. -/
def State.reportMiss (s : State) (m r cls served cap : Nat) : State :=
  let w5 := m * 2 ^ 59 + r * 2 ^ 57 + cls * 2 ^ 53 + units256 served 27 * 2 ^ 26 + units256 cap 26
  if ¬ s.formed then s
  else if s.isManager then s.jrnPeer s.pos (BitVec.ofNat 64 s.devUid) 0x14 (Rep.miss + w5 * 2 ^ 40)
  else s.sendReturn 0 0 0x14 Rep.miss w5

/-- HOLDOFF_MS in ticks. -/
def State.holdoff (s : State) : Nat := msTicks (max 1 (s.fld Fld.RGL_CTL_HOLDOFF_MS))

/-- The guarantee-miss event (R343). -/
def State.missEvent (s : State) (m r cls served cap : Nat) : State :=
  let key := m * 4 + r
  let due := match tabFind s.rgl.lastEvent key with
    | some t => decide (t + s.holdoff ≤ s.now)
    | none => true
  if due then
    let s := { s with rgl := { s.rgl with lastEvent := tabInsert s.rgl.lastEvent key s.now } }
    let s := (s.raise Fld.RGL_EVENTS_MISS).msi (s.fld Fld.RGL_CTL_VECTOR)
    let args := (s.regAt Off.RGL_LAST_MISS).toNat + units256 served 32 * 2 ^ 32 + units256 cap 32 * 2 ^ 64
    (s.event Ev.GUARANTEE_MISS (unitPair m r) 0 args).reportMiss m r cls served cap
  else s

/-- A third short window in a row (R343). -/
def State.guaranteeMiss (s : State) (m r cls served cap : Nat) : State :=
  let s := (s.incFld (Fld.RGL_MISS_COUNT m)).setBit (Fld.RGL_MISS_RES m) r
  let s := (((s.setFld Fld.RGL_LAST_MISS_MASTER m).setFld Fld.RGL_LAST_MISS_RESOURCE r).setFld
    Fld.RGL_LAST_MISS_CLASS cls).raise Fld.RGL_LAST_MISS_VALID
  s.missEvent m r cls served cap

/-- Channel controllers in service. -/
def State.channelsUp (s : State) : List Nat :=
  s.ul.chans.filter (fun ch => !s.fbit (Fld.ULC_CHAN_RET_RETIRED (ch / 32)) (ch % 32))

/-- What the points of a resource in service could have moved in a window of `len` ticks (R342, Table 11-2): each slice 256 B
a step, each channel 64 B a nanosecond, the equator link 4 TB/s at 1.7 GHz and the endpoint 118 GB/s, both each way. -/
def State.capacity (s : State) (ulSteps eqSteps len r : Nat) : Nat :=
  match r with
  | 0 => (s.slicesIn 0 ++ s.slicesIn 1).length * ulSteps * 256
  | 1 => s.channelsUp.length * (4096 * len / 10)
  | 2 => eqSteps * 40000 / 17
  | _ => 7552 * len / 10

/-- The length of the window in progress. -/
def State.winTicks (s : State) : Nat := if s.rgl.odd then 1563 else 1562

/-- Whether a pair is measured in this window: nothing of it was out of service in any part. -/
def State.measured (s : State) (m r : Nat) : Bool :=
  !s.rgl.dark.contains 16 && !(decide (m < 16) && s.rgl.dark.contains m) && !(decide (r = 3) && s.rgl.dark.contains 17)

/-- Whether a pair had demand pending: at each of the 16 samples; at the endpoint, as the command says. -/
def State.demandOf (s : State) (pcie : List (Nat × Nat)) (m r : Nat) : Bool :=
  if r = 3 then pcie.any (fun e => e.1 = m) else decide (s.rgl.samples = 16 ∧ tabGet 0 s.rgl.demand (m * 4 + r) = 16)

/-- The class of a pair's oldest waiting request; where none waits any more, that of the last sample. -/
def State.missClass (s : State) (pcie : List (Nat × Nat)) (m r : Nat) : Nat :=
  if r = 3 then ((pcie.find? (fun e => e.1 = m)).map (·.2)).getD 0
  else (oldestClass (s.waitingFor m r)).getD (tabGet 0 s.rgl.oldest (m * 4 + r))

/-- A window of one pair is measured, or ends its run (R342): `g` is its guarantee, `cap` its resource's capacity. -/
def State.measurePair (s : State) (pcie : List (Nat × Nat)) (g cap m r : Nat) : State :=
  let key := m * 4 + r
  let served := tabGet 0 s.rgl.served key
  let run := fun (s : State) (n : Nat) => { s with rgl := { s.rgl with runs := tabPut 0 s.rgl.runs key n } }
  if cap = 0 ∨ ¬ s.measured m r then run s 0
  else
    let s := s.setFld (Fld.RGL_SERVED_SERVED m r) (units256 served 32)
    if s.demandOf pcie m r && decide (served * 32 * 1024 < 31 * g * cap) then
      let n := tabGet 0 s.rgl.runs key + 1
      if n < 3 then run s n else (run s 0).guaranteeMiss m r (s.missClass pcie m r) served cap
    else run s 0

/-- A new window begins, of the other length; written guarantees and weights are in force (R344). -/
def State.nextWindow (s : State) : State :=
  { s with rgl := { s.rgl with old := [], served := [], demand := [], samples := 0, oldest := [], dark := []
                               winStart := s.now, odd := !s.rgl.odd } }

/-- A resource's capacity is shown, where the device was in service (Table 11-5). -/
def State.showCap (s : State) (cap r : Nat) : State :=
  if cap = 0 ∨ s.rgl.dark.contains 16 ∨ (r = 3 ∧ s.rgl.dark.contains 17) then s else s.setFld (Fld.RGL_CAP_CAP r) (units256 cap 32)

/-- REGULATION_WINDOW_END (R342 to R344): the steps that slices and equator link counted, and the masters whose TLPs waited at
the endpoint throughout, each with the class of its oldest; every pair is measured, and the next window begins. -/
def execRegulationWindowEnd (steps : WindowSteps) (pcie : List (Nat × Nat)) (s : State) : Host.Outcome State Fault Refusal :=
  let s0 := s.clearTx.noteDark
  let cap := s0.capacity steps.slices steps.equator s0.winTicks
  let s1 := (List.range 4).foldl (fun (t : State) r => t.showCap (cap r) r) s0
  .next ((allPairs.foldl (fun (t : State) (e : Nat × Nat) =>
    t.measurePair pcie (s.guar e.1 e.2) (cap e.2) e.1 e.2) s1).nextWindow)

end Sys2Proof.Machine
end

