-- ==== Sys2Proof/Machine/Stack.lean ====
section
/-! DEFINITION. Dies, stack and bridges in service: timebase followers, sideband, vertical interfaces, sense groups, bridge
flits, HBM transfers (01_stack.md R23 to R43; 08_underlayer.md R261, R262). -/

namespace Sys2Proof.Machine

/-! ## Timebase and sideband (R30 to R34) -/

/-- The code of a die in a unit of letter Y (Table 14-10). -/
def TbDie.code : TbDie → Nat
  | .u1 => 0
  | .cd => 1
  | .iod => 2

def State.follower (s : State) (d : TbDie) : W64 :=
  match d with
  | .u1 => s.stack.tbU1
  | .cd => s.stack.tbCd
  | .iod => s.stack.tbIod

def State.setFollower (s : State) (d : TbDie) (v : W64) : State :=
  match d with
  | .u1 => { s with stack := { s.stack with tbU1 := v } }
  | .cd => { s with stack := { s.stack with tbCd := v } }
  | .iod => { s with stack := { s.stack with tbIod := v } }

/-- OK of a timebase path. -/
def pathFld (onCd pathB : Bool) : Fld :=
  if onCd then (if pathB then Fld.CFG_TB_STATUS_CD_B_OK else Fld.CFG_TB_STATUS_CD_A_OK)
  else (if pathB then Fld.CFG_TB_STATUS_U1_B_OK else Fld.CFG_TB_STATUS_U1_A_OK)

/-- Whether both paths to a die deliver its value; the IOD's are the sideband's copies, and with one of them lost its counter
is not checked (DEDUCED, entry 115). -/
def State.bothPaths (s : State) (d : TbDie) : Bool :=
  match d with
  | .u1 => s.flag (pathFld false false) && s.flag (pathFld false true)
  | .cd => s.flag (pathFld true false) && s.flag (pathFld true true)
  | .iod => s.stack.sidebandA && s.stack.sidebandB

/-- Whether the compute die's service domain is powered (R28): not in Q3 and Q4, nor before a wake from them has ended. -/
def State.vddCds (s : State) : Bool := s.pins.vddUp && decide (s.fld Fld.PWR_STATUS_DSTATE ≤ 2)

/-- Whether VDD_UL is in service: off in Q4, in retention in Q3 (R30, Table 15-6). -/
def State.vddUl (s : State) : Bool := s.pins.vddUp && decide (s.fld Fld.PWR_STATUS_DSTATE ≤ 2)

/-- Whether the domain of a follower, or of an interface (0 CD–U1, 1 U1–U0), is in service. -/
def State.dieUp (s : State) (d : TbDie) : Bool :=
  match d with
  | .u1 => s.vddUl
  | .cd => s.vddCds
  | .iod => true
def State.vifUp (s : State) (iface : Nat) : Bool := if iface = 0 then s.vddCds && s.vddUl else s.vddUl

/-- One REFCLK period (R29 to R32): the master and the IOD's counter advance, and each follower in a powered domain that a
path reaches; what waits in the belt ports' FIFOs leaves in the slot time that passes (R303), and the regulation window is
sampled (R342). -/
def State.tick (s : State) : State :=
  if ¬ s.pins.vaux ∨ ¬ s.pins.refclk then s
  else
    let k := s.stack
    let u1 := if s.vddUl ∧ (s.flag (pathFld false false) ∨ s.flag (pathFld false true)) then k.tbU1 + 1 else k.tbU1
    let cd := if s.vddCds ∧ (s.flag (pathFld true false) ∨ s.flag (pathFld true true)) then k.tbCd + 1 else k.tbCd
    ({ s with stack := { k with tbMaster := k.tbMaster + 1, tbIod := k.tbIod + 1, tbU1 := u1, tbCd := cd } }).drainPorts.rglTick

/-- The two paths deliver different values: nothing is reloaded, the disagreement is reported. -/
def State.tbDisagreed (s : State) (die : TbDie) : State :=
  s.eventReg Ev.TB_DISAGREE (unitPath (TbDie.code die) false) Off.CFG_TB_STATUS

/-- The follower takes the delivered value. -/
def State.tbReloaded (s : State) (die : TbDie) (v : W64) : State :=
  ((s.setFollower die v).raise Fld.CFG_TB_STATUS_RELOAD).eventReg Ev.TB_RELOAD (unitPath (TbDie.code die) false)
    Off.CFG_TB_STATUS

/-- What one check finds, both paths being well. -/
def State.tbCheck (s : State) (die : TbDie) (valA valB : W64) : State :=
  if valA != valB then s.tbDisagreed die
  else if s.follower die == valA then s
  else s.tbReloaded die valA

/-- TB_VALUE_CHECK (R30, R32): the follower reloads a value that both paths agree on; values are corrected for the path
delay. -/
def execTbValueCheck (die : TbDie) (valA valB : W64) (s : State) : Host.Outcome State Fault Refusal :=
  .next (if s.dieUp die ∧ s.bothPaths die then s.tbCheck die valA valB else s)

/-- One path of a die lost: its OK clears, the loss is reported. -/
def State.pathGone (s : State) (onCd pathB : Bool) : State :=
  (s.setFld (pathFld onCd pathB) 0).eventReg Ev.TB_PATH_LOST (unitPath (b2n onCd) pathB) Off.CFG_TB_STATUS

/-- TB_PATH_LOST (R31): the OK bit clears; the loss of both paths to a die is a device-scope fault. -/
def execTbPathLost (onCd pathB : Bool) (s : State) : Host.Outcome State Fault Refusal :=
  .next (if s.dieUp (if onCd then .cd else .u1) ∧ s.flag (pathFld onCd pathB) then
      (if s.flag (pathFld onCd (!pathB)) then s.pathGone onCd pathB
       else (s.pathGone onCd pathB).deviceScope Ev.TB_PATH_LOST)
    else s)

/-- Whether a copy of the sideband works. -/
def State.sideband (s : State) (copyB : Bool) : Bool := if copyB then s.stack.sidebandB else s.stack.sidebandA

/-- One copy of the sideband lost. -/
def State.copyGone (s : State) (copyB : Bool) : State :=
  State.event (if copyB then { s with stack := { s.stack with sidebandB := false } }
    else { s with stack := { s.stack with sidebandA := false } }) Ev.SIDEBAND_COPY_LOST (unitPath 3 copyB)

/-- SIDEBAND_COPY_LOST (R34): the loss of both copies is a device-scope fault. -/
def execSidebandCopyLost (copyB : Bool) (s : State) : Host.Outcome State Fault Refusal :=
  .next (if s.sideband copyB then
      (if s.sideband (!copyB) then s.copyGone copyB
       else (s.copyGone copyB).deviceScope Ev.SIDEBAND_COPY_LOST)
    else s)

/-! ## Vertical interfaces (R22 to R25) -/

/-- Fields of an interface: 0 CD–U1, 1 U1–U0. -/
def vifRetired (iface : Nat) : Fld :=
  if iface = 0 then Fld.CFG_VIF_CDU1_SLICES_RETIRED else Fld.CFG_VIF_U1U0_SLICES_RETIRED
def vifFull (iface : Nat) : Fld := if iface = 0 then Fld.CFG_VIF_CDU1_GROUPS_FULL else Fld.CFG_VIF_U1U0_GROUPS_FULL
def vifUsed (iface : Nat) : Fld := if iface = 0 then Fld.CFG_VIF_CDU1_SPARES_USED else Fld.CFG_VIF_U1U0_SPARES_USED

/-- Sites of a group known bad. -/
def State.badSites (s : State) (iface group : Nat) : Nat :=
  (s.stack.sitesBad.filter (fun x => x.1 = iface && x.2.1 = group)).length

def State.markSite (s : State) (iface group site : Nat) : State :=
  if s.stack.sitesBad.contains (iface, group, site) then s
  else { s with stack := { s.stack with sitesBad := s.stack.sitesBad ++ [(iface, group, site)] } }

def State.underTest (s : State) (iface group : Nat) : Bool := s.stack.vifUnderTest.contains (iface, group)

def State.endTest (s : State) (iface group : Nat) : State :=
  { s with stack := { s.stack with vifUnderTest := s.stack.vifUnderTest.filter (fun g => g ≠ (iface, group)) } }

/-- VIF_PARITY_MISMATCH (R23, R25): a repeat that passes is transient; one that fails starts the wire test, and the slice
waits. -/
def execVifParityMismatch (iface group : Nat) (repeatFails : Bool) (s : State) : Host.Outcome State Fault Refusal :=
  .next (if 2 ≤ iface ∨ 9728 ≤ group ∨ s.sliceState (group / 76) ≠ 0 ∨ s.underTest iface group ∨ ¬ s.vifUp iface then s
    else if ¬ repeatFails then s.incFld Fld.CFG_VIF_EVENTS_RETRY_COUNT
    else { s with stack := { s.stack with vifUnderTest := s.stack.vifUnderTest ++ [(iface, group)] } })

/-- The slice of a group is retired through a vertical fault. -/
def State.vifRetire (s : State) (iface group cause : Nat) : State :=
  let s := ((s.endTest iface group).raise Fld.CFG_VIF_EVENTS_RETIRED).incFld (vifRetired iface)
  (s.eventReg Ev.VIF_SLICE_RETIRED (group / 76) Off.CFG_VIF_EVENTS).retireSlice (group / 76) cause Ev.VIF_SLICE_RETIRED

/-- Signal wires of a group known bad, and spares known bad. -/
def State.badWires (s : State) (iface group : Nat) : Nat :=
  (s.stack.sitesBad.filter (fun x => x.1 = iface && x.2.1 = group && decide (x.2.2 < 32))).length
def State.badSpares (s : State) (iface group : Nat) : List Nat :=
  ((s.stack.sitesBad.filter (fun x => x.1 = iface && x.2.1 = group && decide (32 ≤ x.2.2))).map (fun x => x.2.2))

/-- Spares of a group steered in: a usable one for each bad wire. -/
def State.sparesIn (s : State) (iface group : Nat) : List Nat :=
  ([32, 33].filter (fun x => !(s.badSpares iface group).contains x)).take (s.badWires iface group)

/-- The groups that hold bad sites. -/
def State.badGroups (s : State) : List (Nat × Nat) := (s.stack.sitesBad.map (fun e => (e.1, e.2.1))).eraseDups

/-- SPARES_USED and GROUPS_FULL of one interface. -/
def State.showSpares (s : State) (i : Nat) : State :=
  let gs := s.badGroups.filter (fun g => g.1 = i)
  let used := gs.foldl (fun n g => n + (s.sparesIn g.1 g.2).length) 0
  let full := (gs.filter (fun g => decide (2 ≤ s.badSites g.1 g.2))).length
  (s.setFld (vifUsed i) (min used 65535)).setFld (vifFull i) (min full 255)

/-- The site that a wire test locates: 0 to 33 of the group, 34 to 67 of the parity group that serves it. A slice's groups
stand in the order of R21: read data, write data, parity, control; the first parity group serves the first 32 (PRESUMED,
entry 122). -/
def testedSite (group site : Nat) : Nat × Nat :=
  if site < 34 then (group, site) else (group / 76 * 76 + 64 + group % 76 / 32, site - 34)

/-- Whether a test of a group covers a site: a control group carries its own parity. -/
def siteTested (group site : Nat) : Bool := decide (site < 34) || (decide (site < 68) && decide (group % 76 < 64))

/-- An unlocated event (R24): the second on a group within 24 h retires its slice. -/
def State.vifNotFound (s : State) (iface group : Nat) : State :=
  let again := s.stack.vifUnlocated.any (fun e => e.1 = (iface, group) && decide (s.now < e.2 + dayTicks))
  let s := (s.raise Fld.CFG_VIF_EVENTS_UNLOCATED).eventReg Ev.VIF_UNLOCATED (unitVif iface group 63) Off.CFG_VIF_EVENTS
  let s := { s with stack := { s.stack with
      vifUnlocated := ((iface, group), s.now) :: s.stack.vifUnlocated.filter (fun e => e.1 ≠ (iface, group)) } }
  if again then s.vifRetire iface group 2 else s.endTest iface group

/-- A located wire (R23), in the group or in its parity group: a spare is steered in, and the transfer is repeated; a third
failure starts the test again. -/
def State.vifSteer (s : State) (iface group : Nat) (at' : Nat × Nat) (thirdOk : Bool) : State :=
  let s := s.markSite iface at'.1 at'.2
  if 2 < s.badSites iface at'.1 then (s.showSpares iface).vifRetire iface group 1
  else
    let s := (s.raise Fld.CFG_VIF_EVENTS_STEERED).showSpares iface
    let u := unitVif iface at'.1 at'.2
    let s := (s.eventReg Ev.VIF_STEERED u Off.CFG_VIF_EVENTS).addDefect 0x03 u Ev.VIF_STEERED
    if thirdOk then s.endTest iface group else s

/-- What a wire test locates: a wire in use is steered away; a spare that is not in use is marked unusable and explains no
mismatch, nor does a site already steered away. -/
def State.vifLocated (s : State) (iface group site : Nat) (thirdOk : Bool) : State :=
  let at' := testedSite group site
  if s.stack.sitesBad.contains (iface, at') then s.vifNotFound iface group
  else if at'.2 < 32 ∨ (s.sparesIn iface at'.1).contains at'.2 then s.vifSteer iface group at' thirdOk
  else
    let u := unitVif iface at'.1 at'.2
    (((s.markSite iface at'.1 at'.2).showSpares iface).addDefect 0x03 u Ev.VIF_STEERED).vifNotFound iface group

/-- VIF_WIRE_TEST_COMPLETE (R23, R24). -/
def execVifWireTestComplete (iface group : Nat) (located : Option Nat) (thirdOk : Bool) (s : State) :
    Host.Outcome State Fault Refusal :=
  .next (if ¬ s.underTest iface group then s
    else
      match located with
      | some site => if siteTested group site then s.vifLocated iface group site thirdOk else s
      | none => s.vifNotFound iface group)

/-! ## Sense groups (R27) -/

/-- One newly weakened group: journalled; of VDD_CORE also counted, in the defect list, and in its region's lost count. -/
def State.weaken (s : State) (g : SenseGroup) : State :=
  if s.stack.weak.contains g ∨ ¬ g.inTable then s
  else
    let s := { s with stack := { s.stack with weak := s.stack.weak ++ [g] } }
    if g.rail = 0 ∧ g.region < 16 then
      let f := if g.die = 0 then Fld.PWR_TSV_U0_WEAK g.region else Fld.PWR_TSV_U1_WEAK g.region
      let s := (s.incFld f).eventReg Ev.TSV_WEAKENED (unitSense g) (Off.PWR_TSV g.region)
      (s.addDefect 0x05 (unitSense g) Ev.TSV_WEAKENED).updCap g.region Ev.TSV_WEAKENED (unitSense g)
    else s.event Ev.TSV_WEAKENED (unitSense g)

/-- TSV_SENSE_READ (R27): the groups that the controllers find weakened. -/
def execTsvSenseRead (weak : List SenseGroup) (s : State) : Host.Outcome State Fault Refusal :=
  .next (if s.running then weak.foldl (fun s g => s.weaken g) s else s)

/-! ## The bridge (R36 to R40) -/

/-- An end at training: SEQ 0 on both sides and no credit spent (DESIGN CHOICE, entry 116). -/
def emptyPair : BridgePair := ⟨[], 0, 0, false, false, [0, 0, 0, 0], [0, 0, 0, 0], [], [], []⟩

/-- The number of an end: the IOD's end of pair g, then U0's. -/
def endOf (atU0 : Bool) (g : Nat) : Nat := 2 * g + b2n atU0

def State.bridge (s : State) (k : Nat) : BridgePair := tabGet emptyPair s.stack.pairs k

def State.setBridge (s : State) (k : Nat) (p : BridgePair) : State :=
  { s with stack := { s.stack with pairs := tabPut emptyPair s.stack.pairs k p } }

/-- Header of a flit: bit 111 is the most significant bit of byte 0 (Table 1-9). -/
def flitHeader (flit : List Byte) : BitVec 112 := BitVec.ofNat 112 ((flit.take 14).foldl (fun n b => n * 256 + b.toNat) 0)

/-- Whether a flit's CRC holds, most significant byte first (R37). -/
def flitCrcOk (flit : List Byte) : Bool :=
  flit.length = 256 && crc16 (flit.take 254) = (flit.getD 254 0#8).toNat * 256 + (flit.getD 255 0#8).toNat

/-- The valid slots of a flit with their virtual channels: slot n is bytes 14 + 16 n on. -/
def flitSlots (flit : List Byte) : List (Nat × List Byte) :=
  let h := flitHeader flit
  ((List.range 15).filter (fun n => bitOf h n)).map (fun n => (bitsOf h (16 + 2 * n) (15 + 2 * n), (flit.drop (14 + 16 * n)).take 16))

/-- Credits returned for VC0 to VC3: VC3 stands highest. -/
def flitCredits (h : BitVec 112) : List Nat := (List.range 4).map (fun v => bitsOf h (50 + 6 * v) (45 + 6 * v))

/-- Lists of four counts, by virtual channel. -/
def vcAdd (a b : List Nat) : List Nat := (List.range 4).map (fun v => a.getD v 0 + b.getD v 0)
def vcSub (a b : List Nat) : List Nat := (List.range 4).map (fun v => a.getD v 0 - b.getD v 0)
def vcOne (v : Nat) : List Nat := (List.range 4).map (fun i => if i = v then 1 else 0)

/-- The header of a flit as a number (Table 1-9): FTYPE, SEQ, ACK_SEQ, NAK, CREDIT of VC3 to VC0, SLOT_VC, SLOT_VALID. -/
def flitWord (ftype seq ack : Nat) (nak : Bool) (credits : List Nat) (units : List BridgeUnit) : Nat :=
  ftype * 2 ^ 108 + seq % 4096 * 2 ^ 96 + ack % 4096 * 2 ^ 84 + b2n nak * 2 ^ 83
    + (List.range 4).foldl (fun n v => n + min 63 (credits.getD v 0) * 2 ^ (45 + 6 * v)) 0
    + units.zipIdx.foldl (fun n (e : BridgeUnit × Nat) => n + e.1.vc % 4 * 2 ^ (15 + 2 * e.2)) 0
    + (2 ^ units.length - 1)

/-- The 256 bytes of a flit (Table 1-8). -/
def flitBytes (word : Nat) (units : List BridgeUnit) : List Byte :=
  let slots := (List.range 15).flatMap (fun n => match units[n]? with
    | some u => (u.data ++ List.replicate 16 0#8).take 16
    | none => List.replicate 16 0#8)
  let body := beBytes 14 word ++ slots
  body ++ beBytes 2 (crc16 body)

/-- An end sends a flit: it carries the last SEQ received in order, the NAK and the credits that are due. -/
def State.sendFlit (s : State) (k ftype seq : Nat) (units : List BridgeUnit) : State :=
  let p := s.bridge k
  let word := flitWord ftype seq (p.expectSeq + 4095) p.nakDue p.freed units
  s.setBridge k { p with wire := p.wire ++ [flitBytes word units], nakDue := false,
                         freed := p.freed.map (fun n => n - 63) }

/-- The waiting units that one flit takes: 15 at most, in order, as far as the credits of their channels reach. -/
def flitTake (spent : List Nat) : Nat → List BridgeUnit → List BridgeUnit
  | 0, _ => []
  | _, [] => []
  | n + 1, u :: t =>
    if spent.getD u.vc 0 < Config.bridgeCredits u.vc then u :: flitTake (vcAdd spent (vcOne u.vc)) n t else []

/-- An end sends its waiting units as DATA flits, until none is left, the replay buffer holds 512 flits or credits are out
(R38). The fuel is the number of units. -/
def State.pump : Nat → State → Nat → State
  | 0, s, _ => s
  | n + 1, s, k =>
    let p := s.bridge k
    match flitTake p.spent 15 p.outbox with
    | [] => s
    | us =>
      if 512 ≤ p.replay.length then s
      else
        let s := s.setBridge k { p with replay := p.replay ++ [(p.nextSeq, us)], nextSeq := (p.nextSeq + 1) % 4096,
                                        spent := us.foldl (fun c u => vcAdd c (vcOne u.vc)) p.spent,
                                        outbox := p.outbox.drop us.length }
        State.pump n (s.sendFlit k 1 p.nextSeq us) k

def State.pumpEnd (s : State) (k : Nat) : State := State.pump (s.bridge k).outbox.length s k

/-- Flits of the replay buffer that an ACK_SEQ covers leave it. -/
def ackReplay (replay : List (Nat × List BridgeUnit)) (ack : Nat) : List (Nat × List BridgeUnit) :=
  match replay with
  | [] => []
  | (q, _) :: _ =>
    let n := (ack + 4096 - q) % 4096 + 1
    if n ≤ 512 ∧ n ≤ replay.length then replay.drop n else replay

/-- Go-back-N (R38): every flit not acknowledged is sent again in order, with its SEQ. -/
def State.replayAll (s : State) (k : Nat) : State :=
  (s.bridge k).replay.foldl (fun s e => s.sendFlit k 2 e.1 e.2) s

/-- The pair that carries a slice's traffic: the steering table's entry of the slice. -/
def State.pairOf (s : State) (slice : Nat) : Nat := s.stack.steering.getD (slice % 16) (slice % 16)

/-- Units wait at the end of the pair that carries their slice. -/
def State.offerUnits (s : State) (atU0 : Bool) (units : List BridgeUnit) : State :=
  units.foldl (fun s u =>
    let k := endOf atU0 (s.pairOf u.slice)
    let p := s.bridge k
    s.setBridge k { p with outbox := p.outbox ++ [u] }) s

/-- Every end of one side sends what it can. -/
def State.pumpSide (s : State) (atU0 : Bool) : State := (List.range 16).foldl (fun s g => s.pumpEnd (endOf atU0 g)) s

/-- A pair's slices move to the pairs that remain, in turn (the order is a DESIGN CHOICE). -/
def State.steerAway (s : State) (g : Nat) : State :=
  let left := (List.range 16).filter (fun i => !s.fbit Fld.CFG_BRIDGE_PAIR_RETIRED i)
  let t := s.stack.steering.zipIdx.map (fun (e : Nat × Nat) =>
    if e.1 = g then left.getD (e.2 % max 1 left.length) g else e.1)
  { s with stack := { s.stack with steering := t } }

/-- What an end of a retired pair has not had acknowledged, in SEQ order, and what it has not sent; the other end's count of
what it received in order stands for the last acknowledgement. -/
def State.unsent (s : State) (atU0 : Bool) (g : Nat) : List BridgeUnit :=
  let p := s.bridge (endOf atU0 g)
  let got := (s.bridge (endOf (!atU0) g)).expectSeq
  (ackReplay p.replay (got + 4095)).flatMap (fun e => e.2) ++ p.outbox

/-- The traffic of a retired pair goes on over the pairs that take its slices (R39): for each slice, what was not acknowledged
first. -/
def State.resendFlits (s : State) (g : Nat) : State :=
  let a := s.unsent false g
  let b := s.unsent true g
  let s := (s.setBridge (endOf false g) emptyPair).setBridge (endOf true g) emptyPair
  (((s.offerUnits false a).offerUnits true b).pumpSide false).pumpSide true

/-- BRIDGE_PAIR_RETIRE (R39, R40). -/
def State.retirePair (s : State) (g : Nat) : State :=
  let s := s.setBit Fld.CFG_BRIDGE_PAIR_RETIRED g
  let s := s.setFld Fld.CFG_BRIDGE_PAIRS_ACTIVE (s.fld Fld.CFG_BRIDGE_PAIRS_ACTIVE - 1)
  let s := (s.steerAway g).resendFlits g
  let s := (s.event Ev.BRIDGE_PAIR_RETIRED g).addDefect 0x06 g Ev.BRIDGE_PAIR_RETIRED
  if s.fld Fld.CFG_BRIDGE_PAIRS_ACTIVE < 6 ∧ s.dstate ≠ DS.FAILED then
    s.failDevice Ev.BRIDGE_PAIR_RETIRED
  else s

/-- A flit that is discarded: NAK goes out; a replay that fails as well retires the pair. -/
def State.discardFlit (s : State) (atU0 : Bool) (g : Nat) (replay : Bool) : State :=
  let k := endOf atU0 g
  let p := s.bridge k
  if p.discarded ∧ replay then s.retirePair g
  else (s.setBridge k { p with nakDue := true, discarded := true }).sendFlit k 0 0 []

/-- The acknowledgement and the credits of an intact flit apply, and a NAK starts the replay. -/
def State.ackFlit (s : State) (k : Nat) (h : BitVec 112) : State :=
  let p := s.bridge k
  let s := s.setBridge k { p with replay := ackReplay p.replay (bitsOf h 95 84), spent := vcSub p.spent (flitCredits h) }
  if bitOf h 83 then s.replayAll k else s

/-- The slots of an intact flit: accepted in SEQ order, and acknowledged with the credits they give back; a flit out of order
is not accepted, and where none was discarded a replay is asked for. IDLE has no SEQ (DESIGN CHOICE, entry 116). -/
def State.takeSlots (s : State) (k : Nat) (flit : List Byte) (ftype : Nat) : State :=
  let p := s.bridge k
  if ftype = 0 then s
  else if bitsOf (flitHeader flit) 107 96 ≠ p.expectSeq then
    if p.discarded then s else (s.setBridge k { p with nakDue := true }).sendFlit k 0 0 []
  else
    let s := if p.discarded then s.incFld Fld.CFG_BRIDGE_RETRY_REPLAY_COUNT else s
    let us := flitSlots flit
    let s := s.setBridge k { p with expectSeq := (p.expectSeq + 1) % 4096, discarded := false, nakDue := false, inbox := us,
                                    freed := us.foldl (fun c u => vcAdd c (vcOne u.1)) p.freed }
    s.sendFlit k 0 0 []

/-- An intact flit at one end. -/
def State.acceptFlit (s : State) (atU0 : Bool) (g : Nat) (flit : List Byte) (ftype : Nat) : State :=
  let k := endOf atU0 g
  (s.ackFlit k (flitHeader flit)).takeSlots k flit ftype

/-- The units that a die has to send go out as far as replay buffers and credits reach. -/
def State.sendUnits (s : State) (atU0 : Bool) (units : List BridgeUnit) : State := (s.offerUnits atU0 units).pumpSide atU0

/-- The flit that has arrived is no longer on the wire from the other end. -/
def State.offWire (s : State) (atU0 : Bool) (g : Nat) : State :=
  let k := endOf (!atU0) g
  let p := s.bridge k
  s.setBridge k { p with wire := p.wire.drop 1 }

/-- BRIDGE_FLIT_RECEIVE (R36 to R39) at the IOD's or at U0's end of a pair. A TRAIN
flit belongs to start-up step 4 and is not acted on in service. -/
def execBridgeFlitReceive (pair : Nat) (rx : BridgeRx) (s : State) : Host.Outcome State Fault Refusal :=
  let ftype := bitsOf (flitHeader rx.flit) 111 108
  .next (if 16 ≤ pair ∨ s.fbit Fld.CFG_BRIDGE_PAIR_RETIRED pair ∨ ¬ s.pins.vddUp then s
    else
      let s := s.offWire rx.atU0 pair
      let s := if ¬ flitCrcOk rx.flit ∨ 4 ≤ ftype then s.discardFlit rx.atU0 pair (ftype = 2)
        else if ftype = 3 then s
        else s.acceptFlit rx.atU0 pair rx.flit ftype
      s.sendUnits rx.atU0 rx.units)

/-! ## HBM transfers (R43, R261) -/

/-- The dirty lines of a slice, and of a channel no longer backed, are lost, the clean ones dropped: the windows that own
lost lines act. -/
def State.loseLines (s : State) (x : Nat) (lost : List (Nat × LostData)) : State :=
  let what := fun (a : Nat) => match lost.find? (fun e => e.1 = a) with
    | some e => e.2
    | none => LostData.plain
  let ls := s.ul.lines.filter (fun e => keySlice e.1 = x || (!s.isView e.2.tag && !s.backed e.2.tag))
  let s := ls.foldl (fun (s : State) e => s.dropLine e.1) s
  (ls.filter (fun e => e.2.dirty ≠ 0#8)).foldl (fun (s : State) (e : Nat × Line) =>
    let a := e.2.tag * 256
    let s := (List.range 8).foldl (fun (s : State) i =>
      if e.2.dirty.getLsbD i ∧ ¬ s.isView e.2.tag then s.hbmPutSector (e.2.tag * 8 + i) 0#256 true else s) s
    ((s.raise Fld.ULC_EVENTS_POISON).addFld Fld.ULC_ERR_UL_POISONED (secCount e.2.dirty)).ownerActs a (what a)
      (!s.backed e.2.tag)) s

/-- CHANNEL_RETIRE (R43, R261): channel and slice go together, without the drain; the map stays until a cold start. -/
def State.retireChannel (s : State) (ch : Nat) (lost : List (Nat × LostData)) : State :=
  let s := (s.setBit (Fld.ULC_CHAN_RET_RETIRED (ch / 32)) (ch % 32)).raise Fld.ULC_EVENTS_CHANNEL_RETIRED
  let s := (s.event Ev.HBM_CHANNEL_RETIRED (unitHbm ch 0)).addDefect 0x07 ch Ev.HBM_CHANNEL_RETIRED
  let s := s.retireSlice ch 4 Ev.HBM_CHANNEL_RETIRED
  let s := (s.loseLines ch lost).setRglPoint (chanPoint ch) { s.rglPoint (chanPoint ch) with waiting := [] }
  if (s.mshrOf ch).isEmpty ∧ (s.inqOf ch).isEmpty then s.endRetire ch else s.checkSlices

/-- HBM_TRANSFER_ERROR (R43): a transfer repeated once; a second failure retires the channel. -/
def execHbmTransferError (ch : Nat) (repeatFails : Bool) (lost : List (Nat × LostData)) (s : State) :
    Host.Outcome State Fault Refusal :=
  .next (if 128 ≤ ch ∨ ¬ repeatFails ∨ s.fbit (Fld.ULC_CHAN_RET_RETIRED (ch / 32)) (ch % 32) ∨ ¬ s.pins.vddUp then s
    else s.retireChannel ch lost)

end Sys2Proof.Machine
end

