-- ==== Sys2Proof/Machine/Underlayer.lean ====
section
/-! DEFINITION. The underlayer's commands: requests at a slice, fills, reductions, range operations, errors, scrubbing,
retirement, residency (08_underlayer.md R236 to R263). -/

namespace Sys2Proof.Machine

/-! ## Answers (R117, R118, R120, R248, R257) -/

/-- A load that its group waits for. -/
def State.loadOf (s : State) (c p id : Nat) : Option PendLoad := (s.tile c p).loads.find? (fun (d : PendLoad) => d.ids.contains id)

/-- The sectors of a reply. -/
def UlReply.secs (r : UlReply) : List (Nat × BitVec 256) :=
  ((List.range 8).filter (fun i => r.sectors.getLsbD i)).map (fun i => (r.line * 8 + i, secGet r.data i))

/-- A load with a reply's sectors. -/
def PendLoad.take (d : PendLoad) (r : UlReply) : PendLoad :=
  let secs := r.secs
  { d with got := secs.foldl (fun (m : Tab (BitVec 256)) e => tabInsert m e.1 e.2) d.got
           need := d.need.filter (fun x => !secs.any (fun e => e.1 = x))
           ids := d.ids.filter (fun i => i ≠ r.id) }

/-- A load ends: L1 takes the sectors that it requested and that are still to enter it, the registers their elements, and
the group goes on. -/
def State.endLoad (s : State) (g : GroupRef) (p : Nat) (gr : Group) (d : PendLoad) : State :=
  let t := s.tile g.cluster p
  let share := (s.kernelOf g.cluster p gr).l1Share
  let l1 := if d.nc then t.l1 else d.fill.foldl (fun (m : Tab (BitVec 256)) x => allocL1 share m x (tabGet 0#256 d.got x)) t.l1
  let t := { t with l1 := l1, loads := t.loads.filter (fun (x : PendLoad) => x.slot ≠ d.slot) }
  (s.setTile g.cluster p t).stepOn g p (gr.loadElems (Nat.log2 d.size) d.reg d.addrs d.got)

/-- A reply reaches a load of a tile: a poisoned sector ends the block, a dead one faults a kernel with DEAD_FAULT. -/
def State.answerLoad (s : State) (c p : Nat) (r : UlReply) : State :=
  match s.loadOf c p r.id, s.ltile? c p with
  | some d, some lt =>
    (match tabFind (s.tile c p).groups d.slot with
      | none => s
      | some gr =>
        let g : GroupRef := ⟨c, lt, d.slot⟩
        if r.poison ≠ 0#8 then
          (match s.launchOf c p gr with
            | some l => (s.putTile c p ((s.tile c p).haltLaunch l.num)).blockFault l.handle
            | none => s)
        else if r.dead ≠ 0#8 && (s.kernelOf c p gr).deadFault then s.groupFault g p gr KF.DEAD_READ
        else
          let d := d.take r
          if d.need.isEmpty then s.endLoad g p gr d
          else
            s.setTile c p { s.tile c p with loads := (s.tile c p).loads.map (fun (x : PendLoad) =>
              if x.slot = d.slot then d else x) })
  | _, _ => s

/-- A reply goes to its master's tiles. -/
def State.answer (s : State) (r : UlReply) : State :=
  if 16 ≤ r.master then s else (List.range 16).foldl (fun s p => s.answerLoad r.master p r) s

/-- Requests that no slice has accepted yet. -/
def State.unaccepted (s : State) : List Nat :=
  s.ul.points.flatMap (fun e => e.2.waiting.map (fun o => o.r.id)) ++ s.ul.inq.flatMap (fun e => e.2.map (fun o => o.r.id))

/-- Stores and reductions that a slice has accepted are acknowledged. -/
def State.ackStores (s : State) : State :=
  let open' := s.unaccepted
  { s with tiles := s.tiles.map (fun (t : Nat × Tile) => (t.1, { t.2 with groups := t.2.groups.map (fun (g : Nat × Group) =>
      (g.1, { g.2 with stores := g.2.stores.filter (fun i => open'.contains i) })) })) }

/-- The first read of a sector that no channel backs reaches its owner (R257, R261). -/
def State.unbackedRead (s : State) (o : UlOp) (what : LostData) : State :=
  if !o.isRead || s.isView o.r.line || s.backed o.r.line then s
  else s.unbackedSectors (((List.range 8).filter (fun i => o.r.sectors.getLsbD i)).map (fun i => o.r.line * 8 + i)) what

/-- Replies delivered, stores acknowledged. -/
def State.settleSlice (s : State) : State := (s.ul.out.foldl (fun s r => s.answer r) s).ackStores

/-! ## What a slice does with a request (R236, R237, R249, R250) -/

/-- The scrubber is master 20 (Table 11-1). -/
def isScrub (o : UlOp) : Bool := decide (o.r.master = 20)

/-- A request to a row that is being replaced is held (R254). -/
def State.heldRow (s : State) (l : Nat) : Bool :=
  match s.lineOf l with
  | some (k, _) => s.ul.rowJobs.contains (keySlice k, (rowOf (keySet k) (keyWay k)).1, (rowOf (keySet k) (keyWay k)).2)
  | none => false

/-- Whether a waiting request may be granted: its bucket and row are not held, a queue slot is there for its class. -/
def State.grantable (s : State) (o : UlOp) : Bool :=
  isScrub o ||
  match s.home o.r.line with
  | some p => !s.heldBucket p && !s.heldRow o.r.line && s.inqFree p.slice o.r.cls
  | none => true

/-- One grant cycle of the equator link: the request granted arrives at its slice; one whose bucket is held stays at its
requester (R262). -/
def State.crossEquator (s : State) (half : Nat) : State :=
  let may := fun (o : UlOp) => match s.home o.r.line with
    | some p => !s.heldBucket p
    | none => true
  match s.grant (eqPoint half) may with
  | (s, some x) => s.atPort x
  | (s, none) => s

/-- A slice serves a granted request, or queues it behind one of its line or for want of an entry. -/
def State.serve (s : State) (o : UlOp) (what : LostData) : State :=
  match s.home o.r.line with
  | none => s
  | some p =>
    let s := s.unbackedRead o what
    if (s.inqOf p.slice).any (fun q => q.r.line = o.r.line) then s.setInq p.slice (s.inqOf p.slice ++ [o])
    else
      match s.takeReq p o with
      | some s' => s'
      | none => s.setInq p.slice (s.inqOf p.slice ++ [o])

/-- The open miss-status entry of a line, and its slice. -/
def State.entryFor (s : State) (line : Nat) : Option (Nat × Mshr) :=
  s.ul.mshr.findSome? (fun e => (e.2.find? (fun m => m.line = line)).map (fun m => (e.1, m)))

/-- The entry of a line closes. -/
def State.closeEntry (s : State) (slice line : Nat) : State :=
  s.setMshr slice ((s.mshrOf slice).filter (fun m => m.line ≠ line))

/-- A channel request of a line's miss-status entry. -/
def fillOf (line : Nat) (o : UlOp) : Bool := decide (o.r.line = line) && !isScrub o

/-- An entry closes with its line's data: unbacked sectors among them have reached their owners. -/
def State.closeFilled (s : State) (x line : Nat) (m : Mshr) : State :=
  let s := ({ s with ul := { s.ul with out := [] } }).closeEntry x line
  let s := m.ops.foldl (fun s o => s.unbackedRead o .plain) s
  if s.isView line then s.unbackedSectors (s.readSecs line) .plain else s

/-- The line is filled and the entry's requests answered; none where a resident PIN window's fill finds no candidate. -/
def State.fillEntry (s : State) (x line : Nat) (m : Mshr) : Option State :=
  match (s.closeFilled x line m).fillLine line m.cls m.asked m.ops with
  | none => none
  | some s => some (s.drainInq x).settleSlice

/-- SLICE_FILL_COMPLETE (R236, R239, R240, R244, R250, R339, R340): once the channel has granted the line's sectors, the line
is installed, or bypassed, and every waiting request answered; a resident PIN window's fill without a candidate waits. -/
def execSliceFillComplete (line : Nat) (s : State) : Host.Outcome State Fault Refusal :=
  .next (match s.entryFor line with
    | none => s
    | some (x, m) =>
      if m.falling then s
      else
        match s.channelTurn line (fillOf line) with
        | none => s
        | some s0 => (s0.fillEntry x line m).getD s)

/-- A reduction at the channel controller: read, applied and written back with the requests merged behind it. -/
def State.fallThrough (s : State) (line : Nat) (m : Mshr) : State :=
  let w := (s.workOf line).install (pairsOf m.asked) (fun i => s.hbmSector (line * 8 + i))
  let (s, w) := s.runOps w m.ops
  s.writeSectors line w.dirty w.poison w.data

/-- FALL_THROUGH_COMPLETE (R250, R339): once the channel has granted it the entry closes, fills of the line see the result. -/
def execFallThroughComplete (line : Nat) (s : State) : Host.Outcome State Fault Refusal :=
  .next (match s.entryFor line with
    | none => s
    | some (x, m) =>
      if ¬ m.falling then s
      else
        match s.channelTurn line (fillOf line) with
        | none => s
        | some s =>
          let s := ({ s with ul := { s.ul with out := [] } }).closeEntry x line
          ((s.fallThrough line m).drainInq x).settleSlice)

/-! ## Range operations (R245 to R248) -/

/-- A range operation begins. -/
def State.startRange (s : State) (op base size cls : Nat) (cmd : Option (Nat × Nat)) (group : Option GroupRef) (after : List Nat := []) :
    State :=
  let (s, id) := s.takeId
  { s with ul := { s.ul with ranges := s.ul.ranges ++ [⟨id, op, base, size, cls, cmd, group, after, false⟩] } }

/-- Reductions in commit buffers. -/
def Commit.redId (k : Commit) : Option Nat := match k.op with | .red r => some r.id | _ => none
def State.heldReds (s : State) : List Nat := s.tiles.flatMap (fun (t : Nat × Tile) => t.2.commit.filterMap Commit.redId)

/-- Stores and reductions of a group that have not taken effect (R246). -/
def Tile.before (t : Tile) (slot : Nat) (gr : Group) : List Nat :=
  gr.stores ++ (t.commit.filter (fun k => k.slot = slot && k.launch = gr.launch)).filterMap Commit.redId

/-- RNG_INSTRUCTION (R245, R246): base in Sa, size in Sb; a range that breaks R245 faults with BAD_ADDRESS. -/
def execRngInstruction (g : GroupRef) (op sa sb : Nat) (s : State) : Host.Outcome State Fault Refusal :=
  .next (s.issue g (fun p gr =>
    if 64 ≤ sa ∨ 64 ≤ sb ∨ 4 < op then s
    else
      let base := (gr.sreg sa).toNat
      let size := (gr.sreg sb).toNat
      if ¬ s.rangeOk op base size then s.groupFault g p gr KF.BAD_ADDRESS
      else
        let h := match s.launchOf g.cluster p gr with | some l => l.handle | none => 0#64
        (s.startRange op base size (s.classAt g.cluster h) none (some g) ((s.tile g.cluster p).before g.slot gr)).stepOn g p gr))

def rangeCheck (s : State) (c : Cmd) : Verdict :=
  if s.rangeOk (c.f 4 7 0) (c.f 2 63 0) (c.f 3 63 0) then .ok else .refuse St.INVALID 0

/-- RANGE_OP (R245). -/
def execRangeOp (sq cid : Nat) (s : State) : Host.Outcome State Fault Refusal :=
  .next (s.accept sq cid 0x12 rangeCheck noRows (fun s c =>
    s.startRange (c.f 4 7 0) (c.f 2 63 0) (c.f 3 63 0) c.cls (some (c.sq, c.cid)) none))

/-- Whether a range operation may take effect: the stores and reductions before it are accepted, no line of it is held. -/
def State.rangeReady (s : State) (r : RangeRec) : Bool :=
  !r.applied && !s.rangeHeld r.base r.size && r.after.all (fun i => !s.unaccepted.contains i && !s.heldReds.contains i)

/-- The effect of one range operation of a code. -/
def State.runRange (s : State) (id op : Nat) : State :=
  match s.ul.ranges.find? (fun r => r.id = id && r.op = op) with
  | none => s
  | some r =>
    if ¬ s.rangeReady r then s
    else
      let s := s.applyRange r.op r.base r.size r.cls
      { s with ul := { s.ul with ranges := s.ul.ranges.map (fun (x : RangeRec) => if x.id = id then { x with applied := true } else x) } }

/-- PREFETCH (R245, Table 8-3). -/
def execPrefetch (id : Nat) (s : State) : Host.Outcome State Fault Refusal := .next (s.runRange id 0)

/-- FLUSH (R245, Table 8-3). -/
def execFlush (id : Nat) (s : State) : Host.Outcome State Fault Refusal := .next (s.runRange id 1)

/-- INVALIDATE (R245, Table 8-3). -/
def execInvalidate (id : Nat) (s : State) : Host.Outcome State Fault Refusal := .next (s.runRange id 2)

/-- DEAD (R245, R248, Table 8-3). -/
def execDead (id : Nat) (s : State) : Host.Outcome State Fault Refusal := .next (s.runRange id 3)

/-- LIVE (R245, R248, Table 8-3). -/
def execLive (id : Nat) (s : State) : Host.Outcome State Fault Refusal := .next (s.runRange id 4)

/-- RANGE_OP_COMPLETE (R246): every slice has finished. -/
def execRangeOpComplete (id : Nat) (s : State) : Host.Outcome State Fault Refusal :=
  .next (match s.ul.ranges.find? (fun r => r.id = id && r.applied) with
    | none => s
    | some r =>
      let s := { s with ul := { s.ul with ranges := s.ul.ranges.filter (fun (x : RangeRec) => x.id ≠ id) } }
      match r.cmd with
      | some (sq, cid) => s.complete sq cid St.OK
      | none => s)

/-! ## Correctable errors (R254, R255, R260) -/

/-- A log without entries older than 24 h; whether it holds a word. -/
def fresh24 (now : Nat) (l : List ((Nat × Nat × Nat) × Nat)) : List ((Nat × Nat × Nat) × Nat) :=
  l.filter (fun e => decide (now < e.2 + dayTicks))

def loggedWord (l : List ((Nat × Nat × Nat) × Nat)) (w : Nat × Nat × Nat) : Bool := l.any (fun e => e.1 = w)

/-- Words of a row leave the log. -/
def dropRow (l : List ((Nat × Nat × Nat) × Nat)) (a b : Nat) : List ((Nat × Nat × Nat) × Nat) :=
  l.filter (fun e => !(e.1.1 = a && e.1.2.1 = b))

/-- A lasting error: the row is replaced from the die's 128 spares, or disabled. -/
def State.lastingRow (s : State) (slice die row : Nat) : State :=
  let l := dropRow (tabGet [] s.ul.corrLog slice) die row
  let s : State := { s with ul := { s.ul with corrLog := tabPut [] s.ul.corrLog slice l } }
  (s.event Ev.UL_WORD_LASTING (unitRow slice die row)).replaceRow slice die row

/-- A word of the underlayer is corrected, written back, and logged (R254); the log holds 32 entries. -/
def State.correctUl (s : State) (slice die row word : Nat) : State :=
  let s := (s.raise Fld.ULC_EVENTS_CORRECTED).incFld Fld.ULC_ERR_UL_CORRECTED
  let l := fresh24 s.now (tabGet [] s.ul.corrLog slice)
  if loggedWord l (die, row, word) then s.lastingRow slice die row
  else
    let l := (if l.length < 32 then l else l.drop 1) ++ [((die, row, word), s.now)]
    { s with ul := { s.ul with corrLog := tabPut [] s.ul.corrLog slice l } }

/-- CORRECTION_LOG_EXPIRY (R254): the oldest entry of a slice's log leaves it. -/
def execCorrectionLogExpiry (slice : Nat) (s : State) : Host.Outcome State Fault Refusal :=
  .next { s with ul := { s.ul with corrLog := tabPut [] s.ul.corrLog slice ((tabGet [] s.ul.corrLog slice).drop 1) } }

/-- ROW_REPLACEMENT_COMPLETE (R254): the spare is steered in, recorded, and the row's requests go on. -/
def execRowReplacementComplete (slice die row : Nat) (s : State) : Host.Outcome State Fault Refusal :=
  .next (if s.ul.rowJobs.contains (slice, die, row) then
      let s := { s with ul := { s.ul with rowJobs := s.ul.rowJobs.filter (fun (j : Nat × Nat × Nat) => j ≠ (slice, die, row)) } }
      let spare := die * 128 + s.sparesUsed slice die
      let s := (s.incFld (Fld.ULC_SLICE_SPARES_USED slice)).raise Fld.ULC_EVENTS_ROW_REPLACED
      ((s.event Ev.UL_ROW_REPLACED (unitRow slice die row)).addDefect 0x08 (unitRow slice die row + spare * 2 ^ 32)
        Ev.UL_ROW_REPLACED).returnHanded
    else s)

/-- A word of HBM is corrected (R260): a second correction within 24 h has the row repaired, where a resource is left. -/
def State.correctHbm (s : State) (ch row word : Nat) (repairLeft : Bool) : State :=
  let s := (s.raise Fld.ULC_EVENTS_CORRECTED).incFld Fld.ULC_ERR_HBM_CORRECTED
  let l := fresh24 s.now s.ul.hbmLog
  if ¬ loggedWord l (ch, row, word) then { s with ul := { s.ul with hbmLog := l ++ [((ch, row, word), s.now)] } }
  else if repairLeft then
    let s := { s with ul := { s.ul with hbmLog := dropRow l ch row } }
    ((s.raise Fld.ULC_EVENTS_HBM_REPAIR).incFld Fld.ULC_ERR_HBM_REPAIRED).event Ev.HBM_REPAIR (unitHbm ch row)
  else s.event Ev.HBM_REPAIR_EXHAUSTED (unitHbm ch row)

/-- HBM_CORRECTABLE_ERROR (R42, R260). -/
def execHbmCorrectableError (ch row word : Nat) (repairLeft : Bool) (s : State) : Host.Outcome State Fault Refusal :=
  .next (if s.ul.chans.contains ch && !s.fbit (Fld.ULC_CHAN_RET_RETIRED (ch / 32)) (ch % 32) then
      s.correctHbm ch row word repairLeft
    else s)

/-! ## Uncorrectable errors (R253, R256, R257) -/

/-- A clean sector fails: the line is dropped, other dirty sectors written back, and the sector refetched when read. -/
def State.failClean (s : State) (k : Nat) : State :=
  ((s.evict k).raise Fld.ULC_EVENTS_REFETCH).incFld Fld.ULC_ERR_UL_REFETCHED

/-- A dirty sector fails: poison, and its owner acts. -/
def State.failDirty (s : State) (k : Nat) (l : Line) (sector : Nat) (what : LostData) : State :=
  let s := s.setLine k { l with poison := l.poison ||| BitVec.ofNat 8 (2 ^ sector) }
  ((s.raise Fld.ULC_EVENTS_POISON).incFld Fld.ULC_ERR_UL_POISONED).ownerActs (l.tag * 256 + 32 * sector) what false

/-- A sector of HBM fails: poison, and its owner acts. -/
def State.failHbm (s : State) (line sector : Nat) (what : LostData) : State :=
  if sector < 8 ∧ line * 256 < s.hbmBytes ∧ s.backed line then
    let s := s.hbmPutSector (line * 8 + sector) (s.hbmSector (line * 8 + sector)).1 true
    ((s.raise Fld.ULC_EVENTS_POISON).incFld Fld.ULC_ERR_HBM_POISONED).ownerActs (line * 256 + 32 * sector) what false
  else s

/-- A valid sector of a cached line fails its check. -/
def State.failCached (s : State) (k : Nat) (l : Line) (sector : Nat) (what : LostData) : State :=
  if ¬ l.valid.getLsbD sector then s
  else if l.dirty.getLsbD sector then s.failDirty k l sector what
  else s.failClean k

/-- The line position of a word of a row (R254): four sets of 32 words. -/
def wordKey (slice die row word : Nat) : Nat := lineKey slice (row % 2048 * 4 + word / 32) (die * 8 + row / 2048)

/-- Parity of a line number, in check bit 0 of each of its words (R252). -/
def lineParity (l : Nat) : Bool := decide ((List.range 64).foldl (fun n i => n + l / 2 ^ i % 2) 0 % 2 = 1)

/-- Bit errors that a line's code corrects in a word (Table 8-5): STRONG two, LIGHT one. -/
def State.corrects (s : State) (l : Line) : Nat :=
  match l.win with
  | some w => if s.fld (Fld.ULC_WIN_ATTR_CODE w) = 1 then 1 else 2
  | none => 2

/-- A word read with wrong bits and its bit 0 (R252): corrected, or, past its code or from the wrong place, uncorrectable. -/
def State.checkWord (s : State) (slice die row word bits : Nat) (bit0 : Bool) : State :=
  match tabFind s.ul.lines (wordKey slice die row word) with
  | some l =>
    if bit0 ≠ lineParity l.tag ∨ s.corrects l < bits then s.failCached (wordKey slice die row word) l (word % 32 / 4) .plain
    else s.correctUl slice die row word
  | none => if 2 < bits then s else s.correctUl slice die row word

/-- UL_CORRECTABLE_ERROR (R252, R254, R255, R262): words are numbered within their row. -/
def execUlCorrectableError (slice die row : Nat) (w : BadWord) (s : State) : Host.Outcome State Fault Refusal :=
  .next (if 128 ≤ slice ∨ 2 ≤ die ∨ 16384 ≤ row ∨ 128 ≤ w.word ∨ s.sliceState slice = 2 then s
    else s.checkWord slice die row w.word w.bits w.bit0)

/-- UL_UNCORRECTABLE_CLEAN (R252, R256). -/
def execUlUncorrectableClean (line sector : Nat) (s : State) : Host.Outcome State Fault Refusal :=
  .next (match s.lineOf line with
    | some (k, l) => if sector < 8 ∧ ¬ l.dirty.getLsbD sector then s.failCached k l sector .plain else s
    | none => s)

/-- UL_UNCORRECTABLE_DIRTY (R252, R257, Table 8-6): a dirty sector, or HBM data. -/
def execUlUncorrectableDirty (line sector : Nat) (inHbm : Bool) (what : LostData) (s : State) :
    Host.Outcome State Fault Refusal :=
  .next (if inHbm then s.failHbm line sector what
    else
      match s.lineOf line with
      | some (k, l) => if sector < 8 ∧ l.dirty.getLsbD sector then s.failCached k l sector what else s
      | none => s)

/-- Both copies of a tag fail: the line is gone as dirty data of the DEVICE owner. -/
def State.loseTag (s : State) (k : Nat) : State :=
  let u := unitRow (keySlice k) (rowOf (keySet k) (keyWay k)).1 (rowOf (keySet k) (keyWay k)).2
  let s := ((s.dropLine k).raise Fld.ULC_EVENTS_POISON).incFld Fld.ULC_ERR_UL_POISONED
  (s.event Ev.UL_TAG_LOST u).deviceScope Ev.UL_TAG_LOST

/-- TAG_ERROR (R253). -/
def execTagError (line : Nat) (bothFail : Bool) (s : State) : Host.Outcome State Fault Refusal :=
  .next (match s.lineOf line with
    | none => s
    | some (k, _) => if bothFail then s.loseTag k else s.raise Fld.ULC_EVENTS_TAG_REPAIRED)

/-! ## Scrubbing (R259) -/

/-- Both walks pause in Q3 and Q4. -/
def State.scrubRuns (s : State) : Bool := s.pins.vddUp && decide (s.fld Fld.PWR_STATUS_DSTATE < 3)

/-- What the scrubber finds at a line position of the underlayer (R254, R256, R257, R259). -/
def State.ulVisit (s : State) (k : Nat) (found : ScrubFind) (what : LostData) : State :=
  match tabFind s.ul.lines k, found with
  | some _, .corrected _ word _ =>
    s.correctUl (keySlice k) (rowOf (keySet k) (keyWay k)).1 (rowOf (keySet k) (keyWay k)).2 (word % 128)
  | some l, .uncorrectable sector => if sector < 8 then s.failCached k l sector what else s
  | _, _ => s

/-- The next line position of the underlayer is visited (R259); a completed walk is counted. -/
def State.ulWalk (s : State) (found : ScrubFind) (what : LostData) : State :=
  let k := s.ul.scrubUl
  let s := s.ulVisit k found what
  let last := decide (128 * 8192 * 16 ≤ k + 1)
  let s := { s with ul := { s.ul with scrubUl := if last then 0 else k + 1 } }
  if last then s.incFld Fld.ULC_SCRUB_STAT_UL_PASSES else s

/-- What the scrubber finds at a line of HBM (R257, R259, R260). -/
def State.hbmVisit (s : State) (l : Nat) (found : ScrubFind) (what : LostData) : State :=
  if ¬ s.backed l then s
  else
    match found, s.place l with
    | .corrected row word left, some p => s.correctHbm p.ch row word left
    | .uncorrectable sector, _ => s.failHbm l sector what
    | _, _ => s

/-- The next line of HBM is visited (R259). -/
def State.hbmWalk (s : State) (found : ScrubFind) (what : LostData) : State :=
  let l := s.ul.scrubHbm
  let last := decide (s.hbmBytes ≤ (l + 1) * 256)
  let s := s.hbmVisit l found what
  let s := { s with ul := { s.ul with scrubHbm := if last then 0 else l + 1 } }
  if last then s.incFld Fld.ULC_SCRUB_STAT_HBM_PASSES else s

/-- The scrubber's request for a line, one at a point at a time (master 20, SCRUB_CLASS). -/
def State.scrubReq (s : State) (l : Nat) : UlReq := ⟨s.ul.nextId, 20, s.fld Fld.RGL_CTL_SCRUB_CLASS, l, 0xFF#8, 0#2048, 0#256, 0⟩

/-! ## Requests at their points (R236, R237, R249, R250, R259, R339) -/

/-- A port serves the request granted: the scrubber's visit, or a request of another master. -/
def State.portServes (s : State) (x : UlOp) (found : ScrubFind) (what : LostData) : State :=
  if isScrub x then s.ulWalk found what else (s.serve x what).settleSlice

/-- A request with the class of Table 11-1: BELT_CLASS for the tap and inject. -/
def State.classed (s : State) (o : UlOp) : UlOp :=
  if o.r.master = 17 ∨ o.r.master = 18 then { o with r := { o.r with cls := s.fld Fld.RGL_CTL_BELT_CLASS } } else o

/-- A request is issued by a master outside the clusters, or waits already where the clusters issued it; one grant cycle of
the equator link runs where it waits there, and one of its slice's port. The scrubber's requests are its visits alone. -/
def State.atSlice (s : State) (o : UlOp) (what : LostData) : State :=
  match s.home o.r.line with
  | none => s
  | some p =>
    let o := s.classed o
    let i := pointNo p.slice (!o.isRead)
    let e := eqPoint p.half
    let there := (s.point i).waiting.contains o || (s.point e).waiting.contains o
    if isScrub o ∨ (¬ there ∧ o.r.master < 16) then s
    else
      let s := { s with ul := { s.ul with out := [] } }
      let s := if there then s else s.submit o
      let s := if (s.point e).waiting.contains o then s.crossEquator p.half else s
      match s.grant i s.grantable with
      | (s, some x) => s.portServes x .clean (if x = o then what else .plain)
      | (s, none) => s

/-- SLICE_READ (R236, R239, R244, R247, R248, R252, R336, R339). -/
def execSliceRead (r : UlReq) (what : LostData) (s : State) : Host.Outcome State Fault Refusal :=
  .next (s.atSlice ⟨.read, r⟩ what)

/-- SLICE_STORE (R237, R239, R336, R339). -/
def execSliceStore (r : UlReq) (s : State) : Host.Outcome State Fault Refusal := .next (s.atSlice ⟨.store, r⟩ .plain)

/-- REDUCTION_REQUEST (R249, R250, R336, R339). -/
def execReductionRequest (r : UlReq) (s : State) : Host.Outcome State Fault Refusal := .next (s.atSlice ⟨.reduce, r⟩ .plain)

/-- The scrubber's request at the read port of the slice whose position comes next. -/
def State.askScrub (s : State) : State :=
  let i := pointNo (keySlice s.ul.scrubUl) false
  if (s.point i).waiting.any isScrub then s
  else
    let o : UlOp := ⟨.read, s.scrubReq (match tabFind s.ul.lines s.ul.scrubUl with | some l => l.tag | none => 0)⟩
    ({ s with ul := { s.ul with nextId := s.ul.nextId + 1 } }).inPoint i o

/-- SCRUB_UL_VISIT (R259, R339): the next line position of the underlayer, as the read port of its slice grants it; a slice
out of service has no port, and its positions are passed over. -/
def execScrubUlVisit (found : ScrubFind) (what : LostData) (s : State) : Host.Outcome State Fault Refusal :=
  .next (if ¬ s.scrubRuns then s
    else if s.sliceState (keySlice s.ul.scrubUl) = 2 then s.ulWalk .clean what
    else
      let s1 := ({ s with ul := { s.ul with out := [] } }).askScrub
      match s1.grant (pointNo (keySlice s.ul.scrubUl) false) s1.grantable with
      | (t, some x) => t.portServes x found what
      | (t, none) => t)

/-- The scrubber's request at the controller of a line's channel. -/
def State.askScrubHbm (s : State) (l : Nat) : State :=
  match s.place l with
  | some p =>
    if ¬ s.backed l ∨ (s.rglPoint (chanPoint p.ch)).waiting.any isScrub then s
    else ({ s with ul := { s.ul with nextId := s.ul.nextId + 1 } }).askChannel (s.scrubReq l) 0xFF#8
  | none => s

/-- SCRUB_HBM_VISIT (R259, R260, R339): the next line of HBM, once its channel's controller has granted it. -/
def execScrubHbmVisit (found : ScrubFind) (what : LostData) (s : State) : Host.Outcome State Fault Refusal :=
  .next (if ¬ s.scrubRuns ∨ s.hbmBytes = 0 then s
    else
      let s := s.askScrubHbm s.ul.scrubHbm
      match s.channelTurn s.ul.scrubHbm isScrub with
      | some s => s.hbmWalk found what
      | none => s)

/-! ## Retirement and residency (R241, R262, R263) -/

/-- A line of a draining slice goes to its channel, or is lost where its transfer fails. -/
def State.drainLine (s : State) (lost : List (Nat × LostData)) (k : Nat) : State :=
  match tabFind s.ul.lines k with
  | none => s
  | some l =>
    match lost.find? (fun e => e.1 = l.tag * 256) with
    | some e =>
      if l.dirty = 0#8 then s.dropLine k
      else
        let s := (s.writeSectors l.tag l.dirty 0xFF#8 l.data).dropLine k
        ((s.raise Fld.ULC_EVENTS_POISON).addFld Fld.ULC_ERR_UL_POISONED (secCount l.dirty)).ownerActs (l.tag * 256) e.2
          (!s.backed l.tag)
    | none => s.evict k

/-- SLICE_DRAIN_COMPLETE (R262, R263, Table 8-7): accepted requests are done, dirty lines written, the held requests go on;
lines after an unlocated fault may be lost. -/
def execSliceDrainComplete (slice : Nat) (lost : List (Nat × LostData)) (s : State) : Host.Outcome State Fault Refusal :=
  .next (if s.sliceState slice = 1 ∧ (s.mshrOf slice).isEmpty ∧ (s.inqOf slice).isEmpty then
      let lost := if s.fld (Fld.ULC_SLICE_CAUSE slice) = 2 then lost else []
      (((s.keysOf slice).foldl (fun s k => s.drainLine lost k) s).endRetire slice).returnHanded
    else s)

/-- PIN_RECOMPUTE_COMPLETE (R241, R263, Table 8-7): residency is decided anew; retirements are then recorded. -/
def execPinRecomputeComplete (s : State) : Host.Outcome State Fault Refusal :=
  .next (if s.ul.pinDue then
      let s := s.pinRecompute false
      ({ s with ul := { s.ul with pinDue := false } }).journalRetirements
    else s)

end Sys2Proof.Machine
end

