-- ==== Sys2Proof/Machine/Brass.lean ====
section
/-! DEFINITION. Start-up steps 0 and 1 (14_startup_faults.md R409, R411, R418, R419; 13_configuration.md R388, R389, R397,
R400, R401, R404; 01_stack.md R19): power, journal, defect list, licence, banks, settings. -/

namespace Sys2Proof.Machine

/-! ## The journal at a start (R400, R401, R404, Table 13-13) -/

/-- The generation of a segment whose first record is an intact SEG_HEAD. -/
def segGen (l : List JSlot) : Option Nat :=
  match l with
  | .good r :: _ => if r.type = JT.SEG_HEAD then some (bitsOf r.payload 31 0) else none
  | _ => none

/-- A slot before the COMMIT of a snapshot. -/
def JSlot.beforeCommit : JSlot → Bool
  | .good r => decide (r.type ≠ JT.COMMIT)
  | .bad => true

/-- Whether a segment holds a COMMIT whose count and CRC match its snapshot. -/
def segCommitted (l : List JSlot) : Bool :=
  let snap := (l.drop 1).takeWhile JSlot.beforeCommit
  let good := goodOf snap
  match (goodOf ((l.drop (snap.length + 1)).take 1)).head? with
  | some c => decide (bitsOf c.payload 31 0 = snap.length) && decide (good.length = snap.length)
      && decide (bitsOf c.payload 63 32 = crc32c (good.flatMap JRec.bytes))
  | none => false

def segValid (l : List JSlot) : Bool :=
  match segGen l with
  | some g => decide (g = 1) || segCommitted l
  | none => false

/-- The SEQ of a segment's last intact record. -/
def lastSeq (l : List JSlot) : Nat := (((goodOf l).getLast?).map (fun r => r.seq)).getD 0

/-- The choice of Table 13-13: the active segment; a new journal; an interrupted compaction resolved; the only segment
incomplete; whether compaction begins again. -/
structure SegChoice where
  active : Nat
  new : Bool
  recovered : Bool
  fail : Bool
  again : Bool
deriving DecidableEq, Repr

/-- Two segments with intact heads: by validity, then generation, then last SEQ. Two incomplete segments, which no rule
names, are taken as one: the higher generation as far as it reads (DESIGN CHOICE). -/
def chooseTwo (a b : List JSlot) (g h : Nat) : SegChoice :=
  match segValid a, segValid b with
  | true, true =>
    let k := if g = h then (if lastSeq a < lastSeq b then 1 else 0) else if g < h then 1 else 0
    ⟨k, false, true, false, false⟩
  | true, false => ⟨0, false, true, false, true⟩
  | false, true => ⟨1, false, true, false, true⟩
  | false, false => ⟨if g < h then 1 else 0, false, false, true, false⟩

def chooseSeg (a b : List JSlot) : SegChoice :=
  match segGen a, segGen b with
  | none, none => ⟨0, true, false, false, false⟩
  | some _, none => ⟨0, false, false, !segValid a, false⟩
  | none, some _ => ⟨1, false, false, !segValid b, false⟩
  | some g, some h => chooseTwo a b g h

/-- The slots of the active segment that a start reads; a new journal has none. -/
def State.readSlots (s : State) : List JSlot :=
  let k := chooseSeg s.jrn.seg0 s.jrn.seg1
  if k.new then [] else s.jseg k.active

/-- The records a start reads: of the active segment, then those still queued. -/
def State.startRecs (s : State) : List JRec := goodOf s.readSlots ++ s.jrn.queue

/-- Kinds of Table 13-11. -/
def kindKnown (k : Nat) : Bool := decide (1 ≤ k) && decide (k ≤ 0x0D)

/-- The defect list of a list of records: each unit once. -/
def defectsIn (rs : List JRec) : List Defect :=
  (rs.filter (fun r => r.type = JT.DEFECT && kindKnown r.defect.kind)).foldl (fun (l : List Defect) r =>
    if l.any (fun d => d.kind = r.defect.kind && d.unit = r.defect.unit) then l else l ++ [r.defect]) []

/-- The last slot fails its CRC. -/
def tornLast (l : List JSlot) : Bool := (l.getLast?).any (fun x => x = .bad)

/-- Slots skipped for their CRC, a torn last one aside, and DEFECT records of a reserved kind. -/
def badSlots (l : List JSlot) : Nat :=
  (l.filter (fun x => x = .bad)).length - b2n (tornLast l)
    + ((goodOf l).filter (fun r => r.type = JT.DEFECT && !kindKnown r.defect.kind)).length

/-- The highest sequence number read, and the BOOT beside it. -/
def highest (rs : List JRec) : Nat × Nat :=
  rs.foldl (fun m r => if m.1 ≤ r.seq then (r.seq, r.boot) else m) (0, 0)

/-- The numbers continue (R400): the sequence from the highest number found, the start count one above its BOOT. -/
def State.countStart (s : State) : State :=
  let m := highest s.startRecs
  let s := { s with jrn := { s.jrn with nextSeq := max s.jrn.nextSeq (m.1 + 1) } }
  s.setFld Fld.JRN_DEFECTS_BOOT ((m.2 + 1) % 65536)

/-- The journal is read: active segment, flags, defect list. -/
def State.readJournal (s : State) : State :=
  let k := chooseSeg s.jrn.seg0 s.jrn.seg1
  let l := s.readSlots
  let ds := defectsIn s.startRecs
  let bad := badSlots l
  let s := { s with jrn := { s.jrn with defects := ds, defectsPending := [], ended := k.fail, fail := k.fail } }
  let s := (s.setFld Fld.JRN_STATUS_ACTIVE k.active).setFld Fld.JRN_SEG_GEN_GEN ((segGen l).getD 1)
  let s := (s.syncFill.setFld Fld.JRN_DEFECTS_ENTRIES ds.length).setFld Fld.JRN_LOSS_BAD (min bad 65535)
  let s := if k.new then s.raise Fld.JRN_EVENTS_NEW else s
  let s := if k.recovered then s.raise Fld.JRN_EVENTS_RECOVERED else s
  let s := if tornLast l then s.raise Fld.JRN_EVENTS_TORN else s
  let s := if 0 < bad then s.raise Fld.JRN_EVENTS_BAD else s
  if k.fail then (s.raise Fld.JRN_EVENTS_FAIL).event Ev.JOURNAL_FAIL 0 else s

/-! ## Step 0 (R409, R411, R413, R430, R431, R463, R472) -/

/-- Registers that a start does not reset before it reads them again: the fuses, and the journal's. -/
def heldRegs : List Nat := [Off.CFG_UID_LO, Off.CFG_UID_HI, Off.JRN_STATUS, Off.JRN_SEG_GEN, Off.JRN_DEFECTS]

/-- Every register at its reset value. -/
def State.resetRegs (s : State) : State :=
  { s with regs := s.regs.filter (fun e => heldRegs.contains e.1), pairCap := [], pairLo := [] }

/-- Host interface of a device whose PCIe is untrained: the host's memory and the messages it has received stay. -/
def State.resetHost (s : State) : State :=
  { s with host := { State.reset.host with mem := s.host.mem, msix := s.host.msix, rseq := s.host.rseq,
                                           nextUid := s.host.nextUid, hostless := true } }

/-- Flash operations stop: what they had not done stays undone. -/
def State.stopFlash (s : State) : State :=
  { s with flash := { s.flash with ops := [], nvm := [], startImage := none }
           jrn := { s.jrn with compaction := none, failedOnce := false, ended := false, fail := false, defectsPending := [] } }

/-- Everything but the flash, the always-on journal queue, the pins and the test port is lost. -/
def State.loseAll (s : State) : State :=
  let z := State.reset
  let s := (s.resetRegs.resetHost).stopFlash
  { s with
    stack := { z.stack with tbMaster := s.stack.tbMaster, tbIod := s.stack.tbIod, tbU1 := s.stack.tbU1, tbCd := s.stack.tbCd }
    ul := z.ul, rgl := { z.rgl with winStart := s.now }, tiles := [], ppl := z.ppl, kvl := z.kvl, belt := z.belt, ring := z.ring, power := z.power
    boot := { s.boot with warmReq := none, clusterReq := [], devFaults := [] }
    pins := { s.pins with vddUp := false } }

/-- LOAD_NOTICE and NOTICE_STB of a start (R443). -/
def State.startNotice (s : State) : State :=
  let s := s.setFld Fld.PWR_STATUS_NOTICE 7
  { s with pins := { s.pins with noticeStrobes := s.pins.noticeStrobes + 1 } }

/-- A start answers DEVICE_RESET# after a thermal shut-down: the latch clears, and THM_STATUS says so (R463). -/
def State.clearLatch (s : State) : State :=
  if s.boot.shutStart then
    ({ s with boot := { s.boot with thermLatch := false, shutStart := false } }.raise Fld.THM_STATUS_SHUTDOWN).syncAlert
  else s

/-- Step 0 of a first attempt; a second one finds it done. -/
def State.beginCold (s : State) : State :=
  let first := decide (s.boot.attempt ≤ 1)
  let s := if first then s.loseAll.countStart.clearLatch.startNotice else s
  (s.setDstate DS.STARTING).setFld Fld.FLT_STATUS_STEP 0

/-- The rails of the package rise once VIN_IB is in range. -/
def State.railsUp (s : State) : State := { s with pins := { s.pins with vddUp := true } }

/-! ## Findings of tests (R418) -/

/-- The event code that a kind of defect carries as its cause. -/
def kindCode (k : Nat) : Nat :=
  match k with
  | 0x01 => Ev.TILE_RETIRED
  | 0x02 => Ev.CLUSTER_RETIRED
  | 0x03 => Ev.VIF_STEERED
  | 0x04 => Ev.SLICE_RETIRED
  | 0x05 => Ev.TSV_WEAKENED
  | 0x06 => Ev.BRIDGE_PAIR_RETIRED
  | 0x07 => Ev.HBM_CHANNEL_RETIRED
  | 0x08 => Ev.UL_ROW_REPLACED
  | 0x09 => Ev.UL_ROW_DISABLED
  | 0x0A => Ev.MESH_LINK_RETIRED
  | 0x0B => Ev.BELT_PORT_RETIRED
  | 0x0C => Ev.CACHE_LASTING
  | _ => Ev.PHASE_FAILED

/-- Units of Table 13-11 that a test can name; of a row, its spare aside. -/
def unitKnown (k u : Nat) : Bool :=
  match k with
  | 0x01 => decide (u < 256)
  | 0x03 => decide (u < 2 ^ 32) && decide (u / 2 ^ 16 % 2 ^ 15 < 9728) && decide (u % 2 ^ 16 < 34)
  | 0x05 => decide (u < 2 ^ 32) && u / 2 ^ 28 % 2 = 0 && u / 2 ^ 16 % 256 = 0 && (senseOf u).inTable
  | 0x06 => decide (u < 16)
  | 0x07 => decide (u < 128)
  | 0x08 => decide (u < 2 ^ 32) && u / 128 % 2 = 0 && u / 512 % 128 = 0 && decide (u / 2 ^ 16 < 16384)
  | 0x0A => decide (u < 24)
  | 0x0B => decide (u < 8)
  | 0x0C => decide (u < 2 ^ 42) && decide (u / 16 % 4 < 3) && u / 64 % 2 ^ 10 = 0
      && (decide (u / 16 % 4 ≠ 2) || (u / 2 ^ 16 % 2 ^ 16 = 0))
  | 0x0D => decide (u < 256) && u / 8 % 2 = 0
  | _ => false

/-- Rows of a slice's die in the defect list, replaced or disabled; a unit's row. -/
def rowIn (u : Nat) : Nat := u % 2 ^ 32

def State.rowKnown (s : State) (u : Nat) : Bool :=
  (s.defectsOf 0x08 ++ s.defectsOf 0x09).any (fun v => rowIn v = u)

/-- Spare rows of a die in use. -/
def State.diesSpares (s : State) (u : Nat) : Nat :=
  ((s.defectsOf 0x08).filter (fun v => v % 128 = u % 128 && decide (v / 256 % 2 = u / 256 % 2))).length

/-- A row that fails twice takes a spare of its die, or is disabled (R254, R255). -/
def State.findRow (s : State) (u : Nat) : State :=
  let n := s.diesSpares u
  if n < 128 then s.addDefect 0x08 (u + (u / 256 % 2 * 128 + n) * 2 ^ 32) Ev.UL_ROW_REPLACED
  else s.addDefect 0x09 u Ev.UL_ROW_DISABLED

/-- The event of a retirement at a start. -/
def State.findEvent (s : State) (k u : Nat) : State :=
  if k = 0x07 then s.event Ev.HBM_CHANNEL_RETIRED (unitHbm u 0)
  else if k = 0x0B then s.event Ev.BELT_PORT_RETIRED u
  else s

/-- One finding (R418, R419): a unit in the list needs no test; a failure that passes on the repeat is journalled, its unit in
bytes 36 to 39; one that fails twice is recorded. -/
def State.finding (s : State) (f : Finding) : State :=
  let k := f.kind
  let u := f.unit.toNat
  let known := if k = 0x08 then s.rowKnown u else s.hasDefect k u
  if ¬ unitKnown k u ∨ known then s
  else if ¬ f.twice then s.event Ev.START_TRANSIENT 0 0 (u % 2 ^ 32)
  else if k = 0x08 then s.findRow u
  else (s.addDefect k u (kindCode k)).findEvent k u

/-- The findings of some kinds. -/
def State.findings (s : State) (fs : List Finding) (kinds : List Nat) : State :=
  (fs.filter (fun f => kinds.contains f.kind)).foldl (fun s f => s.finding f) s

/-! ## Step 1 (R10, R19, R388, R389, R397) -/

/-- A strap reading is a valid identity. -/
def strapOk (v : BitVec 3) : Bool := v = 1#3 || v = 2#3 || v = 4#3 || v = 7#3

/-- The four readings are valid, each identity once. -/
def strapsOk (l : List (BitVec 3)) : Bool :=
  decide (l.length = 4) && l.all strapOk && decide (l.eraseDups.length = 4)

/-- CFG_DIE_STRAPS shows the readings of the IOD, CD, U1 and U0 sites, and which are valid and unique. -/
def State.showStraps (s : State) (l : List (BitVec 3)) : State :=
  let one := fun (s : State) (i : Nat) (v ok : Fld) =>
    let x := l.getD i 0#3
    (s.setFld v x.toNat).setFld ok (b2n (strapOk x && decide (l.count x = 1)))
  let s := one s 0 Fld.CFG_DIE_STRAPS_IOD_STRAP Fld.CFG_DIE_STRAPS_IOD_OK
  let s := one s 1 Fld.CFG_DIE_STRAPS_CD_STRAP Fld.CFG_DIE_STRAPS_CD_OK
  let s := one s 2 Fld.CFG_DIE_STRAPS_U1_STRAP Fld.CFG_DIE_STRAPS_U1_OK
  one s 3 Fld.CFG_DIE_STRAPS_U0_STRAP Fld.CFG_DIE_STRAPS_U0_OK

/-- The licence floor (R397): the highest SERIAL of a LICENCE record, bytes 26 to 29 (a layout of this model). -/
def licFloor (rs : List JRec) : Nat :=
  (rs.filter (fun r => r.type = JT.CONFIG && decide (r.configKind = 1))).foldl (fun m r => max m (bitsOf r.payload 47 16)) 0

/-- The record of the highest SERIAL. -/
def bestLicence (l : List LicenceRec) : Option LicenceRec :=
  l.foldl (fun (m : Option LicenceRec) x => match m with
    | some y => if y.serial < x.serial then some x else some y
    | none => some x) none

/-- The licence in force; none enables the Vetiver count and holds no keys. -/
def State.takeLicence (s : State) : State :=
  let floor := licFloor s.startRecs
  let mine := s.flash.licences.filter (fun l => licenceOk l && l.uid = s.uid)
  let s := if mine.any (fun l => decide (l.serial < floor)) then
      (s.raise Fld.CFG_NVM_EVENTS_LIC_FLOOR).event Ev.LICENCE_FLOOR 0 else s
  match bestLicence (mine.filter (fun l => decide (floor ≤ l.serial))) with
  | none => ((s.setReg Off.CFG_LICENCE 0#32).setReg Off.CFG_LIC_SERIAL 0#32).setFld Fld.HIF_STATUS_TIER 0
  | some l =>
    let s := ((s.setFld Fld.CFG_LICENCE_VALID 1).setFld Fld.CFG_LICENCE_TIER l.tier).setFld Fld.CFG_LICENCE_OWNERS l.owners.toNat
    let s := (s.setFld Fld.CFG_LIC_SERIAL_SERIAL l.serial).setFld Fld.HIF_STATUS_TIER l.tier
    if floor < l.serial then s.jrnConfig 1 1 (l.tier + l.serial * 2 ^ 8) else s

/-- HBM_BYTES as the defect list leaves it (R233, R386). -/
def State.listHbm (s : State) : Nat := 1464843 * (128 - (s.defectsOf 0x07).length) * 1024

/-- The result of a bank before it is verified (R388). -/
def State.bankSeen (s : State) (k : Nat) : Nat :=
  match s.bank k with
  | none => BR.BLANK
  | some i => if headerOk i then BR.UNREAD else BR.HEADER

/-- The banks to verify, in order: the higher IMAGE_GEN first, bank A at equal generations. -/
def State.bankOrder (s : State) : List Nat :=
  let gen := fun (k : Nat) => match s.bank k with
    | some i => i.gen
    | none => 0
  let l := [0, 1].filter (fun k => s.bankSeen k = BR.UNREAD)
  if l = [0, 1] ∧ gen 0 < gen 1 then [1, 0] else l

def State.bankVerdict (s : State) (k hbm : Nat) : Nat :=
  verifyBank (s.bank k) s.uid (s.fld Fld.CFG_LICENCE_OWNERS) (s.fld Fld.CFG_LICENCE_TIER) hbm

/-- Banks are verified in order until one passes. -/
def State.tryBanks (s : State) (hbm : Nat) : List Nat → State × Option Nat
  | [] => (s, none)
  | k :: t =>
    let code := s.bankVerdict k hbm
    let s := s.setBankResult k code
    if code = BR.VERIFIED then (s, some k) else s.tryBanks hbm t

/-- The bank reads of R388. -/
def State.readBanks (s : State) : State × Option Nat :=
  let s := (s.setBankResult 0 (s.bankSeen 0)).setBankResult 1 (s.bankSeen 1)
  s.tryBanks s.listHbm s.bankOrder

/-- One SETTINGS pair: the image's fields of its register. -/
def State.setting (s : State) (e : Nat × W32) : State :=
  match regRow? e.1 with
  | some r => s.setReg e.1 ((s.regAt e.1 &&& ~~~r.img) ||| (e.2 &&& r.img))
  | none => s

/-- One WINDOW record. -/
def State.putWindow (s : State) (w : WinRec) : State :=
  let base := BitVec.ofNat 64 w.base
  let s := (s.setReg (Off.ULC_WIN_BASE_LO w.num) (base.setWidth 32)).setReg (Off.ULC_WIN_BASE_HI w.num) ((base >>> 32).setWidth 32)
  let s := (s.setReg (Off.ULC_WIN_ATTR w.num) w.attr).setFld (Fld.ULC_WIN_CLASS_CLASSES w.num) w.classes
  let s := s.setReg (Off.ULC_WIN_TSRC_LO w.num) (w.src.setWidth 32)
  (s.setReg (Off.ULC_WIN_TSRC_HI w.num) ((w.src >>> 32).setWidth 32)).setReg (Off.ULC_WIN_TSHAPE w.num) w.shape

/-- The THERMAL record (15_power_thermal.md R464, R465). -/
def State.putThermal (s : State) (i : Image) : State :=
  match (i.sections.flatMap (fun x => recsOf x 0x0004)).head? with
  | some r =>
    let s := (s.setFld Fld.THM_COEF_K_UL (recF r 1 31 16)).setFld Fld.THM_COEF_K_CD (recF r 1 15 0)
    (s.setFld Fld.THM_GUARD_OFFSET (recF r 2 15 0)).setFld Fld.THM_GUARD_GUARD_RATE (recF r 3 15 0)
  | none => s

/-- What the DEVICE record fixes (Table 13-5, R334). -/
def State.putDevice (s : State) : State :=
  let w := s.deviceWord 1
  let s := s.setFld Fld.CFG_IMAGE_HOSTLESS (bitsOf w 63 63)
  let s := s.setFld Fld.BLT_FED_ROOT_STANDBY (bitsOf w 61 61)
  let s := { s with ring := { s.ring with imageRoot := bitsOf w 62 62 = 1, imageRootStandby := bitsOf w 61 61 = 1,
                                          imageRingId := bitsOf w 15 0 } }
  (s.setFld Fld.HIF_RSLOT_COUNT_COUNT (bitsOf (s.deviceWord 3) 18 0)).setFld Fld.KVL_POOL_BLOCKS (bitsOf (s.deviceWord 5) 13 0)

/-- The bank's own registers (Tables 13-15, 13-16). -/
def State.showBank (s : State) (k : Nat) (i : Image) : State :=
  let s := (s.setFld Fld.CFG_IMAGE_START_BANK k).setFld Fld.CFG_IMAGE_RELOAD_BANK k
  let s := (s.setFld Fld.CFG_IMAGE_KEY_ID i.keyId).setFld Fld.CFG_IMAGE_LEVEL i.level
  let s := s.setFld Fld.CFG_IMAGE_SECTIONS i.sections.length
  (s.setFld Fld.CFG_IMAGE_GEN_START_GEN i.gen).setFld Fld.CFG_RELOAD_GEN_RELOAD_GEN i.gen

/-- The latest IMAGE record that the journal shows. -/
def State.imageRec (s : State) : Option Nat :=
  ((latest (fun r => r.type = JT.CONFIG && decide (r.configKind = 2)) s.startRecs).head?).map (fun r => bitsOf r.payload 47 8)

/-- A bank configures the device; a change of bank or generation is journalled (DESIGN CHOICE). -/
def State.takeBank (s : State) (k : Nat) : State :=
  match s.bank k with
  | none => s
  | some i =>
    let s := (({ s with flash := { s.flash with startImage := some i } }).showBank k i).putDevice
    let s := (i.sections.flatMap winRecs).foldl (fun s w => s.putWindow w) s
    let s := (s.putThermal i)
    let s := (i.sections.flatMap settingsOf).foldl (fun s e => s.setting e) s
    let now : Nat := k + i.gen * 2 ^ 8
    if s.imageRec == some now then s else s.jrnConfig 2 1 now

/-- No bank passes: RECOVERY is what the start ends in (R389). -/
def State.markRecovery (s : State) : State :=
  ((s.raise Fld.CFG_IMAGE_RECOVERY).raise Fld.HIF_STATUS_RECOVERY).event Ev.RECOVERY_ENTERED 0

def State.inRecovery (s : State) : Bool := s.flag Fld.CFG_IMAGE_RECOVERY

/-- The BOOT record (Table 13-10; its layout is this model's): kind, start bank, IMAGE_GEN, tier, ROLE, straps, results. -/
def State.journalBoot (s : State) (kind : Nat) : State :=
  let bank := if s.inRecovery then 0xF else s.fld Fld.CFG_IMAGE_START_BANK
  let p := kind + bank * 2 ^ 8 + s.fld Fld.CFG_IMAGE_GEN_START_GEN * 2 ^ 16 + s.fld Fld.HIF_STATUS_TIER * 2 ^ 48
    + s.fld Fld.HIF_STATUS_ROLE * 2 ^ 56 + (s.regAt Off.CFG_DIE_STRAPS).toNat * 2 ^ 64
    + s.fld Fld.CFG_BANK_STAT_A_RESULT * 2 ^ 96 + s.fld Fld.CFG_BANK_STAT_B_RESULT * 2 ^ 104
  s.journal JT.BOOT 10 (BitVec.ofNat 288 p)

/-- The bank reads and what they configure; none that passes leaves RECOVERY. -/
def State.configure (s : State) : State :=
  match s.readBanks with
  | (s, some k) => s.takeBank k
  | (s, none) => s.markRecovery

/-- Step 1: NVM_RESET# pulses, the straps, the role, the journal, the licence, the banks. -/
def State.brass (s : State) (env : StartEnv) : State :=
  let s := { s with pins := { s.pins with nvmResets := s.pins.nvmResets + 1 } }.setFld Fld.FLT_STATUS_STEP 1
  let s := { s with boot := { s.boot with strap := s.pins.roleStrap } }
  let s := (s.showStraps env.straps).setRole s.pins.roleStrap.toNat
  if ¬ strapsOk env.straps then (s.event Ev.STRAP_INVALID 0).failDevice Ev.STRAP_INVALID
  else ((s.readJournal.takeLicence).configure).journalBoot 0

end Sys2Proof.Machine
end

