-- ==== Sys2Proof/Machine/Startup.lean ====
section
/-! DEFINITION. Start-up steps 2 to 5 (14_startup_faults.md R411 to R421; 00_scope.md R8; 01_stack.md R22, R27, R29 to R32, R39
to R43; 08_underlayer.md R232 to R234, R254, R255; 03_tiles.md R101; 13_configuration.md R390, R398). -/

namespace Sys2Proof.Machine

/-! ## Step 2 (R29 to R32, R34, R172) -/

/-- The four paths. -/
def allPaths : List (Bool × Bool) := [(false, false), (false, true), (true, false), (true, true)]

/-- OK of each path as a check finds it; a path newly lost is reported. -/
def State.checkPaths (s : State) (lost : List (Bool × Bool)) : State :=
  allPaths.foldl (fun s p =>
    if lost.contains p then (if s.flag (pathFld p.1 p.2) then s.pathGone p.1 p.2 else s)
    else s.raise (pathFld p.1 p.2)) s

/-- Both paths to a die are lost. -/
def bothLost (lost : List (Bool × Bool)) : Bool :=
  [false, true].any (fun onCd => lost.contains (onCd, false) && lost.contains (onCd, true))

/-- Both sideband copies as a check finds them. -/
def State.checkSideband (s : State) (lost : List Bool) : State :=
  [false, true].foldl (fun s b => if lost.contains b ∧ s.sideband b then s.copyGone b else s) s

/-- Step 2 aligns every follower with the master (R32); a cold start has cleared it (R29). -/
def State.alignTimebase (s : State) (clear : Bool) : State :=
  let m := if clear then 0#64 else s.stack.tbMaster
  { s with stack := { s.stack with tbMaster := m, tbIod := m, tbU1 := m, tbCd := m } }

/-- Mesh links of the list are retired, and a cluster without a usable link (R172). -/
def State.meshStart (s : State) (env : StartEnv) : State :=
  let s := s.findings env.finds [0x0A]
  let s := s.setFld Fld.PPL_MESH_RETIRED ((s.defectsOf 0x0A).foldl (fun n l => n ||| 2 ^ l) 0)
  ((List.range 16).filter (fun c => (linksOf c).all (fun l => s.fbit Fld.PPL_MESH_RETIRED l) && !s.hasDefect 2 c)).foldl
    (fun s c => (s.event Ev.CLUSTER_RETIRED c Ev.MESH_LINK_RETIRED).addDefect 2 c Ev.CLUSTER_RETIRED) s

/-- Step 2, the timebase cleared unless a warm device reset goes on with it, the followers aligned: the attempt fails where both paths to a die, or
both sideband copies, are lost. -/
def State.clockStep (s : State) (env : StartEnv) (clear : Bool) : State × Bool :=
  let s := (s.alignTimebase clear).setFld Fld.FLT_STATUS_STEP 2
  let s := (s.checkPaths env.pathsLost).checkSideband env.sidebandLost
  let bad := bothLost env.pathsLost || (env.sidebandLost.contains false && env.sidebandLost.contains true)
  if bad then (s, false) else (s.meshStart env, true)

/-! ## Step 3: vertical sites and sense groups (R22, R27) -/

def siteOf (u : Nat) : Nat × Nat × Nat := (u / 2 ^ 31 % 2, u / 2 ^ 16 % 2 ^ 14, u % 64)

/-- A slice of the defect list: its number, and CAUSE. -/
def sliceIn (u : Nat) : Nat := u % 128
def sliceCause (u : Nat) : Nat := u / 2 ^ 40 % 8

/-- Whether the list holds a slice, for whatever cause. -/
def State.sliceListed (s : State) (x : Nat) : Bool := (s.defectsOf 0x04).any (fun u => sliceIn u = x)

/-- A slice enters the list at a start. -/
def State.listSlice (s : State) (x cause : Nat) : State :=
  if s.sliceListed x then s else s.addDefect 0x04 (x + cause * 2 ^ 40) Ev.SLICE_RETIRED

/-- CFG_VIF of one interface. -/
def State.showVif (s : State) (i : Nat) : State :=
  let gs := s.badGroups.filter (fun g => g.1 = i)
  let dead := ((gs.filter (fun g => decide (2 < s.badSites g.1 g.2))).map (fun g => g.2 / 76)).eraseDups
  (s.showSpares i).setFld (vifRetired i) (min dead.length 255)

/-- Vertical sites: those of the list are steered out; a group with fewer than 32 usable sites retires its slice. -/
def State.vifStart (s : State) (env : StartEnv) : State :=
  let s := s.findings env.finds [0x03]
  let s := { s with stack := { s.stack with sitesBad := (s.defectsOf 0x03).map siteOf } }
  let dead := ((s.badGroups.filter (fun g => decide (2 < s.badSites g.1 g.2))).map (fun g => g.2 / 76)).eraseDups
  let s := (s.showVif 0).showVif 1
  dead.foldl (fun s x =>
    if s.sliceListed x then s
    else ((s.raise Fld.CFG_VIF_EVENTS_RETIRED).eventReg Ev.VIF_SLICE_RETIRED x Off.CFG_VIF_EVENTS).listSlice x 1) s

/-- Weakened groups of VDD_CORE in a die and region. -/
def State.weakIn (s : State) (die r : Nat) : Nat :=
  (s.stack.weak.filter (fun g => g.die = die && g.rail = 0 && g.region = r && decide (g.group < 96))).length

/-- Sense groups: those of the list count in PWR_TSV. -/
def State.senseStart (s : State) (env : StartEnv) : State :=
  let s := s.findings env.finds [0x05]
  let s := { s with stack := { s.stack with weak := (s.defectsOf 0x05).map senseOf } }
  (List.range 16).foldl (fun s r =>
    (s.setFld (Fld.PWR_TSV_U0_WEAK r) (s.weakIn 0 r)).setFld (Fld.PWR_TSV_U1_WEAK r) (s.weakIn 1 r)) s

/-! ## Step 3: rows, channels, slices (R43, R232 to R234, R254, R255) -/

def rowAt (u : Nat) : Nat × Nat × Nat := (u % 128, u / 256 % 2, u / 2 ^ 16 % 2 ^ 16)

/-- Rows of the list: replaced rows use spares, disabled rows hold no line; above 64 of them the slice is retired. -/
def State.rowStart (s : State) (env : StartEnv) : State :=
  let s := s.findings env.finds [0x08]
  let off := (s.defectsOf 0x09).map rowAt
  let s := { s with ul := { s.ul with rowsOff := off } }
  let n := fun (s : State) (k x : Nat) => ((s.defectsOf k).filter (fun u => sliceIn u = x)).length
  let s := (List.range 128).foldl (fun s x =>
    (s.setFld (Fld.ULC_SLICE_SPARES_USED x) (n s 0x08 x)).setFld (Fld.ULC_SLICE_DISABLED x) (min 127 (n s 0x09 x))) s
  ((List.range 128).filter (fun x => decide (64 < n s 0x09 x))).foldl (fun s x => s.listSlice x 3) s

/-- The channel list of R232: the halves in turn. -/
def chanOrder : List Nat := (List.range 64).flatMap (fun i => [i, 64 + i])

/-- Registers of a slice at a start: retired with its channel, retired by the list, or in service. -/
def State.startSlice (s : State) (x : Nat) : State :=
  let listed := (s.defectsOf 0x04).find? (fun u => sliceIn u = x)
  let gone := !s.ul.chans.contains x
  let cause := if gone then 4 else match listed with
    | some u => sliceCause u
    | none => 0
  let out := gone || listed.isSome
  let s := (s.setFld (Fld.ULC_SLICE_STATE x) (if out then 2 else 0)).setFld (Fld.ULC_SLICE_CAUSE x) cause
  let s := s.setBuckets x (if gone then 0 else 4)
  s.putBit (Fld.ULC_SLICE_RET_RETIRED (x / 32)) (x % 32) out

/-- The default bucket tables: a retired channel's buckets are invalid (R234). -/
def State.defaultBuckets (s : State) : State :=
  (List.range 512).foldl (fun s i =>
    let x := 64 * (i / 256) + i % 256 / 4
    s.setBkt (i / 256) (i % 256) (s.ul.chans.contains x) x) s

/-- The buckets of retired slices whose channel is in service move (R262). -/
def State.moveRetired (s : State) : State :=
  ((List.range 128).filter (fun x => s.sliceState x ≠ 0)).foldl (fun s x =>
    (s.bucketsOf x).foldl (fun s b => s.moveBucket (x / 64) x b) s) s

/-- C, chan[] and the bucket tables. -/
def State.mapStart (s : State) (env : StartEnv) : State :=
  let s := s.findings env.finds [0x07]
  let chans := chanOrder.filter (fun c => !s.hasDefect 0x07 c)
  let s := { s with ul := { s.ul with chans := chans } }
  let s := (List.range 128).foldl (fun s c =>
    s.putBit (Fld.ULC_CHAN_RET_RETIRED (c / 32)) (c % 32) (!chans.contains c)) s
  let s := (List.range 128).foldl (fun s x => s.startSlice x) s
  let s := (s.defaultBuckets).moveRetired
  let s := ((s.setFld Fld.ULC_MAP_CHANNELS chans.length).setFld Fld.ULC_MAP_EPOCH 0).setFld Fld.ULC_MAP_SLICES
    ((s.slicesIn 0).length + (s.slicesIn 1).length)
  (s.setFld Fld.ULC_HBM_BYTES_LO_BYTES_LO (s.hbmBytes % 2 ^ 32)).setFld Fld.ULC_HBM_BYTES_HI_BYTES_HI (s.hbmBytes / 2 ^ 32)

/-- What an image set goes back to its silent values: registers that "Image" resets, windows, the DEVICE record's. -/
def State.dropImage (s : State) : State :=
  let set := fun (off : Nat) => (match regRow? off with
    | some r => decide (r.img ≠ 0#32)
    | none => false) || (decide (Off.ULC_WIN_BASE_LO 0 ≤ off) && decide (off < Off.ULC_WIN_BASE_LO 32))
    || [Off.CFG_IMAGE, Off.CFG_IMAGE_GEN, Off.CFG_RELOAD_GEN, Off.HIF_RSLOT_COUNT, Off.KVL_POOL, Off.THM_COEF, Off.THM_GUARD,
        Off.BLT_FED].contains off
  { s with regs := s.regs.filter (fun (e : Nat × W32) => !set e.1), flash := { s.flash with startImage := none }
           ring := { s.ring with imageRoot := false, imageRootStandby := false, imageRingId := 0 } }

/-- The regions of the start bank against the new HBM_BYTES; the other bank, or RECOVERY, where they no longer fit
(R415). -/
def State.checkRegions (s : State) : State :=
  match s.flash.startImage.bind (fun i => i.sections.head?) with
  | none => s
  | some d =>
    if deviceOk d s.hbmBytes then s
    else
      let k := s.fld Fld.CFG_IMAGE_START_BANK
      let s := (s.setBankResult k BR.RULE).dropImage
      let code := s.bankVerdict (1 - k) s.hbmBytes
      let s := s.setBankResult (1 - k) code
      if code = BR.VERIFIED then s.takeBank (1 - k) else s.markRecovery

/-- Step 3. -/
def State.memories (s : State) (env : StartEnv) : State :=
  let s := s.setFld Fld.FLT_STATUS_STEP 3
  let s := ((s.vifStart env).senseStart env).rowStart env
  let s := (s.mapStart env).checkSlices
  if s.dstate = DS.FAILED then s
  else (s.checkRegions).pinRecompute true

/-! ## Step 4 (R39 to R41, R304, R374, R416) -/

/-- Bridge pairs of the list are retired, and their slices steered to the others; training starts every group afresh. -/
def State.bridgeStart (s : State) (env : StartEnv) : State :=
  let s := s.findings env.finds [0x06]
  let gone := (List.range 16).filter (fun g => s.hasDefect 0x06 g)
  let s := (s.setFld Fld.CFG_BRIDGE_PAIR_RETIRED (gone.foldl (fun n g => n + 2 ^ g) 0)).setFld Fld.CFG_BRIDGE_PAIRS_ACTIVE
    (16 - gone.length)
  let s := { s with stack := { s.stack with steering := List.range 16, pairs := [] } }
  let s := gone.foldl (fun s g => s.steerAway g) s
  if 10 < gone.length then s.failDevice Ev.BRIDGE_PAIR_RETIRED else s

/-- PCIe trains, unless the image runs the device hostless; one that fails leaves it hostless (R374). -/
def State.pcieStart (s : State) (ok : Bool) : State :=
  let none' := s.flag Fld.CFG_IMAGE_HOSTLESS
  let s := { s with host := { s.host with hostless := none' || !ok, linkDown := none } }
  if none' || ok then s else s.event Ev.PCIE_RETIRED 0

/-- Whether a role enables a port (Table 0-5). -/
def portOn (role x : Nat) : Bool := if role = 1 then true else if role = 3 then false else decide (x < 4)

/-- A port at the end of qualification: disabled by role, retired, qualified with its partner, or training. -/
def State.portStart (s : State) (partners : List (Nat × Nat)) (x : Nat) : State :=
  let s := (s.setPort x emptyPort).setFld (Fld.BLT_PORT_STAT_LOCKED x) 0
  if ¬ portOn s.role x then s.setFld (Fld.BLT_PORT_STAT_STATE x) 5
  else if s.hasDefect 0x0B x then s.setFld (Fld.BLT_PORT_STAT_STATE x) 4
  else
    match partners.find? (fun e => e.1 = x) with
    | some e => ((s.setFld (Fld.BLT_PORT_STAT_STATE x) 2).raise (Fld.BLT_PORT_STAT_LOCKED x)).setFld
        (Fld.BLT_PORT_STAT_PARTNER x) e.2
    | none => s.setFld (Fld.BLT_PORT_STAT_STATE x) 1

/-- Belt ports are enabled by role and qualify. -/
def State.portsStart (s : State) (env : StartEnv) : State :=
  let on := env.finds.filter (fun f => portOn s.role f.unit.toNat)
  let s := s.findings on [0x0B]
  (List.range 8).foldl (fun s x => s.portStart env.partners x) s

/-- Step 4; in RECOVERY its PCIe part alone (R414). -/
def State.links (s : State) (env : StartEnv) : State :=
  let s := s.setFld Fld.FLT_STATUS_STEP 4
  if s.inRecovery then s.pcieStart env.pcieOk
  else
    let s := s.bridgeStart env
    if s.dstate = DS.FAILED then s else (s.pcieStart env.pcieOk).portsStart env

/-! ## Step 5: clusters (R8, R101, R132, R449, R450) -/

/-- Phases of a region in the defect list. -/
def State.phasesOff (s : State) (r : Nat) : Nat :=
  (s.defectsOf 0x0D).foldl (fun n u => if u / 16 = r then n ||| 2 ^ (u % 16) else n) 0

/-- The lost count of a region as the list leaves it. -/
def State.listLost (s : State) (r : Nat) : Nat :=
  bitCount (s.phasesOff r) + weakPhases (max (s.weakIn 0 r) (s.weakIn 1 r))

/-- Tiles of a cluster in the list, as a mask. -/
def State.tilesOff (s : State) (c : Nat) : Nat :=
  (s.defectsOf 0x01).foldl (fun n u => if u / 16 = c then n ||| 2 ^ (u % 16) else n) 0

/-- The good physical tiles of a cluster, ascending. -/
def State.goodTiles (s : State) (c : Nat) : List Nat :=
  let off := s.tilesOff c
  (List.range 16).filter (fun p => !off.testBit p)

/-- Cache entries of a cluster in the list: cache, set, way. -/
def State.cachesOff (s : State) (c : Nat) : List (Nat × Nat × Nat) :=
  ((s.defectsOf 0x0C).filter (fun u => u % 16 = c)).map (fun u => (u / 16 % 4, u / 2 ^ 16 % 2 ^ 16, u / 2 ^ 32))

def State.descsOff (s : State) (c : Nat) : Nat := ((s.cachesOff c).filter (fun e => e.1 = 2)).length

/-- A retiring defect of R8. -/
def State.retiring (s : State) (c : Nat) : Bool := s.hasDefect 2 c || decide (3 ≤ s.listLost c)

/-- The cluster count of a tier (Table 0-4). -/
def tierCount (t : Nat) : Nat := if t = 0 then 8 else if t = 1 then 12 else 16

/-- The clusters that R8 enables for a count. -/
def State.enabledFor (s : State) (count : Nat) : List Nat :=
  let good := fun (h : Nat) => (List.range 8).map (fun i => 8 * h + i) |>.filter (fun c => !s.retiring c)
  let half := count / 2
  let w := good 0
  let e := good 1
  w.take (half + (half - e.length)) ++ e.take (half + (half - w.length))

/-- A cluster that its tests leave no longer usable, and why: too few tiles, no spare descriptor slot, its region off. -/
def State.unfit (s : State) (c : Nat) : Option Nat :=
  if (s.goodTiles c).length < 8 then some Ev.TILE_RETIRED
  else if 64 < s.descsOff c then some Ev.CACHE_LASTING
  else if 3 ≤ s.listLost c then some Ev.REGION_OFF
  else none

/-- A tested cluster that is unfit is retired. -/
def State.judge (s : State) (c : Nat) : State :=
  match s.unfit c with
  | some cause => if s.hasDefect 2 c then s else (s.event Ev.CLUSTER_RETIRED c cause).addDefect 2 c Ev.CLUSTER_RETIRED
  | none => s

/-- The cluster that a tile or cache finding concerns. -/
def findCluster (f : Finding) : Nat := if f.kind = 1 then f.unit.toNat / 16 else f.unit.toNat % 16

/-- Newly enabled clusters are tested, and R8 applied again while one is retired; the fuel is the number of clusters. -/
def State.testClusters (finds : List Finding) : Nat → State → List Nat → State
  | 0, s, _ => s
  | n + 1, s, tested =>
    let new := (s.enabledFor (tierCount (s.fld Fld.HIF_STATUS_TIER))).filter (fun c => !tested.contains c)
    match new with
    | [] => s
    | _ =>
      let s := s.findings (finds.filter (fun f => new.contains (findCluster f))) [0x01, 0x0C]
      State.testClusters finds n (new.foldl (fun s c => s.judge c) s) (tested ++ new)

/-- The phase test of all 128 phases; a region that is lost is reported. -/
def State.phaseStart (s : State) (finds : List Finding) : State :=
  let before := (List.range 16).filter (fun r => decide (3 ≤ s.listLost r))
  let s := s.findings finds [0x0D]
  ((List.range 16).filter (fun r => decide (3 ≤ s.listLost r) && !before.contains r)).foldl (fun s r =>
    let s := s.event Ev.REGION_OFF r Ev.PHASE_FAILED
    if s.hasDefect 2 r then s else (s.event Ev.CLUSTER_RETIRED r Ev.REGION_OFF).addDefect 2 r Ev.CLUSTER_RETIRED) s

/-- The tile map of a cluster (R101): ascending good tiles take logical 0 to 14, the next is the spare. -/
def State.mapTiles (s : State) (c : Nat) : State :=
  let good := s.goodTiles c
  let n := min 15 good.length
  let s := (List.range n).foldl (fun s t => s.setLmap c t (good.getD t 0)) s
  let s := (s.setFld (Fld.PPL_TILE_MAP_LVALID c) (2 ^ n - 1)).setFld (Fld.PPL_TILE_MAP_ACTIVE c) n
  let s := (s.setFld (Fld.PPL_TILE_MAP_SPARE_OK c) (b2n (decide (15 < good.length)))).setFld (Fld.PPL_TILE_MAP_SPARE_PHYS c)
    (good.getD 15 0)
  s.setFld (Fld.PPL_TILE_RET_RETIRED c) (s.tilesOff c)

/-- Caps, phases and lost counts of a region. -/
def State.regionParts (s : State) (r : Nat) : State :=
  let lost := s.listLost r
  let s := (s.setFld (Fld.PWR_REGION_STAT_PHASE_OK r) (255 - s.phasesOff r)).setFld (Fld.PWR_REGION_STAT_LOST r) (min 15 lost)
  s.setFld (Fld.PWR_REGION_STAT_CAP r) (capOf lost)

/-- A region at the end of step 5: off by licence, off by fault, in Q2 where its cluster has no role, in Q1. -/
def State.regionStart (s : State) (r : Nat) : State :=
  let s := s.regionParts r
  let into := fun (st v : Nat) => (s.setFld (Fld.PWR_REGION_STAT_STATE r) st).setFld (Fld.PWR_REGION_STAT_VNOW r) v
  if 3 ≤ s.listLost r then into RS.OFF_FAULT 0
  else if ¬ s.fbit Fld.CFG_LICENCE_ENABLED r then into RS.OFF_LICENCE 0
  else if s.fld (Fld.PPL_STAGE_ROLE r) = 0 then into RS.Q2 100
  else into RS.Q1 (s.vset r)

/-- A powered cluster: its map and what its caches lost. -/
def State.clusterStart (s : State) (c : Nat) : State :=
  (s.mapTiles c).setCluster c { emptyCluster with cacheOff := s.cachesOff c, descSpares := s.descsOff c }

/-! ## Step 5: partitions (R184, R383, R390, R398) -/

/-- The role of a cluster in the list goes to the partition's usable reserve (DEDUCED from R101 and R184). -/
def State.reserveStart (s : State) (p : Nat) (g : PartCfg) : State :=
  match g.reserve, g.roles.find? (fun e => decide (e.2.1 ≠ 0) && s.retiring e.1) with
  | some r, some e =>
    if s.fbit Fld.CFG_LICENCE_ENABLED r then
      { s with ppl := { s.ppl with reserveUsed := s.ppl.reserveUsed ++ [(p, e.1, r)] } }
    else s
  | _, _ => s

/-- The stage programs of a partition's powered clusters. -/
def State.loadPart (s : State) (g : PartCfg) : State :=
  g.roles.foldl (fun s e =>
    let c := s.actor e.1
    match s.fbit Fld.CFG_LICENCE_ENABLED c, newProg g e.2.2 with
    | true, some pr => s.setCluster c { s.cluster c with progs := [(g.sect.gen, pr)] }
    | _, _ => s) s

/-- PART and RESERVE of a partition's powered clusters, and its CLUSTERS. -/
def State.showPart (s : State) (p : Nat) (g : PartCfg) : State :=
  let s := s.setFld (Fld.PPL_PART_CLUSTERS p) g.clusters
  ((maskList g.clusters).filter (fun c => s.fbit Fld.CFG_LICENCE_ENABLED c)).foldl (fun s c =>
    (s.setFld (Fld.PPL_STAGE_PART c) p).setFld (Fld.PPL_STAGE_RESERVE c) (b2n (decide (g.reserve = some c)))) s

/-- A partition comes into service, or stays unloaded where it names objects. -/
def State.partStart (s : State) (g : PartCfg) : State :=
  let p := g.sect.part
  let s := (s.showPart p g).reserveStart p g
  if namesObjects g then { s with ppl := { s.ppl with cfg := tabInsert s.ppl.cfg p g } }
  else
    let bank := if g.pipe then [(g.sect.gen, s.actingRoutes (routesOf g.sect))] else []
    let s := { s with ppl := { s.ppl with banks := tabPut [] s.ppl.banks p bank } }
    let s := (s.installPart p g).loadPart g
    (s.ppl.reserveUsed.filter (fun e => e.1 = p)).foldl (fun s e => s.eventReg Ev.ROLE_MOVED e.2.2 (Off.PPL_STAGE e.2.2)) s

/-- The partitions of the image, in its order. -/
def State.imageParts (s : State) : List PartCfg :=
  match s.flash.startImage with
  | some i => (i.sections.filter (fun x => x.kind = 2)).filterMap partCfg
  | none => []

/-- Step 5. -/
def State.compute (s : State) (env : StartEnv) : State :=
  let s := (s.setFld Fld.FLT_STATUS_STEP 5).phaseStart env.finds
  let s := State.testClusters env.finds 17 s []
  let on := s.enabledFor (tierCount (s.fld Fld.HIF_STATUS_TIER))
  let s := s.setFld Fld.CFG_LICENCE_ENABLED (on.foldl (fun n c => n + 2 ^ c) 0)
  if on = [] then s.failDevice Ev.CLUSTER_RETIRED
  else
    let s := on.foldl (fun s c => s.clusterStart c) s
    let s := s.imageParts.foldl (fun s g => s.partStart g) s
    let s := (List.range 16).foldl (fun s r => s.regionStart r) s
    (((s.clearLedger).checkDegraded).refillPins).syncBelt

/-! ## The end of a start (R378, R403, R404, R411, R412, R414) -/

/-- What journal recovery calls for, after READY. -/
def State.repairJournal (s : State) : State :=
  let k := chooseSeg s.jrn.seg0 s.jrn.seg1
  if k.fail then s
  else if k.new then (if s.jrn.seg0 = [] then s else s.pushOp (.segErase 0) 3)
  else
    let s := if s.jseg (1 - k.active) = [] then s else s.pushOp (.segErase (1 - k.active)) 3
    if k.again then s.startCompaction else s

/-- A start is over. -/
def State.endStart (s : State) : State :=
  { s with boot := { s.boot with coldReq := false, run := .idle, attempt := 1 } }

/-- Entries added by this start's tests: its DEFECT records, none of which is programmed before READY. -/
def State.newDefects (s : State) : Nat :=
  let boot := s.fld Fld.JRN_DEFECTS_BOOT
  (s.jrn.queue.filter (fun r => r.type = JT.DEFECT && r.boot = boot && decide (r.defect.origin = 0))).length
    + s.jrn.defectsPending.length

/-- FLT_START after a cold start. -/
def State.showStart (s : State) (totalMs : Nat) : State :=
  let s := (s.setFld Fld.FLT_START_TOTAL_MS (min totalMs 65535)).setFld Fld.FLT_START_KIND 0
  s.setFld Fld.FLT_START_NEW_DEFECTS (min s.newDefects 4095)

/-- READY (R411). -/
def State.becomeReady (s : State) (totalMs : Nat) : State :=
  let s := ((s.setFld Fld.FLT_START_ATTEMPT s.boot.attempt).showStart totalMs).setDstate DS.READY
  ((s.endStart).repairJournal).syncAllowed

/-- An attempt fails (R412): the start begins again as attempt 2, after which the device has failed. -/
def State.attemptFail (s : State) (step : Nat) : State :=
  let s := (s.event Ev.START_STEP_FAIL 0 0 step).setFld Fld.FLT_STATUS_STEP step
  let s := s.setFld Fld.FLT_STATUS_CAUSE (Ev.START_STEP_FAIL % 256)
  if s.boot.attempt ≤ 1 then { s with boot := { s.boot with attempt := 2, run := .idle, coldReq := true } }
  else (s.failDevice Ev.START_STEP_FAIL).endStart

/-- Steps 3 to 5 and the end. -/
def State.finishStart (s : State) (env : StartEnv) : State :=
  let s := s.memories env
  if s.dstate = DS.FAILED then s.endStart
  else
    let s := s.links env
    if s.dstate = DS.FAILED then s.endStart
    else if s.inRecovery then ((s.showStart env.totalMs).setDstate DS.RECOVERY).endStart
    else
      let s := s.compute env
      if s.dstate = DS.FAILED then s.endStart else s.becomeReady env.totalMs

/-- A start waits for a supply or for REFCLK, uncounted. -/
def State.waitRun (s : State) (r : StartRun) : State := { s with boot := { s.boot with run := r } }

/-- From step 2 on. -/
def State.fromClock (s : State) (env : StartEnv) (clear : Bool) : State :=
  match s.clockStep env clear with
  | (s, true) => s.finishStart env
  | (s, false) => s.attemptFail 2

/-- From step 1 on, VIN_IB being in range. -/
def State.fromVin (s : State) (env : StartEnv) : State :=
  let s := (s.railsUp).brass env
  if s.dstate = DS.FAILED then s.endStart
  else if s.pins.refclk then s.fromClock env true
  else (s.setFld Fld.FLT_STATUS_STEP 2).waitRun (.waitRefclk env)

/-- The whole of a start. -/
def State.runStart (s : State) (env : StartEnv) : State :=
  let s := s.beginCold
  if s.pins.vinIb then s.fromVin env else s.waitRun (.waitVin env)

end Sys2Proof.Machine
end

