-- ==== Sys2Proof/Machine/TapPort.lean ====
section
/-! DEFINITION. The test access port (16_pins_test.md R483 to R486). -/

namespace Sys2Proof.Machine

/-- Instruction codes of Table 16-8. -/
def TapIr.IDCODE : BitVec 8 := 0x01#8
def TapIr.SAMPLE : BitVec 8 := 0x02#8
def TapIr.EXTEST : BitVec 8 := 0x03#8
def TapIr.PULSE : BitVec 8 := 0x04#8
def TapIr.TRAIN : BitVec 8 := 0x05#8
def TapIr.CLAMP : BitVec 8 := 0x06#8
def TapIr.HIGHZ : BitVec 8 := 0x07#8
def TapIr.BYPASS : BitVec 8 := 0xFF#8

/-- The data register an instruction selects (Table 16-8): identification, boundary scan or bypass. -/
inductive TapDr
  | identification
  | boundary
  | bypass
deriving DecidableEq, Repr

/-- The selected data register; every unlisted code acts as BYPASS (R483). -/
def Tap.dr (t : Tap) : TapDr :=
  if t.ir = TapIr.IDCODE then .identification
  else if t.ir = TapIr.SAMPLE ∨ t.ir = TapIr.EXTEST ∨ t.ir = TapIr.PULSE ∨ t.ir = TapIr.TRAIN then .boundary
  else .bypass

/-- The identification register of the first silicon revision (Table 16-9). -/
def idcodeValue : W32 := 0x144009AF#32

/-- What an instruction does to the lands of a part that complies (R486). -/
def landsOf (ir : BitVec 8) : Lands :=
  if ir = TapIr.EXTEST then .extest
  else if ir = TapIr.PULSE then .pulse
  else if ir = TapIr.TRAIN then .train
  else if ir = TapIr.CLAMP then .clamp
  else if ir = TapIr.HIGHZ then .highz
  else .functional

/-- The lands follow the instruction in force only while DEVICE_RESET# is low (R486). -/
def State.syncLands (s : State) : State :=
  { s with tap := { s.tap with lands := if s.pins.resetLow then landsOf s.tap.ir else .functional } }

/-- An instruction is loaded; the port works while VAUX is present. -/
def State.tapLoad (s : State) (ir : BitVec 8) : State :=
  if s.pins.vaux then { s with tap := { s.tap with ir := ir } }.syncLands else s

/-- TAP_RESET (R483): Test-Logic-Reset selects IDCODE. -/
def execTapReset (s : State) : Host.Outcome State Fault Refusal :=
  .next (s.tapLoad TapIr.IDCODE)

/-- IDCODE (R484): the identification register is selected. -/
def execIdcode (s : State) : Host.Outcome State Fault Refusal :=
  .next (s.tapLoad TapIr.IDCODE)

/-- SAMPLE/PRELOAD (R485): the boundary cells take the values sampled from the lands or shifted in. -/
def execSamplePreload (cells : BitVec 334) (s : State) : Host.Outcome State Fault Refusal :=
  let s := s.tapLoad TapIr.SAMPLE
  .next (if s.pins.vaux then { s with tap := { s.tap with boundary := cells } } else s)

/-- EXTEST (R486). -/
def execExtest (s : State) : Host.Outcome State Fault Refusal := .next (s.tapLoad TapIr.EXTEST)

/-- EXTEST_PULSE (R486). -/
def execExtestPulse (s : State) : Host.Outcome State Fault Refusal := .next (s.tapLoad TapIr.PULSE)

/-- EXTEST_TRAIN (R486). -/
def execExtestTrain (s : State) : Host.Outcome State Fault Refusal := .next (s.tapLoad TapIr.TRAIN)

/-- CLAMP (R486): the lands hold their preloaded values, bypass is selected. -/
def execClamp (s : State) : Host.Outcome State Fault Refusal := .next (s.tapLoad TapIr.CLAMP)

/-- HIGHZ (R486): outputs at high impedance, bypass is selected. -/
def execHighz (s : State) : Host.Outcome State Fault Refusal := .next (s.tapLoad TapIr.HIGHZ)

/-- BYPASS (R483). -/
def execBypass (s : State) : Host.Outcome State Fault Refusal := .next (s.tapLoad TapIr.BYPASS)

end Sys2Proof.Machine
end

