-- ==== Sys2Proof/Machine/Starts.lean ====
section
/-! DEFINITION. Supplies, pins and cold starts (14_startup_faults.md R409 to R412; 01_stack.md R33; 00_scope.md R10;
13_configuration.md R402; 15_power_thermal.md R437, R438, R463; 16_pins_test.md R471, R474, R475, R486). -/

namespace Sys2Proof.Machine

/-! ## What a loss takes down -/

/-- The rails but the always-on domains', PCIe and the belt ports go down: all that lay behind them is lost. -/
def State.dropRails (s : State) : State :=
  (((s.dropHost).portsDown).stackLost.resetHost).stopFlash

/-- A start becomes due, from its first attempt. -/
def State.askStart (s : State) : State :=
  { s with boot := { s.boot with coldReq := true, run := .idle, attempt := 1 } }

/-- Nothing but the flash keeps its content without VAUX; the host's memory, the fuses and the levels that the board drives
are not the device's. -/
def State.powerOff (s : State) : State :=
  let z := State.reset
  { z with
    regs := s.regs.filter (fun e => e.1 = Off.CFG_UID_LO || e.1 = Off.CFG_UID_HI)
    pins := { s.pins with vaux := false, vddUp := false, thermAlertLow := false }
    boot := { z.boot with coldReq := false }
    jrn := { z.jrn with seg0 := s.jrn.seg0, seg1 := s.jrn.seg1 }
    flash := { z.flash with bankA := s.flash.bankA, bankB := s.flash.bankB, licences := s.flash.licences }
    host := { z.host with mem := s.host.mem, msix := s.host.msix, hostless := true }
    free := s.free
    pending := s.pending }

/-! ## Supplies -/

/-- VAUX_RISE (R409): the always-on domains run, and a cold start is due. -/
def execVauxRise (s : State) : Host.Outcome State Fault Refusal :=
  .next (if s.pins.vaux then s else { s with pins := { s.pins with vaux := true } }.askStart)

/-- VAUX_FALL (R402, R463): queued records are lost, and the latch of a thermal shut-down. -/
def execVauxFall (s : State) : Host.Outcome State Fault Refusal :=
  .next (if s.pins.vaux then s.powerOff else s)

/-- VIN_IB_LOW (R438): the rails go down, and a cold start is due, which waits for VIN_IB. A part held by DEVICE_RESET#, or
shut down, has them down already. -/
def execVinIbLow (s : State) : Host.Outcome State Fault Refusal :=
  .next (if ¬ s.pins.vinIb then s
    else
      let s := { s with pins := { s.pins with vinIb := false } }
      if ¬ s.pins.vaux ∨ s.pins.resetLow ∨ s.boot.thermLatch then s
      else ((s.dropRails).setDstate DS.STARTING).askStart)

/-- VIN_IB_IN_RANGE (R437): a start that waits for it goes on. -/
def execVinIbInRange (s : State) : Host.Outcome State Fault Refusal :=
  let s' := { s with pins := { s.pins with vinIb := true } }
  .next (match s.boot.run with
    | .waitVin env => (s'.waitRun .idle).fromVin env
    | _ => s')

/-! ## DEVICE_RESET# (R409, R471, R486) -/

/-- DEVICE_RESET_ASSERT (R471): low for 10 µs, the part is held before step 0. -/
def execDeviceResetAssert (s : State) : Host.Outcome State Fault Refusal :=
  .next (if s.pins.resetLow then s
    else
      let s := { s with pins := { s.pins with resetLow := true } }
      if ¬ s.pins.vaux then s
      else
        let s := s.syncLands
        let latched := s.boot.thermLatch
        let s := (s.dropRails).waitRun .idle
        let s := s.setFld Fld.PWR_STATUS_NOTICE 7
        if latched then s.updFault else s.setDstate DS.STARTING)

/-- DEVICE_RESET_RELEASE (R409, R463, R486): the lands are functional, and a cold start is due. -/
def execDeviceResetRelease (s : State) : Host.Outcome State Fault Refusal :=
  .next (if ¬ s.pins.resetLow then s
    else
      let s := { s with pins := { s.pins with resetLow := false }, tap := { s.tap with lands := .functional } }
      if ¬ s.pins.vaux then s
      else
        let s := s.askStart
        { s with boot := { s.boot with shutStart := s.boot.thermLatch } }.updFault)

/-! ## REFCLK (R33, R475) -/

/-- REFCLK_LOST (R33): FAULT#, the belt ports drop; no start is due before it returns. -/
def execRefclkLost (s : State) : Host.Outcome State Fault Refusal :=
  .next (if ¬ s.pins.refclk then s
    else
      let s := { s with pins := { s.pins with refclk := false } }
      if ¬ s.pins.vaux ∨ s.pins.resetLow ∨ s.boot.thermLatch ∨ s.dstate = DS.STARTING then s
      else
        let failed := decide (s.dstate = DS.FAILED)
        let s := (s.event Ev.REFCLK_LOST 0).portsDown
        if failed then s.updFault else s.setDstate DS.STARTING)

/-- A start that waits for REFCLK goes on at step 2; where none waits, only the level changes. -/
def State.clockBack (s : State) : State :=
  match s.boot.run with
  | .waitRefclk env => (({ s with pins := { s.pins with refclk := true } }).waitRun .idle).fromClock env true
  | _ => { s with pins := { s.pins with refclk := true } }

/-- REFCLK_RETURN (R33, R409): a cold start is due. -/
def execRefclkReturn (s : State) : Host.Outcome State Fault Refusal :=
  .next (if s.pins.refclk then s
    else
      match s.boot.run with
      | .idle =>
        let s := s.clockBack
        if ¬ s.pins.vaux ∨ s.pins.resetLow ∨ s.boot.thermLatch then s else s.askStart
      | _ => s.clockBack)

/-- REFCLK_PRESENT (R475): REFCLK first appears. -/
def execRefclkPresent (s : State) : Host.Outcome State Fault Refusal :=
  .next (if s.pins.refclk then s else s.clockBack)

/-- ROLE_STRAP_CHANGE (R10, R472): no effect before the next sample. -/
def execRoleStrapChange (v : BitVec 2) (s : State) : Host.Outcome State Fault Refusal :=
  .next { s with pins := { s.pins with roleStrap := v } }

/-! ## The start (R409, R411, R412, R463) -/

/-- A start is due and nothing holds it before step 0: after a thermal shut-down only DEVICE_RESET# starts the part, once T_CD
is at or below 108 °C. -/
def State.mayStart0 (s : State) : Bool :=
  s.boot.coldReq && s.pins.vaux && !s.pins.resetLow && s.boot.run = .idle && (!s.boot.thermLatch || s.boot.shutStart)
    && (!s.boot.shutStart || decide (signed16 (s.hk 0) ≤ 1728))

/-- COLD_START (R411). -/
def execColdStart (env : StartEnv) (s : State) : Host.Outcome State Fault Refusal :=
  .next (if s.mayStart0 then s.runStart env else s)

/-- START_STEP_TIMEOUT (R412): the attempt ends in this step; of the work of the steps before it, the loss at step 0 alone is
kept (DESIGN CHOICE). -/
def execStartStepTimeout (step : Nat) (s : State) : Host.Outcome State Fault Refusal :=
  .next (if s.mayStart0 ∧ step ≤ 5 then (s.beginCold).attemptFail step else s)

end Sys2Proof.Machine
end

