-- ==== Sys2Proof/Machine/Resets.lean ====
section
/-! DEFINITION. Warm device resets, cluster resets and their requests (14_startup_faults.md R410, R414, R423 to R430, R432;
00_scope.md R10; 06_pipeline.md R189, R198; 07_kv_ledger.md R229; 12_host.md R372; 13_configuration.md R389, R394). -/

namespace Sys2Proof.Machine

/-! ## Clusters that are reset -/

/-- The tiles of a cluster are cleared; the times of what R98 and R133 count stay. -/
def State.clearTiles (s : State) (c : Nat) : State :=
  ((List.range 16).foldl (fun (s : State) p => s.setTile c p { emptyTile with
    transients := (s.tile c p).transients, eccAt := (s.tile c p).eccAt }) s).syncOcc c

/-- A region whose operation has been halted is idle. -/
def State.regionIdle (s : State) (c : Nat) : State :=
  let s := s.modCluster c (fun k => { k with lastOp := s.now })
  if s.region c = RS.A then (s.setLevel c 0).setRegion c RS.Q1 else s

/-! ## Cluster reset (R425 to R427, Table 14-6) -/

/-- A cluster's stage is cleared; its queue entries stay, and their blocks run again from their retained input. -/
def State.resetCluster (s : State) (c cause : Nat) : State :=
  let s := (s.incFld Fld.FLT_COUNTS_CLUSTER_RESETS).abortFor c
  let s := if s.scoreClusters.contains c then s.dropTaken c else s
  let s := (s.haltCluster c).clearTiles c
  let s := s.modCluster c (fun k => { k.noSweep with runGen := 0 })
  let s := s.regionIdle c
  let s := if (s.cluster c).moveFrom.isSome then s.requestWake c else s
  (s.event Ev.CLUSTER_RESET c cause).kickAll

/-- CLUSTER_RESET (R425 to R427): a cluster that has been retired meanwhile is not reset. -/
def execClusterReset (c : Nat) (s : State) : Host.Outcome State Fault Refusal :=
  .next (match s.boot.clusterReq.find? (fun e => e.1 = c) with
    | none => s
    | some e =>
      if ¬ s.ready then s
      else
        let s := { s with boot := { s.boot with clusterReq := s.boot.clusterReq.filter (fun (x : Nat × Nat) => x.1 ≠ c) } }
        if s.clusterUp c then s.resetCluster c e.2 else s)

/-! ## What a warm device reset ends (R189, R198, R372, R394, R429) -/

/-- A change set aborts, and the clusters that drained hold the old generation again. -/
def State.warmChange (s : State) : State :=
  let s := s.abortChange 3
  match s.ppl.change with
  | some x => (x.restoring.foldl (fun (s : State) c => s.restoreCluster c) s).endChange x St.ABORTED x.aborting Ev.CHANGE_ABORTED
  | none => s

/-- Every accepted command ends with ABORTED. -/
def State.warmCommands (s : State) : State :=
  let s := s.ppl.trains.foldl (fun (s : State) e => s.failTrain e.1 St.ABORTED) s.warmChange
  let s := s.nvmAbort
  s.completeAll St.ABORTED s.host.cmds

/-- Resident queries and what the tap held are gone: no result is sent for a QUERY frame. -/
def State.warmBelt (s : State) : State :=
  let host := fun (p : Query) => match p.src with
    | .host _ => true
    | .frame _ => false
  let s := { s with
    belt := { s.belt with slots := [], pend := [], tap := [], tallies := [], score := [], loads := [], shardQ := [] }
    ring := { s.ring with placed := s.ring.placed.filter (fun (p : Placed) => !host p.q)
                          fed := s.ring.fed.filter (fun (q : FedQuery) => !host q.q)
                          sw := s.ring.sw.map (fun (w : EpochSwitch) => { w with uid := none }) } }
  s.syncBelt

/-- Whether the ring has a standby, as the reports say (R313). -/
def State.hasStandby (s : State) : Bool :=
  s.pos ≠ 1 && !s.ring.gone.contains 1 && s.ring.reports.any (fun r => r.pos = 1 && r.role = 2)

/-- A manager in a ring with a standby reports itself failed: its neighbours see its ports go down. -/
def State.managerOut (s : State) : State :=
  let s := (s.stopRing.portsDown).setFld Fld.BLT_RING_FORMED 0
  let s := s.setFld Fld.BLT_RING_ELASTIC 0
  ({ s with ring := { s.ring with acting := false, store := [], spare := [] } }).syncStore

/-- Stage queues, entries and forming blocks of the commands that ended. -/
def State.warmStages (s : State) : State :=
  let s := { s with ppl := { s.ppl with forming := [], entryQ := [], trains := [] } }
  (List.range 16).foldl (fun (s : State) c =>
    let s := s.clearTiles c
    if (tabFind s.ppl.clusters c).isSome then
      s.modCluster c (fun k => { k with queue := [], noticeAt := none, lastOp := s.now, attaching := none, runGen := 0 })
    else s) s

/-- Dirty lines go to HBM and the underlayer starts empty; slices that were draining are retired. -/
def State.warmUl (s : State) : State :=
  let s := s.ulOff
  let xs := s.ul.drains.map (fun d => d.slice)
  let s := { s with ul := { s.ul with mshr := [], inq := [], points := [], ranges := [], out := [] } }
  let s := xs.foldl (fun (s : State) x => s.endRetire x) s
  if s.ul.pinDue then
    let s := s.pinRecompute false
    ({ s with ul := { s.ul with pinDue := false } }).journalRetirements
  else s

/-! ## The role at a warm device reset (R10) -/

/-- Ports follow a role: those it disables are off, those it enables again train. -/
def State.portsByRole (s : State) : State :=
  (List.range 8).foldl (fun (s : State) x =>
    let st := s.fld (Fld.BLT_PORT_STAT_STATE x)
    if ¬ portOn s.role x then
      ((s.setPort x emptyPort).setFld (Fld.BLT_PORT_STAT_LOCKED x) 0).setFld (Fld.BLT_PORT_STAT_STATE x) 5
    else if st = 5 ∨ st = 0 then s.setFld (Fld.BLT_PORT_STAT_STATE x) (if s.hasDefect 0x0B x then 4 else 1)
    else s) s

/-- ROLE[1:0] is sampled: a device without a position in a formed ring takes it; another reports that it differs. -/
def State.warmRole (s : State) : State :=
  let v := s.pins.roleStrap
  let s := { s with boot := { s.boot with strap := v } }
  if s.formed then
    if v.toNat = s.role then s
    else (s.raise Fld.BLT_RING_EVENTS_STRAP_DIFFERS).event Ev.ROLE_STRAP_DIFFERS (s.unitQ s.pos)
  else (s.setRole v.toNat).portsByRole

/-! ## Tests and refill (Table 14-7, steps 5 to 8) -/

/-- Followers aligned, both paths to each die checked: with both lost, the device-scope fault of R31. -/
def State.warmClock (s : State) (env : StartEnv) : State :=
  let s := { s with stack := { s.stack with tbU1 := s.stack.tbMaster, tbCd := s.stack.tbMaster } }
  let s := s.checkPaths env.pathsLost
  if bothLost env.pathsLost then s.deviceScope Ev.TB_PATH_LOST else s

/-- Tile BIST of the clusters in service, and the tile maps; one with fewer than eight good tiles is retired. -/
def State.warmTiles (s : State) (finds : List Finding) : State :=
  let up := (List.range 16).filter (fun c => s.clusterUp c)
  let n := s.jrn.defects.length
  let s := s.findings (finds.filter (fun f => up.contains (findCluster f))) [0x01]
  let s := s.setFld Fld.FLT_START_NEW_DEFECTS (min (s.jrn.defects.length - n) 4095)
  up.foldl (fun (s : State) c =>
    let s := s.mapTiles c
    if (s.goodTiles c).length < 8 then s.retireCluster c Ev.TILE_RETIRED else s) s

/-- Regions at Q1 or Q2; role moves in progress begin again (R427). -/
def State.warmRegions (s : State) : State :=
  let s := { s with power := { s.power with wakes := [] } }
  let s := (List.range 16).foldl (fun (s : State) r => s.setFld (Fld.PWR_REGION_STAT_LEVEL r) 0) s
  let s := (s.raiseRegions.setFld Fld.PWR_STATUS_DSTATE 1).syncDstate
  (List.range 16).foldl (fun (s : State) c => if (s.cluster c).moveFrom.isSome then s.requestWake c else s) s

/-! ## The whole of it (R428, Table 14-7) -/

/-- Steps 1 and 2. -/
def State.warmBegin (s : State) : State :=
  let s := ((s.setDstate DS.WARM).incFld Fld.FLT_COUNTS_WARM_RESETS).raise Fld.HIF_EVENTS_WARM_RESET
  let s := (s.warmCommands).clearTx
  let s := { s with boot := { s.boot with warmReq := none, clusterReq := [] } }
  let s := s.warmBelt
  if s.formed ∧ s.isManager ∧ s.hasStandby then s.managerOut else s

/-- Steps 3 to 8. -/
def State.warmBody (s : State) (env : StartEnv) : State :=
  let s := ((s.warmStages).warmUl)
  let s := { s with rgl := { s.rgl with old := [], runs := [], points := [], served := [], demand := [], samples := 0, oldest := [] } }
  let s := ((s.warmClock env).warmRole).warmTiles env.finds
  ((s.warmRegions).refillPins).clearLedger

/-- Step 9. -/
def State.warmEnd (s : State) (cause totalMs : Nat) : State :=
  let s := (s.setFld Fld.FLT_START_KIND 1).setFld Fld.FLT_START_TOTAL_MS (min totalMs 65535)
  let s := (s.setDstate DS.READY).setFld Fld.JRN_DEFECTS_BOOT ((s.fld Fld.JRN_DEFECTS_BOOT + 1) % 65536)
  let s := (s.event Ev.WARM_RESET 0 cause).journalBoot 1
  let s := if s.formed ∧ s.isManager then s.sendAbandon else s
  (s.syncBelt).syncAllowed

/-- A warm device reset in READY: a device-scope fault during it leaves the device to a cold start (R424). -/
def State.warmReady (s : State) (cause : Nat) (env : WarmEnv) : State :=
  let s := (s.warmBegin).warmBody env.start
  let s := match env.fault with
    | some f => (s.event f.1 f.2).deviceScope f.1
    | none => s
  if s.boot.coldReq ∨ s.dstate = DS.FAILED then s else s.warmEnd cause env.start.totalMs

/-- A warm device reset in RECOVERY repeats step 1's bank reads, and goes on from step 2 where a bank verifies (R389,
R414). -/
def State.warmRecovery (s : State) (env : StartEnv) : State :=
  let s := ((s.setDstate DS.WARM).incFld Fld.FLT_COUNTS_WARM_RESETS).raise Fld.HIF_EVENTS_WARM_RESET
  let s := (s.warmCommands).setFld Fld.FLT_STATUS_STEP 1
  let s := { s with boot := { s.boot with warmReq := none, clusterReq := [] } }
  let s := (s.setFld Fld.CFG_IMAGE_RECOVERY 0).setFld Fld.HIF_STATUS_RECOVERY 0
  let s := s.setFld Fld.JRN_DEFECTS_BOOT ((s.fld Fld.JRN_DEFECTS_BOOT + 1) % 65536)
  let s := { s with boot := { s.boot with strap := s.pins.roleStrap } }
  let s := (((s.setRole s.pins.roleStrap.toNat).takeLicence).configure).journalBoot 1
  if s.inRecovery then ((s.showStart env.totalMs).setFld Fld.FLT_START_KIND 1).setDstate DS.RECOVERY
  else
    let s := (s.setDstate DS.STARTING).fromClock env false
    if s.ready ∨ s.dstate = DS.RECOVERY then s.setFld Fld.FLT_START_KIND 1 else s

/-- WARM_DEVICE_RESET (R410, R428 to R430): a cold start that is due replaces it. -/
def execWarmDeviceReset (env : WarmEnv) (s : State) : Host.Outcome State Fault Refusal :=
  .next (match s.boot.warmReq with
    | none => s
    | some cause =>
      if s.boot.coldReq ∨ ¬ s.pins.vddUp ∨ s.pins.resetLow then s
      else if s.dstate = DS.READY then s.warmReady cause env
      else if s.dstate = DS.RECOVERY then s.warmRecovery env.start
      else s)

/-! ## Requests (R432) -/

/-- FLT_RESET_CTL is written: another key, or a cluster that the licence leaves unpowered, is refused; WARM in READY or
RECOVERY replaces cluster resets. -/
def State.writeResetCtl (s : State) (v : W32) : State :=
  let cs := maskList (bitsOf v 15 0)
  if ¬ s.linked then s
  else if bitsOf v 23 16 ≠ 0x5A ∨ cs.any (fun c => !s.fbit Fld.CFG_LICENCE_ENABLED c) then s.raise Fld.FLT_EVENTS_REJECT
  else
    let s := if s.ready then s.askClusterResets (cs.filter (fun c => s.clusterUp c)) 0 else s
    if bitsOf v 31 31 = 1 ∧ (s.ready ∨ s.dstate = DS.RECOVERY) then { s with boot := { s.boot with warmReq := some 0 } } else s

/-- WARM_RESET_REQUEST (R432): a write of FLT_RESET_CTL with WARM set. -/
def execWarmResetRequest (v : W32) (s : State) : Host.Outcome State Fault Refusal :=
  .next (if bitsOf v 31 31 = 1 then s.writeResetCtl v else s)

/-- CLUSTER_RESET_REQUEST (R432): a write of FLT_RESET_CTL with WARM clear. -/
def execClusterResetRequest (v : W32) (s : State) : Host.Outcome State Fault Refusal :=
  .next (if bitsOf v 31 31 = 0 then s.writeResetCtl v else s)

end Sys2Proof.Machine
end

