-- ==== Sys2Proof/Machine/Registers.lean ====
section
/-! DEFINITION. The host's reads and writes of BAR0 (00_scope.md R13 to R15; 12_host.md R348, R373; 14_startup_faults.md R417,
R436; 15_power_thermal.md R466). -/

namespace Sys2Proof.Machine

/-- The host reads a register: the data of its last read is what the device has returned. -/
def State.hostRead32 (s : State) (off : Nat) : State :=
  let r := s.readReg off
  { r.1 with host := { r.1.host with rdata := r.2 } }

/-- PAIR_LO_READ (R15): a read of the _LO half captures the upper half with it; the read of the _HI half that follows, which
the table gives no row of its own, is this command at the _HI offset (DESIGN CHOICE, entry 123). -/
def execPairLoRead (off : Nat) (s : State) : Host.Outcome State Fault Refusal :=
  .next (if s.linked ∧ (isPairLow off ∨ (4 ≤ off ∧ isPairLow (off - 4))) then s.hostRead32 off else s)

/-- The index of an offset among those from b with a stride. -/
def strideIdx (off b st : Nat) : Nat := (off - b) / st

/-- Whether a queue whose base an offset belongs to is enabled. -/
def State.baseLocked (s : State) (lo : Nat) : Bool :=
  if inStride lo (Off.HIF_SQ_BASE_LO 0) 64 0x20 then s.flag (Fld.HIF_SQ_CFG_EN (strideIdx lo (Off.HIF_SQ_BASE_LO 0) 0x20))
  else if inStride lo (Off.HIF_CQ_BASE_LO 0) 64 0x20 then s.flag (Fld.HIF_CQ_CFG_EN (strideIdx lo (Off.HIF_CQ_BASE_LO 0) 0x20))
  else false

/-- The upper half of a pair whose lower half is held is written. A change of an enabled queue's base is ignored, and the
held half with it (R348). -/
def State.writePairHi (s : State) (off : Nat) (v : W32) : State :=
  let lo := off - 4
  if lo = Off.KVL_SWAP_BASE_LO then s.writeSwapArea off v
  else
    let t := s.commitPair lo off v
    if s.baseLocked lo ∧ (t.regAt lo ≠ s.regAt lo ∨ t.regAt off ≠ s.regAt off) then
      { s with pairLo := tabErase s.pairLo lo }.reject
    else t

/-- PAIR_HI_WRITE (R15). -/
def execPairHiWrite (off : Nat) (v : W32) (s : State) : Host.Outcome State Fault Refusal :=
  .next (if s.linked ∧ 4 ≤ off ∧ isHeldLow (off - 4) then s.writePairHi off v else s)

/-- A pending message goes out once its vector is unmasked (log entry 101). -/
def State.msiRelease (s : State) (v : Nat) : State :=
  if s.flag (Fld.MSIX_PENDING v) ∧ ¬ s.flag (Fld.MSIX_MASK v) then (s.setFld (Fld.MSIX_PENDING v) 0).msi v else s

/-- What follows the device's registers that a plain write has changed. -/
def State.afterWrite (s : State) (off : Nat) : State :=
  if off = Off.HIF_LAT_TOL ∨ off = Off.PWR_CTL then s.syncAllowed
  else if off = Off.FLT_IRQ_CTL then s.updFault
  else if off = Off.THM_STATUS then s.syncAlert
  else if inStride off 0x0000800C 256 16 then s.msiRelease (strideIdx off 0x0000800C 16)
  else s

/-- A write of the queue registers. -/
def State.writeQueueReg (s : State) (off : Nat) (v : W32) : Option State :=
  if inStride off (Off.HIF_SQ_CFG 0) 64 0x20 then some (s.writeSqCfg (strideIdx off (Off.HIF_SQ_CFG 0) 0x20) v)
  else if inStride off (Off.HIF_CQ_CFG 0) 64 0x20 then some (s.writeCqCfg (strideIdx off (Off.HIF_CQ_CFG 0) 0x20) v)
  else none

/-- A write of a register whose write has a command of its own does what that command does. -/
def State.writeOwnReg (s : State) (off : Nat) (v : W32) : Option State :=
  if off = Off.KVL_SWAP_SIZE then some (s.writeSwapArea off v)
  else if off = Off.KVL_SEQ_SEL then some (s.writeSeqSel v)
  else if off = Off.FLT_RESET_CTL then some (s.writeResetCtl v)
  else if off = Off.PWR_CAD_CTL ∧ bitsOf v 16 16 = 1 then some ((s.hostWrite off v).clearMin)
  else if off = Off.BLT_RING_CTL ∧ bitsOf v 31 31 = 1 then
    some (((s.hostWrite off v).clearTx.startLeave (bitsOf v 30 30 = 1)).beltDone)
  else if inStride off (Off.RGL_GRT 0 0) 88 4 then
    let i := strideIdx off (Off.RGL_GRT 0 0) 4
    some (s.writeGrt (i / 4) (i % 4) v)
  else if inStride off (Off.RGL_CLASS 0) 16 4 then some (s.writeRglClass (strideIdx off (Off.RGL_CLASS 0) 4) v)
  else s.writeQueueReg off v

/-- A BAR0 write. -/
def State.writeReg (s : State) (off : Nat) (v : W32) : State :=
  if isHeldLow off then
    (if off = Off.KVL_SWAP_BASE_LO then s.writeSwapArea off v else { s with pairLo := tabInsert s.pairLo off v })
  else if 4 ≤ off ∧ isHeldLow (off - 4) then s.writePairHi off v
  else
    match s.writeOwnReg off v with
    | some t => t
    | none => (s.hostWrite off v).afterWrite off

/-- REGISTER_WRITE (R13 to R15). -/
def execRegisterWrite (off : Nat) (v : W32) (s : State) : Host.Outcome State Fault Refusal :=
  .next (if s.linked then s.writeReg off v else s)

end Sys2Proof.Machine
end

