-- ==== Sys2Proof/Machine/Tiles.lean ====
section
/-! DEFINITION. Launches and errors of tiles: admission, the stage watchdog, cache parity, error correction
(04_thread_groups.md R104 to R115, R129 to R133). -/

namespace Sys2Proof.Machine

/-! ## Admission (R107, R108, R111, R113, R115) -/

/-- The first n numbers below a bound that are not taken. -/
def firstFree (n bound : Nat) (taken : List Nat) : Option (List Nat) :=
  let l := ((List.range bound).filter (fun i => !taken.contains i)).take n
  if l.length = n then some l else none

/-- A vector register file has room for a launch beside the groups that a tile holds (R110). -/
def Tile.regsFor (t : Tile) (k : KDesc) : Bool :=
  decide ((t.groups.length + k.groups) * (k.width * k.vregs) ≤ 65536)

/-- PLACE: any tile, the lead tile only, ordinary tiles only. -/
def KDesc.placeOk (k : KDesc) (ltile : Nat) : Bool :=
  k.place = 0 || (k.place = 1 && ltile = 0) || (k.place = 2 && ltile ≠ 0)

/-- The tile is held by a kernel of this KERNEL_ID, L1_SHARE and SHARED4K. -/
def Tile.holds (t : Tile) (k : KDesc) : Bool := t.current = some (k.kernelId, k.l1Share, k.shared4k)

/-- A tile without launches is taken by another kernel: L1 is invalidated, the shared area cleared (R113). -/
def Tile.retake (t : Tile) (k : KDesc) : Tile :=
  ({ t.invalL1 with current := some (k.kernelId, k.l1Share, k.shared4k) }).clearShared

/-- A group as admission makes it (R108, Table 4-2). -/
def admitGroup (k : KDesc) (num seqNo : Nat) (fresh : Bool) (handle : W64) (c ltile i q : Nat) : Group :=
  let s1 := BitVec.ofNat 64 (seqNo % 2 ^ 32 * 2 ^ 32 + k.groups * 2 ^ 8 + b2n fresh)
  let s2 := BitVec.ofNat 64 (c * 2 ^ 16 + ltile * 2 ^ 8 + k.widthCode * 2 ^ 6 + i)
  let s3 := BitVec.ofNat 64 (k.shared + q * k.priv)
  let g : Group := ⟨num, i, k.width, widthMask k.width, widthMask k.width, BitVec.ofNat 24 k.entry, [], [], [], 0#32, [], q,
    none, false, []⟩
  (((g.setS 0 handle).setS 1 s1).setS 2 s2).setS 3 s3

/-- Clear private areas (R108). -/
def clearAreas (k : KDesc) (qs : List Nat) (ls : Tab Byte) : Tab Byte :=
  ls.filter (fun (e : Nat × Byte) => !qs.any (fun q => decide (k.shared + q * k.priv ≤ e.1)
    && decide (e.1 < k.shared + (q + 1) * k.priv)))

/-- The tile with a launch admitted at slots and private areas. -/
def Tile.addLaunch (t : Tile) (k : KDesc) (words : List W64) (gen : Nat) (handle : W64) (c ltile : Nat) (slots qs : List Nat) :
    Tile :=
  let num := t.launchSeq
  let launch : Launch := ⟨num, words, handle, gen, k.groups, t.fresh, false, false⟩
  let gs := (slots.zip qs).zipIdx.foldl (fun (m : Tab Group) (e : (Nat × Nat) × Nat) =>
    tabInsert m e.1.1 (admitGroup k num num t.fresh handle c ltile e.2 e.1.2)) t.groups
  { t with ls := clearAreas k qs t.ls, launches := t.launches ++ [launch], launchSeq := t.launchSeq + 1, groups := gs,
           fresh := false }

/-- Whether the tile may take a launch of a kernel: no launch of another kernel, no fresh launch whose shared area is not
ready, fewer launches than the occupancy holds (R107, R112, R113, R115). -/
def Tile.mayTake (t : Tile) (k : KDesc) (words : List W64) : Bool :=
  if t.holds k then
    t.launches.all (fun l => l.kernel = words && !(l.fresh && !l.shready))
      && decide (t.launches.length < k.occupancy / k.groups)
  else t.launches.isEmpty

/-- The tile after a launch has been admitted; none where it must wait. -/
def Tile.launch (t : Tile) (k : KDesc) (words : List W64) (gen : Nat) (handle : W64) (c ltile : Nat) : Option Tile :=
  if ¬ t.mayTake k words then none
  else
    let t := if t.holds k then t else t.retake k
    let areas := if k.priv = 0 then 32 else (k.ls - k.shared) / k.priv
    let takenQ := t.groups.map (fun (e : Nat × Group) => e.2.priv)
    match firstFree k.groups 32 (t.groups.map (fun (e : Nat × Group) => e.1)), firstFree k.groups areas takenQ with
    | some slots, some qs => if t.regsFor k then some (t.addLaunch k words gen handle c ltile slots qs) else none
    | _, _ => none

/-- The kernel descriptor in a slot of a cluster's program of a generation. -/
def State.kernelSlot (s : State) (c gen desc : Nat) : Option (List W64) :=
  match (s.cluster c).prog? gen with
  | none => none
  | some pr => if pr.kernels.contains desc then progSlot pr desc else none

/-- The generation that a launch on a cluster runs under: that which the block of the running sweep names, and on a stage that
the belt feeds, which holds no blocks, the one in force (R165, R185). -/
def State.launchGen (s : State) (c : Nat) (handle : W64) : Option Nat :=
  if s.beltStage c then
    (if s.clusterUp c && (s.region c = RS.Q1 || s.region c = RS.A) then some (s.partGen (s.partOf c)) else none)
  else ((s.cluster c).queue.find? (fun e => e.block.handle = handle && e.sweep && !e.done)).map
    (fun e => e.block.genOf (s.partOf c))

/-- A launch of a block is tried on a tile; one that is admitted dispatches again a block that had lost its tile (R99). -/
def State.tryLaunch (s : State) (c t p : Nat) (handle : W64) (words : List W64) (gen : Nat) : State :=
  let k := kDesc words
  if ¬ k.placeOk t then s
  else
    match (s.tile c p).launch k words gen handle c t with
    | some x => (s.putTile c p x).modEntry c handle (fun e => { e with again := false })
    | none => s

/-- LAUNCH_ADMIT (R107, R108, R113, R115, R165): for a block of the running sweep, or on a stage that the belt feeds, on the
tile that the dispatcher takes. -/
def execLaunchAdmit (c t : Nat) (handle : W64) (desc : Nat) (s : State) : Host.Outcome State Fault Refusal :=
  .next (match s.phys? c t, s.launchGen c handle with
    | some p, some gen =>
      (match s.kernelSlot c gen desc with
        | some words => s.tryLaunch c t p handle words gen
        | none => s)
    | _, _ => s)

/-! ## The stage watchdog (R131) -/

/-- Every launch of a tile faults with WATCHDOG: reported at the lowest slot's next instruction. -/
def State.watchTile (s : State) (c p : Nat) : State :=
  let t := (s.ltile? c p).getD 0
  ((s.tile c p).launches.filter (fun l => !l.faulted)).foldl (fun (s : State) l =>
    let gs := (s.tile c p).groups.filter (fun (e : Nat × Group) => e.2.launch = l.num && !e.2.ended)
    let (slot, pc) := match gs with
      | (i, gr) :: _ => (i, gr.pc.toNat)
      | [] => (0, 0)
    let s := s.reportFault (kDesc l.kernel).kernelId c p t slot KF.WATCHDOG pc
    s.setTile c p ((s.tile c p).haltLaunch l.num)) s

/-- STAGE_WATCHDOG_EXPIRY (R131, R165): every launch of the stage and every block in flight faults. -/
def execStageWatchdogExpiry (c : Nat) (s : State) : Host.Outcome State Fault Refusal :=
  let hs := ((s.cluster c).queue.filter (fun e => e.sweep)).map (fun e => e.block.handle)
  .next (if hs.isEmpty ∧ ¬ s.beltStage c then s
    else
      let s := ((List.range 16).foldl (fun (s : State) p => s.watchTile c p) s).syncOcc c
      hs.foldl (fun (s : State) h => s.blockFault h) s)

/-! ## Read-only caches (R132) -/

def cacheCode : CacheKind → Nat
  | .const => 0
  | .instr => 1
  | .desc => 2

/-- The defect unit of a cache entry (Table 13-11). -/
def unitCache (c kind set way : Nat) : Nat := c + kind * 16 + set * 2 ^ 16 + way * 2 ^ 32

/-- A second error on an entry within 24 h: it is lasting; its way is disabled, or its slot steered to a spare, without
which the cluster is retired. -/
def State.cacheLasting (s : State) (c kind set way : Nat) : State :=
  let s := (s.eventReg Ev.CACHE_LASTING c (Off.PPL_TSERR c)).addDefect 0x0C (unitCache c kind set way) Ev.CACHE_LASTING
  if kind = 2 ∧ 64 ≤ (s.cluster c).descSpares then s.retireCluster c Ev.CACHE_LASTING
  else s.modCluster c (fun k => { k with cacheOff := k.cacheOff ++ [(kind, set, way)],
                                         descSpares := k.descSpares + b2n (decide (kind = 2)) })

/-- CACHE_PARITY_ERROR (R132): the entry is fetched again. -/
def execCacheParityError (c : Nat) (cache : CacheKind) (set way : Nat) (s : State) : Host.Outcome State Fault Refusal :=
  let kind := cacheCode cache
  let key := (kind, set, way)
  .next (if ¬ s.clusterUp c ∨ (s.cluster c).cacheOff.contains key ∨ 1024 ≤ way ∨ (kind = 2 ∧ set ≠ 0) ∨ 2 ^ 16 ≤ set then s
    else
      let again := (s.cluster c).cacheErr.any (fun (e : (Nat × Nat × Nat) × Nat) => e.1 = key
        && decide (s.now < e.2 + dayTicks))
      let s := s.incFld (Fld.PPL_TSERR_CACHE_PARITY c)
      let s := s.modCluster c (fun k => { k with
        cacheErr := (key, s.now) :: k.cacheErr.filter (fun (e : (Nat × Nat × Nat) × Nat) => e.1 ≠ key) })
      if again then s.cacheLasting c kind set way else s)

/-! ## Registers and tile store (R133) -/

/-- An uncorrectable error of a tile: groups halt, commit entries go, the shared area is cleared; a second one within 24 h
retires the tile. -/
def State.tileUncorrectable (s : State) (c p : Nat) : State :=
  let again := match (s.tile c p).eccAt with
    | some x => decide (s.now < x + dayTicks)
    | none => false
  let s := s.incFld (Fld.PPL_TSERR_UNCORRECTED c)
  let s := s.eventReg Ev.TILE_STORE_UNCORRECTED (unitTile c p) (Off.PPL_TSERR c)
  if again then s.retireTile c p Ev.TILE_STORE_UNCORRECTED
  else
    let s := s.redispatch c p
    s.putTile c p { (s.tile c p).halted.clearShared with eccAt := some s.now }

/-- TILE_STORE_ECC_ERROR (R133). -/
def execTileStoreEccError (c t : Nat) (correctable : Bool) (s : State) : Host.Outcome State Fault Refusal :=
  .next (match s.phys? c t with
    | none => s
    | some p => if correctable then s.incFld (Fld.PPL_TSERR_CORRECTED c) else s.tileUncorrectable c p)

end Sys2Proof.Machine
end

