-- ==== Sys2Proof/Machine/Row.lean ====
section
/-! DEFINITION. Row instructions: statistics, normalisation, soft maximum (05_special_functions.md R147 to R162). -/

namespace Sys2Proof.Machine

/-! ## Row words and checks (R147 to R149) -/

/-- The fields of Sa and Sb (Table 5-6). -/
structure RowDec where
  x : Nat
  y : Nat
  n : Nat
  xFmt : Nat
  g : Nat
  b : Nat
  yFmt : Nat
  sat : Bool
  useG : Bool
  useB : Bool
  unbiased : Bool
  resv : Bool
deriving DecidableEq, Repr

def rowDec (sa sb : W64) : RowDec :=
  ⟨bitsOf sa 63 44, bitsOf sa 43 24, bitsOf sa 23 4 + 1, bitsOf sa 3 2, bitsOf sb 63 44, bitsOf sb 43 24, bitsOf sb 23 21,
    bitOf sb 20, bitOf sb 19, bitOf sb 18, bitOf sb 17, decide (bitsOf sa 1 0 ≠ 0) || decide (bitsOf sb 16 0 ≠ 0)⟩

def rowXFmt (code : Nat) : Option NumFmt :=
  match code with
  | 0 => some .fp32
  | 1 => some .bf16
  | 2 => some .fp16
  | _ => none

def rowYFmt (code : Nat) : Option NumFmt :=
  match code with
  | 0 => some .fp32
  | 1 => some .bf16
  | 2 => some .fp16
  | 4 => some .e4m3
  | _ => none

/-- Bytes of a row element. -/
def rowElemSize : NumFmt → Nat
  | .fp32 => 4
  | .e4m3 => 1
  | _ => 2

/-- The row operations (Table 5-7). -/
inductive RowOp
  | rstat
  | lnorm
  | rmsnorm
  | smax
  | smaxStep
  | smaxFin
deriving DecidableEq, Repr

def RowOp.norm (op : RowOp) : Bool := op = .lnorm || op = .rmsnorm

def RowDec.xRange (r : RowDec) : Range := (r.x, r.n * rowElemSize ((rowXFmt r.xFmt).getD .fp32))
def RowDec.yRange (r : RowDec) : Range := (r.y, r.n * rowElemSize ((rowYFmt r.yFmt).getD .fp32))

/-- The scale and bias ranges that a normalisation uses. -/
def RowDec.gbRanges (r : RowDec) (op : RowOp) : List Range :=
  (if op.norm && r.useG then [(r.g, 4 * r.n)] else []) ++ (if op.norm && r.useB then [(r.b, 4 * r.n)] else [])

/-- Ranges read, and the range written. -/
def RowDec.reads (r : RowDec) (op : RowOp) : List Range := r.xRange :: r.gbRanges op
def RowDec.writes (r : RowDec) (op : RowOp) : List Range := if op = .rstat then [] else [r.yRange]

/-- The address checks of R149. -/
def RowDec.addrsOk (r : RowDec) (op : RowOp) (k : KDesc) (q : Nat) : Bool :=
  (r.reads op ++ r.writes op).all (fun x => x.1 % 32 = 0 && k.inArea q x.1 x.2)
    && (op = .rstat || (!anyOverlap [r.yRange] (r.gbRanges op)
      && (!r.yRange.overlaps r.xRange
        || (r.y = r.x && rowElemSize ((rowYFmt r.yFmt).getD .fp32) = rowElemSize ((rowXFmt r.xFmt).getD .fp32)))))

/-- ε as it is read: −0 is +0. -/
def rowEps (sc : W64) : W32 := let e : W32 := sc.setWidth 32; if e = 0x80000000#32 then 0#32 else e

/-- The first check of R149 that fails; the operation code is one of Table 5-7 (a reserved one stops earlier). -/
def rowFault (op : RowOp) (sd : Nat) (sa sb sc : W64) (k : KDesc) (q : Nat) : Option Nat :=
  let r := rowDec sa sb
  let e := fv32 (rowEps sc)
  if op = .smaxStep ∧ sd % 2 = 1 then some KF.ILLEGAL_INSTRUCTION
  else if (rowXFmt r.xFmt).isNone || (rowYFmt r.yFmt).isNone || r.resv then some KF.BAD_FORMAT
  else if ¬ r.addrsOk op k q then some KF.BAD_ADDRESS
  else if op.norm && (!e.isFin || e.neg?) then some KF.BAD_FORMAT
  else none

/-- The row waits for queued matrix operations (R148). -/
def Tile.rowWaits (t : Tile) (r : RowDec) (op : RowOp) : Bool :=
  t.queue.any (fun m => anyOverlap (r.reads op) m.dRanges || anyOverlap (r.writes op) m.allRanges)

/-! ## Elements -/

/-- The row as FP32: BF16 and FP16 widen exactly (R147). -/
def RowDec.xs (r : RowDec) (ls : Tab Byte) : List W32 :=
  let f := (rowXFmt r.xFmt).getD .fp32
  (List.range r.n).map (fun i =>
    let c := leNat (getBytes ls (r.x + i * rowElemSize f) (rowElemSize f))
    if f = .fp32 then BitVec.ofNat 32 c else w32Of (decodeFmt f c))

/-- Element i of the scale or bias vector. -/
def rowVec (ls : Tab Byte) (use : Bool) (base i : Nat) : Option W32 :=
  if use then some (BitVec.ofNat 32 (leNat (getBytes ls (base + 4 * i) 4))) else none

/-- Outputs converted to Y_FMT and written; their flags (R55, R137). -/
def RowDec.put (r : RowDec) (ls : Tab Byte) (ys : List W32) : Tab Byte × AswBits :=
  let f := (rowYFmt r.yFmt).getD .fp32
  ys.zipIdx.foldl (fun (acc : Tab Byte × AswBits) (e : W32 × Nat) =>
    let c : Nat × AswBits := if f = .fp32 then (e.1.toNat, 0#32) else convertFmt f r.sat true (fv32 e.1)
    (putBytes acc.1 (r.y + e.2 * rowElemSize f) (leBytes (rowElemSize f) c.1), acc.2 ||| c.2)) (ls, 0#32)

/-- The two 32-bit fields of a result register. -/
def pairWord (lo hi : W32) : W64 := hi ++ lo

/-! ## The operations -/

/-- What a row instruction leaves: results for Sd and Sd + 1, outputs, flags. -/
structure RowRes where
  sd : Option W64
  sd1 : Option W64
  ys : List W32
  flags : AswBits
deriving DecidableEq, Repr

/-- RSTAT (R151 to R154). -/
def rowRstat (r : RowDec) (xs : List W32) : RowRes :=
  let t := rowStat xs r.unbiased
  ⟨some (pairWord t.mean t.var), none, [], t.flags⟩

/-- The loop of R155 over deviations d from a variance-like v. -/
def normLoop (r : RowDec) (ls : Tab Byte) (uluver : Bool) (v : W32) (ds : List W32) : List W32 × AswBits :=
  let vz := (fv32 v).isZero
  let (q, f) : F32R := if vz then (0#32, 0#32) else rowRsqrt uluver v
  ds.zipIdx.foldl (fun (acc : List W32 × AswBits) (e : W32 × Nat) =>
    let y := normElem vz q e.1 (rowVec ls r.useG r.g e.2) (rowVec ls r.useB r.b e.2)
    (acc.1 ++ [y.1], acc.2 ||| y.2)) ([], f)

/-- Whether an element is NaN or infinite. -/
def badRow (xs : List W32) : Bool := xs.any (fun x => !(fv32 x).isFin)

/-- LNORM (R155, R157). -/
def rowLnormRes (r : RowDec) (ls : Tab Byte) (uluver : Bool) (eps : W32) (xs : List W32) : RowRes :=
  let t := rowStat xs false
  let sd := some (pairWord t.mean t.var)
  if badRow xs then ⟨sd, none, xs.map (fun _ => nan32), t.flags⟩
  else
    let (v, f) := add32 t.var eps
    let (ds, h) := mapFlags (fun x => sub32 x t.mean) xs
    let (ys, k) := normLoop r ls uluver v ds
    ⟨sd, none, ys, t.flags ||| f ||| h ||| k⟩

/-- RMSNORM (R156, R157). -/
def rowRmsRes (r : RowDec) (ls : Tab Byte) (uluver : Bool) (eps : W32) (xs : List W32) : RowRes :=
  let (ms, f) := rowMeanSquare xs
  let sd := some (pairWord ms 0#32)
  if badRow xs then ⟨sd, none, xs.map (fun _ => nan32), f⟩
  else
    let (v, h) := add32 ms eps
    let (ys, k) := normLoop r ls uluver v xs
    ⟨sd, none, ys, f ||| h ||| k⟩

/-- sum* of exponentials, rounded once (R150). -/
def rowSum (es : List W32) : F32R := if es.length ≤ 65536 then rnd32 (exactSum (es.map fv32)).1 else tree32 es

/-- exp(round32(x − m)) of each element. -/
def rowExps (uluver : Bool) (m : W32) (xs : List W32) : List W32 × AswBits :=
  mapFlags (fun x => let d := sub32 x m; let e := rowExp uluver d.1; (e.1, d.2 ||| e.2)) xs

/-- A NaN, or +∞, of a row of scores (R159): the flag it sets. -/
def scoreFlag (xs : List W32) : Option AswBits :=
  if xs.any (fun x => (fv32 x).isNan) then some asw.NANIN
  else if xs.any (fun x => (fv32 x).isInf && !(fv32 x).neg?) then some asw.NV
  else none

/-- SMAX (R158, R159). -/
def rowSmaxRes (uluver : Bool) (xs : List W32) : RowRes :=
  match scoreFlag xs with
  | some f => ⟨some (pairWord nan32 nan32), none, xs.map (fun _ => nan32), f⟩
  | none =>
    let m := rowMax xs
    if m = inf32 true then ⟨some (pairWord m 0#32), none, xs.map (fun _ => 0#32), 0#32⟩
    else
      let (es, f) := rowExps uluver m xs
      let (t, h) := rowSum es
      let (ys, k) := mapFlags (fun e => rowDiv uluver e t) es
      ⟨some (pairWord m t), none, ys, f ||| h ||| k⟩

/-- SMAX.STEP (R159, R160); with a +∞ among the scores no rule states α: a free value of m, ℓ and the scores. -/
def rowStepRes (uluver : Bool) (sc : W64) (xs : List W32) : RowRes :=
  let m : W32 := sc.setWidth 32
  let l : W32 := (sc >>> 32).setWidth 32
  let nans := xs.map (fun _ => nan32)
  if (fv32 m).isNan ∨ (fv32 l).isNan then ⟨some (pairWord nan32 nan32), some (pairWord nan32 0#32), nans, asw.NANIN⟩
  else
    match scoreFlag xs with
    | some f =>
      ⟨some (pairWord nan32 nan32), some (pairWord (if f = asw.NANIN then nan32 else Config.smaxAlpha m l xs) 0#32), nans, f⟩
    | none =>
      let m1 := rowMax (m :: xs)
      if m1 = inf32 true then ⟨some (pairWord m1 l), some (pairWord one32 0#32), xs.map (fun _ => 0#32), 0#32⟩
      else
        let d := sub32 m m1
        let a := rowExp uluver d.1
        let (ps, f) := rowExps uluver m1 xs
        let (t, h) := rowSum ps
        let (l1, k) := fma32 l a.1 t
        ⟨some (pairWord m1 l1), some (pairWord a.1 0#32), ps, d.2 ||| a.2 ||| f ||| h ||| k⟩

/-- SMAX.FIN (R162). -/
def rowFinRes (uluver : Bool) (sc : W64) (xs : List W32) : RowRes :=
  let l : W32 := (sc >>> 32).setWidth 32
  if l = 0#32 then ⟨none, none, xs.map (fun _ => 0#32), 0#32⟩
  else let (ys, f) := mapFlags (fun x => rowDiv uluver x l) xs; ⟨none, none, ys, f⟩

/-- The result of an operation on its row. -/
def rowRes (op : RowOp) (r : RowDec) (ls : Tab Byte) (uluver : Bool) (sc : W64) : RowRes :=
  let xs := r.xs ls
  match op with
  | .rstat => rowRstat r xs
  | .lnorm => rowLnormRes r ls uluver (rowEps sc) xs
  | .rmsnorm => rowRmsRes r ls uluver (rowEps sc) xs
  | .smax => rowSmaxRes uluver xs
  | .smaxStep => rowStepRes uluver sc xs
  | .smaxFin => rowFinRes uluver sc xs

/-- The group with the result registers and flags of a row instruction. -/
def Group.rowResult (gr : Group) (sd : Nat) (r : RowRes) (f : AswBits) : Group :=
  let gr := match r.sd with | some v => gr.setS sd v | none => gr
  let gr := match r.sd1 with | some v => gr.setS (sd + 1) v | none => gr
  gr.flags (r.flags ||| f)

/-- The instruction past its checks. -/
def State.rowDo (s : State) (g : GroupRef) (p : Nat) (gr : Group) (op : RowOp) (sd : Nat) (r : RowDec) (sc : W64) : State :=
  let t := s.tile g.cluster p
  let res := rowRes op r t.ls (s.uluver g.cluster p gr) sc
  let (ls, f) := if op = .rstat then (t.ls, 0#32) else r.put t.ls res.ys
  s.stepLs g p (gr.rowResult sd res f) ls

/-- A row instruction (R147 to R150): checks in order, then waits, then the operation; accumulators that disagree are an
uncorrectable error of the tile. -/
def State.row (s : State) (g : GroupRef) (op : RowOp) (sd sa sb sc : Nat) (accDisagree : Bool) : State :=
  s.issue g (fun p gr =>
    if 64 ≤ sd ∨ 64 ≤ sa ∨ 64 ≤ sb ∨ 64 ≤ sc ∨ (op = .smaxStep ∧ 64 ≤ sd + 1 ∧ sd % 2 = 0) then s
    else
      match rowFault op sd (gr.sreg sa) (gr.sreg sb) (gr.sreg sc) (s.kernelOf g.cluster p gr) gr.priv with
      | some f => s.groupFault g p gr f
      | none =>
        let r := rowDec (gr.sreg sa) (gr.sreg sb)
        if (s.tile g.cluster p).rowWaits r op then s
        else if accDisagree && decide (r.n ≤ 65536) then s.tileUncorrectable g.cluster p
        else s.rowDo g p gr op sd r (gr.sreg sc))

/-- ROW_RSTAT (R151). -/
def execRowRstat (g : GroupRef) (sd sa sb sc : Nat) (accDisagree : Bool) (s : State) : Host.Outcome State Fault Refusal :=
  .next (s.row g .rstat sd sa sb sc accDisagree)

/-- ROW_LNORM (R155). -/
def execRowLnorm (g : GroupRef) (sd sa sb sc : Nat) (accDisagree : Bool) (s : State) : Host.Outcome State Fault Refusal :=
  .next (s.row g .lnorm sd sa sb sc accDisagree)

/-- ROW_RMSNORM (R156). -/
def execRowRmsnorm (g : GroupRef) (sd sa sb sc : Nat) (accDisagree : Bool) (s : State) : Host.Outcome State Fault Refusal :=
  .next (s.row g .rmsnorm sd sa sb sc accDisagree)

/-- ROW_SMAX (R158). -/
def execRowSmax (g : GroupRef) (sd sa sb sc : Nat) (accDisagree : Bool) (s : State) : Host.Outcome State Fault Refusal :=
  .next (s.row g .smax sd sa sb sc accDisagree)

/-- ROW_SMAX_STEP (R160). -/
def execRowSmaxStep (g : GroupRef) (sd sa sb sc : Nat) (accDisagree : Bool) (s : State) :
    Host.Outcome State Fault Refusal :=
  .next (s.row g .smaxStep sd sa sb sc accDisagree)

/-- A row instruction with a reserved operation code (Table 5-7, R149). -/
def State.rowReserved (s : State) (g : GroupRef) : State := s.issue g (fun p gr => s.groupFault g p gr KF.ILLEGAL_INSTRUCTION)

/-- ROW_SMAX_FIN (R162). The row's format has the operation code as a field: the command also stands for a word whose code
is reserved. -/
def execRowSmaxFin (g : GroupRef) (sd sa sb : Nat) (w : FinWord) (s : State) : Host.Outcome State Fault Refusal :=
  .next (match w with
    | .fin sc => s.row g .smaxFin sd sa sb sc false
    | .reserved => s.rowReserved g)

end Sys2Proof.Machine
end

