-- ==== Sys2Proof/Machine/Sfu.lean ====
section
/-! DEFINITION. Special-function instructions and activations (05_special_functions.md R136 to R146). -/

namespace Sys2Proof.Machine

/-- The suffixes of a special function: none, .BF16 and .F16; SFG has .E4M3 as well (R137, R142). -/
def suffixOk (o : SfuOpt) (sfg : Bool) : Bool :=
  o.narrow = none || o.narrow = some .bf16 || o.narrow = some .fp16 || (sfg && o.narrow = some .e4m3)

/-- A special function of one operand on every active thread. -/
def State.sfu (s : State) (g : GroupRef) (o : SfuOpt) (d a : Nat) (f : Bool → W32 → W32 × AswBits) : State :=
  s.issue g (fun p gr =>
    let k := s.kernelOf g.cluster p gr
    if k.vOk d && k.vOk a && suffixOk o false then
      s.stepOn g p (gr.mapThreads (fun x t => let r := f k.uluver (gr.vreg t a); (x.setV t d r.1).flags r.2))
    else s)

/-- A base function in the kernel's mode (R141, R144). -/
def sfuOf (f : SfuFn) (o : SfuOpt) (uluver : Bool) (x : W32) : W32 × AswBits :=
  if uluver then sfuUluver f o x else sfuNative f o x

/-- RCP (R137). -/
def execRcp (g : GroupRef) (o : SfuOpt) (d a : Nat) (s : State) : Host.Outcome State Fault Refusal :=
  .next (s.sfu g o d a (sfuOf .rcp o))

/-- RSQRT (R137). -/
def execRsqrt (g : GroupRef) (o : SfuOpt) (d a : Nat) (s : State) : Host.Outcome State Fault Refusal :=
  .next (s.sfu g o d a (sfuOf .rsqrt o))

/-- SQRT (R137): correctly rounded in native mode. -/
def execSqrt (g : GroupRef) (o : SfuOpt) (d a : Nat) (s : State) : Host.Outcome State Fault Refusal :=
  .next (s.sfu g o d a (fun u x => if u then sqrtUluver o x else sqrtNative o x))

/-- A function of two operands on every active thread. -/
def State.sfu2 (s : State) (g : GroupRef) (o : SfuOpt) (d a b : Nat) (sfg : Bool) (f : Bool → W32 → W32 → W32 × AswBits) :
    State :=
  s.issue g (fun p gr =>
    let k := s.kernelOf g.cluster p gr
    if k.vOk d && k.vOk a && k.vOk b && suffixOk o sfg then
      s.stepOn g p (gr.mapThreads (fun x t =>
        let r := f k.uluver (gr.vreg t a) (gr.vreg t b)
        (x.setV t d r.1).flags r.2))
    else s)

/-- DIV (R137): correctly rounded in native mode. -/
def execDiv (g : GroupRef) (o : SfuOpt) (d a b : Nat) (s : State) : Host.Outcome State Fault Refusal :=
  .next (s.sfu2 g o d a b false (fun u x y => if u then divUluver o x y else divNative o x y))

/-- EXP2 (R141). -/
def execExp2 (g : GroupRef) (o : SfuOpt) (d a : Nat) (s : State) : Host.Outcome State Fault Refusal :=
  .next (s.sfu g o d a (sfuOf .exp2 o))

/-- EXP (R141). -/
def execExp (g : GroupRef) (o : SfuOpt) (d a : Nat) (s : State) : Host.Outcome State Fault Refusal :=
  .next (s.sfu g o d a (sfuOf .exp o))

/-- LOG2 (R137). -/
def execLog2 (g : GroupRef) (o : SfuOpt) (d a : Nat) (s : State) : Host.Outcome State Fault Refusal :=
  .next (s.sfu g o d a (sfuOf .log2 o))

/-- LN (R137). -/
def execLn (g : GroupRef) (o : SfuOpt) (d a : Nat) (s : State) : Host.Outcome State Fault Refusal :=
  .next (s.sfu g o d a (sfuOf .ln o))

/-- SINPI (R137). -/
def execSinpi (g : GroupRef) (o : SfuOpt) (d a : Nat) (s : State) : Host.Outcome State Fault Refusal :=
  .next (s.sfu g o d a (sfuOf .sinpi o))

/-- COSPI (R137). -/
def execCospi (g : GroupRef) (o : SfuOpt) (d a : Nat) (s : State) : Host.Outcome State Fault Refusal :=
  .next (s.sfu g o d a (sfuOf .cospi o))

/-- TANH (R141). -/
def execTanh (g : GroupRef) (o : SfuOpt) (d a : Nat) (s : State) : Host.Outcome State Fault Refusal :=
  .next (s.sfu g o d a (sfuOf .tanh o))

/-- SIGMOID (R141). -/
def execSigmoid (g : GroupRef) (o : SfuOpt) (d a : Nat) (s : State) : Host.Outcome State Fault Refusal :=
  .next (s.sfu g o d a (sfuOf .sigmoid o))

/-- SFG (R142 to R144). -/
def execSfg (g : GroupRef) (act : SfgAct) (o : SfuOpt) (d gate up : Nat) (s : State) : Host.Outcome State Fault Refusal :=
  .next (s.sfu2 g o d gate up true (fun u x y => if u then sfgUluver act o x y else sfgNative act o x y))

end Sys2Proof.Machine
end

