-- ==== Sys2Proof/Machine/Dispatch.lean ====
section
/-! DEFINITION. The effect of each command on everything but the queue: one arm per row of opcode_table.json. -/

namespace Sys2Proof.Machine

def exec (i : Instr) (s : State) : Host.Outcome State Fault Refusal :=
  match i with
  | .vauxRise => Sys2Proof.Machine.execVauxRise s
  | .vauxFall => Sys2Proof.Machine.execVauxFall s
  | .vinIbInRange => Sys2Proof.Machine.execVinIbInRange s
  | .vinIbLow => Sys2Proof.Machine.execVinIbLow s
  | .deviceResetAssert => Sys2Proof.Machine.execDeviceResetAssert s
  | .deviceResetRelease => Sys2Proof.Machine.execDeviceResetRelease s
  | .refclkLost => Sys2Proof.Machine.execRefclkLost s
  | .refclkReturn => Sys2Proof.Machine.execRefclkReturn s
  | .coldStart env => Sys2Proof.Machine.execColdStart env s
  | .startStepTimeout step => Sys2Proof.Machine.execStartStepTimeout step s
  | .warmDeviceReset env => Sys2Proof.Machine.execWarmDeviceReset env s
  | .clusterReset c => Sys2Proof.Machine.execClusterReset c s
  | .tbValueCheck die valA valB => Sys2Proof.Machine.execTbValueCheck die valA valB s
  | .tbPathLost onCd pathB => Sys2Proof.Machine.execTbPathLost onCd pathB s
  | .sidebandCopyLost copyB => Sys2Proof.Machine.execSidebandCopyLost copyB s
  | .vifParityMismatch iface group repeatFails => Sys2Proof.Machine.execVifParityMismatch iface group repeatFails s
  | .vifWireTestComplete iface group located thirdOk => Sys2Proof.Machine.execVifWireTestComplete iface group located thirdOk s
  | .tsvSenseRead weak => Sys2Proof.Machine.execTsvSenseRead weak s
  | .bridgeFlitReceive pair rx => Sys2Proof.Machine.execBridgeFlitReceive pair rx s
  | .hbmTransferError ch repeatFails lost => Sys2Proof.Machine.execHbmTransferError ch repeatFails lost s
  | .cadenceWindowEnd counts => Sys2Proof.Machine.execCadenceWindowEnd counts s
  | .minClear => Sys2Proof.Machine.execMinClear s
  | .pairLoRead off => Sys2Proof.Machine.execPairLoRead off s
  | .pairHiWrite off v => Sys2Proof.Machine.execPairHiWrite off v s
  | .registerWrite off v => Sys2Proof.Machine.execRegisterWrite off v s
  | .mma g desc sOff sScale => Sys2Proof.Machine.execMma g desc sOff sScale s
  | .mmap g desc count sOff sScale => Sys2Proof.Machine.execMmap g desc count sOff sScale s
  | .mwait g n => Sys2Proof.Machine.execMwait g n s
  | .matrixPassEnd c t sub e => Sys2Proof.Machine.execMatrixPassEnd c t sub e s
  | .spareAttachComplete c t => Sys2Proof.Machine.execSpareAttachComplete c t s
  | .matrixInstructionComplete c t => Sys2Proof.Machine.execMatrixInstructionComplete c t s
  | .launchAdmit c t handle desc => Sys2Proof.Machine.execLaunchAdmit c t handle desc s
  | .vectorArith g op d a b c => Sys2Proof.Machine.execVectorArith g op d a b c s
  | .scalarArith g op d a b => Sys2Proof.Machine.execScalarArith g op d a b s
  | .lsLoad g log2Size d a => Sys2Proof.Machine.execLsLoad g log2Size d a s
  | .lsStore g log2Size a src => Sys2Proof.Machine.execLsStore g log2Size a src s
  | .lsAtomic g op wide d a src cmp => Sys2Proof.Machine.execLsAtomic g op wide d a src cmp s
  | .globalLoad g log2Size d a evict => Sys2Proof.Machine.execGlobalLoad g log2Size d a evict s
  | .ldNc g log2Size d a => Sys2Proof.Machine.execLdNc g log2Size d a s
  | .globalStore g log2Size a src => Sys2Proof.Machine.execGlobalStore g log2Size a src s
  | .globalReduction g op a src => Sys2Proof.Machine.execGlobalReduction g op a src s
  | .constantLoad g log2Size d a => Sys2Proof.Machine.execConstantLoad g log2Size d a s
  | .invalL1 g => Sys2Proof.Machine.execInvalL1 g s
  | .fenceGl g => Sys2Proof.Machine.execFenceGl g s
  | .fenceLs g => Sys2Proof.Machine.execFenceLs g s
  | .brc g p target reconv => Sys2Proof.Machine.execBrc g p target reconv s
  | .backwardBranch g target => Sys2Proof.Machine.execBackwardBranch g target s
  | .exit g => Sys2Proof.Machine.execExit g s
  | .bar g n => Sys2Proof.Machine.execBar g n s
  | .lockAcq g a p => Sys2Proof.Machine.execLockAcq g a p s
  | .lockRel g a => Sys2Proof.Machine.execLockRel g a s
  | .shready g => Sys2Proof.Machine.execShready g s
  | .stageWatchdogExpiry c => Sys2Proof.Machine.execStageWatchdogExpiry c s
  | .cacheParityError c cache set way => Sys2Proof.Machine.execCacheParityError c cache set way s
  | .tileStoreEccError c t correctable => Sys2Proof.Machine.execTileStoreEccError c t correctable s
  | .rcp g o d a => Sys2Proof.Machine.execRcp g o d a s
  | .rsqrt g o d a => Sys2Proof.Machine.execRsqrt g o d a s
  | .sqrt g o d a => Sys2Proof.Machine.execSqrt g o d a s
  | .div g o d a b => Sys2Proof.Machine.execDiv g o d a b s
  | .exp2 g o d a => Sys2Proof.Machine.execExp2 g o d a s
  | .exp g o d a => Sys2Proof.Machine.execExp g o d a s
  | .log2 g o d a => Sys2Proof.Machine.execLog2 g o d a s
  | .ln g o d a => Sys2Proof.Machine.execLn g o d a s
  | .sinpi g o d a => Sys2Proof.Machine.execSinpi g o d a s
  | .cospi g o d a => Sys2Proof.Machine.execCospi g o d a s
  | .tanh g o d a => Sys2Proof.Machine.execTanh g o d a s
  | .sigmoid g o d a => Sys2Proof.Machine.execSigmoid g o d a s
  | .sfg g act o d gate up => Sys2Proof.Machine.execSfg g act o d gate up s
  | .rowRstat g sd sa sb sc accDisagree => Sys2Proof.Machine.execRowRstat g sd sa sb sc accDisagree s
  | .rowLnorm g sd sa sb sc accDisagree => Sys2Proof.Machine.execRowLnorm g sd sa sb sc accDisagree s
  | .rowRmsnorm g sd sa sb sc accDisagree => Sys2Proof.Machine.execRowRmsnorm g sd sa sb sc accDisagree s
  | .rowSmax g sd sa sb sc accDisagree => Sys2Proof.Machine.execRowSmax g sd sa sb sc accDisagree s
  | .rowSmaxStep g sd sa sb sc accDisagree => Sys2Proof.Machine.execRowSmaxStep g sd sa sb sc accDisagree s
  | .rowSmaxFin g sd sa sb w => Sys2Proof.Machine.execRowSmaxFin g sd sa sb w s
  | .kvaddr g sd ss => Sys2Proof.Machine.execKvaddr g sd ss s
  | .kvput g ss sa => Sys2Proof.Machine.execKvput g ss sa s
  | .rngInstruction g op sa sb => Sys2Proof.Machine.execRngInstruction g op sa sb s
  | .rowPlace src => Sys2Proof.Machine.execRowPlace src s
  | .reservationRetry => Sys2Proof.Machine.execReservationRetry s
  | .reservationStallTimeout w => Sys2Proof.Machine.execReservationStallTimeout w s
  | .fillTimeoutExpiry pipe cls => Sys2Proof.Machine.execFillTimeoutExpiry pipe cls s
  | .blockClose pipe cls => Sys2Proof.Machine.execBlockClose pipe cls s
  | .blockLeaveEntry pipe => Sys2Proof.Machine.execBlockLeaveEntry pipe s
  | .blockTransfer handle => Sys2Proof.Machine.execBlockTransfer handle s
  | .meshHandshakeParityError link repeatFails => Sys2Proof.Machine.execMeshHandshakeParityError link repeatFails s
  | .sweepStart c => Sys2Proof.Machine.execSweepStart c s
  | .loadNoticeElapsed c => Sys2Proof.Machine.execLoadNoticeElapsed c s
  | .stageOperationComplete c outs => Sys2Proof.Machine.execStageOperationComplete c outs s
  | .rowExit handle row rec => Sys2Proof.Machine.execRowExit handle row rec s
  | .roleMoveLoaded c => Sys2Proof.Machine.execRoleMoveLoaded c s
  | .reloadPartition sq cid => Sys2Proof.Machine.execReloadPartition sq cid s
  | .changeSectionsStaged => Sys2Proof.Machine.execChangeSectionsStaged s
  | .clusterOldGenDrained c => Sys2Proof.Machine.execClusterOldGenDrained c s
  | .partitionSwitched p => Sys2Proof.Machine.execPartitionSwitched p s
  | .oldGenerationRelease c => Sys2Proof.Machine.execOldGenerationRelease c s
  | .entryHoldTimeout => Sys2Proof.Machine.execEntryHoldTimeout s
  | .trainStep sq cid => Sys2Proof.Machine.execTrainStep sq cid s
  | .trainReadersDrained pipe => Sys2Proof.Machine.execTrainReadersDrained pipe s
  | .trainUpdate pipe => Sys2Proof.Machine.execTrainUpdate pipe s
  | .nop sq cid => Sys2Proof.Machine.execNop sq cid s
  | .identify sq cid => Sys2Proof.Machine.execIdentify sq cid s
  | .loadObject sq cid obj => Sys2Proof.Machine.execLoadObject sq cid obj s
  | .readObject sq cid => Sys2Proof.Machine.execReadObject sq cid s
  | .rangeOp sq cid => Sys2Proof.Machine.execRangeOp sq cid s
  | .prefetch id => Sys2Proof.Machine.execPrefetch id s
  | .flush id => Sys2Proof.Machine.execFlush id s
  | .invalidate id => Sys2Proof.Machine.execInvalidate id s
  | .dead id => Sys2Proof.Machine.execDead id s
  | .live id => Sys2Proof.Machine.execLive id s
  | .rangeOpComplete id => Sys2Proof.Machine.execRangeOpComplete id s
  | .runPipeline sq cid => Sys2Proof.Machine.execRunPipeline sq cid s
  | .seqOpen sq cid => Sys2Proof.Machine.execSeqOpen sq cid s
  | .seqAppend sq cid => Sys2Proof.Machine.execSeqAppend sq cid s
  | .seqFork sq cid => Sys2Proof.Machine.execSeqFork sq cid s
  | .kvCopyComplete id => Sys2Proof.Machine.execKvCopyComplete id s
  | .seqClose sq cid => Sys2Proof.Machine.execSeqClose sq cid s
  | .seqPreempt sq cid => Sys2Proof.Machine.execSeqPreempt sq cid s
  | .swapOutComplete seq => Sys2Proof.Machine.execSwapOutComplete seq s
  | .seqResume sq cid => Sys2Proof.Machine.execSeqResume sq cid s
  | .swapInComplete seq readError => Sys2Proof.Machine.execSwapInComplete seq readError s
  | .swapAreaWrite off v => Sys2Proof.Machine.execSwapAreaWrite off v s
  | .seqSelWrite v => Sys2Proof.Machine.execSeqSelWrite v s
  | .querySubmit sq cid => Sys2Proof.Machine.execQuerySubmit sq cid s
  | .queryCancel sq cid => Sys2Proof.Machine.execQueryCancel sq cid s
  | .shardLoad sq cid => Sys2Proof.Machine.execShardLoad sq cid s
  | .ringBrake sq cid => Sys2Proof.Machine.execRingBrake sq cid s
  | .ringRelease sq cid => Sys2Proof.Machine.execRingRelease sq cid s
  | .nvmWrite sq cid content => Sys2Proof.Machine.execNvmWrite sq cid content s
  | .journalRead sq cid => Sys2Proof.Machine.execJournalRead sq cid s
  | .sliceRead r what => Sys2Proof.Machine.execSliceRead r what s
  | .sliceStore r => Sys2Proof.Machine.execSliceStore r s
  | .sliceFillComplete line => Sys2Proof.Machine.execSliceFillComplete line s
  | .reductionRequest r => Sys2Proof.Machine.execReductionRequest r s
  | .ulCorrectableError slice die row w => Sys2Proof.Machine.execUlCorrectableError slice die row w s
  | .correctionLogExpiry slice => Sys2Proof.Machine.execCorrectionLogExpiry slice s
  | .ulUncorrectableClean line sector => Sys2Proof.Machine.execUlUncorrectableClean line sector s
  | .ulUncorrectableDirty line sector inHbm what => Sys2Proof.Machine.execUlUncorrectableDirty line sector inHbm what s
  | .tagError line bothFail => Sys2Proof.Machine.execTagError line bothFail s
  | .scrubUlVisit found what => Sys2Proof.Machine.execScrubUlVisit found what s
  | .scrubHbmVisit found what => Sys2Proof.Machine.execScrubHbmVisit found what s
  | .hbmCorrectableError ch row word repairLeft => Sys2Proof.Machine.execHbmCorrectableError ch row word repairLeft s
  | .sliceDrainComplete slice lost => Sys2Proof.Machine.execSliceDrainComplete slice lost s
  | .pinRecomputeComplete => Sys2Proof.Machine.execPinRecomputeComplete s
  | .emptyFrame rx f => Sys2Proof.Machine.execEmptyFrame rx f s
  | .corpusFrame rx f => Sys2Proof.Machine.execCorpusFrame rx f s
  | .topNote rx f => Sys2Proof.Machine.execTopNote rx f s
  | .segment rx f => Sys2Proof.Machine.execSegment rx f s
  | .markerIntervalExpiry => Sys2Proof.Machine.execMarkerIntervalExpiry s
  | .queryFrame rx f => Sys2Proof.Machine.execQueryFrame rx f s
  | .shardFrame rx f => Sys2Proof.Machine.execShardFrame rx f s
  | .scoreRoundEnd c fault => Sys2Proof.Machine.execScoreRoundEnd c fault s
  | .shedCheck c => Sys2Proof.Machine.execShedCheck c s
  | .fillInTimeout home rev seg seq => Sys2Proof.Machine.execFillInTimeout home rev seg seq s
  | .discover rx f => Sys2Proof.Machine.execDiscover rx f s
  | .confirm rx f => Sys2Proof.Machine.execConfirm rx f s
  | .join rx f => Sys2Proof.Machine.execJoin rx f s
  | .directory rx f => Sys2Proof.Machine.execDirectory rx f s
  | .takeover rx f => Sys2Proof.Machine.execTakeover rx f s
  | .abandon rx f => Sys2Proof.Machine.execAbandon rx f s
  | .bypassed rx f => Sys2Proof.Machine.execBypassed rx f s
  | .leave src => Sys2Proof.Machine.execLeave src s
  | .demote rx f => Sys2Proof.Machine.execDemote rx f s
  | .tol rx f => Sys2Proof.Machine.execTol rx f s
  | .resume rx f => Sys2Proof.Machine.execResume rx f s
  | .qcancel rx f => Sys2Proof.Machine.execQcancel rx f s
  | .fedgen rx f => Sys2Proof.Machine.execFedgen rx f s
  | .result rx f => Sys2Proof.Machine.execResult rx f s
  | .refuse rx f => Sys2Proof.Machine.execRefuse rx f s
  | .homeBehind rx f => Sys2Proof.Machine.execHomeBehind rx f s
  | .fillIn rx f => Sys2Proof.Machine.execFillIn rx f s
  | .report rx f => Sys2Proof.Machine.execReport rx f s
  | .gap rx f => Sys2Proof.Machine.execGap rx f s
  | .staged rx f => Sys2Proof.Machine.execStaged rx f s
  | .quiet rx f => Sys2Proof.Machine.execQuiet rx f s
  | .linkReady rx f => Sys2Proof.Machine.execLinkReady rx f s
  | .returnResendTimeout id => Sys2Proof.Machine.execReturnResendTimeout id s
  | .controlPieceTimeout sender sub seq => Sys2Proof.Machine.execControlPieceTimeout sender sub seq s
  | .lopRetry port hseq => Sys2Proof.Machine.execLopRetry port hseq s
  | .retryTimeout port hseq => Sys2Proof.Machine.execRetryTimeout port hseq s
  | .replaySlot rx f => Sys2Proof.Machine.execReplaySlot rx f s
  | .lopBrake origin => Sys2Proof.Machine.execLopBrake origin s
  | .lopRelease origin => Sys2Proof.Machine.execLopRelease origin s
  | .brakeResendTimeout => Sys2Proof.Machine.execBrakeResendTimeout s
  | .lopBypass port pos => Sys2Proof.Machine.execLopBypass port pos s
  | .heartbeat port pos => Sys2Proof.Machine.execHeartbeat port pos s
  | .lastSlot rx f => Sys2Proof.Machine.execLastSlot rx f s
  | .sdLossTimeout port => Sys2Proof.Machine.execSdLossTimeout port s
  | .laneBerWindow port berExp corrected uncorr aboveLimit => Sys2Proof.Machine.execLaneBerWindow port berExp corrected uncorr aboveLimit s
  | .portQualified port partner => Sys2Proof.Machine.execPortQualified port partner s
  | .formationStart => Sys2Proof.Machine.execFormationStart s
  | .discoverRetry => Sys2Proof.Machine.execDiscoverRetry s
  | .formationTimeout => Sys2Proof.Machine.execFormationTimeout s
  | .reportCollectionComplete => Sys2Proof.Machine.execReportCollectionComplete s
  | .slotAudit nothing => Sys2Proof.Machine.execSlotAudit nothing s
  | .standbyTakeoverTimeout => Sys2Proof.Machine.execStandbyTakeoverTimeout s
  | .fedTimeout qnum => Sys2Proof.Machine.execFedTimeout qnum s
  | .regulationWindowEnd steps pcie => Sys2Proof.Machine.execRegulationWindowEnd steps pcie s
  | .guaranteeWrite m r v => Sys2Proof.Machine.execGuaranteeWrite m r v s
  | .classReservationWrite k v => Sys2Proof.Machine.execClassReservationWrite k v s
  | .sqTailDoorbell q v => Sys2Proof.Machine.execSqTailDoorbell q v s
  | .cqHeadDoorbell q v => Sys2Proof.Machine.execCqHeadDoorbell q v s
  | .sqEnable q v => Sys2Proof.Machine.execSqEnable q v s
  | .sqDisable q v => Sys2Proof.Machine.execSqDisable q v s
  | .cqEnable q v => Sys2Proof.Machine.execCqEnable q v s
  | .cqDisable q v => Sys2Proof.Machine.execCqDisable q v s
  | .commandFetch fetchError => Sys2Proof.Machine.execCommandFetch fetchError s
  | .deferTimeout sq cid => Sys2Proof.Machine.execDeferTimeout sq cid s
  | .interruptCoalesceTimeout cq => Sys2Proof.Machine.execInterruptCoalesceTimeout cq s
  | .slotRelease n => Sys2Proof.Machine.execSlotRelease n s
  | .pcieHotReset => Sys2Proof.Machine.execPcieHotReset s
  | .pcieLinkFailure => Sys2Proof.Machine.execPcieLinkFailure s
  | .flashOperationComplete ok => Sys2Proof.Machine.execFlashOperationComplete ok s
  | .journalPageProgram ok => Sys2Proof.Machine.execJournalPageProgram ok s
  | .journalCompaction => Sys2Proof.Machine.execJournalCompaction s
  | .warmResetRequest v => Sys2Proof.Machine.execWarmResetRequest v s
  | .clusterResetRequest v => Sys2Proof.Machine.execClusterResetRequest v s
  | .boardNoticeRaise demand => Sys2Proof.Machine.execBoardNoticeRaise demand s
  | .boardHoldExpiry demand => Sys2Proof.Machine.execBoardHoldExpiry demand s
  | .phaseShed r => Sys2Proof.Machine.execPhaseShed r s
  | .phaseMismatch r ph => Sys2Proof.Machine.execPhaseMismatch r ph s
  | .phaseRetry r ph => Sys2Proof.Machine.execPhaseRetry r ph s
  | .phaseTrackWindowEnd r ph => Sys2Proof.Machine.execPhaseTrackWindowEnd r ph s
  | .regionWakeRequest r => Sys2Proof.Machine.execRegionWakeRequest r s
  | .wakeSlotWaitTimeout r => Sys2Proof.Machine.execWakeSlotWaitTimeout r s
  | .regionWakeComplete r => Sys2Proof.Machine.execRegionWakeComplete r s
  | .regionVsetWrite r v => Sys2Proof.Machine.execRegionVsetWrite r v s
  | .q2DwellExpiry r => Sys2Proof.Machine.execQ2DwellExpiry r s
  | .idleDwellExpiry state => Sys2Proof.Machine.execIdleDwellExpiry state s
  | .deviceWake cause => Sys2Proof.Machine.execDeviceWake cause s
  | .deviceWakeComplete => Sys2Proof.Machine.execDeviceWakeComplete s
  | .hkChannelRead n v => Sys2Proof.Machine.execHkChannelRead n v s
  | .housekeepingRound => Sys2Proof.Machine.execHousekeepingRound s
  | .guardSecond => Sys2Proof.Machine.execGuardSecond s
  | .i3cEntdaa addr => Sys2Proof.Machine.execI3cEntdaa addr s
  | .i3cCommonCommand code direct data => Sys2Proof.Machine.execI3cCommonCommand code direct data s
  | .i3cPrivateWrite hi lo => Sys2Proof.Machine.execI3cPrivateWrite hi lo s
  | .i3cPrivateRead n => Sys2Proof.Machine.execI3cPrivateRead n s
  | .tapReset => Sys2Proof.Machine.execTapReset s
  | .idcode => Sys2Proof.Machine.execIdcode s
  | .samplePreload cells => Sys2Proof.Machine.execSamplePreload cells s
  | .extest => Sys2Proof.Machine.execExtest s
  | .extestPulse => Sys2Proof.Machine.execExtestPulse s
  | .extestTrain => Sys2Proof.Machine.execExtestTrain s
  | .clamp => Sys2Proof.Machine.execClamp s
  | .highz => Sys2Proof.Machine.execHighz s
  | .bypass => Sys2Proof.Machine.execBypass s
  | .roleStrapChange v => Sys2Proof.Machine.execRoleStrapChange v s
  | .refclkPresent => Sys2Proof.Machine.execRefclkPresent s
  | .pcieLinkDown => Sys2Proof.Machine.execPcieLinkDown s
  | .queryPlacementTimeout sq cid => Sys2Proof.Machine.execQueryPlacementTimeout sq cid s
  | .brakeStoppingDistanceElapsed => Sys2Proof.Machine.execBrakeStoppingDistanceElapsed s
  | .boardNoticeElapsed => Sys2Proof.Machine.execBoardNoticeElapsed s
  | .changeRestoreComplete => Sys2Proof.Machine.execChangeRestoreComplete s
  | .rowReplacementComplete slice die row => Sys2Proof.Machine.execRowReplacementComplete slice die row s
  | .fallThroughComplete line => Sys2Proof.Machine.execFallThroughComplete line s
  | .alignSlot port => Sys2Proof.Machine.execAlignSlot port s
  | .alignmentLockLost port => Sys2Proof.Machine.execAlignmentLockLost port s

end Sys2Proof.Machine
end

