-- ==== Sys2Proof/Safety.lean ====
section
/-! DEFINITION. What counts as a safe run: every step answers a next state; the forms that the block's memories and
registers keep; and what the flash's content is, in the terms statements use. -/

namespace Sys2Proof.Machine

/-- The step of a state answers a next state: neither a fault nor a refusal. -/
def Runs (s : State) : Prop := ∃ t, step s = .next t

/-- The one form of a memory: addresses strictly rising, no byte listed that an unlisted address reads as (zero). -/
abbrev Memory.wf (m : Tab Byte) : Bool := tabWf 0#8 m

/-- A thread group's registers in canonical form. -/
def Group.wf (g : Group) : Bool := tabWf 0#32 g.vregs && tabWf 0#64 g.sregs && tabWf 0#64 g.preds

/-- A tile's local store and its groups' registers in canonical form, the groups listed by slot. -/
def Tile.wf (t : Tile) : Bool := tabWf 0#8 t.ls && tabRisingFrom 0 t.groups && t.groups.all (fun e => e.2.wf)

/-- Every tile in canonical form; a tile that holds nothing is not listed. -/
def State.tilesWf (s : State) : Bool := tabWf emptyTile s.tiles && s.tiles.all (fun e => e.2.wf)

/-- The memories that hold bytes (HBM, the host's, the local stores), the poison marks of HBM and the groups' registers in
canonical form: equal contents are equal data. -/
def State.memWf (s : State) : Bool :=
  tabWf 0#8 s.ul.hbm && tabWf false s.ul.hbmPoison && tabWf 0#8 s.host.mem && s.tilesWf

/-- The register file in canonical form: offsets strictly rising, none listed at its reset value. -/
def State.regsWf (s : State) : Bool :=
  tabRisingFrom 0 s.regs && s.regs.all (fun e => decide (e.2 ≠ regReset e.1))

/-- Memories and register file in canonical form. -/
def State.canon (s : State) : Bool := s.memWf && s.regsWf

/-! ## The flash's content (13_configuration.md R394, R395) -/

/-- An image that passed every check made before a bank is written, on some device with some licence. -/
def Verified (i : Image) : Prop := ∃ uid owners tier hbm, verifyBank (some i) uid owners tier hbm = BR.VERIFIED

/-- A bank holds nothing, what an erase has left, or an image that was verified. -/
def bankGood (b : Option Image) : Prop := ∀ i, b = some i → i = tornBank ∨ Verified i

/-- A licence area of at most 2,048 slots, each of them a licence that verifies. -/
def licencesGood (l : List LicenceRec) : Prop := l.length ≤ 2048 ∧ ∀ x ∈ l, licenceOk x = true

/-- What an accepted NVM_WRITE will write was verified. -/
def NvmRun.good (r : NvmRun) : Prop :=
  match r.content with
  | .image i => Verified i
  | .licences l => licencesGood l

/-- The flash holds verified content only, and so do the writes to it. -/
def State.flashGood (s : State) : Prop :=
  bankGood s.flash.bankA ∧ bankGood s.flash.bankB ∧ licencesGood s.flash.licences ∧ ∀ r ∈ s.flash.nvm, r.good

/-- The floating-point formats of Table 2-1, and FP32. -/
def floatFormats : List FloatFmt := [ff32, ffBf16, ffFp16, ffE5m2, ffE4m3, ffE3m2, ffE2m3, ffE2m1]

/-! ## When a command has its own effect, in the terms statements use -/

/-- A thread group that may issue: resident on a physical tile, neither ended, nor at a barrier, nor waiting for a load
(04_thread_groups.md R106, R109, R117, R128). -/
abbrev State.Issues (s : State) (g : GroupRef) (p : Nat) (gr : Group) : Prop :=
  s.groupAt g = some (p, gr) ∧ s.canIssue g p gr = true

/-- A host command that may start now and that every check of R358 accepts. -/
abbrev State.Accepts (s : State) (sq cid op : Nat) (own : State → Cmd → Verdict) (c : Cmd) : Prop :=
  s.fetched sq cid op = some c ∧ s.verdict c own = .ok

/-- A FRAME slot that a port takes: the port is up and on the ring's path, the SD word is that of a FRAME and holds its
parity, the frame's own check is good (10_rings.md R302, R307, R320). -/
abbrev State.Takes (s : State) (rx : Rx) (f : Frame) : Prop :=
  s.portUp rx.port = true ∧ s.onPath rx.port = true ∧ rxIs rx 0 = true ∧ rxFrame rx f = .good

/-- The state in which an intact frame is acted on: its number received, a RETRY asked for each number missed, the frame
counted by a running audit. -/
def State.taken (s : State) (rx : Rx) (f : Frame) : State := ((s.clearTx.rxCheck rx 0 f).1).noteAudit rx.port f

end Sys2Proof.Machine
end

