-- ==== Sys2Proof/Certificates/Slice0/Obligations.lean ====
section
/-! DEFINITION. The statements for the provers. -/

open Sys2Proof Sys2Proof.Machine



/-! ## The queue and the whole machine -/

/-- The commands are taken first in, first out; a step is `exec` of the command at the front, on the rest. -/
def Obligations.StepTakesTheFront : Prop :=
  ∀ (c : Instr) (s : State), step { s with pending := c :: s.pending } = exec c s

/-- On an empty queue time passes (the model's choice, assumption 1): one tick of the timebase, at the dies it reaches; the
ports send what waits in them, and the regulation window is sampled; nothing else. -/
def Obligations.EmptyQueueTicks : Prop :=
  ∀ s : State, s.pending = [] →
    ∃ t, step s = .next t ∧ t = { s with stack := t.stack, ring := t.ring, rgl := t.rgl } ∧
      t.rgl = { s.rgl with demand := t.rgl.demand, samples := t.rgl.samples, oldest := t.rgl.oldest, dark := t.rgl.dark } ∧
      ((∀ x, x < 8 → (s.port x).due = [] ∧ (s.port x).fifo = []) → t.ring = s.ring) ∧
      t.stack = { s.stack with tbMaster := t.stack.tbMaster, tbU1 := t.stack.tbU1, tbCd := t.stack.tbCd,
                               tbIod := t.stack.tbIod } ∧
      (s.pins.vaux = true → s.pins.refclk = true →
        t.stack.tbMaster = s.stack.tbMaster + 1 ∧ t.stack.tbIod = s.stack.tbIod + 1) ∧
      (s.pins.vaux = false ∨ s.pins.refclk = false → t = s)

/-- Every command is answered by a next state, whatever the state, and leaves the queue of the others as it is: no command
faults, none is refused, none takes or adds another. -/
def Obligations.EveryCommandCompletes : Prop :=
  ∀ (c : Instr) (s : State), ∃ t, exec c s = .next t ∧ t.pending = s.pending

/-- What State.reset is: nothing waits, no register differs from its table's reset value, the memories and the flash are in
good form, nothing has started. -/
def Obligations.ResetState : Prop :=
  State.reset.pending = [] ∧ State.reset.canon = true ∧ State.reset.flashGood ∧
    (∀ off, State.reset.regAt off = regReset off) ∧
    State.reset.dstate = DS.STARTING ∧ State.reset.jrn.fail = false ∧ State.reset.jrn.nextSeq = 1 ∧
    State.reset.stack.tbMaster = 0#64 ∧ State.reset.boot.coldReq = true ∧ State.reset.tap.ir = TapIr.IDCODE ∧
    State.reset.i3c.addr = none

/-! ## Invariants that every step keeps -/

/-- The memories, the local stores, the groups' registers and the register file keep their canonical form. -/
def Obligations.StepKeepsCanon : Prop :=
  ∀ s t : State, s.canon = true → step s = .next t → t.canon = true

/-- The flash holds nothing but what R394 and R395 verified: every image in a bank passed every check made before a bank is
written, or is what an erase cut short has left; every licence verifies, in at most 2,048 slots; so does what the queued
writes bring. -/
def Obligations.StepKeepsFlashGood : Prop :=
  ∀ s t : State, s.flashGood → step s = .next t → t.flashGood

/-- Only NVM_WRITE and the end of a flash operation touch the banks and the licences: every other command, resets and losses of
power among them, leaves them as they are. -/
def Obligations.OnlyFlashCommandsWriteBanks : Prop :=
  ∀ (c : Instr) (s t : State), (∀ q i x, c ≠ .nvmWrite q i x) → (∀ b, c ≠ .flashOperationComplete b) →
    exec c s = .next t →
      t.flash.bankA = s.flash.bankA ∧ t.flash.bankB = s.flash.bankB ∧ t.flash.licences = s.flash.licences

/-! ## Supplies, pins, clocks -/

/-- R10, R33, R402, R409, R437, R438, R471, R475: what the supplies, DEVICE_RESET#, the role straps and REFCLK do. -/
def Obligations.SuppliesAndPins : Prop :=
  (∀ s : State, s.pins.vaux = false →
    exec .vauxRise s = .next { s with
      pins := { s.pins with vaux := true }, boot := { s.boot with coldReq := true, run := .idle, attempt := 1 } }) ∧
  (∀ s : State, s.pins.vaux = true → exec .vauxFall s = .next s.powerOff) ∧
  (∀ s : State, (∀ env, s.boot.run ≠ .waitVin env) →
    exec .vinIbInRange s = .next { s with pins := { s.pins with vinIb := true } }) ∧
  (∀ (s : State) (env : StartEnv), s.boot.run = .waitVin env →
    exec .vinIbInRange s = .next ((({ s with pins := { s.pins with vinIb := true } }).waitRun .idle).fromVin env)) ∧
  (∀ s : State, s.pins.vinIb = true → s.pins.vaux = true → s.pins.resetLow = false → s.boot.thermLatch = false →
    exec .vinIbLow s =
      .next (((({ s with pins := { s.pins with vinIb := false } }).dropRails).setDstate DS.STARTING).askStart)) ∧
  (∀ s : State, s.pins.resetLow = false → s.pins.vaux = true → s.boot.thermLatch = false →
    exec .deviceResetAssert s =
      .next (((((({ s with pins := { s.pins with resetLow := true } }).syncLands).dropRails).waitRun .idle).setFld
        Fld.PWR_STATUS_NOTICE 7).setDstate DS.STARTING)) ∧
  (∀ s : State, s.pins.resetLow = true → s.pins.vaux = true →
    exec .deviceResetRelease s =
      .next { s with
        pins := { s.pins with resetLow := false }
        tap := { s.tap with lands := .functional }
        boot := { s.boot with coldReq := true, run := .idle, attempt := 1, shutStart := s.boot.thermLatch } }.updFault) ∧
  (∀ (v : BitVec 2) (s : State),
    exec (.roleStrapChange v) s = .next { s with pins := { s.pins with roleStrap := v } }) ∧
  (∀ s : State, s.pins.refclk = true → s.pins.vaux = true → s.pins.resetLow = false → s.boot.thermLatch = false →
    s.dstate ≠ DS.STARTING → s.dstate ≠ DS.FAILED →
    exec .refclkLost s = .next (((({ s with pins := { s.pins with refclk := false } }).event Ev.REFCLK_LOST 0).portsDown).setDstate
      DS.STARTING)) ∧
  (∀ s : State, s.pins.refclk = false → s.boot.run = .idle → s.pins.vaux = true → s.pins.resetLow = false →
    s.boot.thermLatch = false →
    exec .refclkReturn s = .next { s with
      pins := { s.pins with refclk := true }, boot := { s.boot with coldReq := true, run := .idle, attempt := 1 } }) ∧
  (∀ (s : State) (env : StartEnv), s.pins.refclk = false → s.boot.run = .waitRefclk env →
    let t := (({ s with pins := { s.pins with refclk := true } }).waitRun .idle).fromClock env true
    exec .refclkReturn s = .next t ∧ exec .refclkPresent s = .next t) ∧
  (∀ s : State, s.pins.refclk = false → (∀ env, s.boot.run ≠ .waitRefclk env) →
    exec .refclkPresent s = .next { s with pins := { s.pins with refclk := true } })

/-! ## Starts and resets -/

/-- R411, R412, R425, R428, R432: a start, its failure, a warm device reset, a cluster reset, and their requests. -/
def Obligations.StartsAndResets : Prop :=
  (∀ (env : StartEnv) (s : State), s.mayStart0 = true → exec (.coldStart env) s = .next (s.runStart env)) ∧
  (∀ (step : Nat) (s : State), s.mayStart0 = true → step ≤ 5 →
    exec (.startStepTimeout step) s = .next ((s.beginCold).attemptFail step)) ∧
  (∀ (env : WarmEnv) (cause : Nat) (s : State), s.boot.warmReq = some cause → s.boot.coldReq = false →
    s.pins.vddUp = true → s.pins.resetLow = false → s.dstate = DS.READY →
    exec (.warmDeviceReset env) s = .next (s.warmReady cause env)) ∧
  (∀ (env : WarmEnv) (cause : Nat) (s : State), s.boot.warmReq = some cause → s.boot.coldReq = false →
    s.pins.vddUp = true → s.pins.resetLow = false → s.dstate = DS.RECOVERY →
    exec (.warmDeviceReset env) s = .next (s.warmRecovery env.start)) ∧
  (∀ (c cause : Nat) (s : State), s.boot.clusterReq.find? (fun e => e.1 = c) = some (c, cause) → s.ready = true →
    let t := { s with boot := { s.boot with clusterReq := s.boot.clusterReq.filter (fun x => x.1 ≠ c) } }
    t.clusterUp c = true → exec (.clusterReset c) s = .next (t.resetCluster c cause)) ∧
  (∀ (v : W32) (s : State), s.linked = true → bitsOf v 31 31 = 1 → bitsOf v 23 16 = 0x5A → bitsOf v 15 0 = 0 →
    s.ready = true → exec (.warmResetRequest v) s = .next { s with boot := { s.boot with warmReq := some 0 } }) ∧
  (∀ (v : W32) (s : State), s.linked = true → bitsOf v 31 31 = 0 → bitsOf v 23 16 = 0x5A →
    (∀ c ∈ maskList (bitsOf v 15 0), s.fbit Fld.CFG_LICENCE_ENABLED c = true) → s.ready = true →
    exec (.clusterResetRequest v) s =
      .next (s.askClusterResets ((maskList (bitsOf v 15 0)).filter (fun c => s.clusterUp c)) 0)) ∧
  (∀ (v : W32) (s : State), s.linked = true → bitsOf v 23 16 ≠ 0x5A →
    exec (if bitsOf v 31 31 = 1 then .warmResetRequest v else .clusterResetRequest v) s =
      .next (s.raise Fld.FLT_EVENTS_REJECT))

/-! ## Between dies: timebase, sideband, vertical interface, bridge, HBM -/

/-- R23, R27, R30, R31, R34, R43: what the checks between dies do when they find something. -/
def Obligations.BetweenDies : Prop :=
  (∀ (die : TbDie) (a b : W64) (s : State), s.dieUp die = true → s.bothPaths die = true →
    exec (.tbValueCheck die a b) s = .next (s.tbCheck die a b)) ∧
  (∀ (onCd pathB : Bool) (s : State), s.dieUp (if onCd then .cd else .u1) = true →
    s.flag (pathFld onCd pathB) = true → s.flag (pathFld onCd (!pathB)) = true →
    exec (.tbPathLost onCd pathB) s = .next (s.pathGone onCd pathB)) ∧
  (∀ (onCd pathB : Bool) (s : State), s.dieUp (if onCd then .cd else .u1) = true →
    s.flag (pathFld onCd pathB) = true → s.flag (pathFld onCd (!pathB)) = false →
    exec (.tbPathLost onCd pathB) s = .next ((s.pathGone onCd pathB).deviceScope Ev.TB_PATH_LOST)) ∧
  (∀ (copyB : Bool) (s : State), s.sideband copyB = true → s.sideband (!copyB) = true →
    exec (.sidebandCopyLost copyB) s = .next (s.copyGone copyB)) ∧
  (∀ (copyB : Bool) (s : State), s.sideband copyB = true → s.sideband (!copyB) = false →
    exec (.sidebandCopyLost copyB) s = .next ((s.copyGone copyB).deviceScope Ev.SIDEBAND_COPY_LOST)) ∧
  (∀ (iface group : Nat) (s : State), iface < 2 → group < 9728 → s.sliceState (group / 76) = 0 →
    s.underTest iface group = false → s.vifUp iface = true →
    exec (.vifParityMismatch iface group false) s = .next (s.incFld Fld.CFG_VIF_EVENTS_RETRY_COUNT) ∧
    exec (.vifParityMismatch iface group true) s =
      .next { s with stack := { s.stack with vifUnderTest := s.stack.vifUnderTest ++ [(iface, group)] } }) ∧
  (∀ (iface group site : Nat) (ok : Bool) (s : State), s.underTest iface group = true → siteTested group site = true →
    exec (.vifWireTestComplete iface group (some site) ok) s = .next (s.vifLocated iface group site ok)) ∧
  (∀ (iface group : Nat) (ok : Bool) (s : State), s.underTest iface group = true →
    exec (.vifWireTestComplete iface group none ok) s = .next (s.vifNotFound iface group)) ∧
  (∀ (weak : List SenseGroup) (s : State), s.running = true →
    exec (.tsvSenseRead weak) s = .next (weak.foldl (fun s g => s.weaken g) s)) ∧
  (∀ (ch : Nat) (lost : List (Nat × LostData)) (s : State), ch < 128 →
    s.fbit (Fld.ULC_CHAN_RET_RETIRED (ch / 32)) (ch % 32) = false → s.pins.vddUp = true →
    exec (.hbmTransferError ch true lost) s = .next (s.retireChannel ch lost) ∧
    exec (.hbmTransferError ch false lost) s = .next s)

/-- R36, R38: a flit at either end of a bridge pair. One whose CRC holds is acted on by its FTYPE, another is discarded and
counted; then the die sends what it has to send, as far as its credits go. -/
def Obligations.BridgeFlits : Prop :=
  ∀ (pair : Nat) (atU0 : Bool) (flit : List Byte) (units : List BridgeUnit) (s : State), pair < 16 →
    s.fbit Fld.CFG_BRIDGE_PAIR_RETIRED pair = false → s.pins.vddUp = true →
    let ftype := bitsOf (flitHeader flit) 111 108
    let t := s.offWire atU0 pair
    (flitCrcOk flit = true → ftype < 3 →
      exec (.bridgeFlitReceive pair ⟨atU0, flit, units⟩) s = .next ((t.acceptFlit atU0 pair flit ftype).sendUnits atU0 units)) ∧
    (flitCrcOk flit = true → ftype = 3 → exec (.bridgeFlitReceive pair ⟨atU0, flit, units⟩) s = .next (t.sendUnits atU0 units)) ∧
    (flitCrcOk flit = false ∨ 4 ≤ ftype →
      exec (.bridgeFlitReceive pair ⟨atU0, flit, units⟩) s =
        .next ((t.discardFlit atU0 pair (decide (ftype = 2))).sendUnits atU0 units))

/-! ## The host's reads and writes of registers -/

/-- R13 to R15, R49, R226, R230, R337, R341, R453: reads of pairs and writes of registers while a host is linked. -/
def Obligations.RegisterAccess : Prop :=
  (∀ (off : Nat) (s : State), s.linked = true → isPairLow off = true →
    exec (.pairLoRead off) s = .next { s with pairCap := tabInsert s.pairCap off (s.regView (off + 4))
                                              host := { s.host with rdata := s.regView off } }) ∧
  (∀ (off : Nat) (v : W32) (s : State), s.linked = true → isHeldLow off = true → off ≠ Off.KVL_SWAP_BASE_LO →
    exec (.registerWrite off v) s = .next { s with pairLo := tabInsert s.pairLo off v }) ∧
  (∀ (lo : Nat) (v : W32) (s : State), s.linked = true → isHeldLow lo = true → lo ≠ Off.KVL_SWAP_BASE_LO →
    s.baseLocked lo = false → exec (.pairHiWrite (lo + 4) v) s = .next (s.commitPair lo (lo + 4) v)) ∧
  (∀ (off : Nat) (v : W32) (s : State), s.linked = true → isHeldLow off = false → (4 ≤ off → isHeldLow (off - 4) = false) →
    s.writeOwnReg off v = none → exec (.registerWrite off v) s = .next ((s.hostWrite off v).afterWrite off)) ∧
  (∀ (r : Nat) (v : W32) (s : State), r < 16 → s.linked = true →
    exec (.regionVsetWrite r v) s = .next (s.hostWrite (Off.PWR_REGION r) v)) ∧
  (∀ s : State, s.linked = true →
    exec .minClear s = .next ((List.range 16).foldl (fun s n => s.setFld (Fld.PWR_CAD_CAD_MIN n) 0xFFFF) s)) ∧
  (∀ (v : W32) (s : State), s.linked = true → s.flag Fld.KVL_SWAP_SIZE_BUSY = false →
    exec (.swapAreaWrite Off.KVL_SWAP_SIZE v) s = .next (s.writeSwapSize v) ∧
    exec (.swapAreaWrite Off.KVL_SWAP_BASE_LO v) s =
      .next { s with pairLo := tabInsert s.pairLo Off.KVL_SWAP_BASE_LO v } ∧
    exec (.swapAreaWrite Off.KVL_SWAP_BASE_HI v) s =
      .next (s.commitPair Off.KVL_SWAP_BASE_LO Off.KVL_SWAP_BASE_HI v)) ∧
  (∀ (v : W32) (s : State), s.linked = true →
    exec (.seqSelWrite v) s = .next ((s.hostWrite Off.KVL_SEQ_SEL v).captureSeq (bitsOf v 15 0))) ∧
  (∀ (m r : Nat) (v : W32) (s : State), s.linked = true → m < 22 → r < 4 →
    (bitsOf v 10 0 = 0 ∨ pairExists m r = true) → s.grtSum m r (bitsOf v 10 0) ≤ 1024 →
    let off := Off.RGL_GRT m r
    let old := if (tabFind s.rgl.old off).isSome then s.rgl.old else tabInsert s.rgl.old off (s.regAt off)
    exec (.guaranteeWrite m r v) s = .next (({ s with rgl := { s.rgl with old := old } }).hostWrite off v)) ∧
  (∀ (k : Nat) (v : W32) (s : State), s.linked = true → k < 16 → bitsOf v 5 0 ≤ 32 → bitsOf v 12 8 ≤ 16 →
    s.rsvSum Fld.RGL_CLASS_MSHR_RSV k (bitsOf v 5 0) ≤ 192 → s.rsvSum Fld.RGL_CLASS_QSLOT_RSV k (bitsOf v 12 8) ≤ 96 →
    exec (.classReservationWrite k v) s = .next (s.hostWrite (Off.RGL_CLASS k) v)) ∧
  (∀ (lo : Nat) (v : W32) (s : State), s.linked = true → isPairLow lo = true → isPairLow (lo + 4) = false →
    tabFind s.pairCap lo = some v →
    exec (.pairLoRead (lo + 4)) s = .next { s with pairCap := tabErase s.pairCap lo, host := { s.host with rdata := v } })

/-- R337, R338, R341: a guarantee that would make a resource's guarantees sum above 1,024, or that names a pair Table 11-1 does
not have, and reservations that would sum above 192 entries or 96 slots, are ignored and set REJECT. -/
def Obligations.RegulationRefusals : Prop :=
  (∀ (m r : Nat) (v : W32) (s : State), s.linked = true → m < 22 → r < 4 → 1024 < s.grtSum m r (bitsOf v 10 0) →
    exec (.guaranteeWrite m r v) s = .next (s.raise Fld.RGL_EVENTS_REJECT)) ∧
  (∀ (m r : Nat) (v : W32) (s : State), s.linked = true → m < 22 → r < 4 → bitsOf v 10 0 ≠ 0 → pairExists m r = false →
    exec (.guaranteeWrite m r v) s = .next (s.raise Fld.RGL_EVENTS_REJECT)) ∧
  (∀ (k : Nat) (v : W32) (s : State), s.linked = true → k < 16 →
    192 < s.rsvSum Fld.RGL_CLASS_MSHR_RSV k (bitsOf v 5 0) ∨ 96 < s.rsvSum Fld.RGL_CLASS_QSLOT_RSV k (bitsOf v 12 8) →
    exec (.classReservationWrite k v) s = .next (s.raise Fld.RGL_EVENTS_REJECT))

/-! ## The matrix array -/

/-- R83, R85, R89, R91, R95 to R99, R125: matrix instructions at issue, by a whole group with room among its four and the array's
sixteen; the passes of the operation at the head of a tile's array queue, its end, and a spare's attachment. -/
def Obligations.MatrixOperations : Prop :=
  (∀ (g : GroupRef) (desc sOff sScale p : Nat) (gr : Group) (l : Launch) (ds : List (List W64)) (s : State),
    s.Issues g p gr → s.launchOf g.cluster p gr = some l → s.matSlots g.cluster l desc 1 = some ds →
    gr.whole = true → (s.tile g.cluster p).outstanding g.slot < 4 → (s.tile g.cluster p).queue.length < 16 →
    let packed := ds.any (fun w => (matDesc w).mode = 1)
    let sa : W32 := (gr.sreg sScale).setWidth 32
    let sb : W32 := ((gr.sreg sScale) >>> 32).setWidth 32
    let off := (gr.sreg sOff).toNat
    (ds.map matDesc).all (fun d => scalesOk d sa sb) = true → (packed = true → packAgrees (ds.map matDesc) = true) →
    matRangesOk (s.kernelOf g.cluster p gr) gr.priv off (ds.map matDesc) = true →
    exec (.mma g desc sOff sScale) s =
      .next ((s.setTile g.cluster p ((s.tile g.cluster p).enqueue g.slot gr.launch ds packed off sa sb)).stepOn g p gr)) ∧
  (∀ (g : GroupRef) (desc count sOff sScale p : Nat) (gr : Group) (l : Launch) (ds : List (List W64)) (s : State),
    s.Issues g p gr → 1 ≤ count → count ≤ 16 → s.launchOf g.cluster p gr = some l →
    s.matSlots g.cluster l desc count = some ds →
    gr.whole = true → (s.tile g.cluster p).outstanding g.slot < 4 → (s.tile g.cluster p).queue.length < 16 →
    let sa : W32 := (gr.sreg sScale).setWidth 32
    let sb : W32 := ((gr.sreg sScale) >>> 32).setWidth 32
    let off := (gr.sreg sOff).toNat
    (ds.map matDesc).all (fun d => scalesOk d sa sb) = true → packAgrees (ds.map matDesc) = true →
    matRangesOk (s.kernelOf g.cluster p gr) gr.priv off (ds.map matDesc) = true →
    exec (.mmap g desc count sOff sScale) s =
      .next ((s.setTile g.cluster p ((s.tile g.cluster p).enqueue g.slot gr.launch ds true off sa sb)).stepOn g p gr)) ∧
  (∀ (g : GroupRef) (n p : Nat) (gr : Group) (s : State), s.Issues g p gr → n ≤ 3 → gr.whole = true →
    (s.tile g.cluster p).outstanding g.slot ≤ n → exec (.mwait g n) s = .next (s.stepOn g p gr)) ∧
  (∀ (c t sub p at' : Nat) (mismatch mergeDiffers : Bool) (m : MatOp) (r : SubRun) (d : MatDesc) (s : State),
    s.phys? c t = some p → (s.tile c p).running? = some (at', m) → m.subs[sub]? = some r → m.mats[sub]? = some d →
    r.done = false →
    let k := d.check m.packed ((s.tile c p).lsAt at') m.offset r.fold r.pass
    let s1 := s.noteSkips c p m k.skipped
    let bad := k.fails || (mergeDiffers && decide (accumOf d.fmtA d.fmtB ≠ some .sterling)) ||
      (mismatch && decide (k.skipped < k.total))
    (bad = false → exec (.matrixPassEnd c t sub ⟨mismatch, mergeDiffers⟩) s = .next (s1.passOk c p at' sub r d m.packed)) ∧
    (bad = true → exec (.matrixPassEnd c t sub ⟨mismatch, mergeDiffers⟩) s = .next (s1.passBad c p at' sub r))) ∧
  (∀ (c t p : Nat) (m : MatOp) (rest : List MatOp) (s : State),
    s.phys? c t = some p → (s.tile c p).queue = m :: rest → m.subs.all (fun r => r.done) = true →
    let r := m.drain (s.tile c p).ls
    exec (.matrixInstructionComplete c t) s =
      .next (s.putTile c p (({ s.tile c p with ls := r.1, queue := rest }).addFlags m.slot m.launch r.2).sweepEnded)) ∧
  (∀ (c t : Nat) (s : State), (s.cluster c).attaching = some t → s.clusterUp c = true →
    let s1 := (s.modCluster c (fun k => { k with attaching := none })).setBit (Fld.PPL_TILE_MAP_LVALID c) t
    exec (.spareAttachComplete c t) s =
      .next (((s1.raise Fld.PPL_TILE_EVENTS_STEERED).event Ev.TILE_SPARE_STEERED
        (unitTile c (s1.lmap c t))).syncActive c))

/-- R86, R97, R111, R116, R125, R127, R134, R149, R214, R215: a matrix instruction that a diverged group issues faults with
DIVERGED_MATRIX; one without room, and an MWAIT with too many outstanding, waits. An access outside the group's areas, or
misaligned, an instruction that names no page of the block's pipeline, or a range outside HBM, faults with BAD_ADDRESS; an
odd destination pair, and a reserved row operation code, with ILLEGAL_INSTRUCTION; releasing a lock that the thread does not hold, with LOCK_NOT_HELD. -/
def Obligations.GroupFaultsAndWaits : Prop :=
  (∀ (g : GroupRef) (n p : Nat) (gr : Group) (s : State), s.Issues g p gr → n ≤ 3 → gr.whole = false →
    exec (.mwait g n) s = .next (s.groupFault g p gr KF.DIVERGED_MATRIX)) ∧
  (∀ (g : GroupRef) (n p : Nat) (gr : Group) (s : State), s.Issues g p gr → gr.whole = true →
    n < (s.tile g.cluster p).outstanding g.slot → exec (.mwait g n) s = .next s) ∧
  (∀ (g : GroupRef) (desc count sOff sScale p : Nat) (gr : Group) (l : Launch) (ds : List (List W64)) (s : State),
    s.Issues g p gr → 1 ≤ count → count ≤ 16 → s.launchOf g.cluster p gr = some l →
    s.matSlots g.cluster l desc count = some ds →
    (gr.whole = false → exec (.mmap g desc count sOff sScale) s = .next (s.groupFault g p gr KF.DIVERGED_MATRIX)) ∧
    (gr.whole = true → 4 ≤ (s.tile g.cluster p).outstanding g.slot ∨ 16 ≤ (s.tile g.cluster p).queue.length →
      exec (.mmap g desc count sOff sScale) s = .next s)) ∧
  (∀ (g : GroupRef) (n d a p : Nat) (gr : Group) (s : State), s.Issues g p gr →
    (s.kernelOf g.cluster p gr).elemOk n d = true → (s.kernelOf g.cluster p gr).vOk a = true →
    lsAddrsOk (s.kernelOf g.cluster p gr) gr n a = false →
    exec (.lsLoad g n d a) s = .next (s.groupFault g p gr KF.BAD_ADDRESS) ∧
    exec (.lsStore g n a d) s = .next (s.groupFault g p gr KF.BAD_ADDRESS)) ∧
  (∀ (g : GroupRef) (a p : Nat) (gr : Group) (s : State), s.Issues g p gr → (s.kernelOf g.cluster p gr).vOk a = true →
    lsAddrsOk (s.kernelOf g.cluster p gr) gr 2 a = true → (s.tile g.cluster p).storeStalls (lsRanges gr 2 a) = false →
    gr.threads.foldl (unlockStep g.slot a gr) (some ((s.tile g.cluster p).ls, (s.tile g.cluster p).locks)) = none →
    exec (.lockRel g a) s = .next (s.groupFault g p gr KF.LOCK_NOT_HELD)) ∧
  (∀ (g : GroupRef) (sd ss p : Nat) (gr : Group) (s : State), s.Issues g p gr → sd < 64 → ss < 64 → sd % 2 = 1 →
    exec (.kvaddr g sd ss) s = .next (s.groupFault g p gr KF.ILLEGAL_INSTRUCTION)) ∧
  (∀ (g : GroupRef) (sd ss p : Nat) (gr : Group) (s : State), s.Issues g p gr → sd < 64 → ss < 64 →
    s.kvCheck (s.groupHandle g.cluster p gr) (gr.sreg ss) = none →
    (sd % 2 = 0 → exec (.kvaddr g sd ss) s = .next (s.groupFault g p gr KF.BAD_ADDRESS)) ∧
    exec (.kvput g ss sd) s = .next (s.groupFault g p gr KF.BAD_ADDRESS)) ∧
  (∀ (g : GroupRef) (op sa sb p : Nat) (gr : Group) (s : State), s.Issues g p gr → op ≤ 4 → sa < 64 → sb < 64 →
    s.rangeOk op (gr.sreg sa).toNat (gr.sreg sb).toNat = false →
    exec (.rngInstruction g op sa sb) s = .next (s.groupFault g p gr KF.BAD_ADDRESS)) ∧
  (∀ (g : GroupRef) (sd sa sb p : Nat) (gr : Group) (s : State), s.Issues g p gr →
    exec (.rowSmaxFin g sd sa sb .reserved) s = .next (s.groupFault g p gr KF.ILLEGAL_INSTRUCTION))

/-! ## Thread groups -/

/-- R55, R56, R66, R67, R106, R109, R110: an arithmetic instruction writes the group's registers and goes on. -/
def Obligations.GroupArithmetic : Prop :=
  (∀ (g : GroupRef) (op : VecOp) (d a b c p : Nat) (gr : Group) (s : State), s.Issues g p gr →
    vecRegsOk op (s.kernelOf g.cluster p gr) d a b c = true →
    exec (.vectorArith g op d a b c) s = .next (s.setGroup g.cluster p g.slot (vecRun op gr d a b c).next)) ∧
  (∀ (g : GroupRef) (op : ScalarOp) (d a b p : Nat) (gr : Group) (s : State), s.Issues g p gr → d < 64 → a < 64 → b < 64 →
    exec (.scalarArith g op d a b) s = .next (s.setGroup g.cluster p g.slot (scalarRun op gr d a b).next))

/-- R86, R111, R116, R119, R126, R127: the local store, where the addresses lie in the group's areas and no matrix operation
guards them. -/
def Obligations.LocalStore : Prop :=
  (∀ (g : GroupRef) (n d a p : Nat) (gr : Group) (s : State), s.Issues g p gr →
    (s.kernelOf g.cluster p gr).elemOk n d = true → (s.kernelOf g.cluster p gr).vOk a = true →
    lsAddrsOk (s.kernelOf g.cluster p gr) gr n a = true → (s.tile g.cluster p).loadStalls (lsRanges gr n a) = false →
    exec (.lsLoad g n d a) s = .next (s.setGroup g.cluster p g.slot (gr.mapThreads (fun x i =>
      x.setElem n i d (leNat (getBytes (s.tile g.cluster p).ls (gr.vreg i a).toNat (2 ^ n))))).next)) ∧
  (∀ (g : GroupRef) (n a src p : Nat) (gr : Group) (s : State), s.Issues g p gr →
    (s.kernelOf g.cluster p gr).elemOk n src = true → (s.kernelOf g.cluster p gr).vOk a = true →
    lsAddrsOk (s.kernelOf g.cluster p gr) gr n a = true → (s.tile g.cluster p).storeStalls (lsRanges gr n a) = false →
    exec (.lsStore g n a src) s = .next (s.stepLs g p gr (gr.threads.foldl (fun m i =>
      putBytes m (gr.vreg i a).toNat (leBytes (2 ^ n) (gr.elem n i src))) (s.tile g.cluster p).ls))) ∧
  (∀ (g : GroupRef) (op : AtomicOp) (wide : Bool) (d a src cmp p : Nat) (gr : Group) (s : State), s.Issues g p gr →
    let e := if wide then 3 else 2
    (s.kernelOf g.cluster p gr).elemOk e d = true → (s.kernelOf g.cluster p gr).vOk a = true →
    (s.kernelOf g.cluster p gr).elemOk e src = true → (op = .cas → (s.kernelOf g.cluster p gr).elemOk e cmp = true) →
    lsAddrsOk (s.kernelOf g.cluster p gr) gr e a = true → (s.tile g.cluster p).storeStalls (lsRanges gr e a) = false →
    let r := gr.threads.foldl (atomicStep op e d a src cmp gr) ((s.tile g.cluster p).ls, gr)
    exec (.lsAtomic g op wide d a src cmp) s = .next (s.stepLs g p r.2 r.1)) ∧
  (∀ (g : GroupRef) (a q p : Nat) (gr : Group) (s : State), s.Issues g p gr →
    (s.kernelOf g.cluster p gr).vOk a = true → q < 8 → lsAddrsOk (s.kernelOf g.cluster p gr) gr 2 a = true →
    (s.tile g.cluster p).storeStalls (lsRanges gr 2 a) = false →
    let t := s.tile g.cluster p
    let r := gr.threads.foldl (lockStep g.slot a q gr) (t.ls, t.locks, gr)
    exec (.lockAcq g a q) s = .next ((s.setTile g.cluster p { t with ls := r.1, locks := r.2.1 }).stepOn g p r.2.2)) ∧
  (∀ (g : GroupRef) (a p : Nat) (gr : Group) (r : Tab Byte × List Lock) (s : State), s.Issues g p gr →
    (s.kernelOf g.cluster p gr).vOk a = true → lsAddrsOk (s.kernelOf g.cluster p gr) gr 2 a = true →
    (s.tile g.cluster p).storeStalls (lsRanges gr 2 a) = false →
    let t := s.tile g.cluster p
    gr.threads.foldl (unlockStep g.slot a gr) (some (t.ls, t.locks)) = some r →
    exec (.lockRel g a) s = .next ((s.setTile g.cluster p { t with ls := r.1, locks := r.2 }).stepOn g p gr))

/-- R117, R118, R120, R129: loads past or through L1, stores, reductions, constants and fences of global memory. -/
def Obligations.GlobalMemory : Prop :=
  (∀ (g : GroupRef) (n d a p : Nat) (ev : List Nat) (gr : Group) (s : State), s.Issues g p gr →
    (s.kernelOf g.cluster p gr).elemOk n d = true → (s.kernelOf g.cluster p gr).pairOk a = true →
    s.gAddrsOk gr (2 ^ n) a false = true →
    exec (.globalLoad g n d a ev) s = .next (s.issueLoad g p gr n d a false ev) ∧
    exec (.ldNc g n d a) s = .next (s.issueLoad g p gr n d a true [])) ∧
  (∀ (g : GroupRef) (n a src p : Nat) (gr : Group) (l : Launch) (s : State), s.Issues g p gr →
    (s.kernelOf g.cluster p gr).elemOk n src = true → (s.kernelOf g.cluster p gr).pairOk a = true →
    s.gAddrsOk gr (2 ^ n) a true = true → s.launchOf g.cluster p gr = some l →
    let els := gr.storeEls n a src
    let secs := (els.map (fun e => e.1 / 32)).eraseDups
    let r := s.sendStores g.cluster (s.classAt g.cluster l.handle) els (groupSectors (g.ltile = 0) secs)
    let t := r.1.tile g.cluster p
    exec (.globalStore g n a src) s =
      .next ((r.1.setTile g.cluster p { t.noFill (fun x => secs.contains x) with l1 := storeL1 t.l1 els }).stepOn g p
        { gr with stores := gr.stores ++ r.2 })) ∧
  (∀ (g : GroupRef) (op : RedOp) (a src p : Nat) (gr : Group) (l : Launch) (s : State), s.Issues g p gr →
    let n := if redSize op.code = 8 then 3 else 2
    (s.kernelOf g.cluster p gr).elemOk n src = true → (s.kernelOf g.cluster p gr).pairOk a = true → op.code % 16 ≤ 6 →
    s.gAddrsOk gr (2 ^ n) a true = true → s.launchOf g.cluster p gr = some l →
    let ops := (reduceRounds (gr.storeEls n a src) []).flatMap
      (roundReds (g.ltile = 0) g.cluster (s.classAt g.cluster l.handle) op.code)
    ((s.entryOf l.handle).isSome = true ∨ s.beltStage g.cluster = true) →
    (s.tile g.cluster p).commitOf l.handle + ops.length ≤ 1024 →
    (s.tile g.cluster p).commit.length + ops.length ≤ 1024 →
    exec (.globalReduction g op a src) s =
      .next (((s.numbered ops).1.setTile g.cluster p { s.tile g.cluster p with
        commit := (s.tile g.cluster p).commit ++ (s.numbered ops).2.map (fun o => ⟨l.num, g.slot, l.handle, o⟩) }).stepOn
        g p gr)) ∧
  (∀ (g : GroupRef) (n d a p : Nat) (gr : Group) (l : Launch) (pr : Program) (s : State), s.Issues g p gr →
    (s.kernelOf g.cluster p gr).elemOk n d = true → (s.kernelOf g.cluster p gr).vOk a = true →
    (∀ t ∈ gr.threads, (gr.vreg t a).toNat % 2 ^ n = 0) →
    s.launchOf g.cluster p gr = some l → (s.cluster g.cluster).prog? l.gen = some pr →
    (∀ t ∈ gr.threads,
      (s.kernelOf g.cluster p gr).constBase * 256 + (gr.vreg t a).toNat + 2 ^ n ≤ pr.constBytes) →
    exec (.constantLoad g n d a) s = .next (s.setGroup g.cluster p g.slot (gr.mapThreads (fun x t =>
      x.setElem n t d (leNat (getBytes pr.consts
        ((s.kernelOf g.cluster p gr).constBase * 256 + (gr.vreg t a).toNat) (2 ^ n))))).next)) ∧
  (∀ (g : GroupRef) (p : Nat) (gr : Group) (s : State), s.Issues g p gr →
    exec (.invalL1 g) s = .next ((s.setTile g.cluster p (s.tile g.cluster p).invalL1).stepOn g p gr)) ∧
  (∀ (g : GroupRef) (p : Nat) (gr : Group) (s : State), s.Issues g p gr → gr.stores = [] →
    (∀ r ∈ s.ul.ranges, r.group ≠ some g) → exec (.fenceGl g) s = .next (s.stepOn g p gr)) ∧
  (∀ (g : GroupRef) (p : Nat) (gr : Group) (s : State), s.Issues g p gr → exec (.fenceLs g) s = .next (s.stepOn g p gr)) ∧
  (∀ (g : GroupRef) (op : RedOp) (a src p : Nat) (gr : Group) (l : Launch) (s : State), s.Issues g p gr →
    let n := if redSize op.code = 8 then 3 else 2
    (s.kernelOf g.cluster p gr).elemOk n src = true → (s.kernelOf g.cluster p gr).pairOk a = true → op.code % 16 ≤ 6 →
    s.gAddrsOk gr (2 ^ n) a true = true → s.launchOf g.cluster p gr = some l → s.entryOf l.handle = none →
    s.beltStage g.cluster = false → exec (.globalReduction g op a src) s = .next (s.stepOn g p gr))

/-- R115, R121 to R125, R128: divergence, branches, exits, barriers, the shared area's readiness. -/
def Obligations.GroupControl : Prop :=
  (∀ (g : GroupRef) (q target reconv p : Nat) (gr : Group) (s : State), s.Issues g p gr → q < 8 →
    let taken := gr.active &&& gr.pred q
    let fall := gr.active &&& ~~~(gr.pred q)
    let st := ⟨true, BitVec.ofNat 24 target, taken⟩ :: gr.reconvStack (BitVec.ofNat 24 reconv)
    (taken = 0#64 → exec (.brc g q target reconv) s = .next (s.stepOn g p gr)) ∧
    (taken ≠ 0#64 → fall = 0#64 → exec (.brc g q target reconv) s =
      .next (s.setGroup g.cluster p g.slot (gr.take (BitVec.ofNat 24 target)).fetch)) ∧
    (taken ≠ 0#64 → fall ≠ 0#64 → st.length ≤ 32 → exec (.brc g q target reconv) s =
      .next (s.stepOn g p { gr with active := fall, stack := st })) ∧
    (taken ≠ 0#64 → fall ≠ 0#64 → 32 < st.length → exec (.brc g q target reconv) s =
      .next (s.groupFault g p gr KF.MASK_OVERFLOW))) ∧
  (∀ (g : GroupRef) (target p : Nat) (gr : Group) (s : State), s.Issues g p gr →
    exec (.backwardBranch g target) s = .next (s.setGroup g.cluster p g.slot (gr.take (BitVec.ofNat 24 target)).fetch)) ∧
  (∀ (g : GroupRef) (p : Nat) (gr : Group) (s : State), s.Issues g p gr →
    let s1 := s.setGroup g.cluster p g.slot gr.exitThreads.fetch
    exec (.exit g) s = .next (s1.putTile g.cluster p ((s1.tile g.cluster p).releaseBar gr.launch).sweepEnded)) ∧
  (∀ (g : GroupRef) (n p : Nat) (gr : Group) (s : State), s.Issues g p gr → n ≤ 3 →
    let s1 := s.stepOn g p { gr with atBar := some n }
    (gr.whole = true →
      exec (.bar g n) s = .next (s1.setTile g.cluster p ((s1.tile g.cluster p).releaseBar gr.launch))) ∧
    (gr.whole = false → exec (.bar g n) s = .next (s.groupFault g p gr KF.DIVERGED_BARRIER))) ∧
  (∀ (g : GroupRef) (p : Nat) (gr : Group) (s : State), s.Issues g p gr →
    let t := s.tile g.cluster p
    exec (.shready g) s = .next ((s.setTile g.cluster p { t with
      launches := t.launches.map (fun l => if l.num = gr.launch then { l with shready := true } else l) }).stepOn g p gr))

/-- R99, R107, R108, R113, R165: a launch, of a block of the running sweep or on a stage that the belt feeds, is admitted where
the tile has room, and stays with the dispatcher where it has not. -/
def Obligations.LaunchAdmission : Prop :=
  ∀ (c t p desc gen : Nat) (handle : W64) (words : List W64) (s : State),
    s.phys? c t = some p → s.launchGen c handle = some gen → s.kernelSlot c gen desc = some words →
    (kDesc words).placeOk t = true →
    (∀ x, (s.tile c p).launch (kDesc words) words gen handle c t = some x →
      exec (.launchAdmit c t handle desc) s =
        .next ((s.putTile c p x).modEntry c handle (fun e => { e with again := false }))) ∧
    ((s.tile c p).launch (kDesc words) words gen handle c t = none →
      exec (.launchAdmit c t handle desc) s = .next s)

/-- R131 to R133: the stage watchdog, a parity error of a read-only cache, errors of a tile store. -/
def Obligations.TileErrors : Prop :=
  (∀ (c : Nat) (e : QEntry) (s : State), e ∈ (s.cluster c).queue → e.sweep = true →
    let hs := ((s.cluster c).queue.filter (fun e => e.sweep)).map (fun e => e.block.handle)
    let s1 := ((List.range 16).foldl (fun s p => s.watchTile c p) s).syncOcc c
    exec (.stageWatchdogExpiry c) s = .next (hs.foldl (fun s h => s.blockFault h) s1)) ∧
  (∀ (c set way : Nat) (cache : CacheKind) (s : State), s.clusterUp c = true → way < 1024 → set < 2 ^ 16 →
    (cacheCode cache = 2 → set = 0) →
    let key := (cacheCode cache, set, way)
    (s.cluster c).cacheOff.contains key = false →
    let again := (s.cluster c).cacheErr.any (fun e => e.1 = key && decide (s.now < e.2 + dayTicks))
    let s1 := s.incFld (Fld.PPL_TSERR_CACHE_PARITY c)
    let s2 := s1.modCluster c (fun k => { k with cacheErr := (key, s1.now) :: k.cacheErr.filter (fun e => e.1 ≠ key) })
    exec (.cacheParityError c cache set way) s =
      .next (if again then s2.cacheLasting c (cacheCode cache) set way else s2)) ∧
  (∀ (c t p : Nat) (s : State), s.phys? c t = some p →
    exec (.tileStoreEccError c t true) s = .next (s.incFld (Fld.PPL_TSERR_CORRECTED c)) ∧
    exec (.tileStoreEccError c t false) s = .next (s.tileUncorrectable c p))

/-! ## Special functions, row instructions, instructions on sequences and ranges -/

/-- R137, R141 to R144: a special function of one operand, a division and a gated activation of two write their results, of the
kernel's mode, in every active thread, their flags in the group's ASW. -/
def Obligations.SpecialFunctions : Prop :=
  (∀ (g : GroupRef) (o : SfuOpt) (d a p : Nat) (gr : Group) (s : State), s.Issues g p gr →
     (s.kernelOf g.cluster p gr).vOk d = true → (s.kernelOf g.cluster p gr).vOk a = true → suffixOk o false = true →
     let u := (s.kernelOf g.cluster p gr).uluver
     let out := fun (f : W32 → W32 × AswBits) => Host.Outcome.next (s.setGroup g.cluster p g.slot
       (gr.mapThreads (fun x t => (x.setV t d (f (gr.vreg t a)).1).flags (f (gr.vreg t a)).2)).next)
     let base := fun (f : SfuFn) => out (fun x => if u then sfuUluver f o x else sfuNative f o x)
     exec (.rcp g o d a) s = base .rcp ∧ exec (.rsqrt g o d a) s = base .rsqrt ∧ exec (.exp2 g o d a) s = base .exp2 ∧
     exec (.exp g o d a) s = base .exp ∧ exec (.log2 g o d a) s = base .log2 ∧ exec (.ln g o d a) s = base .ln ∧
     exec (.sinpi g o d a) s = base .sinpi ∧ exec (.cospi g o d a) s = base .cospi ∧ exec (.tanh g o d a) s = base .tanh ∧
     exec (.sigmoid g o d a) s = base .sigmoid ∧
     exec (.sqrt g o d a) s = out (fun x => if u then sqrtUluver o x else sqrtNative o x)) ∧
  (∀ (g : GroupRef) (o : SfuOpt) (act : SfgAct) (d a b p : Nat) (gr : Group) (s : State), s.Issues g p gr →
     (s.kernelOf g.cluster p gr).vOk d = true → (s.kernelOf g.cluster p gr).vOk a = true →
     (s.kernelOf g.cluster p gr).vOk b = true →
     let u := (s.kernelOf g.cluster p gr).uluver
     let out := fun (f : W32 → W32 → W32 × AswBits) => Host.Outcome.next (s.setGroup g.cluster p g.slot
       (gr.mapThreads (fun x t => (x.setV t d (f (gr.vreg t a) (gr.vreg t b)).1).flags (f (gr.vreg t a) (gr.vreg t b)).2)).next)
     (suffixOk o false = true → exec (.div g o d a b) s =
       out (fun x y => if u then divUluver o x y else divNative o x y)) ∧
     (suffixOk o true = true → exec (.sfg g act o d a b) s =
       out (fun x y => if u then sfgUluver act o x y else sfgNative act o x y)))

/-- R149 to R162: a row instruction whose operands pass the checks of Table 5-9, on rows that no matrix operation guards. -/
def Obligations.RowInstructions : Prop :=
  ∀ (g : GroupRef) (sd sa sb sc p : Nat) (gr : Group) (s : State), s.Issues g p gr →
    sd < 63 → sa < 64 → sb < 64 → sc < 64 →
    let r := rowDec (gr.sreg sa) (gr.sreg sb)
    let fine := fun (op : RowOp) =>
      rowFault op sd (gr.sreg sa) (gr.sreg sb) (gr.sreg sc) (s.kernelOf g.cluster p gr) gr.priv = none ∧
        (s.tile g.cluster p).rowWaits r op = false
    let out := fun (op : RowOp) => Host.Outcome.next (s.rowDo g p gr op sd r (gr.sreg sc))
    (fine .rstat → exec (.rowRstat g sd sa sb sc false) s = out .rstat) ∧
    (fine .lnorm → exec (.rowLnorm g sd sa sb sc false) s = out .lnorm) ∧
    (fine .rmsnorm → exec (.rowRmsnorm g sd sa sb sc false) s = out .rmsnorm) ∧
    (fine .smax → exec (.rowSmax g sd sa sb sc false) s = out .smax) ∧
    (fine .smaxStep → exec (.rowSmaxStep g sd sa sb sc false) s = out .smaxStep) ∧
    (fine .smaxFin → exec (.rowSmaxFin g sd sa sb (.fin sc)) s = out .smaxFin)

/-- R214, R215, R245, R246: the ledger and the range instructions of a group. -/
def Obligations.LedgerAndRangeInstructions : Prop :=
  (∀ (g : GroupRef) (sd ss p f : Nat) (q : Seq) (e : PageEntry) (gr : Group) (s : State), s.Issues g p gr →
    sd < 64 → sd % 2 = 0 → ss < 64 → s.kvCheck (s.groupHandle g.cluster p gr) (gr.sreg ss) = some (q, e, f) →
    let r := s.kvAnswer (gr.sreg ss) q e f
    exec (.kvaddr g sd ss) s = .next (s.setGroup g.cluster p g.slot ((gr.setS sd r.1).setS (sd + 1) r.2).next)) ∧
  (∀ (g : GroupRef) (ss sa p f : Nat) (q : Seq) (e : PageEntry) (gr : Group) (s : State), s.Issues g p gr →
    ss < 64 → sa < 64 → s.kvCheck (s.groupHandle g.cluster p gr) (gr.sreg ss) = some (q, e, f) →
    let w := gr.sreg ss
    let a := (gr.sreg sa).toNat
    let n := (s.shape q.pipe).tl
    q.len ≤ bitsOf w 39 22 → (s.kernelOf g.cluster p gr).inArea gr.priv a n = true →
    (s.tile g.cluster p).loadStalls [(a, n)] = false →
    exec (.kvput g ss sa) s = .next (s.placeCommit g p gr
      [.kvput (bitsOf w 55 40) (bitsOf w 39 22) (bitsOf w 7 0) (getBytes (s.tile g.cluster p).ls a n)])) ∧
  (∀ (g : GroupRef) (op sa sb p : Nat) (gr : Group) (l : Launch) (s : State), s.Issues g p gr →
    op ≤ 4 → sa < 64 → sb < 64 → s.rangeOk op (gr.sreg sa).toNat (gr.sreg sb).toNat = true →
    s.launchOf g.cluster p gr = some l →
    exec (.rngInstruction g op sa sb) s = .next ((s.startRange op (gr.sreg sa).toNat (gr.sreg sb).toNat
      (s.classAt g.cluster l.handle) none (some g) ((s.tile g.cluster p).before g.slot gr)).stepOn g p gr))

/-! ## The pipeline -/

/-- R171, R172, R175, R176, R210, R213: rows enter blocks, blocks close, leave the entry, and move from stage to stage. -/
def Obligations.RowsAndBlocks : Prop :=
  (∀ (sq cid p : Nat) (c : Cmd) (s : State), s.cmd? sq cid = some c → c.stage = .running → c.pipeRows = some p →
    exec (.rowPlace (.command sq cid)) s = .next (s.feedPipe p)) ∧
  (∀ (sq cid n : Nat) (c : Cmd) (q : Seq) (x : NextRow) (s : State), s.cmd? sq cid = some c → c.stage = .running →
    c.pipeRows = none → c.rowSeq = some n → s.seq? n = some q → s.nextRow n q = some x → x.fed = false →
    x.cmd.uid = c.uid → (∀ w ∈ s.kvl.waits, w.seq ≠ n) →
    exec (.rowPlace (.command sq cid)) s = .next ((s.placeNext n).noteConds)) ∧
  (∀ (n : Nat) (q : Seq) (x : NextRow) (s : State), s.seq? n = some q → s.nextRow n q = some x → x.fed = true →
    (∀ w ∈ s.kvl.waits, w.seq ≠ n) → exec (.rowPlace (.fedBack n)) s = .next ((s.placeNext n).noteConds)) ∧
  (∀ (pipe cls : Nat) (f : Forming) (s : State), s.form? pipe cls = some f → f.train = none → f.cond = none →
    f.timeout ≠ 0 → exec (.fillTimeoutExpiry pipe cls) s = .next (s.setForm pipe cls { f with cond := some s.now })) ∧
  (∀ (pipe cls t : Nat) (f : Forming) (s : State),
    let s1 := s.noteConds
    s1.form? pipe cls = some f → f.cond = some t → (s1.entries pipe).length < 4 → s1.firstToClose pipe cls t = true →
    s1.runGoesOn pipe cls f = false →
    exec (.blockClose pipe cls) s = .next ((s1.closeForm pipe cls f).feedPipe pipe)) ∧
  (∀ (pipe : Nat) (b : Block) (rest : List Block) (s : State), s.entries pipe = b :: rest → s.entryHeld pipe = false →
    exec (.blockLeaveEntry pipe) s = .next (s.leaveEntry pipe b rest)) ∧
  (∀ (handle : W64) (c : Nat) (e : QEntry) (r : W64) (s : State), s.entryOf handle = some (c, e) → e.done = true →
    e.exits = [] → s.routeOf e.block = some r → exec (.blockTransfer handle) s = .next (s.moveBlock c e r)) ∧
  (∀ (handle : W64) (c : Nat) (e : QEntry) (r : W64) (s : State), s.entryOf handle = some (c, e) → e.done = false →
    s.clusterUp c = false → s.moving? c = false → e.exits = [] → s.routeOf e.block = some r →
    exec (.blockTransfer handle) s = .next (s.moveBlock c e r)) ∧
  (∀ (link : Nat) (s : State), link < 24 → s.fbit Fld.PPL_MESH_RETIRED link = false →
    exec (.meshHandshakeParityError link true) s = .next (s.retireLink link) ∧
    exec (.meshHandshakeParityError link false) s = .next (s.incFld Fld.PPL_MESH_RETRY))

/-- R179 to R184, R212, R441: a sweep starts, after its load notice where it needs one; its blocks end; rows exit; a moved role
is taken up. The level that the scheduler plans is open: a statement holds for whichever level it is. -/
def Obligations.StageOperations : Prop :=
  (∀ (c : Nat) (s : State), s.mayOperate c = true → (s.cluster c).noticeAt = none → s.nextSweep c ≠ [] →
    ∃ l, 1 ≤ l ∧ l ≤ 8 ∧
      let s0 := { s with free := s.free + 1 }
      let s1 := s0.setLevel c l
      exec (.sweepStart c) s = .next (if s0.needsNotice c l then
        s1.modCluster c (fun k => { k with noticeAt := some s1.now }) else s1.sweepOn c)) ∧
  (∀ (c t : Nat) (s : State), (s.cluster c).noticeAt = some t → s.mayOperate c = true →
    exec (.loadNoticeElapsed c) s =
      .next (if s.fld (Fld.PPL_STAGE_ROLE c) = 8 then (s.startRound c).syncBelt else s.sweepOn c)) ∧
  (∀ (c : Nat) (outs : List BlockOut) (s : State),
    let sweep := (s.cluster c).queue.filter (fun e => e.sweep)
    s.beltStage c = false → sweep ≠ [] → (∀ e ∈ sweep, e.again = false) →
    s.stillRuns c (sweep.map (fun e => e.block.handle)) = false →
    let s1 := sweep.foldl (fun s e => s.blockDone c outs e) s
    exec (.stageOperationComplete c outs) s =
      .next ((s1.modCluster c (fun k => { k with lastOp := s1.now })).setRegion c RS.Q1).faultStuck) ∧
  (∀ (handle : W64) (row c : Nat) (e : QEntry) (r : RowDesc) (x : Option ExitRec) (s : State),
    s.entryOf handle = some (c, e) → e.exits.contains row = true → e.block.rows[row]? = some r →
    let left := e.exits.filter (fun i => i ≠ row)
    let s1 := s.modEntry c handle (fun e => { e with exits := left })
    let s2 := if left.isEmpty then s1.blockExit c e.block else s1
    let s3 := if r.valid then s2.validExit e.block.pipe r x else s2
    exec (.rowExit handle row x) s = .next (if r.kind ≤ 1 then s3.trimSeq r.seq else s3).noteConds) ∧
  (∀ (c old : Nat) (s : State), (s.cluster c).moveFrom = some old → s.clusterUp c = true →
    s.region c = RS.Q1 ∨ s.region c = RS.A →
    exec (.roleMoveLoaded c) s = .next (((s.takeRole c old).eventReg Ev.ROLE_MOVED c (Off.PPL_STAGE c)).checkDegraded)) ∧
  (∀ (c : Nat) (outs : List BlockOut) (s : State), s.beltStage c = true →
    (∀ p, p < 16 → (s.tile c p).launches = []) →
    let hs := ((List.range 16).flatMap (fun p => (s.tile c p).commit.map (·.handle))).eraseDups
    exec (.stageOperationComplete c outs) s = .next (hs.foldl (fun s h => s.releaseBlock c h) s))

/-! ## Changes of generation, training -/

/-- R130, R186 to R189: a change set is staged, its clusters drain, its partitions switch; it aborts at the entry hold's limit;
old generations are released. -/
def Obligations.ChangesOfGeneration : Prop :=
  (∀ (sq cid : Nat) (c : Cmd) (s : State), s.Accepts sq cid 0x41 reloadCheck c →
    exec (.reloadPartition sq cid) s = .next ((s.started c 0).beginChange c)) ∧
  (∀ (x : ChangeSet) (s : State), s.ppl.change = some x → x.staged = false → x.aborting = 0 →
    (∀ o ∈ s.flash.ops, ∀ p, o.kind ≠ .reload p) → (∀ p ∈ x.parts, s.train? p = none) →
    exec .changeSectionsStaged s = .next (s.setChange { x with staged := true }).applyNext) ∧
  (∀ (c n : Nat) (x : ChangeSet) (g : PartCfg) (s : State), s.ppl.change = some x → x.draining.contains c = true →
    x.sects.find? (fun e => e.1 = s.partOf c) = some (n, g) →
    s.oldBlocks c (s.partGen (s.partOf c)) = false → (∀ e ∈ (s.cluster c).progs, s.oldBlocks c e.1 = false) →
    let s1 := s.setChange { x with draining := x.draining.filter (fun d => d ≠ c), restoring := x.restoring ++ [c] }
    exec (.clusterOldGenDrained c) s =
      .next (match (g.roles.find? (fun e => s.actor e.1 = c)).bind (fun e => newProg g e.2.2) with
        | some pr => s1.modCluster c (fun k => { k with progs := [], newProgs := [(g.sect.gen, pr)] })
        | none => s1)) ∧
  (∀ (p n : Nat) (x : ChangeSet) (g : PartCfg) (s : State), s.ppl.change = some x →
    x.sects.find? (fun e => e.1 = p) = some (n, g) → x.staged = true → x.aborting = 0 → x.todo.head? = some p →
    x.draining = [] → (∀ q ∈ x.parts, s.train? q = none) →
    let s1 := (s.setFld (Fld.PPL_PART_STAT_STATE p) 2).setBit Fld.PPL_CHANGE_SWITCHED p
    let y := { x with todo := x.todo.drop 1, switched := x.switched ++ [p] }
    let s2 := (((s1.setChange y).raise Fld.PPL_CHANGE_HOLDING).applyWindows g.sect).showRoutes p g.sect.gen
    exec (.partitionSwitched p) s = .next (if y.todo = [] then s2.finishChange y else s2.applyNext)) ∧
  (∀ (c : Nat) (s : State), s.partGen (s.partOf c) ≠ 0 →
    let p := s.partOf c
    let live := fun (g : Nat) => g = s.partGen p || s.applying p = some g || s.allEntries.any (fun e => e.2.block.genOf p = g)
    let s1 := s.modCluster c (fun k => { k with progs := k.progs.filter (fun x => live x.1) })
    exec (.oldGenerationRelease c) s = .next { s1 with ppl := { s1.ppl with
      banks := tabPut [] s1.ppl.banks p ((tabGet [] s1.ppl.banks p).filter (fun x => live x.1)) } }) ∧
  (∀ (x : ChangeSet) (s : State), s.ppl.change = some x → s.flag Fld.PPL_CHANGE_HOLDING = true →
    exec .entryHoldTimeout s = .next (s.abortChange 2)) ∧
  (∀ (x : ChangeSet) (s : State), s.ppl.change = some x → x.aborting ≠ 0 →
    exec .changeRestoreComplete s = .next ((x.restoring.foldl (fun s c => s.restoreCluster c) s).endChange x
      St.ABORTED x.aborting Ev.CHANGE_ABORTED))

/-- R192 to R197: a TRAIN_STEP is accepted, its readers drain, the adapter is updated. -/
def Obligations.Training : Prop :=
  (∀ (sq cid : Nat) (c : Cmd) (s : State), s.Accepts sq cid 0x70 trainCheck c →
    exec (.trainStep sq cid) s = .next ((s.started c (c.f 2 15 0 + 1)).beginTrain c)) ∧
  (∀ (pipe : Nat) (t : Train) (s : State), s.train? pipe = some t → t.done = true →
    (∀ e ∈ s.allEntries, (s.readersOf pipe).contains e.2.block.pipe = false) →
    exec (.trainReadersDrained pipe) s = .next (s.setTrain pipe { t with holding := true, drained := true })) ∧
  (∀ (pipe rd base bytes : Nat) (t : Train) (g : PartCfg) (c : Cmd) (s : State), s.train? pipe = some t →
    tabFind s.ppl.cfg pipe = some g → g.train = some (rd, base, bytes) → s.cmdU t.uid = some c → t.done = true →
    t.drained = true →
    exec (.trainUpdate pipe) s = .next (match s.adapter? (c.f 4 63 0) with
      | some x => s.update pipe t (c.f 4 63 0) base bytes x
      | none => s.failTrain pipe St.FAULT))

/-! ## Host commands -/

/-- R358 to R371, R405: the commands any host may send, each accepted: started, then its effect, then its completion. -/
def Obligations.HostCommands : Prop :=
  (∀ (sq cid : Nat) (c : Cmd) (s : State), s.Accepts sq cid 0x01 noCheck c →
    exec (.nop sq cid) s = .next ((s.started c 0).finish c [])) ∧
  (∀ (sq cid : Nat) (c : Cmd) (s : State), s.Accepts sq cid 0x02 noCheck c →
    exec (.identify sq cid) s = .next ((s.started c 0).finish c (s.started c 0).identifyPage)) ∧
  (∀ (sq cid : Nat) (c : Cmd) (s : State), s.Accepts sq cid 0x10 (loadCheck none) c →
    let s1 := s.started c 0
    exec (.loadObject sq cid none) s =
      .next (((s1.devWrite (c.f 2 63 0) (getBytes s1.host.mem (c.f 3 63 0) (c.f 4 63 32))).dmaIn (c.f 4 63 32)).finish c [])) ∧
  (∀ (sq cid : Nat) (c : Cmd) (p : Program) (s : State), s.Accepts sq cid 0x10 (loadCheck (some p)) c → c.f 4 31 24 = 1 →
    let s1 := s.started c 0
    let s2 := (s1.devWrite (c.f 2 63 0) (getBytes s1.host.mem (c.f 3 63 0) (c.f 4 63 32))).dmaIn (c.f 4 63 32)
    exec (.loadObject sq cid (some p)) s = .next (({ s2 with ppl := { s2.ppl with
      objects := s2.ppl.objects.filter (fun (e : Nat × Program) => e.1 ≠ c.f 5 31 0) ++ [(c.f 5 31 0, p)] } }).finish c [])) ∧
  (∀ (sq cid : Nat) (c : Cmd) (s : State), s.Accepts sq cid 0x11 readCheck c →
    let s1 := s.started c 0
    let l := c.f 2 63 0 / 256
    let n := c.f 4 63 32 / 256
    let x := (s1.unbackedSectors ((List.range n).flatMap (fun i => s1.readSecs (l + i))) .plain).readLines l c.cls n
    (x.2.2 = true → exec (.readObject sq cid) s = .next (x.1.completeU c.uid St.FAULT 0)) ∧
    (x.2.2 = false → exec (.readObject sq cid) s = .next (x.1.finish c x.2.1))) ∧
  (∀ (sq cid : Nat) (c : Cmd) (s : State), s.Accepts sq cid 0x12 rangeCheck c →
    exec (.rangeOp sq cid) s = .next ((s.started c 0).startRange (c.f 4 7 0) (c.f 2 63 0) (c.f 3 63 0) c.cls
      (some (c.sq, c.cid)) none)) ∧
  (∀ (sq cid : Nat) (c : Cmd) (s : State), s.Accepts sq cid 0x20 runCheck c →
    exec (.runPipeline sq cid) s = .next ((s.started c (c.f 2 15 0 + 1)).feedPipe (c.f 2 63 61))) ∧
  (∀ (sq cid : Nat) (c : Cmd) (s : State), s.Accepts sq cid 0x60 noCheck c →
    let s1 := s.started c 0
    let recs := (s1.readable (c.f 2 63 0)).take (c.f 3 31 0)
    let fit := recs.take (c.capacity / 64)
    let bytes := fit.flatMap JRec.bytes
    exec (.journalRead sq cid) s = .next ((s1.writeResult c St.OK bytes).completeU c.uid St.OK
      (bytes.length * 2 ^ 32 + b2n (decide (fit.length < recs.length)) * 2 ^ 31 + fit.length))) ∧
  (∀ (sq cid : Nat) (c : Cmd) (content : NvmContent) (s : State), s.Accepts sq cid 0x40 (nvmCheck content) c →
    let s1 := s.started c 0
    let r : NvmRun := ⟨c.sq, c.cid, c.f 2 1 0, content⟩
    let s2 := { s1 with flash := { s1.flash with nvm := s1.flash.nvm ++ [r] } }
    exec (.nvmWrite sq cid content) s = .next (if s1.flash.nvm = [] then s2.nvmBegin r else s2))

/-- R206 to R227: the commands on sequences, each accepted. -/
def Obligations.SequenceCommands : Prop :=
  (∀ (sq cid : Nat) (c : Cmd) (s : State), s.Accepts sq cid 0x21 openCheck c →
    exec (.seqOpen sq cid) s = .next (openGo (s.started c c.tokens) c)) ∧
  (∀ (sq cid : Nat) (c : Cmd) (s : State), s.Accepts sq cid 0x22 appendCheck c →
    exec (.seqAppend sq cid) s = .next (appendGo (s.started c c.tokens) c)) ∧
  (∀ (sq cid : Nat) (c : Cmd) (s : State), s.Accepts sq cid 0x23 forkCheck c →
    exec (.seqFork sq cid) s = .next (forkGo (s.started c c.tokens) c)) ∧
  (∀ (sq cid : Nat) (c : Cmd) (s : State), s.Accepts sq cid 0x24 closeCheck c →
    exec (.seqClose sq cid) s = .next (closeGo (s.started c 0) c)) ∧
  (∀ (sq cid : Nat) (c : Cmd) (s : State), s.Accepts sq cid 0x25 preemptCheck c →
    exec (.seqPreempt sq cid) s = .next (preemptGo (s.started c 0) c)) ∧
  (∀ (sq cid : Nat) (c : Cmd) (s : State), s.Accepts sq cid 0x26 resumeCheck c →
    exec (.seqResume sq cid) s = .next (s.resumeGo c))

/-- R279, R291, R317, R318, R365: the commands on queries, shards and the brake, each accepted. -/
def Obligations.BeltCommands : Prop :=
  (∀ (sq cid : Nat) (c : Cmd) (s : State), s.clearTx.Accepts sq cid 0x30 queryCheck c →
    let s1 := s.clearTx.started c 0
    let q := s1.cmdQuery c
    let s2 := s1.dmaIn 1024
    (c.f 5 1 0 = 0 → exec (.querySubmit sq cid) s =
      .next (({ s2 with belt := { s2.belt with pend := s2.belt.pend ++ [q] } }).syncBelt).beltDone) ∧
    (c.f 5 1 0 = 1 → exec (.querySubmit sq cid) s = .next (s2.takeQuery q false).beltDone) ∧
    (2 ≤ c.f 5 1 0 → exec (.querySubmit sq cid) s = .next (s2.fedSubmit q).beltDone)) ∧
  (∀ (sq cid : Nat) (c : Cmd) (s : State), s.clearTx.Accepts sq cid 0x31 cancelCheck c →
    exec (.queryCancel sq cid) s = .next ((s.clearTx.started c 0).cancelByHost (c.w.getD 2 0#64)).beltDone) ∧
  (∀ (sq cid : Nat) (c : Cmd) (s : State), s.clearTx.Accepts sq cid 0x32 shardCheck c →
    let s1 := s.clearTx.started c 0
    exec (.shardLoad sq cid) s = .next (if c.f 5 0 0 = 1 then
      { s1 with ring := { s1.ring with sw := some ⟨some c.uid, true, none⟩, quiet := [] } } else s1.stageShard c).beltDone) ∧
  (∀ (sq cid : Nat) (c : Cmd) (s : State), s.clearTx.Accepts sq cid 0x33 brakeCheck c →
    exec (.ringBrake sq cid) s = .next ((s.clearTx.started c 0).startBrake c.uid false)) ∧
  (∀ (sq cid : Nat) (c : Cmd) (s : State), s.clearTx.Accepts sq cid 0x34 releaseCheck c →
    exec (.ringRelease sq cid) s = .next ((s.clearTx.started c 0).startBrake c.uid true).beltDone)

/-- R358, R359: a command that fails a check completes with the check's status and does nothing else; one that waits is deferred
where its DEFER is set and the list has room, and refused where it is not set. Stated of NOP, SEQ_OPEN, SEQ_FORK, QUERY_SUBMIT
and NVM_WRITE. -/
def Obligations.RefusedCommands : Prop :=
  ∀ (sq cid st code : Nat) (c : Cmd) (s : State),
    (s.fetched sq cid 0x01 = some c → s.verdict c noCheck = .refuse st code →
      exec (.nop sq cid) s = .next (s.completeU c.uid st 0 code)) ∧
    (s.fetched sq cid 0x21 = some c → s.verdict c openCheck = .refuse st code →
      exec (.seqOpen sq cid) s = .next (s.completeU c.uid st 0 code)) ∧
    (s.fetched sq cid 0x23 = some c → s.verdict c forkCheck = .wait st code → c.stage = .ready → c.defer = true →
      (s.host.cmds.filter (fun k => k.stage = .deferred)).length < 256 →
      exec (.seqFork sq cid) s = .next (((s.reserveSlots c).modCmdU c.uid (fun k =>
        { k with stage := .deferred, since := s.now })).updDefer)) ∧
    (s.clearTx.fetched sq cid 0x30 = some c → s.clearTx.verdict c queryCheck = .wait st code → c.stage = .ready →
      c.defer = false → exec (.querySubmit sq cid) s = .next (s.clearTx.completeU c.uid st 0 code).beltDone) ∧
    (s.fetched sq cid 0x40 = some c → ∀ content, s.verdict c (nvmCheck content) = .refuse st code →
      exec (.nvmWrite sq cid content) s = .next ((s.completeU c.uid st 0 code).raise Fld.CFG_NVM_EVENTS_NVM_FAIL))

/-! ## Ranges, the ledger's own events -/

/-- R211, R219, R223, R225, R245 to R248: a range operation has its effect on the lines of its range, and completes; waits for
blocks, copies of pages, swaps out and in. -/
def Obligations.RangesAndLedgerEvents : Prop :=
  (∀ (id op : Nat) (r : RangeRec) (s : State), s.ul.ranges.find? (fun r => r.id = id && r.op = op) = some r →
    s.rangeReady r = true →
    let s1 := s.applyRange op r.base r.size r.cls
    let t := { s1 with ul := { s1.ul with
      ranges := s1.ul.ranges.map (fun x => if x.id = id then { x with applied := true } else x) } }
    (op = 0 → exec (.prefetch id) s = .next t) ∧ (op = 1 → exec (.flush id) s = .next t) ∧
    (op = 2 → exec (.invalidate id) s = .next t) ∧ (op = 3 → exec (.dead id) s = .next t) ∧
    (op = 4 → exec (.live id) s = .next t)) ∧
  (∀ (id : Nat) (r : RangeRec) (s : State), s.ul.ranges.find? (fun r => r.id = id && r.applied) = some r →
    let s1 := { s with ul := { s.ul with ranges := s.ul.ranges.filter (fun x => x.id ≠ id) } }
    exec (.rangeOpComplete id) s = .next (match r.cmd with
      | some (sq, cid) => s1.complete sq cid St.OK
      | none => s1)) ∧
  (∀ s : State, exec .reservationRetry s = .next s.retryAll.noteConds) ∧
  (∀ (w : WaitRef) (x : LWait) (s : State), s.waitNamed w = some x →
    exec (.reservationStallTimeout w) s = .next (s.stallOut x).noteConds) ∧
  (∀ (id : Nat) (k : KvCopy) (q : Seq) (s : State), s.kvl.copies.find? (fun k => k.id = id) = some k →
    s.seq? k.seq = some q → exec (.kvCopyComplete id) s = .next (s.endCopy k q)) ∧
  (∀ (n : Nat) (q : Seq) (s : State), s.seq? n = some q → q.state = 2 → s.rowsOfSeq n = 0 →
    (∀ k ∈ s.kvl.copies, k.seq ≠ n) →
    ((∀ e ∈ q.pages, (s.pageRef e.unit).poison = false) → exec (.swapOutComplete n) s = .next (s.swapOut n q)) ∧
    ((∃ e ∈ q.pages, (s.pageRef e.unit).poison = true) → exec (.swapOutComplete n) s =
      .next ((((s.freeSwap q.swapResv).setSeq n { q with swapResv := [] }).faultSeq n).syncKv))) ∧
  (∀ (n : Nat) (q : Seq) (s : State), s.seq? n = some q → q.state = 4 →
    ((∀ e ∈ q.pages, s.swapCrcOk e = true) → exec (.swapInComplete n false) s =
      .next (((((s.swapBack n q true).modSeq n (fun q => { q with state := 1 })).endWaitCmd n St.OK).syncKv).noteConds)) ∧
    exec (.swapInComplete n true) s = .next (s.swapFail n q).syncKv)

/-! ## The underlayer -/

/-- R236, R237, R249, R250, R259, R339, R340: a request at its slice's point, past the equator where it comes from the other
half, is granted in its turn, served, answered; fills and fall-throughs end once the channel has granted them. -/
def Obligations.SliceRequests : Prop :=
  (∀ (o : UlOp) (what : LostData) (p : Place) (s : State), s.home o.r.line = some p →
    let q := s.classed o
    let i := pointNo p.slice (!q.isRead)
    let e := eqPoint p.half
    let there := (s.point i).waiting.contains q || (s.point e).waiting.contains q
    (there = true ∨ 16 ≤ q.r.master) → isScrub q = false →
    let s0 := { s with ul := { s.ul with out := [] } }
    let s1 := if there then s0 else s0.submit q
    let s2 := if (s1.point e).waiting.contains q then s1.crossEquator p.half else s1
    let t := fun (what : LostData) => match s2.grant i s2.grantable with
      | (s3, some x) => s3.portServes x .clean (if x = q then what else .plain)
      | (s3, none) => s3
    (o.kind = .read → exec (.sliceRead o.r what) s = .next (t what)) ∧
    (o.kind = .store → exec (.sliceStore o.r) s = .next (t .plain)) ∧
    (o.kind = .reduce → exec (.reductionRequest o.r) s = .next (t .plain))) ∧
  (∀ (line x : Nat) (m : Mshr) (s : State), s.entryFor line = some (x, m) → m.falling = false →
    (∀ s0 t, s.channelTurn line (fillOf line) = some s0 → s0.fillEntry x line m = some t →
      exec (.sliceFillComplete line) s = .next t) ∧
    (∀ s0, s.channelTurn line (fillOf line) = some s0 → s0.fillEntry x line m = none →
      exec (.sliceFillComplete line) s = .next s) ∧
    (s.channelTurn line (fillOf line) = none → exec (.sliceFillComplete line) s = .next s)) ∧
  (∀ (line x : Nat) (m : Mshr) (s : State), s.entryFor line = some (x, m) → m.falling = true →
    (∀ s0, s.channelTurn line (fillOf line) = some s0 →
      let s1 := ({ s0 with ul := { s0.ul with out := [] } }).closeEntry x line
      exec (.fallThroughComplete line) s = .next ((s1.fallThrough line m).drainInq x).settleSlice) ∧
    (s.channelTurn line (fillOf line) = none → exec (.fallThroughComplete line) s = .next s))

/-- R252 to R263: errors the underlayer and HBM correct, errors they cannot, scrubbing, rows replaced and slices retired. -/
def Obligations.UnderlayerErrors : Prop :=
  (∀ (slice die row word bits : Nat) (bit0 : Bool) (s : State), slice < 128 → die < 2 → row < 16384 → word < 128 →
    s.sliceState slice ≠ 2 →
    let k := wordKey slice die row word
    (∀ l, tabFind s.ul.lines k = some l → bit0 = lineParity l.tag → bits ≤ s.corrects l →
      exec (.ulCorrectableError slice die row ⟨word, bits, bit0⟩) s = .next (s.correctUl slice die row word)) ∧
    (∀ l, tabFind s.ul.lines k = some l → bit0 ≠ lineParity l.tag ∨ s.corrects l < bits →
      exec (.ulCorrectableError slice die row ⟨word, bits, bit0⟩) s =
        .next (s.failCached k l (word % 32 / 4) .plain)) ∧
    (tabFind s.ul.lines k = none → bits ≤ 2 →
      exec (.ulCorrectableError slice die row ⟨word, bits, bit0⟩) s = .next (s.correctUl slice die row word))) ∧
  (∀ (slice : Nat) (s : State), exec (.correctionLogExpiry slice) s = .next { s with ul := { s.ul with
    corrLog := tabPut [] s.ul.corrLog slice ((tabGet [] s.ul.corrLog slice).drop 1) } }) ∧
  (∀ (line sector k : Nat) (l : Line) (s : State), s.lineOf line = some (k, l) → sector < 8 → l.valid.getLsbD sector = true →
    l.dirty.getLsbD sector = false → exec (.ulUncorrectableClean line sector) s = .next (s.failClean k)) ∧
  (∀ (line sector k : Nat) (what : LostData) (l : Line) (s : State), s.lineOf line = some (k, l) → sector < 8 →
    l.valid.getLsbD sector = true → l.dirty.getLsbD sector = true →
    exec (.ulUncorrectableDirty line sector false what) s = .next (s.failDirty k l sector what)) ∧
  (∀ (line sector : Nat) (what : LostData) (s : State),
    exec (.ulUncorrectableDirty line sector true what) s = .next (s.failHbm line sector what)) ∧
  (∀ (line k : Nat) (l : Line) (s : State), s.lineOf line = some (k, l) →
    exec (.tagError line false) s = .next (s.raise Fld.ULC_EVENTS_TAG_REPAIRED) ∧
    exec (.tagError line true) s = .next (s.loseTag k)) ∧
  (∀ (found : ScrubFind) (what : LostData) (s : State), s.scrubRuns = true →
    let slice := keySlice s.ul.scrubUl
    (s.sliceState slice = 2 → exec (.scrubUlVisit found what) s = .next (s.ulWalk .clean what)) ∧
    (s.sliceState slice ≠ 2 →
      let s1 := ({ s with ul := { s.ul with out := [] } }).askScrub
      exec (.scrubUlVisit found what) s = .next (match s1.grant (pointNo slice false) s1.grantable with
        | (t, some x) => t.portServes x found what
        | (t, none) => t))) ∧
  (∀ (found : ScrubFind) (what : LostData) (s : State), s.scrubRuns = true → s.hbmBytes ≠ 0 →
    let s1 := s.askScrubHbm s.ul.scrubHbm
    exec (.scrubHbmVisit found what) s = .next (match s1.channelTurn s1.ul.scrubHbm isScrub with
      | some t => t.hbmWalk found what
      | none => s1)) ∧
  (∀ (ch row word : Nat) (left : Bool) (s : State), s.ul.chans.contains ch = true →
    s.fbit (Fld.ULC_CHAN_RET_RETIRED (ch / 32)) (ch % 32) = false →
    exec (.hbmCorrectableError ch row word left) s = .next (s.correctHbm ch row word left)) ∧
  (∀ (slice : Nat) (lost : List (Nat × LostData)) (s : State), s.sliceState slice = 1 → s.mshrOf slice = [] →
    s.inqOf slice = [] →
    let gone := if s.fld (Fld.ULC_SLICE_CAUSE slice) = 2 then lost else []
    exec (.sliceDrainComplete slice lost) s =
      .next (((s.keysOf slice).foldl (fun s k => s.drainLine gone k) s).endRetire slice).returnHanded) ∧
  (∀ s : State, s.ul.pinDue = true →
    let s1 := s.pinRecompute false
    exec .pinRecomputeComplete s = .next ({ s1 with ul := { s1.ul with pinDue := false } }).journalRetirements) ∧
  (∀ (slice die row : Nat) (s : State), s.ul.rowJobs.contains (slice, die, row) = true →
    let s1 := { s with ul := { s.ul with rowJobs := s.ul.rowJobs.filter (fun j => j ≠ (slice, die, row)) } }
    let s2 := (s1.incFld (Fld.ULC_SLICE_SPARES_USED slice)).raise Fld.ULC_EVENTS_ROW_REPLACED
    exec (.rowReplacementComplete slice die row) s =
      .next ((s2.event Ev.UL_ROW_REPLACED (unitRow slice die row)).addDefect 0x08
        (unitRow slice die row + (die * 128 + s1.sparesUsed slice die) * 2 ^ 32) Ev.UL_ROW_REPLACED).returnHanded)

/-! ## Frames -/

/-- R266 to R283, R302 to R307, R320: an intact frame on a port that is up and on the ring's path, by its type. A frame on
another port has no effect; one stomped upstream goes on stomped; one that fails a check here is handled as R306 says; one of
another type is no such command. -/
def Obligations.FramesReceived : Prop :=
  (∀ (rx : Rx) (f : Frame) (s : State), s.Takes rx f →
     let s1 := s.taken rx f
     (fType f = FT.EMPTY → exec (.emptyFrame rx f) s = .next (s1.emptyAct rx.port f).beltDone) ∧
     (fType f = FT.CORPUS → exec (.corpusFrame rx f) s = .next (s1.corpusAct rx.port f).beltDone) ∧
     (fType f = FT.TOP_NOTE → exec (.topNote rx f) s = .next (s1.markerAct rx.port f).beltDone) ∧
     (fType f = FT.SEGMENT → exec (.segment rx f) s = .next (s1.markerAct rx.port f).beltDone) ∧
     (fType f = FT.QUERY → exec (.queryFrame rx f) s = .next (s1.queryAct rx.port f).beltDone) ∧
     (fType f = FT.SHARD → exec (.shardFrame rx f) s = .next (s1.shardAct rx.port f).beltDone) ∧
     (isCall f 1 = true → exec (.discover rx f) s = .next (s1.discoverAct rx.port f).beltDone) ∧
     (isCall f 2 = true → exec (.confirm rx f) s = .next (s1.confirmAct rx.port f).beltDone) ∧
     (isCall f 3 = true → exec (.join rx f) s = .next (s1.joinAct rx.port f).beltDone)) ∧
  (∀ (rx : Rx) (f : Frame) (c : Instr) (s : State),
    (fType f = FT.EMPTY ∧ c = .emptyFrame rx f) ∨ (fType f = FT.CORPUS ∧ c = .corpusFrame rx f) ∨
    (fType f = FT.TOP_NOTE ∧ c = .topNote rx f) ∨ (fType f = FT.SEGMENT ∧ c = .segment rx f) ∨
    (fType f = FT.QUERY ∧ c = .queryFrame rx f) ∨ (fType f = FT.SHARD ∧ c = .shardFrame rx f) ∨
    (isCall f 1 = true ∧ c = .discover rx f) ∨ (isCall f 2 = true ∧ c = .confirm rx f) ∨
    (isCall f 3 = true ∧ c = .join rx f) →
    ((s.portUp rx.port && s.onPath rx.port) = false → exec c s = .next s.clearTx.beltDone) ∧
    (s.portUp rx.port = true → s.onPath rx.port = true →
      let s1 := (s.clearTx.rxCheck rx 0 f).1
      (rxIs rx 0 = true → rxFrame rx f = .inverted → exec c s = .next (s1.forwardStomped rx.port f).beltDone) ∧
      (rxIs rx 0 = false ∨ rxFrame rx f = .bad → exec c s = .next (s1.badAct rx.port f).beltDone))) ∧
  (∀ (rx : Rx) (f : Frame) (c : Instr) (s : State),
    (fType f ≠ FT.EMPTY ∧ c = .emptyFrame rx f) ∨ (fType f ≠ FT.CORPUS ∧ c = .corpusFrame rx f) ∨
    (fType f ≠ FT.TOP_NOTE ∧ c = .topNote rx f) ∨ (fType f ≠ FT.SEGMENT ∧ c = .segment rx f) ∨
    (fType f ≠ FT.QUERY ∧ c = .queryFrame rx f) ∨ (fType f ≠ FT.SHARD ∧ c = .shardFrame rx f) ∨
    (isCall f 1 = false ∧ c = .discover rx f) ∨ (isCall f 2 = false ∧ c = .confirm rx f) ∨
    (isCall f 3 = false ∧ c = .join rx f) →
    exec c s = .next s)

/-- R310, Table 10-6: an intact CONTROL frame, by its subtype. -/
def Obligations.ControlMessages : Prop :=
  ∀ (rx : Rx) (f : Frame) (s : State), s.Takes rx f → fType f = FT.CONTROL →
    let out := fun (act : State → Nat → Frame → State) =>
      Host.Outcome.next (φ := Fault) (ρ := Refusal) (act (s.taken rx f) rx.port f).beltDone
    (fSub f = 0x01 → exec (.directory rx f) s = out State.directoryAct) ∧
    (fSub f = 0x02 → exec (.takeover rx f) s = out State.takeoverAct) ∧
    (fSub f = 0x03 → exec (.abandon rx f) s = out State.abandonAct) ∧
    (fSub f = 0x04 → exec (.bypassed rx f) s = out State.bypassedAct) ∧
    (fSub f = 0x05 → exec (.leave (.message rx f)) s = out State.leaveAct) ∧
    (fSub f = 0x06 → exec (.demote rx f) s = out State.demoteAct) ∧
    (fSub f = 0x07 → exec (.tol rx f) s = out State.tolAct) ∧
    (fSub f = 0x08 → exec (.resume rx f) s = out State.resumeAct) ∧
    (fSub f = 0x09 → exec (.qcancel rx f) s = out State.qcancelAct) ∧
    (fSub f = 0x0A → exec (.fedgen rx f) s = out State.fedgenAct) ∧
    (fSub f = 0x10 → exec (.result rx f) s = out State.resultAct) ∧
    (fSub f = 0x11 → exec (.refuse rx f) s = out State.refuseAct) ∧
    (fSub f = 0x12 → exec (.homeBehind rx f) s = out State.homeBehindAct) ∧
    (fSub f = 0x13 → exec (.fillIn rx f) s = out State.fillInAct) ∧
    (fSub f = 0x14 → exec (.report rx f) s = out State.reportAct) ∧
    (fSub f = 0x15 → exec (.gap rx f) s = out State.gapAct) ∧
    (fSub f = 0x16 → exec (.staged rx f) s = out State.stagedAct) ∧
    (fSub f = 0x17 → exec (.quiet rx f) s = out State.quietAct) ∧
    (fSub f = 0x18 → exec (.linkReady rx f) s = out State.linkReadyAct)

/-! ## The belt's own events -/

/-- R274, R282, R287, R298, R316, R331, R364: markers are due, rounds end, sheds are checked, waits run out. -/
def Obligations.BeltEvents : Prop :=
  (∀ s : State, s.mayMark = true → s.intervalOver = true → exec .markerIntervalExpiry s = .next s.clearTx.markNow.beltDone) ∧
  (∀ (c : Nat) (s : State), s.roundRuns c = true → s.clearTx.roundRuns c = true →
    exec (.scoreRoundEnd c none) s = .next ((s.clearTx.roundEnd c).roundIdle c).beltDone) ∧
  (∀ (c t p : Nat) (twice : Bool) (s : State), s.roundRuns c = true → s.phys? c t = some p →
    let s1 := if twice then s.clearTx.retireTile c p Ev.TILE_TRANSIENT else s.clearTx.transient c p
    exec (.scoreRoundEnd c (some (t, twice))) s =
      .next (if s1.roundRuns c then (s1.roundEnd c).roundIdle c else s1).beltDone) ∧
  (∀ (c : Nat) (s : State), s.scoreClusters.contains c = true → s.clusterUp c = true →
    let k := s.scoreCl c
    let b := s.backlog c
    let s1 := s.setScore c { k with backlog := b }
    let done := fun (t : State) => Host.Outcome.next (φ := Fault) (ρ := Refusal) ((t.settleScore c).syncBelt).beltDone
    (s1.highWater ≤ b → k.backlog ≤ b → s1.nextShed k = none → exec (.shedCheck c) s = done s1) ∧
    (∀ p, s1.highWater ≤ b → k.backlog ≤ b → s1.nextShed k = some p →
      let k1 := s1.scoreCl c
      let s2 := s1.setScore c { k1 with shed := k1.shed ++ [p], lastShed := some p }
      exec (.shedCheck c) s = done (((s2.raise Fld.BLT_EVENTS_SHED).event Ev.BELT_SHED c).letPassTap c (fun f => f.home = p))) ∧
    (¬(s1.highWater ≤ b ∧ k.backlog ≤ b) → b ≤ s1.lowWater →
      exec (.shedCheck c) s = done (s1.setScore c { s1.scoreCl c with shed := (s1.scoreCl c).shed.drop 1 })) ∧
    (¬(s1.highWater ≤ b ∧ k.backlog ≤ b) → s1.lowWater < b → exec (.shedCheck c) s = done s1)) ∧
  (∀ (home rev seg seq : Nat) (s : State), s.belt.fillSent.contains (⟨home, rev, seg, seq⟩ : FillIn) = true →
    let s1 := { s with belt := { s.belt with fillSent := s.belt.fillSent.filter (fun (y : FillIn) => y ≠ (⟨home, rev, seg, seq⟩ : FillIn)),
                                             lostDue := s.belt.lostDue ++ [(⟨home, rev, seg, seq⟩ : FillIn)] } }
    let s2 := s1.effectDone (fun r => fSub r = 0x13 && fw r 5 63 48 = home && fw r 5 37 32 = seg && fw r 5 31 0 = rev
      && fw r 6 63 0 = seq)
    exec (.fillInTimeout home rev seg seq) s = .next (s2.event Ev.BELT_LOST_RECORD (s2.unitQ home))) ∧
  (∀ (due : Nat) (counts : Tab Nat) (s : State), s.ring.audit = some (due, counts) → s.isManager = true → s.formed = true →
    s.ring.phase = .formed → due ≤ s.now →
    let owners := (s.belt.dir.homes.filterMap (fun h => s.ownerNow h)).eraseDups
    let s1 := s.clearTx
    exec (.slotAudit ()) s = .next (owners.foldl (fun s o => s.auditOwner o (tabGet 0 counts o) (s.ownedCount o))
      { s1 with ring := { s1.ring with audit := none } })) ∧
  (∀ (qnum : W64) (q : FedQuery) (s : State), s.ring.fed.find? (fun q => q.qnum = qnum) = some q →
    exec (.fedTimeout qnum) s = .next (s.mergeFed q).settleCancels) ∧
  (∀ (sq cid : Nat) (c : Cmd) (p : Placed) (s : State), s.cmd? sq cid = some c →
    s.ring.placed.find? (fun p => p.q.src = .host c.uid && p.dest.isNone) = some p →
    exec (.queryPlacementTimeout sq cid) s =
      .next ((s.clearTx.dropPlaced p.qnum).completeU c.uid St.NO_RESOURCE 0).settleCancels)

/-! ## Links and rings -/

/-- R303, R304, R307, R308, R310, R319, R320, R324: what a port's delimiters, replays, LAST markers and timers do, on a port that is
up; a LAST marker on a forward link tells the neighbour of a bypassed device which path frames take from then on. -/
def Obligations.Links : Prop :=
  (∀ (id : Nat) (s : State), exec (.returnResendTimeout id) s =
    .next ((s.ring.resend.filter (fun r => r.id = id)).foldl (fun s r =>
      let t := s.sendRet r.net r.frame
      if noEffect r.frame then { t with ring := { t.ring with resend := t.ring.resend.filter (fun y => y.id ≠ id) } } else t)
      s.clearTx)) ∧
  (∀ (sender sub seq : Nat) (s : State), exec (.controlPieceTimeout sender sub seq) s =
    .next { s with ring := { s.ring with pieces := s.ring.pieces.filter (fun p =>
      !(p.sender = sender && p.sub = sub && p.seq = seq)) } }) ∧
  (∀ (port hseq : Nat) (s : State), s.portUp port = true →
    exec (.lopRetry port hseq) s = .next (match (s.port port).replay.find? (fun e => e.1 = hseq % 4096) with
      | some e => s.clearTx.setPort port { s.port port with due := (s.port port).due ++ [e] }
      | none => (s.clearTx.linkLasting port).beltDone)) ∧
  (∀ (port hseq : Nat) (e : Nat × Nat) (s : State), (s.port port).asked.find? (fun e => e.1 = hseq) = some e →
    (e.2 < 2 → exec (.retryTimeout port hseq) s = .next ((s.clearTx.setPort port { s.port port with
      asked := (s.port port).asked.map (fun x => if x.1 = hseq then (hseq, 2) else x) }).sendLop port .retry hseq)) ∧
    (2 ≤ e.2 → exec (.retryTimeout port hseq) s = .next ((s.clearTx.setPort port { s.port port with
      asked := (s.port port).asked.filter (fun x => x.1 ≠ hseq) }).linkLasting port).beltDone)) ∧
  (∀ (rx : Rx) (f : Frame) (e : Nat × Nat) (s : State), s.portUp rx.port = true → e ∈ (s.port rx.port).asked →
    e.1 = rxHseq rx →
    let s1 := s.clearTx.setPort rx.port { s.port rx.port with
      asked := (s.port rx.port).asked.filter (fun e => e.1 ≠ rxHseq rx) }
    (rxIs rx 1 = true → rxFrame rx f = .good → exec (.replaySlot rx f) s = .next (s1.replayed rx.port f).beltDone) ∧
    (rxIs rx 1 = true → rxFrame rx f = .inverted →
      exec (.replaySlot rx f) s = .next (s1.forwardStomped rx.port f).beltDone) ∧
    (rxIs rx 1 = false ∨ rxFrame rx f = .bad →
      exec (.replaySlot rx f) s = .next ((s1.badAct rx.port f).linkLasting rx.port).beltDone)) ∧
  (∀ (port pos : Nat) (s : State), s.portUp port = true →
    let s1 := s.clearTx.setFld (Fld.BLT_PORT_STAT_LOCKED port) 1
    exec (.heartbeat port pos) s = .next ((s.clearTx.setFld (Fld.BLT_PORT_STAT_PARTNER port) pos).heartbeat port) ∧
    (s1.onPath port = true → s1.portUp (onwardPort s1 port) = true →
      exec (.alignSlot port) s = .next (s1.slotTime (onwardPort s1 port))) ∧
    (s1.onPath port = false ∨ s1.portUp (onwardPort s1 port) = false → exec (.alignSlot port) s = .next s1)) ∧
  (∀ (port : Nat) (s : State), port < 8 →
    exec (.alignmentLockLost port) s = .next (s.setFld (Fld.BLT_PORT_STAT_LOCKED port) 0)) ∧
  (∀ (port pos : Nat) (s : State), 2 ≤ port % 4 → s.portUp port = true →
    (s.formedOn (port / 4) = true → s.portPeer (port - 2) = pos) →
    exec (.lopBypass port pos) s = .next (s.clearTx.bypass (port / 4) (port % 4 = 3) false).beltDone) ∧
  (∀ (port : Nat) (s : State), s.portUp port = true →
    let s1 := s.clearTx.portDown port
    let net := port / 4
    exec (.sdLossTimeout port) s = .next (if port % 4 = 1 then s1.bypass net true true
      else if port % 4 = 0 then s1.bypass net false true
      else if s1.formedOn net ∧ (if port % 4 = 2 then s1.up net else s1.down net) then s1.breakRing net
      else s1).beltDone) ∧
  (∀ (port e corr bad : Nat) (above : Bool) (s : State), s.portUp port = true →
    let s1 := ((s.clearTx.setFld (Fld.BLT_PORT_STAT_BER_EXP port) e).addFld (Fld.BLT_PORT_CORR_CORRECTED port) corr).addFld
      (Fld.BLT_PORT_ERR_UNCORR port) bad
    exec (.laneBerWindow port e corr bad above) s =
      .next (if above ∨ s1.overRetries port then (s1.linkLasting port).beltDone else s1)) ∧
  (∀ (port partner : Nat) (s : State), port < 8 → s.fld (Fld.BLT_PORT_STAT_STATE port) < 2 →
    let s1 := (((((s.clearTx.setFld (Fld.BLT_PORT_STAT_STATE port) 2).setFld (Fld.BLT_PORT_STAT_PARTNER port) partner).setFld
      (Fld.BLT_PORT_STAT_LOCKED port) 1).setPort port emptyPort).heartbeat port)
    s1.formedOn (port / 4) = false → exec (.portQualified port partner) s = .next s1) ∧
  (∀ (rx : Rx) (s : State), s.portUp rx.port = true →
    (rxIs rx 4 = true → exec (.lastSlot rx none) s = .next (s.clearTx.lastPath rx.port).beltDone) ∧
    (rxIs rx 4 = false → exec (.lastSlot rx none) s = .next s.clearTx.beltDone)) ∧
  (∀ (rx : Rx) (f : Frame) (s : State), s.portUp rx.port = true →
    let s1 := s.receiveAs rx 4 f (fun s f => s.frameAct rx.port f)
    (rxIs rx 4 = true → exec (.lastSlot rx (some f)) s = .next (s1.lastPath rx.port).beltDone) ∧
    (rxIs rx 4 = false → exec (.lastSlot rx (some f)) s = .next s1.beltDone))

/-- R317, R318: the brake and its release, at their origin and at the other devices. -/
def Obligations.Brakes : Prop :=
  (∀ (origin : Nat) (s : State), s.formed = true →
    let s1 := s.clearTx.setFld Fld.BLT_BRAKE_LAST origin
    (origin ≠ s1.pos → exec (.lopBrake origin) s = .next ((s1.addBrake origin).sendLop (s1.retOut 0) .brake origin)) ∧
    (origin = s1.pos → exec (.lopBrake origin) s = .next { s1 with ring := { s1.ring with
      brakeOps := s1.ring.brakeOps.map (fun b => if b.release then b else { b with back := true }) } })) ∧
  (∀ (origin : Nat) (s : State), s.formed = true → origin ≠ s.clearTx.pos →
    exec (.lopRelease origin) s =
      .next (((s.clearTx.dropBrake origin).sendLop (s.clearTx.retOut 0) .release origin).placeAll).beltDone) ∧
  (∀ (origin : Nat) (s : State), s.formed = true → origin = s.clearTx.pos →
    exec (.lopRelease origin) s = .next ((s.clearTx.ring.brakeOps.filter (fun b => b.release)).foldl
      (fun s b => s.completeU b.uid St.OK 0) { s.clearTx with ring := { s.clearTx.ring with
        brakeOps := s.clearTx.ring.brakeOps.filter (fun b => !b.release) } })) ∧
  (∀ s : State, exec .brakeResendTimeout s = .next ((s.ring.brakeOps.filter (fun b => !b.back)).foldl (fun s b =>
    s.sendLop (s.retOut 0) (if b.release then .release else .brake) s.pos) s.clearTx)) ∧
  (∀ s : State, exec .brakeStoppingDistanceElapsed s =
    .next ((s.ring.brakeOps.filter (fun b => b.back && !b.release)).foldl (fun s b => s.completeU b.uid St.OK 0)
      { s with ring := { s.ring with brakeOps := s.ring.brakeOps.filter (fun b => !(b.back && !b.release)) } }))

/-- R312 to R314, R325, R327: formation by the manager, planned removal, the standby's takeover. -/
def Obligations.Formation : Prop :=
  (∀ s : State, s.ready = true → s.role = 1 → s.formed = false → s.ring.phase = .idle →
    let s1 := ((s.clearTx.setNetPos 0 0).setPhase 0 .discover).sendDiscover 0
    exec .formationStart s = .next { s1 with ring := { s1.ring with formTb := s1.now } }) ∧
  (∀ s : State, s.ring.phase = .discover → exec .discoverRetry s = .next (s.clearTx.sendDiscover 0)) ∧
  (∀ s : State, s.ring.phase = .discover ∨ s.ring.phase = .confirm ∨ s.ring.phase = .reports →
    exec .formationTimeout s = .next (((s.clearTx.failFormation 0).setPhase 0 .discover).sendDiscover 0)) ∧
  (∀ s : State, s.ring.phase = .reports → s.allReported = true →
    let d := s.clearTx.buildDir
    let s1 := (((s.clearTx.setFld Fld.BLT_SLOTS_P d.2).sendDir d.1))
    let s2 := ((s1.installDir d.1 s.clearTx.epoch).issueSlots).setPhase 0 .formed
    exec .reportCollectionComplete s = .next (s2.markNow.placeAll).beltDone) ∧
  (∀ (force : Bool) (s : State), s.linked = true →
    exec (.leave (.register force)) s = .next (s.clearTx.startLeave force).beltDone) ∧
  (∀ s : State, s.role = 2 → s.formed = true → s.ready = true → s.braked = false → s.ring.behind = [] →
    let s1 := (s.clearTx.setRole 1).raise Fld.BLT_RING_EVENTS_TAKEOVER
    let s2 := s1.event Ev.MGR_TAKEOVER (s1.unitQ s1.pos)
    let fill := if s2.elastic then 0 else s2.fld Fld.BLT_SLOTS_P - circulation (s2.fld Fld.BLT_RTT_RTT)
    let r := { s2.ring with acting := true, phase := .formed, sw := none, quiet := [], holder := s2.pos, fillTo := fill }
    let s3 := { s2 with ring := r }
    let s4 := (if s3.ring.gone.contains 0 then s3 else s3.sendControl 0 0 0x06).setFld Fld.BLT_RING_ELASTIC 1
    let s5 := [4, 5, 6, 7].foldl (fun (s : State) x =>
      if s.fld (Fld.BLT_PORT_STAT_STATE x) = 5 then s.setFld (Fld.BLT_PORT_STAT_STATE x) 0 else s) s4
    let s6 := (s5.ring.linkReady.filter (fun e => e.1 < 4096)).foldl (fun (s : State) e => s.tryJoin 0 e.1) s5
    exec .standbyTakeoverTimeout s = .next s6.markNow.beltDone)

/-! ## Regulation, the host interface, the flash -/

/-- R342 to R344: at the end of a window the capacities are shown, every pair is measured against the guarantee in force, and
the next window begins, with the guarantees written since the last one in force. -/
def Obligations.RegulationWindow : Prop :=
  ∀ (ulSteps eqSteps : Nat) (pcie : List (Nat × Nat)) (s : State),
    let s0 := s.clearTx.noteDark
    let cap := s0.capacity ulSteps eqSteps s0.winTicks
    let s1 := (List.range 4).foldl (fun (t : State) r => t.showCap (cap r) r) s0
    let s2 := allPairs.foldl (fun (t : State) e => t.measurePair pcie (s.guar e.1 e.2) (cap e.2) e.1 e.2) s1
    exec (.regulationWindowEnd ⟨ulSteps, eqSteps⟩ pcie) s = .next s2.nextWindow

/-- R348 to R353: doorbells, queues enabled and disabled, fetches. -/
def Obligations.Queues : Prop :=
  (∀ (q : Nat) (v : W32) (s : State), q < 64 → s.linked = true → s.flag (Fld.HIF_SQ_CFG_EN q) = true →
    let t := bitsOf v 11 0
    let head := s.fld (Fld.HIF_SQ_STAT_HEAD q)
    let tail := s.fld (Fld.HIF_SQ_STAT_TAIL q)
    (t < s.sqSize q → ringGap (s.sqSize q) head tail ≤ ringGap (s.sqSize q) head t →
      exec (.sqTailDoorbell q v) s = .next (s.setFld (Fld.HIF_SQ_STAT_TAIL q) t)) ∧
    (s.sqSize q ≤ t ∨ ringGap (s.sqSize q) head t < ringGap (s.sqSize q) head tail →
      exec (.sqTailDoorbell q v) s = .next (s.raise Fld.HIF_EVENTS_DB_ERR))) ∧
  (∀ (q : Nat) (v : W32) (s : State), q < 64 → s.linked = true → s.flag (Fld.HIF_CQ_CFG_EN q) = true →
    let h := bitsOf v 11 0
    let head := s.fld (Fld.HIF_CQ_STAT_HEAD q)
    let tail := s.fld (Fld.HIF_CQ_STAT_TAIL q)
    (h < s.cqSize q → ringGap (s.cqSize q) head h ≤ ringGap (s.cqSize q) head tail →
      let s1 := s.setFld (Fld.HIF_CQ_STAT_HEAD q) h
      exec (.cqHeadDoorbell q v) s = .next (State.cqDrain s1.host.cqWait.length s1 q)) ∧
    (s.cqSize q ≤ h ∨ ringGap (s.cqSize q) head tail < ringGap (s.cqSize q) head h →
      exec (.cqHeadDoorbell q v) s = .next (s.raise Fld.HIF_EVENTS_DB_ERR))) ∧
  (∀ (q : Nat) (v : W32) (s : State), q < 64 → s.linked = true → bitsOf v 31 31 = 1 →
    (s.flag (Fld.HIF_SQ_CFG_EN q) = false → s.flag (Fld.HIF_CQ_CFG_EN (bitsOf v 29 24)) = true →
      exec (.sqEnable q v) s = .next (((s.hostWrite (Off.HIF_SQ_CFG q) v).setFld (Fld.HIF_SQ_STAT_HEAD q) 0).setFld
        (Fld.HIF_SQ_STAT_TAIL q) 0)) ∧
    (s.flag (Fld.HIF_SQ_CFG_EN q) = false → s.flag (Fld.HIF_CQ_CFG_EN (bitsOf v 29 24)) = false →
      exec (.sqEnable q v) s = .next (s.raise Fld.HIF_EVENTS_REJECT)) ∧
    (s.flag (Fld.HIF_CQ_CFG_EN q) = false →
      let s1 := s.hostWrite (Off.HIF_CQ_CFG q) v
      exec (.cqEnable q v) s = .next ((({ s1 with host := { s1.host with cqNew := tabErase s1.host.cqNew q } }.setFld
        (Fld.HIF_CQ_STAT_HEAD q) 0).setFld (Fld.HIF_CQ_STAT_TAIL q) 0).setFld (Fld.HIF_CQ_STAT_PHASE q) 1))) ∧
  (∀ (q : Nat) (v : W32) (s : State), q < 64 → s.linked = true → bitsOf v 31 31 = 0 →
    (s.flag (Fld.HIF_SQ_CFG_EN q) = true → s.cfgSame (Off.HIF_SQ_CFG q) v = true →
      exec (.sqDisable q v) s = .next (s.hostWrite (Off.HIF_SQ_CFG q) v)) ∧
    (s.flag (Fld.HIF_CQ_CFG_EN q) = true → s.cfgSame (Off.HIF_CQ_CFG q) v = true → s.cqNamed q = false →
      exec (.cqDisable q v) s = .next (s.hostWrite (Off.HIF_CQ_CFG q) v)) ∧
    (s.flag (Fld.HIF_CQ_CFG_EN q) = true → s.cqNamed q = true →
      exec (.cqDisable q v) s = .next (s.raise Fld.HIF_EVENTS_REJECT))) ∧
  (∀ (q n : Nat) (s : State), s.fetching = true → s.nextSq = some (q, n) →
    exec (.commandFetch false) s = .next (s.takeCmd q n) ∧
    exec (.commandFetch true) s = .next (((s.setFld (Fld.HIF_SQ_CFG_EN q) 0).raise Fld.HIF_EVENTS_FETCH_ERR).raise
      (Fld.HIF_SQ_STAT_FETCH_ERR q)))

/-- R352, R359, R371, R374, R476: deferred commands time out, interrupts are sent, results released, the link goes. -/
def Obligations.HostLink : Prop :=
  (∀ (sq cid : Nat) (c : Cmd) (s : State), s.cmd? sq cid = some c → c.stage = .deferred → c.opcode ≠ 0x26 →
    exec (.deferTimeout sq cid) s = .next (s.completeU c.uid St.TIMEOUT 0)) ∧
  (∀ (cq : Nat) (s : State), s.flag (Fld.HIF_CQ_CFG_IEN cq) = true → 0 < tabGet 0 s.host.cqNew cq →
    exec (.interruptCoalesceTimeout cq) s = .next (s.cqMessage cq)) ∧
  (∀ (n : Nat) (e : Slot) (s : State), tabFind s.host.slots n = some e → e.ready = true → s.linked = true →
    exec (.slotRelease n) s = .next { s with host := { s.host with
      slots := s.host.slots.filter (fun (x : Nat × Slot) => x.2.rseq ≠ e.rseq) } }) ∧
  (∀ s : State, s.host.hostless = false →
    let s1 := (s.dropHost).resetQueues
    exec .pcieHotReset s = .next { s1 with host := { s1.host with linkDown := none } }) ∧
  (∀ s : State, s.host.hostless = false →
    let s1 := s.dropHost
    exec .pcieLinkFailure s = .next (({ s1 with host := { s1.host with hostless := true, linkDown := none } }.setFld
      Fld.KVL_SWAP_SIZE_EN 0).event Ev.PCIE_RETIRED 0)) ∧
  (∀ s : State, s.linked = true →
    exec .pcieLinkDown s = .next { s with host := { s.host with linkDown := some s.now } })

/-- R379, R402, R403, R406: flash operations end, journal pages are programmed, compaction starts. -/
def Obligations.FlashAndJournal : Prop :=
  (∀ (o : FlashOp) (s : State), s.flashOp? = some o →
    exec (.flashOperationComplete true) s = .next (s.opDone o) ∧ exec (.flashOperationComplete false) s = .next (s.opFails o)) ∧
  (∀ s : State, s.mayAppend = true → (s.jseg s.activeSeg = [] ∨ s.pageRecs ≠ []) →
    exec (.journalPageProgram true) s = .next s.pageDone ∧ exec (.journalPageProgram false) s = .next s.pageFails) ∧
  (∀ s : State, s.ready = true → 98304 ≤ (s.jseg s.activeSeg).length ∨ s.jrn.ended = true →
    exec .journalCompaction s = .next s.startCompaction)

/-! ## Power and temperature -/

/-- R441 to R447, R449: load notices, the board's demands, phases and their trials. -/
def Obligations.NoticesAndPhases : Prop :=
  (∀ (demand : Nat) (s : State), s.ready = true → demand ≤ 7 → s.fld Fld.PWR_STATUS_NOTICE < min 7 (demand + 1) →
    let s1 := s.notice (min 7 (demand + 1))
    exec (.boardNoticeRaise demand) s =
      .next { s1 with power := { s1.power with demand := demand, boardRaised := true } }) ∧
  (∀ (demand : Nat) (s : State), s.ready = true → demand + 2 ≤ s.fld Fld.PWR_STATUS_NOTICE →
    let s1 := s.notice (demand + 1)
    exec (.boardHoldExpiry demand) s =
      .next { s1 with power := { s1.power with demand := demand, boardRaised := false } }) ∧
  (∀ s : State, exec .boardNoticeElapsed s = .next { s with power := { s.power with boardRaised := false } }) ∧
  (∀ (r : Nat) (s : State), s.region r = RS.Q1 → s.paused r = false → (s.cluster r).noticeAt = none →
    exec (.phaseShed r) s = .next (s.setLevel r 0)) ∧
  (∀ (r ph : Nat) (s : State), r < 16 → ph < 8 → 2 ≤ s.region r → s.trial? r ph = none →
    s.fbit (Fld.PWR_REGION_STAT_PHASE_OK r) ph = true →
    let s1 := s.clrBit (Fld.PWR_REGION_STAT_PHASE_OK r) ph
    exec (.phaseMismatch r ph) s = .next ({ s1 with power := { s1.power with
      trials := s1.power.trials ++ [(⟨r, ph, false⟩ : PhaseTrial)] } }.updCap r Ev.PHASE_FAILED (unitPhase r ph))) ∧
  (∀ (r ph : Nat) (t : PhaseTrial) (s : State), r < 16 → ph < 8 → 2 ≤ s.region r → s.trial? r ph = some t →
    t.retried = true →
    exec (.phaseMismatch r ph) s = .next (((((s.dropTrial r ph).raise Fld.PWR_EVENTS_PHASE_FAILED).event Ev.PHASE_FAILED
      (unitPhase r ph)).addDefect 0x0D (unitPhase r ph) Ev.PHASE_FAILED).updCap r Ev.PHASE_FAILED (unitPhase r ph))) ∧
  (∀ (r ph : Nat) (s : State), exec (.phaseRetry r ph) s = .next { s with power := { s.power with
    trials := s.power.trials.map (fun t => if t.region = r ∧ t.phase = ph then { t with retried := true } else t) } }) ∧
  (∀ (r ph : Nat) (t : PhaseTrial) (s : State), s.trial? r ph = some t → t.retried = true →
    exec (.phaseTrackWindowEnd r ph) s = .next ((((s.dropTrial r ph).setBit (Fld.PWR_REGION_STAT_PHASE_OK r) ph).raise
      Fld.PWR_EVENTS_PHASE_TRANSIENT).updCap r Ev.PHASE_FAILED (unitPhase r ph)))

/-- R46, R452 to R458: regions wake and rest, the device enters and leaves its idle states, cadence is measured. -/
def Obligations.IdleAndWake : Prop :=
  (∀ (r : Nat) (s : State), r < 16 → s.fld Fld.PWR_STATUS_DSTATE ≤ 2 → s.clusterUp r = true →
    s.workWaits r = true →
    exec (.regionWakeRequest r) s = .next (s.requestWake r)) ∧
  (∀ (r : Nat) (w : Wake) (s : State), s.wakeOf r = some w → w.ramping = false →
    (∀ v ∈ s.power.wakes, v.region / 4 = r / 4 → v.ramping = false) →
    let s1 := State.pauseFor 4 s r
    exec (.wakeSlotWaitTimeout r) s = .next (if s1.slotFree r then s1.startRamp r else s1)) ∧
  (∀ (r : Nat) (w : Wake) (s : State), s.wakeOf r = some w → w.ramping = true →
    let s1 := s.dropWake r
    exec (.regionWakeComplete r) s =
      .next ((((s1.setFld (Fld.PWR_REGION_STAT_VNOW r) (s1.wakeV r)).setRegion r RS.Q1).grantWakes r).kickAll)) ∧
  (∀ (r : Nat) (s : State), s.region r = RS.Q1 → (s.cluster r).noticeAt = none →
    25 ≤ s.tolUs ∨ s.fld (Fld.PPL_STAGE_ROLE r) = 0 →
    let s1 := { s with power := { s.power with leftV := tabInsert s.power.leftV r (s.fld (Fld.PWR_REGION_STAT_VNOW r)) } }
    exec (.q2DwellExpiry r) s =
      .next (((s1.setLevel r 0).setFld (Fld.PWR_REGION_STAT_VNOW r) 100).setRegion r RS.Q2)) ∧
  (∀ (state : Nat) (s : State), s.deepOk = true → state = 3 ∨ state = 4 → s.fld Fld.PWR_STATUS_DSTATE < state →
    state ≤ s.allowed →
    let s1 := (s.powered).foldl (fun s r => s.setFld (Fld.PWR_REGION_STAT_VNOW r) 0) s
    let s2 := { s1.setFld Fld.PWR_STATUS_DSTATE state with tiles := [] }
    exec (.idleDwellExpiry state) s =
      .next (if state = 3 then s2.incFld Fld.PWR_IDLE_Q3_ENTRIES else (s2.ulOff).incFld Fld.PWR_IDLE_Q4_ENTRIES)) ∧
  (∀ (cause : WakeCause) (s : State), s.fld Fld.PWR_STATUS_DSTATE = 3 ∨ s.fld Fld.PWR_STATUS_DSTATE = 4 →
    s.wakes cause = true → exec (.deviceWake cause) s =
      .next (({ s with power := { s.power with wakeFrom := s.fld Fld.PWR_STATUS_DSTATE } }).setFld Fld.PWR_STATUS_DSTATE 5)) ∧
  (∀ s : State, s.fld Fld.PWR_STATUS_DSTATE = 5 →
    let s1 := { s with stack := { s.stack with tbU1 := s.stack.tbMaster, tbCd := s.stack.tbMaster } }
    (s.power.wakeFrom = 4 →
      exec .deviceWakeComplete s = .next ((s1.raiseRegions.refillPins).setFld Fld.PWR_STATUS_DSTATE 1).syncDstate) ∧
    (s.power.wakeFrom ≠ 4 →
      exec .deviceWakeComplete s = .next (s1.raiseRegions.setFld Fld.PWR_STATUS_DSTATE 1).syncDstate)) ∧
  (∀ (counts : List (Option (Nat × Nat))) (s : State), s.running = true →
    exec (.cadenceWindowEnd counts) s = .next ((List.range 16).foldl (fun s n =>
      (s.cadence n (if s.region n = RS.Q1 ∨ s.region n = RS.A then counts.getD n none else none)).moveRail n) s))

/-- R460 to R465: housekeeping channels, the 2 ms round, the underlayer's thermal guard. -/
def Obligations.Housekeeping : Prop :=
  (∀ (n : Nat) (v : W16) (s : State), n < 64 → s.pins.vaux = true → s.pins.vinIb = true ∨ n = 0 ∨ n = 3 →
    exec (.hkChannelRead n v) s = .next (s.setFld (Fld.THM_HK_VALUE n) (if n < 44 then v.toNat else 0))) ∧
  (∀ s : State, s.pins.vaux = true → s.pins.vinIb = true →
    let s1 := ((s.setFld Fld.PWR_SUPPLY_VIN_MV (s.hk 1)).setFld Fld.PWR_SUPPLY_VIN_DA (s.hk 2)).vinLimit
    let s2 := (s1.setFld Fld.THM_TEMP_T_CD (s1.hk 0)).setFld Fld.THM_TEMP_T_U1 (unsigned16 s1.tU1)
    let tCd := signed16 (s1.hk 0)
    (tCd < -640 ∨ 2400 < tCd → exec .housekeepingRound s = .next s2.sensorBad) ∧
    (-640 ≤ tCd → tCd ≤ 2400 →
      let s3 := (s2.sensorGood).thermal (max tCd s1.tU1)
      exec .housekeepingRound s = .next (s3.stepDuty (max tCd s1.tU1)).syncAlert)) ∧
  (∀ s : State, s.pins.vaux = true → s.pins.vinIb = true →
    let n := s.power.u1Corrections
    let rate := s.fld Fld.THM_GUARD_GUARD_RATE
    let q := fun (k : Nat) => { s with power := { s.power with u1Corrections := 0, guardQuiet := k } }
    let s0 := { s with power := { s.power with u1Corrections := 0 } }
    (rate = 0 → exec .guardSecond s = .next ((q 0).setFld Fld.THM_STATUS_GUARD 0).syncAlert) ∧
    (rate ≠ 0 → rate ≤ n → s0.flag Fld.THM_STATUS_GUARD = false → exec .guardSecond s =
      .next ((((q 0).raise Fld.THM_STATUS_GUARD).raise Fld.THM_EVENTS_GUARD).event Ev.UL_THERMAL_GUARD 0).syncAlert) ∧
    (rate ≠ 0 → rate ≤ n → s0.flag Fld.THM_STATUS_GUARD = true → exec .guardSecond s = .next (q 0)) ∧
    (n < rate → s0.flag Fld.THM_STATUS_GUARD = true → 4 * n < rate → 9 ≤ s.power.guardQuiet →
      exec .guardSecond s = .next ((q 0).setFld Fld.THM_STATUS_GUARD 0).syncAlert) ∧
    (n < rate → s0.flag Fld.THM_STATUS_GUARD = true → 4 * n < rate → s.power.guardQuiet < 9 →
      exec .guardSecond s = .next (q (s.power.guardQuiet + 1))) ∧
    (n < rate → s0.flag Fld.THM_STATUS_GUARD = true → rate ≤ 4 * n → exec .guardSecond s = .next (q 0)) ∧
    (n < rate → s0.flag Fld.THM_STATUS_GUARD = false → exec .guardSecond s = .next s0))

/-! ## I3C, the test access port -/

/-- R480 to R482: the I3C target, while VAUX is present. The bytes of a common command code that the specification leaves to the
device are free (assumption 8). -/
def Obligations.I3cTarget : Prop :=
  ∀ s : State, s.pins.vaux = true →
    (∀ addr, s.i3c.addr = none → exec (.i3cEntdaa addr) s = .next { s with i3c := { s.i3c with
      addr := some (addr % 128), out := (leBytes 6 s.i3cPid).reverse } }) ∧
    (∀ addr a, s.i3c.addr = some a → exec (.i3cEntdaa addr) s = .next s) ∧
    (∀ data, exec (.i3cCommonCommand 0x06#8 false data) s = .next { s with i3c := { s.i3c with addr := none } }) ∧
    (∀ data, exec (.i3cCommonCommand 0x00#8 false data) s =
      .next { s with i3c := { s.i3c with events := s.i3c.events || !data.isEmpty } }) ∧
    (∀ data, exec (.i3cCommonCommand 0x01#8 false data) s = .next { s with i3c := { s.i3c with events := false } }) ∧
    (∀ data, s.i3c.addr ≠ none → exec (.i3cCommonCommand 0x8D#8 true data) s =
      .next { s with i3c := { s.i3c with out := (leBytes 6 s.i3cPid).reverse } }) ∧
    (∀ hi lo : Byte, exec (.i3cPrivateWrite hi lo) s = .next { s with i3c := { s.i3c with
      index := BitVec.ofNat 16 (hi.toNat * 256 + lo.toNat), captured := none } }) ∧
    (∀ n, exec (.i3cPrivateRead n) s = .next (State.i3cTakeN n { s.i3cCapture with i3c := { s.i3cCapture.i3c with out := [] } }))

/-- R483 to R486: with VAUX present each instruction of the test access port is in the instruction register, and the lands follow
it while DEVICE_RESET# is low. -/
def Obligations.TestAccessPort : Prop :=
  ∀ s : State, s.pins.vaux = true →
    let load := fun (ir : BitVec 8) (l : Lands) =>
      Host.Outcome.next (φ := Fault) (ρ := Refusal) { s with tap := { s.tap with
        ir := ir, lands := if s.pins.resetLow then l else .functional } }
    exec .tapReset s = load TapIr.IDCODE .functional ∧ exec .idcode s = load TapIr.IDCODE .functional ∧
    exec .extest s = load TapIr.EXTEST .extest ∧ exec .extestPulse s = load TapIr.PULSE .pulse ∧
    exec .extestTrain s = load TapIr.TRAIN .train ∧ exec .clamp s = load TapIr.CLAMP .clamp ∧
    exec .highz s = load TapIr.HIGHZ .highz ∧ exec .bypass s = load TapIr.BYPASS .functional ∧
    (∀ cells, exec (.samplePreload cells) s =
      .next { s with tap := { s.tap with ir := TapIr.SAMPLE, lands := .functional, boundary := cells } })

/-! ## Rules of the registers, the memories and the numbers -/

/-- R14: BAR0 offsets that no register occupies read as zero and ignore writes. -/
def Obligations.ReservedOffsets : Prop :=
  ∀ (off : Nat) (v : W32) (s : State), regRow? off = none →
    s.regView off = 0#32 ∧ exec (.registerWrite off v) s = .next s

/-- R13, Table 0-6: a host's write of a register sets its RW fields, clears the W1C bits that are written 1, and leaves every
other bit of it, every other register, and the rest of the device as they are. -/
def Obligations.WriteAccess : Prop :=
  ∀ (off : Nat) (v : W32) (r : RegRow) (s : State), s.canon = true → regRow? off = some r →
    let t := s.hostWrite off v
    t = { s with regs := t.regs } ∧ (∀ o, o ≠ off → t.regAt o = s.regAt o) ∧
    ∀ i, i < 32 →
      (r.w1c.getLsbD i = true → v.getLsbD i = true → (t.regAt off).getLsbD i = false) ∧
      (r.rw.getLsbD i = true → r.w1c.getLsbD i = false → (t.regAt off).getLsbD i = v.getLsbD i) ∧
      (r.rw.getLsbD i = false → ¬(r.w1c.getLsbD i = true ∧ v.getLsbD i = true) →
        (t.regAt off).getLsbD i = (s.regAt off).getLsbD i)

/-- R221: when a sequence ranks below another. -/
def Obligations.SequenceRank : Prop :=
  ∀ (v q : Seq) (s : State), s.ranksBelow v q = true ↔
    (s.fld (Fld.KVL_CLASS_PRIO v.cls) < s.fld (Fld.KVL_CLASS_PRIO q.cls) ∨
      s.fld (Fld.KVL_CLASS_PRIO v.cls) = s.fld (Fld.KVL_CLASS_PRIO q.cls) ∧ q.order < v.order)

/-- R442: a region idle for IDLE_NOTICE_US sheds its phases to level 0, and its next operation, at whatever level, needs
notice; a paused region keeps its level. -/
def Obligations.IdlePhasesShed : Prop :=
  ∀ (r : Nat) (s : State), s.canon = true → r < 16 →
    (s.region r = RS.Q1 → s.paused r = false → (s.cluster r).noticeAt = none → s.idleTicks ≤ s.now - (s.cluster r).lastOp →
      ∃ t, exec (.phaseShed r) s = .next t ∧ t.level r = 0 ∧ (∀ q, q < 16 → q ≠ r → t.level q = s.level q) ∧
        ∀ l, t.needsNotice r l = true) ∧
    (s.paused r = true → exec (.phaseShed r) s = .next s)

/-- R111, R116, R119, R126, R127: a store, an atomic or an acquire of a group changes no byte of the local store but those at
the addresses of its active threads, no other tile, and nothing else of the device; a store leaves each thread's element at
its address where no higher thread writes over it. -/
def Obligations.LocalStoreFrame : Prop :=
  ∀ (g : GroupRef) (n d a src cmp q p : Nat) (op : AtomicOp) (wide : Bool) (gr : Group) (s : State), s.canon = true →
    s.Issues g p gr →
    let k := s.kernelOf g.cluster p gr
    let ls := (s.tile g.cluster p).ls
    let w := if wide then 3 else 2
    let out := fun (size x : Nat) => ∀ i ∈ gr.threads, x < (gr.vreg i a).toNat ∨ (gr.vreg i a).toNat + size ≤ x
    let keeps := fun (size : Nat) (t : State) => t = { s with tiles := t.tiles } ∧
      (∀ c' p', p' < 16 → ¬(c' = g.cluster ∧ p' = p) → t.tile c' p' = s.tile c' p') ∧
      (∀ x, out size x → tabGet 0#8 (t.tile g.cluster p).ls x = tabGet 0#8 ls x)
    k.vOk a = true →
    (k.elemOk n src = true → lsAddrsOk k gr n a = true → (s.tile g.cluster p).storeStalls (lsRanges gr n a) = false →
      ∃ t, exec (.lsStore g n a src) s = .next t ∧ keeps (2 ^ n) t ∧
        ∀ i ∈ gr.threads, (∀ j ∈ gr.threads, i < j → (gr.vreg j a).toNat + 2 ^ n ≤ (gr.vreg i a).toNat ∨
            (gr.vreg i a).toNat + 2 ^ n ≤ (gr.vreg j a).toNat) →
          getBytes (t.tile g.cluster p).ls (gr.vreg i a).toNat (2 ^ n) = leBytes (2 ^ n) (gr.elem n i src)) ∧
    (k.elemOk w d = true → k.elemOk w src = true → (op = .cas → k.elemOk w cmp = true) → lsAddrsOk k gr w a = true →
      (s.tile g.cluster p).storeStalls (lsRanges gr w a) = false →
      ∃ t, exec (.lsAtomic g op wide d a src cmp) s = .next t ∧ keeps (2 ^ w) t) ∧
    (q < 8 → lsAddrsOk k gr 2 a = true → (s.tile g.cluster p).storeStalls (lsRanges gr 2 a) = false →
      ∃ t, exec (.lockAcq g a q) s = .next t ∧ keeps 4 t)

/-- R66, R106, R109, R110: an FP32 operation writes its result into V[d] of every active thread, changes no other register of the
group, nothing of its tile but the group, and nothing else of the device. -/
def Obligations.VectorFrame : Prop :=
  ∀ (g : GroupRef) (op : VecOp) (d a b c p : Nat) (f : W32 → W32 → W32 → F32R) (gr : Group) (s : State), s.canon = true →
    s.Issues g p gr → vecRegsOk op (s.kernelOf g.cluster p gr) d a b c = true → d < 256 →
    (op = .fadd ∧ f = (fun x y _ => add32 x y)) ∨ (op = .fsub ∧ f = (fun x y _ => sub32 x y)) ∨
      (op = .fmul ∧ f = (fun x y _ => mul32 x y)) ∨ (op = .ffma ∧ f = fma32) ∨
      (op = .fmin ∧ f = (fun x y _ => min32 x y)) ∨ (op = .fmax ∧ f = (fun x y _ => max32 x y)) →
    ∃ t gr', exec (.vectorArith g op d a b c) s = .next t ∧ t = { s with tiles := t.tiles } ∧
      t.tile g.cluster p = { s.tile g.cluster p with groups := tabInsert (s.tile g.cluster p).groups g.slot gr' } ∧
      (∀ c' p', p' < 16 → ¬(c' = g.cluster ∧ p' = p) → t.tile c' p' = s.tile c' p') ∧
      (∀ i ∈ gr.threads, gr'.vreg i d = (f (gr.vreg i a) (gr.vreg i b) (gr.vreg i c)).1) ∧
      (∀ i r, r < 256 → r ≠ d ∨ i ∉ gr.threads → gr'.vreg i r = gr.vreg i r) ∧
      gr'.sregs = gr.sregs ∧ gr'.preds = gr.preds ∧ gr'.live = gr.live

/-- R50, R52, R55: a conversion to a format of a value that the format holds gives the value's own code, and no flag. -/
def Obligations.ConversionExact : Prop :=
  ∀ f ∈ floatFormats, ∀ (c : Nat) (sat fresh : Bool), c < 2 ^ f.width → (f.decode c).isFin = true →
    f.convert sat fresh (f.decode c) = (c, 0#32)

/-- R55: a conversion that does not overflow rounds to nearest: no finite value of the format is nearer to the exact value, and
of two equally near ones it takes the one whose code is even. -/
def Obligations.RoundsToNearest : Prop :=
  ∀ f ∈ floatFormats, ∀ (neg sat fresh : Bool) (m : Nat) (e : Int),
    let r := f.convert sat fresh (.fin neg m e)
    let q := min e f.qmin
    let x := (FV.fin neg m e).at q
    r.2 &&& asw.OF = 0#32 →
      ∀ c, c < 2 ^ f.width → (f.decode c).isFin = true →
        (((f.decode r.1).at q - x).natAbs ≤ ((f.decode c).at q - x).natAbs) ∧
        (((f.decode r.1).at q - x).natAbs = ((f.decode c).at q - x).natAbs → (f.decode c).at q ≠ (f.decode r.1).at q →
          r.1 % 2 = 0)

/-- R402: the journal queue never holds more than 1,024 records, whatever record comes. -/
def Obligations.JournalQueueBound : Prop :=
  ∀ (s : State), s.jrn.queue.length ≤ 1024 →
    (∀ type source payload, (s.journal type source payload).jrn.queue.length ≤ 1024) ∧
    (∀ code unit cause args, (s.event code unit cause args).jrn.queue.length ≤ 1024)

/-- R402, R409, R463: when VAUX falls the flash keeps its banks, its licences and the journal's segments, and the host keeps its
memory; the queued records are lost, and with them every other register and memory of the device. -/
def Obligations.PowerLoss : Prop :=
  ∀ s : State, s.pins.vaux = true →
    ∃ t, exec .vauxFall s = .next t ∧ t.pins.vaux = false ∧ t.flash.bankA = s.flash.bankA ∧ t.flash.bankB = s.flash.bankB ∧
      t.flash.licences = s.flash.licences ∧ t.flash.ops = [] ∧ t.flash.nvm = [] ∧ t.jrn.seg0 = s.jrn.seg0 ∧
      t.jrn.seg1 = s.jrn.seg1 ∧ t.jrn.queue = [] ∧ t.host.mem = s.host.mem ∧ t.ul = State.reset.ul ∧ t.tiles = [] ∧
      t.ppl = State.reset.ppl ∧ t.kvl = State.reset.kvl ∧ t.belt = State.reset.belt ∧ t.ring = State.reset.ring
end

