-- ==== Sys2Proof/Laws/Tab.lean ====
section
/-! SUPPORT. Sparse tables: what a read gives after a write, and that every write keeps the canonical form. -/

namespace Sys2Proof.Machine

/-! ## Reads after writes -/

theorem tabFind_insert {α : Type} (t : Tab α) (k j : Nat) (v : α) :
    tabFind (tabInsert t k v) j = if j = k then some v else tabFind t j := by
  induction t with
  | nil => by_cases h : j = k <;> simp [tabInsert, tabFind, h]
  | cons e t ih =>
    obtain ⟨k', v'⟩ := e
    simp only [tabInsert]
    split
    · subst k'
      by_cases h : j = k
      · simp [tabFind, h]
      · simp [tabFind, h]
    · split
      · by_cases h : j = k
        · simp [tabFind, h]
        · by_cases h1 : j < k
          · have h2 : ¬ j = k' := by omega
            have h3 : j < k' := by omega
            simp [tabFind, h, h1, h2, h3]
          · simp [tabFind, h, h1]
      · simp only [tabFind, ih]
        by_cases h : j = k
        · subst j
          have h1 : ¬ k < k' := by omega
          simp [*]
        · simp [h]

/-- The keys of a rising table are at least its bound. -/
theorem tabRisingFrom_mono {α : Type} {t : Tab α} {a b : Nat} (h : tabRisingFrom a t = true) (k : b ≤ a) :
    tabRisingFrom b t = true := by
  cases t with
  | nil => rfl
  | cons e t =>
    simp only [tabRisingFrom, Bool.and_eq_true, decide_eq_true_eq] at h ⊢
    exact ⟨by omega, h.2⟩

/-- Nothing is listed below the bound. -/
theorem tabFind_below {α : Type} {t : Tab α} {a j : Nat} (h : tabRisingFrom a t = true) (k : j < a) :
    tabFind t j = none := by
  cases t with
  | nil => rfl
  | cons e t =>
    simp only [tabRisingFrom, Bool.and_eq_true, decide_eq_true_eq] at h
    have h1 : ¬ j = e.1 := by omega
    have h2 : j < e.1 := by omega
    simp [tabFind, h1, h2]

theorem tabFind_erase {α : Type} {t : Tab α} {a : Nat} (h : tabRisingFrom a t = true) (k j : Nat) :
    tabFind (tabErase t k) j = if j = k then none else tabFind t j := by
  induction t generalizing a with
  | nil => simp [tabErase, tabFind]
  | cons e t ih =>
    obtain ⟨k', v'⟩ := e
    simp only [tabRisingFrom, Bool.and_eq_true, decide_eq_true_eq] at h
    simp only [tabErase]
    split
    · subst k'
      by_cases hj : j = k
      · subst j
        simp [tabFind_below h.2]
      · by_cases h1 : j < k
        · have h2 := tabFind_below (j := j) h.2 (by omega)
          simp [tabFind, hj, h1, h2]
        · simp [tabFind, hj, h1]
    · split
      · by_cases hj : j = k
        · subst j
          simp [tabFind, *]
        · simp [hj]
      · simp only [tabFind, ih h.2]
        by_cases hj : j = k
        · subst j
          have h1 : ¬ k < k' := by omega
          simp [*]
        · simp [hj]

/-- A read after a write gives the value written; every other key reads as before. -/
theorem tabGet_put {α : Type} [DecidableEq α] {d : α} {t : Tab α} (h : tabWf d t = true) (k j : Nat) (v : α) :
    tabGet d (tabPut d t k v) j = if j = k then v else tabGet d t j := by
  simp only [tabWf, Bool.and_eq_true] at h
  simp only [tabGet, tabPut]
  split
  · rw [tabFind_erase h.1]
    by_cases hj : j = k <;> simp [*]
  · rw [tabFind_insert]
    by_cases hj : j = k <;> simp [hj]

/-- What a read finds is listed. -/
theorem mem_tabFind {α : Type} {t : Tab α} {k : Nat} {v : α} (h : tabFind t k = some v) : ∃ n, (n, v) ∈ t := by
  induction t with
  | nil => exact nomatch h
  | cons x t ih =>
    simp only [tabFind] at h
    split at h
    · exact ⟨x.1, Option.some.inj h ▸ List.mem_cons_self ..⟩
    · split at h
      · exact nomatch h
      · obtain ⟨n, m⟩ := ih h
        exact ⟨n, List.mem_cons_of_mem _ m⟩

/-! ## The canonical form -/

theorem tabInsert_rising {α : Type} {t : Tab α} {a k : Nat} (v : α) (h : tabRisingFrom a t = true) (hk : a ≤ k) :
    tabRisingFrom a (tabInsert t k v) = true := by
  induction t generalizing a with
  | nil => simp [tabInsert, tabRisingFrom, hk]
  | cons e t ih =>
    obtain ⟨k', v'⟩ := e
    simp only [tabRisingFrom, Bool.and_eq_true, decide_eq_true_eq] at h
    simp only [tabInsert]
    split
    · subst k'
      simp [tabRisingFrom, h.1, h.2]
    · split
      · have h1 := h.2
        simp only [tabRisingFrom, Bool.and_eq_true, decide_eq_true_eq]
        exact ⟨hk, by omega, h1⟩
      · simp only [tabRisingFrom, Bool.and_eq_true, decide_eq_true_eq]
        exact ⟨h.1, ih h.2 (by omega)⟩

theorem tabErase_rising {α : Type} {t : Tab α} {a : Nat} (k : Nat) (h : tabRisingFrom a t = true) :
    tabRisingFrom a (tabErase t k) = true := by
  induction t generalizing a with
  | nil => rfl
  | cons e t ih =>
    obtain ⟨k', v'⟩ := e
    have h0 := h
    simp only [tabRisingFrom, Bool.and_eq_true, decide_eq_true_eq] at h
    simp only [tabErase]
    split
    · exact tabRisingFrom_mono h.2 (by omega)
    · split
      · exact h0
      · simp only [tabRisingFrom, Bool.and_eq_true, decide_eq_true_eq]
        exact ⟨h.1, ih h.2⟩

theorem tabFilter_rising {α : Type} {t : Tab α} {a : Nat} (p : Nat × α → Bool) (h : tabRisingFrom a t = true) :
    tabRisingFrom a (t.filter p) = true := by
  induction t generalizing a with
  | nil => rfl
  | cons e t ih =>
    simp only [tabRisingFrom, Bool.and_eq_true, decide_eq_true_eq] at h
    simp only [List.filter]
    split
    · simp only [tabRisingFrom, Bool.and_eq_true, decide_eq_true_eq]
      exact ⟨h.1, ih h.2⟩
    · exact ih (tabRisingFrom_mono h.2 (by omega))

/-- What the table lists after an insertion was inserted or listed before. -/
theorem mem_tabInsert {α : Type} {t : Tab α} {k : Nat} {v : α} {e : Nat × α} (h : e ∈ tabInsert t k v) :
    e = (k, v) ∨ e ∈ t := by
  induction t with
  | nil => simpa [tabInsert] using h
  | cons x t ih =>
    obtain ⟨k', v'⟩ := x
    simp only [tabInsert] at h
    split at h
    · rcases List.mem_cons.1 h with h | h
      · exact .inl h
      · exact .inr (List.mem_cons_of_mem _ h)
    · split at h
      · rcases List.mem_cons.1 h with h | h
        · exact .inl h
        · exact .inr h
      · rcases List.mem_cons.1 h with h | h
        · exact .inr (h ▸ List.mem_cons_self ..)
        · rcases ih h with h | h
          · exact .inl h
          · exact .inr (List.mem_cons_of_mem _ h)

theorem mem_tabErase {α : Type} {t : Tab α} {k : Nat} {e : Nat × α} (h : e ∈ tabErase t k) : e ∈ t := by
  induction t with
  | nil => exact h
  | cons x t ih =>
    obtain ⟨k', v'⟩ := x
    simp only [tabErase] at h
    split at h
    · exact List.mem_cons_of_mem _ h
    · split at h
      · exact h
      · rcases List.mem_cons.1 h with h | h
        · exact h ▸ List.mem_cons_self ..
        · exact List.mem_cons_of_mem _ (ih h)

theorem tabPut_wf {α : Type} [DecidableEq α] {d : α} {t : Tab α} (k : Nat) (v : α) (h : tabWf d t = true) :
    tabWf d (tabPut d t k v) = true := by
  simp only [tabWf, Bool.and_eq_true, List.all_eq_true, decide_eq_true_eq] at h ⊢
  simp only [tabPut]
  split
  · exact ⟨tabErase_rising k h.1, fun e m => h.2 e (mem_tabErase m)⟩
  · refine ⟨tabInsert_rising v h.1 (Nat.zero_le _), fun e m => ?_⟩
    rcases mem_tabInsert m with m | m
    · subst m
      assumption
    · exact h.2 e m

theorem putBytes_wf {t : Tab Byte} (a : Nat) (bs : List Byte) (h : tabWf 0#8 t = true) :
    tabWf 0#8 (putBytes t a bs) = true := by
  induction bs generalizing t a with
  | nil => exact h
  | cons b bs ih => exact ih _ (tabPut_wf _ _ h)

/-! ## The register file -/

/-- A write of a register keeps the file canonical. -/
theorem setReg_regsWf (s : State) (off : Nat) (v : W32) (h : s.regsWf = true) : (s.setReg off v).regsWf = true := by
  simp only [State.regsWf, Bool.and_eq_true, List.all_eq_true, decide_eq_true_eq] at h ⊢
  simp only [State.setReg]
  split
  · exact ⟨tabErase_rising off h.1, fun e m => h.2 e (mem_tabErase m)⟩
  · refine ⟨tabInsert_rising v h.1 (Nat.zero_le _), fun e m => ?_⟩
    rcases mem_tabInsert m with m | m
    · subst m
      assumption
    · exact h.2 e m

/-- A register reads as last written; every other register reads as before. -/
theorem regAt_setReg (s : State) (off o : Nat) (v : W32) (h : s.regsWf = true) :
    (s.setReg off v).regAt o = if o = off then v else s.regAt o := by
  simp only [State.regsWf, Bool.and_eq_true] at h
  have e : tabFind (s.setReg off v).regs o =
      if v = regReset off then (if o = off then none else tabFind s.regs o)
      else (if o = off then some v else tabFind s.regs o) := by
    simp only [State.setReg]
    split
    · rw [tabFind_erase h.1]
    · rw [tabFind_insert]
  simp only [State.regAt, e]
  by_cases ho : o = off
  · subst o
    by_cases hv : v = regReset off <;> simp [hv]
  · by_cases hv : v = regReset off <;> simp [hv, ho]

end Sys2Proof.Machine
end

