-- ==== Sys2Proof/Laws/Tiles.lean ====
section
/-! SUPPORT. Thread groups and tiles: every operation on one keeps its registers and its local store in canonical form. The
lemmas stand under a premise P, so that they chain. -/

namespace Sys2Proof.Machine

theorem imp_ite {P : Prop} {α : Type} {q : α → Bool} {a b : α} {c : Prop} [Decidable c] (h : P → q a = true) (k : P → q b = true) :
    P → q (if c then a else b) = true := by
  split <;> assumption

theorem imp_fold {P : Prop} {α β : Type} {q : β → Bool} {f : β → α → β} {l : List α} {b : β} (h : P → q b = true)
    (hf : ∀ b x, (P → q b = true) → P → q (f b x) = true) : P → q (l.foldl f b) = true := by
  induction l generalizing b with
  | nil => exact h
  | cons x l ih => exact ih (hf b x h)

/-! ## Groups -/

theorem Group.wf_iff {g : Group} : g.wf = true ↔ tabWf 0#32 g.vregs = true ∧ tabWf 0#64 g.sregs = true ∧ tabWf 0#64 g.preds = true := by
  simp only [Group.wf, Bool.and_eq_true, and_assoc]

theorem Group.wf_same {P : Prop} {g h : Group} (hg : P → g.wf = true) (hv : h.vregs = g.vregs) (hs : h.sregs = g.sregs)
    (hp : h.preds = g.preds) : P → h.wf = true := by
  intro p
  rw [Group.wf_iff, hv, hs, hp]
  exact Group.wf_iff.1 (hg p)

theorem Group.wf_upd {P : Prop} {g : Group} {a b c : Nat} {d e : BitVec 64} {f : BitVec 24} {i : W32} {j : List MaskEntry} {k : Nat}
    {l : Option Nat} {m : Bool} {n : List Nat} (h : P → g.wf = true) :
    P → Group.wf ⟨a, b, c, d, e, f, g.vregs, g.sregs, g.preds, i, j, k, l, m, n⟩ = true := h

/-- The record that a group is: no update at all. -/
theorem Group.wf_eta {P : Prop} {g : Group} (h : P → g.wf = true) :
    P → Group.wf ⟨g.launch, g.index, g.width, g.active, g.live, g.pc, g.vregs, g.sregs, g.preds, g.asw, g.stack, g.priv, g.atBar,
      g.ended, g.stores⟩ = true := h

theorem Group.setV_wf {P : Prop} {g : Group} (t r : Nat) (v : W32) (h : P → g.wf = true) : P → (g.setV t r v).wf = true := by
  intro p
  have k := Group.wf_iff.1 (h p)
  exact Group.wf_iff.2 ⟨tabPut_wf _ _ k.1, k.2.1, k.2.2⟩

theorem Group.setS_wf {P : Prop} {g : Group} (r : Nat) (v : W64) (h : P → g.wf = true) : P → (g.setS r v).wf = true := by
  intro p
  have k := Group.wf_iff.1 (h p)
  exact Group.wf_iff.2 ⟨k.1, tabPut_wf _ _ k.2.1, k.2.2⟩

theorem Group.setP_wf {P : Prop} {g : Group} (r : Nat) (v : BitVec 64) (h : P → g.wf = true) : P → (g.setP r v).wf = true := by
  intro p
  have k := Group.wf_iff.1 (h p)
  exact Group.wf_iff.2 ⟨k.1, k.2.1, tabPut_wf _ _ k.2.2⟩

theorem Group.setV64_wf {P : Prop} {g : Group} (t r : Nat) (v : W64) (h : P → g.wf = true) : P → (g.setV64 t r v).wf = true :=
  Group.setV_wf _ _ _ (Group.setV_wf _ _ _ h)

theorem Group.setElem_wf {P : Prop} {g : Group} (n t r v : Nat) (h : P → g.wf = true) : P → (g.setElem n t r v).wf = true := by
  unfold Group.setElem
  split
  · exact Group.setV64_wf _ _ _ h
  · exact Group.setV_wf _ _ _ h

theorem Group.flags_wf {P : Prop} {g : Group} (f : AswBits) (h : P → g.wf = true) : P → (g.flags f).wf = true := h

theorem Group.reconverge_wf {P : Prop} (n : Nat) {g : Group} (h : P → g.wf = true) : P → (Group.reconverge n g).wf = true := by
  induction n generalizing g with
  | zero => exact h
  | succ n ih =>
    unfold Group.reconverge
    split
    · split
      · exact h
      · split <;> exact ih h
    · exact h

theorem Group.fetch_wf {P : Prop} {g : Group} (h : P → g.wf = true) : P → g.fetch.wf = true := by
  unfold Group.fetch
  exact Group.reconverge_wf _ h

theorem Group.next_wf {P : Prop} {g : Group} (h : P → g.wf = true) : P → g.next.wf = true := by
  unfold Group.next
  exact Group.fetch_wf (Group.wf_upd h)

theorem Group.mapThreads_wf {P : Prop} {g : Group} {f : Group → Nat → Group} (h : P → g.wf = true)
    (hf : ∀ x t, (P → x.wf = true) → P → (f x t).wf = true) : P → (g.mapThreads f).wf = true := imp_fold h hf

theorem Group.mapF_wf {P : Prop} {g : Group} (d : Nat) (f : Group → Nat → F32R) (h : P → g.wf = true) : P → (g.mapF d f).wf = true :=
  Group.mapThreads_wf h (fun _ _ k => Group.flags_wf _ (Group.setV_wf _ _ _ k))

theorem Group.mapP_wf {P : Prop} {g : Group} (d : Nat) (f : Group → Nat → Bool × AswBits) (h : P → g.wf = true) :
    P → (g.mapP d f).wf = true :=
  Group.mapThreads_wf h (fun _ _ k => Group.flags_wf _ (Group.setP_wf _ _ k))

theorem vecRun_wf {P : Prop} (op : VecOp) {g : Group} (d a b c : Nat) (h : P → g.wf = true) : P → (vecRun op g d a b c).wf = true := by
  cases op
  case cvt => exact Group.mapThreads_wf h (fun _ _ k => Group.flags_wf _ (Group.setElem_wf _ _ _ _ k))
  case int64 => exact Group.mapThreads_wf h (fun _ _ k => Group.setV64_wf _ _ _ k)
  case mxScale => exact Group.mapThreads_wf h (fun _ _ k => Group.flags_wf _ (Group.setV_wf _ _ _ (Group.setV_wf _ _ _ k)))
  case redSum => exact Group.mapThreads_wf h (fun _ _ k => Group.flags_wf _ (Group.setV_wf _ _ _ k))
  all_goals
    unfold vecRun
    with_reducible first | exact Group.mapF_wf _ _ h | exact Group.mapP_wf _ _ h

theorem scalarRun_wf {P : Prop} (op : ScalarOp) {g : Group} (d a b : Nat) (h : P → g.wf = true) : P → (scalarRun op g d a b).wf = true := by
  cases op
  case aswClear =>
    unfold scalarRun
    exact Group.wf_upd h
  all_goals
    unfold scalarRun
    exact Group.setS_wf _ _ h

theorem Group.take_wf {P : Prop} {g : Group} (x : BitVec 24) (h : P → g.wf = true) : P → (g.take x).wf = true := by
  unfold Group.take
  split
  · split <;> exact h
  · exact h

theorem Group.refill_wf {P : Prop} {g : Group} (l : List MaskEntry) (h : P → g.wf = true) : P → (g.refill l).wf = true := by
  induction l with
  | nil => exact h
  | cons e l ih =>
    unfold Group.refill
    split
    · exact ih
    · exact h

theorem Group.exitThreads_wf {P : Prop} {g : Group} (h : P → g.wf = true) : P → g.exitThreads.wf = true :=
  Group.refill_wf _ (Group.wf_upd h)

theorem Group.loadElems_wf {P : Prop} {g : Group} (n r : Nat) (l : List (Nat × Nat)) (got : Tab (BitVec 256)) (h : P → g.wf = true) :
    P → (g.loadElems n r l got).wf = true := imp_fold h (fun _ _ k => Group.setElem_wf _ _ _ _ k)

/-! ## Tiles -/

theorem emptyTile_wf : emptyTile.wf = true := rfl

theorem Tile.wf_iff {t : Tile} :
    t.wf = true ↔ tabWf 0#8 t.ls = true ∧ tabRisingFrom 0 t.groups = true ∧ ∀ e ∈ t.groups, e.2.wf = true := by
  simp only [Tile.wf, Bool.and_eq_true, List.all_eq_true, and_assoc]

theorem Tile.wf_upd {P : Prop} {t : Tile} {a : Tab (BitVec 256)} {b : Option (Nat × Nat × Nat)} {c : Bool} {d : List Launch} {e : Nat}
    {f : List MatOp} {i : List Lock} {j : List Commit} {k : List PendLoad} {l : List Nat} {m : Option Nat} (h : P → t.wf = true) :
    P → Tile.wf ⟨t.ls, a, b, c, d, e, t.groups, f, i, j, k, l, m⟩ = true := h

/-- The record that a tile is: no update at all. -/
theorem Tile.wf_eta {P : Prop} {t : Tile} (h : P → t.wf = true) :
    P → Tile.wf ⟨t.ls, t.l1, t.current, t.fresh, t.launches, t.launchSeq, t.groups, t.queue, t.locks, t.commit, t.loads, t.transients,
      t.eccAt⟩ = true := h

theorem Tile.ls_wf {P : Prop} {t : Tile} (h : P → t.wf = true) : P → tabWf 0#8 t.ls = true := fun p => (Tile.wf_iff.1 (h p)).1

theorem Tile.updLs_wf {P : Prop} {t : Tile} {x : Tab Byte} {a : Tab (BitVec 256)} {b : Option (Nat × Nat × Nat)} {c : Bool}
    {d : List Launch} {e : Nat} {f : List MatOp} {i : List Lock} {j : List Commit} {k : List PendLoad} {l : List Nat} {m : Option Nat}
    (hx : P → tabWf 0#8 x = true) (h : P → t.wf = true) :
    P → Tile.wf ⟨x, a, b, c, d, e, t.groups, f, i, j, k, l, m⟩ = true :=
  fun p => Tile.wf_iff.2 ⟨hx p, (Tile.wf_iff.1 (h p)).2⟩

theorem Tile.updGroups_wf {P : Prop} {t : Tile} {x : Tab Group} {a : Tab (BitVec 256)} {b : Option (Nat × Nat × Nat)} {c : Bool}
    {d : List Launch} {e : Nat} {f : List MatOp} {i : List Lock} {j : List Commit} {k : List PendLoad} {l : List Nat} {m : Option Nat}
    (h : P → t.wf = true) (hx : P → tabRisingFrom 0 x = true ∧ ∀ e ∈ x, e.2.wf = true) :
    P → Tile.wf ⟨t.ls, a, b, c, d, e, x, f, i, j, k, l, m⟩ = true :=
  fun p => Tile.wf_iff.2 ⟨(Tile.wf_iff.1 (h p)).1, hx p⟩

theorem Tile.insert_wf {P : Prop} {t : Tile} {n : Nat} {g : Group} {a : Tab (BitVec 256)} {b : Option (Nat × Nat × Nat)} {c : Bool}
    {d : List Launch} {e : Nat} {f : List MatOp} {i : List Lock} {j : List Commit} {k : List PendLoad} {l : List Nat} {m : Option Nat}
    (h : P → t.wf = true) (hg : P → g.wf = true) :
    P → Tile.wf ⟨t.ls, a, b, c, d, e, tabInsert t.groups n g, f, i, j, k, l, m⟩ = true := by
  refine Tile.updGroups_wf h (fun p => ⟨tabInsert_rising _ (Tile.wf_iff.1 (h p)).2.1 (Nat.zero_le _), fun e m => ?_⟩)
  rcases mem_tabInsert m with m | m
  · subst m; exact hg p
  · exact (Tile.wf_iff.1 (h p)).2.2 e m

theorem tabMap_rising {α β : Type} {t : Tab α} {a : Nat} (f : Nat × α → Nat × β) (hf : ∀ e, (f e).1 = e.1)
    (h : tabRisingFrom a t = true) : tabRisingFrom a (t.map f) = true := by
  induction t generalizing a with
  | nil => rfl
  | cons e t ih =>
    simp only [tabRisingFrom, Bool.and_eq_true, decide_eq_true_eq] at h
    have h1 : (e :: t).map f = ((f e).1, (f e).2) :: t.map f := rfl
    rw [h1]
    simp only [tabRisingFrom, Bool.and_eq_true, decide_eq_true_eq, hf]
    exact ⟨h.1, ih h.2⟩

theorem Tile.mapGroups_wf {P : Prop} {t : Tile} {y : Nat × Group → Nat × Group} {a : Tab (BitVec 256)} {b : Option (Nat × Nat × Nat)}
    {c : Bool} {d : List Launch} {e : Nat} {f : List MatOp} {i : List Lock} {j : List Commit} {k : List PendLoad} {l : List Nat}
    {m : Option Nat} (h : P → t.wf = true) (hk : ∀ e, (y e).1 = e.1) (hw : ∀ e : Nat × Group, e.2.wf = true → (y e).2.wf = true) :
    P → Tile.wf ⟨t.ls, a, b, c, d, e, t.groups.map y, f, i, j, k, l, m⟩ = true := by
  refine Tile.updGroups_wf h (fun p => ⟨tabMap_rising y hk (Tile.wf_iff.1 (h p)).2.1, fun e m => ?_⟩)
  obtain ⟨x, hx, rfl⟩ := List.mem_map.1 m
  exact hw x ((Tile.wf_iff.1 (h p)).2.2 x hx)

theorem Tile.filterGroups_wf {P : Prop} {t : Tile} {y : Nat × Group → Bool} {a : Tab (BitVec 256)} {b : Option (Nat × Nat × Nat)}
    {c : Bool} {d : List Launch} {e : Nat} {f : List MatOp} {i : List Lock} {j : List Commit} {k : List PendLoad} {l : List Nat}
    {m : Option Nat} (h : P → t.wf = true) :
    P → Tile.wf ⟨t.ls, a, b, c, d, e, t.groups.filter y, f, i, j, k, l, m⟩ = true :=
  Tile.updGroups_wf h (fun p => ⟨tabFilter_rising y (Tile.wf_iff.1 (h p)).2.1,
    fun e m => (Tile.wf_iff.1 (h p)).2.2 e (List.mem_filter.1 m).1⟩)

theorem tabFilter_wf {P : Prop} {x : Tab Byte} (y : Nat × Byte → Bool) (h : P → tabWf 0#8 x = true) :
    P → tabWf 0#8 (x.filter y) = true := by
  intro p
  have k := h p
  simp only [tabWf, Bool.and_eq_true, List.all_eq_true] at k ⊢
  exact ⟨tabFilter_rising y k.1, fun e m => k.2 e (List.mem_filter.1 m).1⟩

theorem putBytes_imp {P : Prop} {x : Tab Byte} (a : Nat) (bs : List Byte) (h : P → tabWf 0#8 x = true) :
    P → tabWf 0#8 (putBytes x a bs) = true := fun p => putBytes_wf a bs (h p)

theorem Tile.clearShared_wf {P : Prop} {t : Tile} (h : P → t.wf = true) : P → t.clearShared.wf = true :=
  Tile.updLs_wf (tabFilter_wf _ (Tile.ls_wf h)) h

theorem Tile.unlock_wf {P : Prop} {t : Tile} (n : Nat) (h : P → t.wf = true) : P → (t.unlock n).wf = true := by
  unfold Tile.unlock
  exact Tile.updLs_wf (imp_fold (q := tabWf 0#8) (Tile.ls_wf h) (fun _ _ k => putBytes_imp _ _ k)) h

theorem Tile.freshCheck_wf {P : Prop} {t : Tile} (l : Launch) (h : P → t.wf = true) : P → (t.freshCheck l).wf = true := by
  unfold Tile.freshCheck
  exact imp_ite (Tile.clearShared_wf h) h

theorem Tile.sweepEnded_wf {P : Prop} {t : Tile} (h : P → t.wf = true) : P → t.sweepEnded.wf = true := by
  unfold Tile.sweepEnded
  extract_lets gone dead t1
  have h1 : P → t1.wf = true := imp_fold h (fun b l k => Tile.freshCheck_wf _ (imp_ite k (Tile.unlock_wf _ k)))
  clear_value t1
  exact Tile.filterGroups_wf h1

theorem Tile.haltLaunch_wf {P : Prop} {t : Tile} (n : Nat) (h : P → t.wf = true) : P → (t.haltLaunch n).wf = true := by
  unfold Tile.haltLaunch
  split
  · exact h
  · split
    · exact h
    · refine Tile.sweepEnded_wf (Tile.mapGroups_wf (Tile.unlock_wf _ h) (fun e => ?_) (fun e k => ?_))
      · split <;> rfl
      · split <;> exact k

theorem Tile.haltBlock_wf {P : Prop} {t : Tile} (x : W64) (h : P → t.wf = true) : P → (t.haltBlock x).wf = true :=
  Tile.wf_upd (imp_fold h (fun _ _ k => Tile.haltLaunch_wf _ k))

theorem Tile.halted_wf {P : Prop} {t : Tile} (h : P → t.wf = true) : P → t.halted.wf = true := by
  have k : P → (t.launches.foldl (fun (t : Tile) l => t.unlock l.num) t).wf = true := imp_fold h (fun _ _ k => Tile.unlock_wf _ k)
  exact Tile.updGroups_wf k (fun _ => ⟨rfl, fun _ m => nomatch m⟩)

theorem Tile.invalL1_wf {P : Prop} {t : Tile} (h : P → t.wf = true) : P → t.invalL1.wf = true := h

theorem Tile.enqueue_wf {P : Prop} {t : Tile} (slot launch : Nat) (ds : List (List W64)) (packed : Bool) (off : Nat) (sa sb : W32)
    (h : P → t.wf = true) : P → (t.enqueue slot launch ds packed off sa sb).wf = true := h

theorem Tile.setSub_wf {P : Prop} {t : Tile} (at' sub : Nat) (r : SubRun) (h : P → t.wf = true) :
    P → (t.setSub at' sub r).wf = true := h

theorem Tile.noFill_wf {P : Prop} {t : Tile} (met : Nat → Bool) (h : P → t.wf = true) : P → (t.noFill met).wf = true := h

theorem Tile.find_wf {P : Prop} {t : Tile} {n : Nat} {g : Group} (h : P → t.wf = true) (e : tabFind t.groups n = some g) :
    P → g.wf = true := by
  intro p
  have k := (Tile.wf_iff.1 (h p)).2.2
  generalize t.groups = l at e k
  induction l with
  | nil => exact nomatch e
  | cons x l ih =>
    simp only [tabFind] at e
    split at e
    · exact Option.some.inj e ▸ k x (List.mem_cons_self ..)
    · split at e
      · exact nomatch e
      · exact ih e (fun y m => k y (List.mem_cons_of_mem _ m))

theorem Tile.addFlags_wf {P : Prop} {t : Tile} (slot launch : Nat) (f : AswBits) (h : P → t.wf = true) :
    P → (t.addFlags slot launch f).wf = true := by
  unfold Tile.addFlags
  split
  · rename_i g e
    split
    · exact Tile.insert_wf h (Group.flags_wf _ (Tile.find_wf h e))
    · exact h
  · exact h

theorem Tile.releaseBar_wf {P : Prop} {t : Tile} (n : Nat) (h : P → t.wf = true) : P → (t.releaseBar n).wf = true := by
  unfold Tile.releaseBar
  extract_lets mine
  clear_value mine
  split
  · exact h
  · split
    · refine Tile.mapGroups_wf h (fun e => ?_) (fun e k => ?_)
      · split <;> rfl
      · split <;> exact k
    · exact h

theorem MatDesc.run_wf {P : Prop} (d : MatDesc) {x : Tab Byte} (off : Nat) (sa sb : W32) (h : P → tabWf 0#8 x = true) :
    P → tabWf 0#8 (d.run x off sa sb).1 = true := by
  unfold MatDesc.run
  refine imp_fold (q := fun (y : Tab Byte × AswBits) => tabWf 0#8 y.1) h (fun b m k => ?_)
  exact imp_fold (q := fun (y : Tab Byte × AswBits) => tabWf 0#8 y.1) k (fun b m k => putBytes_imp _ _ k)

theorem MatOp.drain_wf {P : Prop} (m : MatOp) {x : Tab Byte} (h : P → tabWf 0#8 x = true) : P → tabWf 0#8 (m.drain x).1 = true := by
  unfold MatOp.drain
  exact imp_fold (q := fun (y : Tab Byte × AswBits) => tabWf 0#8 y.1) h (fun b d k => MatDesc.run_wf _ _ _ _ k)

theorem Tile.completeMat_wf {P : Prop} {t : Tile} (h : P → t.wf = true) : P → t.completeMat.wf = true := by
  unfold Tile.completeMat
  split
  · exact h
  · split
    · exact Tile.sweepEnded_wf (Tile.addFlags_wf _ _ _ (Tile.updLs_wf (MatOp.drain_wf _ (Tile.ls_wf h)) h))
    · exact h

theorem admitGroup_wf (k : KDesc) (num n : Nat) (fresh : Bool) (x : W64) (c l i q : Nat) : (admitGroup k num n fresh x c l i q).wf = true := by
  unfold admitGroup
  refine Group.setS_wf (P := True) _ _ (Group.setS_wf _ _ (Group.setS_wf _ _ (Group.setS_wf _ _ (fun _ => rfl)))) trivial

theorem Tile.addLaunch_wf {P : Prop} {t : Tile} (k : KDesc) (w : List W64) (gen : Nat) (x : W64) (c l : Nat) (slots qs : List Nat)
    (h : P → t.wf = true) : P → (t.addLaunch k w gen x c l slots qs).wf = true := by
  intro p
  have hp := Tile.wf_iff.1 (h p)
  refine Tile.wf_iff.2 ⟨tabFilter_wf (P := True) _ (fun _ => hp.1) trivial, ?_⟩
  have key : ∀ (zs : List ((Nat × Nat) × Nat)) (m : Tab Group), (tabRisingFrom 0 m = true ∧ ∀ e ∈ m, e.2.wf = true) →
      (tabRisingFrom 0 (zs.foldl (fun (m : Tab Group) (e : (Nat × Nat) × Nat) =>
        tabInsert m e.1.1 (admitGroup k t.launchSeq t.launchSeq t.fresh x c l e.2 e.1.2)) m) = true ∧
      ∀ e ∈ zs.foldl (fun (m : Tab Group) (e : (Nat × Nat) × Nat) =>
        tabInsert m e.1.1 (admitGroup k t.launchSeq t.launchSeq t.fresh x c l e.2 e.1.2)) m, e.2.wf = true) := by
    intro zs
    induction zs with
    | nil => exact fun m k => k
    | cons z zs ih =>
      intro m km
      refine ih _ ⟨tabInsert_rising _ km.1 (Nat.zero_le _), fun e me => ?_⟩
      rcases mem_tabInsert me with me | me
      · subst me; exact admitGroup_wf ..
      · exact km.2 e me
  exact key _ _ hp.2

theorem Tile.retake_wf {P : Prop} {t : Tile} (k : KDesc) (h : P → t.wf = true) : P → (t.retake k).wf = true :=
  Tile.clearShared_wf (Tile.wf_upd h)

theorem Tile.launch_wf {P : Prop} {t u : Tile} {k : KDesc} {w : List W64} {gen : Nat} {x : W64} {c l : Nat}
    (e : t.launch k w gen x c l = some u) (h : P → t.wf = true) : P → u.wf = true := by
  unfold Tile.launch at e
  split at e
  · exact nomatch e
  · extract_lets t1 areas takenQ at e
    have h1 : P → t1.wf = true := imp_ite h (Tile.retake_wf _ h)
    clear_value t1
    split at e
    · split at e
      · exact Option.some.inj e ▸ Tile.addLaunch_wf _ _ _ _ _ _ _ _ h1
      · exact nomatch e
    · exact nomatch e

/-! ## Group memory -/

theorem atomicFold_wf {P : Prop} (op : AtomicOp) (e d a src cmp : Nat) (g : Group) (l : List Nat) (acc : Tab Byte × Group)
    (h : P → tabWf 0#8 acc.1 = true) (hg : P → acc.2.wf = true) :
    (P → tabWf 0#8 (l.foldl (atomicStep op e d a src cmp g) acc).1 = true) ∧
      (P → (l.foldl (atomicStep op e d a src cmp g) acc).2.wf = true) := by
  induction l generalizing acc with
  | nil => exact ⟨h, hg⟩
  | cons x l ih => exact ih _ (putBytes_imp _ _ h) (Group.setElem_wf _ _ _ _ hg)

theorem lockFold_wf {P : Prop} (slot a pr : Nat) (g : Group) (l : List Nat) (acc : Tab Byte × List Lock × Group)
    (h : P → tabWf 0#8 acc.1 = true) (hg : P → acc.2.2.wf = true) :
    (P → tabWf 0#8 (l.foldl (lockStep slot a pr g) acc).1 = true) ∧
      (P → (l.foldl (lockStep slot a pr g) acc).2.2.wf = true) := by
  induction l generalizing acc with
  | nil => exact ⟨h, hg⟩
  | cons x l ih =>
    refine ih _ ?_ ?_
    · unfold lockStep
      extract_lets y b
      split
      · exact putBytes_imp _ _ h
      · exact h
    · unfold lockStep
      extract_lets y b
      split <;> exact Group.setP_wf _ _ hg

theorem unlockFold_wf {P : Prop} (slot a : Nat) (g : Group) (l : List Nat) (acc : Option (Tab Byte × List Lock))
    (r : Tab Byte × List Lock) (e : l.foldl (unlockStep slot a g) acc = some r)
    (h : ∀ x, acc = some x → P → tabWf 0#8 x.1 = true) : P → tabWf 0#8 r.1 = true := by
  induction l generalizing acc with
  | nil => exact h r e
  | cons x l ih =>
    refine ih _ e (fun y hy => ?_)
    unfold unlockStep at hy
    split at hy
    · exact nomatch hy
    · rename_i ls locks
      extract_lets z at hy
      split at hy
      · exact Option.some.inj hy ▸ putBytes_imp _ _ (h _ rfl)
      · exact nomatch hy

theorem storeFold_wf {P : Prop} {x : Tab Byte} (l : List Nat) (f : Nat → Nat) (b : Nat → List Byte) (h : P → tabWf 0#8 x = true) :
    P → tabWf 0#8 (l.foldl (fun (m : Tab Byte) i => putBytes m (f i) (b i)) x) = true :=
  imp_fold (q := tabWf 0#8) h (fun _ _ k => putBytes_imp _ _ k)

theorem Group.rowResult_wf {P : Prop} {g : Group} (sd : Nat) (r : RowRes) (f : AswBits) (h : P → g.wf = true) :
    P → (g.rowResult sd r f).wf = true := by
  unfold Group.rowResult
  extract_lets g1 g2
  have h1 : P → g1.wf = true := by
    simp only [g1]
    split
    · exact Group.setS_wf _ _ h
    · exact h
  clear_value g1
  have h2 : P → g2.wf = true := by
    simp only [g2]
    split
    · exact Group.setS_wf _ _ h1
    · exact h1
  exact Group.flags_wf _ h2

theorem RowDec.put_wf {P : Prop} (r : RowDec) {x : Tab Byte} (ys : List W32) (h : P → tabWf 0#8 x = true) :
    P → tabWf 0#8 (r.put x ys).1 = true := by
  unfold RowDec.put
  exact imp_fold (q := fun (y : Tab Byte × AswBits) => tabWf 0#8 y.1) h (fun _ _ k => putBytes_imp _ _ k)

end Sys2Proof.Machine
end

