-- ==== Sys2Proof/Laws/Keep.lean ====
section
/-! SUPPORT. What the commands leave as it was: the relations `Kept` and `Shed`, and the forms of a state's change that keep
them. -/

namespace Sys2Proof.Machine

/-- What almost every command leaves as it was: the queue, the flash's content and the writes to it; and the canonical form
of memories and registers. -/
structure Kept (s t : State) : Prop where
  bankA : t.flash.bankA = s.flash.bankA
  bankB : t.flash.bankB = s.flash.bankB
  licences : t.flash.licences = s.flash.licences
  nvm : t.flash.nvm = s.flash.nvm
  pending : t.pending = s.pending
  canon : s.canon = true → t.canon = true

/-- What a reset or a loss of power leaves: the same, but that writes to the flash may end. -/
structure Shed (s t : State) : Prop where
  bankA : t.flash.bankA = s.flash.bankA
  bankB : t.flash.bankB = s.flash.bankB
  licences : t.flash.licences = s.flash.licences
  nvm : ∀ r ∈ t.flash.nvm, r ∈ s.flash.nvm
  pending : t.pending = s.pending
  canon : s.canon = true → t.canon = true

theorem Kept.rfl (s : State) : Kept s s := ⟨Eq.refl _, Eq.refl _, Eq.refl _, Eq.refl _, Eq.refl _, id⟩

theorem Kept.trans {s t u : State} (h : Kept s t) (k : Kept t u) : Kept s u :=
  ⟨k.1.trans h.1, k.2.trans h.2, k.3.trans h.3, k.4.trans h.4, k.5.trans h.5, fun c => k.6 (h.6 c)⟩

theorem Kept.step {s t u : State} (k : Kept t u) (h : Kept s t) : Kept s u := h.trans k

theorem Kept.ite {s a b : State} {c : Prop} [Decidable c] (h : Kept s a) (k : Kept s b) :
    Kept s (if c then a else b) := by
  split <;> assumption

/-! A record update that leaves registers, byte memories, the flash's content and the queue: with another underlayer (U),
host interface (H) or flash (F) record. -/

theorem Kept.upd {s t : State} {a : Tab W32} {b : Tab W32} {c : Pins} {d : Boot} {e : Stack} {f : Journal} {g : Power} {i : I3c} {j : Tap}
    {k : Regulation} {m : Pipelines} {n : Ledger} {o : Belt} {p : RingSt} {q : Nat} (h : Kept s t) :
    Kept s ⟨t.regs, a, b, c, d, e, f, t.flash,
      t.host, g, i, j,
      t.ul,
      k, t.tiles, m, n, o, p, q, t.pending⟩ :=
  ⟨h.1, h.2, h.3, h.4, h.5, h.6⟩

theorem Kept.updU {s t : State} {a : Tab W32} {b : Tab W32} {c : Pins} {d : Boot} {e : Stack} {f : Journal} {g : Power} {i : I3c} {j : Tap}
    {k : Regulation} {m : Pipelines} {n : Ledger} {o : Belt} {p : RingSt} {q : Nat}
    {u1 : List Nat} {u2 : Tab Line} {u3 : Tab (List Nat)} {u4 : Tab (List Mshr)} {u5 : Tab (List UlOp)} {u6 : Tab UlPoint}
    {u7 : Nat} {u8 : Tab (List ((Nat × Nat × Nat) × Nat))} {u9 : List ((Nat × Nat × Nat) × Nat)}
    {u10 : List (Nat × Nat × Nat)} {u11 : List (Nat × Nat × Nat)} {u12 : List (Nat × Nat)} {u13 : List Drain}
    {u14 : List RangeRec} {u15 : Bool} {u16 : List (Nat × Nat)} {u17 u18 : Nat} {u19 : List UlReply} (h : Kept s t) :
    Kept s ⟨t.regs, a, b, c, d, e, f, t.flash,
      t.host, g, i, j,
      ⟨u1, t.ul.hbm, t.ul.hbmPoison, u2, u3, u4, u5, u6, u7, u8, u9, u10, u11, u12, u13, u14, u15, u16, u17, u18, u19⟩,
      k, t.tiles, m, n, o, p, q, t.pending⟩ :=
  ⟨h.1, h.2, h.3, h.4, h.5, h.6⟩

theorem Kept.updH {s t : State} {a : Tab W32} {b : Tab W32} {c : Pins} {d : Boot} {e : Stack} {f : Journal} {g : Power} {i : I3c} {j : Tap}
    {k : Regulation} {m : Pipelines} {n : Ledger} {o : Belt} {p : RingSt} {q : Nat}
    {h1 : List Cmd} {h2 : List Completion} {h3 h4 : Tab Nat} {h5 : Tab Slot} {h6 h7 h8 h9 : Nat} {h10 : Option Nat} {h11 : Bool}
    {h12 : Option Nat} {h13 : W32} (h : Kept s t) :
    Kept s ⟨t.regs, a, b, c, d, e, f, t.flash,
      ⟨t.host.mem, h1, h2, h3, h4, h5, h6, h7, h8, h9, h10, h11, h12, h13⟩, g, i, j,
      t.ul,
      k, t.tiles, m, n, o, p, q, t.pending⟩ :=
  ⟨h.1, h.2, h.3, h.4, h.5, h.6⟩

theorem Kept.updF {s t : State} {a : Tab W32} {b : Tab W32} {c : Pins} {d : Boot} {e : Stack} {f : Journal} {g : Power} {i : I3c} {j : Tap}
    {k : Regulation} {m : Pipelines} {n : Ledger} {o : Belt} {p : RingSt} {q : Nat} {x : List FlashOp} {y : Option Image} (h : Kept s t) :
    Kept s ⟨t.regs, a, b, c, d, e, f, ⟨t.flash.bankA, t.flash.bankB, t.flash.licences, x, t.flash.nvm, y⟩,
      t.host, g, i, j,
      t.ul,
      k, t.tiles, m, n, o, p, q, t.pending⟩ :=
  ⟨h.1, h.2, h.3, h.4, h.5, h.6⟩

theorem Kept.updUH {s t : State} {a : Tab W32} {b : Tab W32} {c : Pins} {d : Boot} {e : Stack} {f : Journal} {g : Power} {i : I3c} {j : Tap}
    {k : Regulation} {m : Pipelines} {n : Ledger} {o : Belt} {p : RingSt} {q : Nat}
    {u1 : List Nat} {u2 : Tab Line} {u3 : Tab (List Nat)} {u4 : Tab (List Mshr)} {u5 : Tab (List UlOp)} {u6 : Tab UlPoint}
    {u7 : Nat} {u8 : Tab (List ((Nat × Nat × Nat) × Nat))} {u9 : List ((Nat × Nat × Nat) × Nat)}
    {u10 : List (Nat × Nat × Nat)} {u11 : List (Nat × Nat × Nat)} {u12 : List (Nat × Nat)} {u13 : List Drain}
    {u14 : List RangeRec} {u15 : Bool} {u16 : List (Nat × Nat)} {u17 u18 : Nat} {u19 : List UlReply}
    {h1 : List Cmd} {h2 : List Completion} {h3 h4 : Tab Nat} {h5 : Tab Slot} {h6 h7 h8 h9 : Nat} {h10 : Option Nat} {h11 : Bool}
    {h12 : Option Nat} {h13 : W32} (h : Kept s t) :
    Kept s ⟨t.regs, a, b, c, d, e, f, t.flash,
      ⟨t.host.mem, h1, h2, h3, h4, h5, h6, h7, h8, h9, h10, h11, h12, h13⟩, g, i, j,
      ⟨u1, t.ul.hbm, t.ul.hbmPoison, u2, u3, u4, u5, u6, u7, u8, u9, u10, u11, u12, u13, u14, u15, u16, u17, u18, u19⟩,
      k, t.tiles, m, n, o, p, q, t.pending⟩ :=
  ⟨h.1, h.2, h.3, h.4, h.5, h.6⟩

theorem Kept.updFH {s t : State} {a : Tab W32} {b : Tab W32} {c : Pins} {d : Boot} {e : Stack} {f : Journal} {g : Power} {i : I3c} {j : Tap}
    {k : Regulation} {m : Pipelines} {n : Ledger} {o : Belt} {p : RingSt} {q : Nat}
    {h1 : List Cmd} {h2 : List Completion} {h3 h4 : Tab Nat} {h5 : Tab Slot} {h6 h7 h8 h9 : Nat} {h10 : Option Nat} {h11 : Bool}
    {h12 : Option Nat} {h13 : W32} {x : List FlashOp} {y : Option Image} (h : Kept s t) :
    Kept s ⟨t.regs, a, b, c, d, e, f, ⟨t.flash.bankA, t.flash.bankB, t.flash.licences, x, t.flash.nvm, y⟩,
      ⟨t.host.mem, h1, h2, h3, h4, h5, h6, h7, h8, h9, h10, h11, h12, h13⟩, g, i, j,
      t.ul,
      k, t.tiles, m, n, o, p, q, t.pending⟩ :=
  ⟨h.1, h.2, h.3, h.4, h.5, h.6⟩

/-- The record that a state is: no update at all. -/
theorem Kept.eta {s t : State} (h : Kept s t) :
    Kept s ⟨t.regs, t.pairCap, t.pairLo, t.pins, t.boot, t.stack, t.jrn, t.flash, t.host, t.power, t.i3c, t.tap, t.ul, t.rgl,
      t.tiles, t.ppl, t.kvl, t.belt, t.ring, t.free, t.pending⟩ := h

theorem Kept.fold {α : Type} {s t : State} {f : State → α → State} {l : List α} (h : Kept s t)
    (hf : ∀ s x, Kept s (f s x)) : Kept s (l.foldl f t) := by
  induction l generalizing t with
  | nil => exact h
  | cons x l ih => exact ih (h.trans (hf t x))

theorem Kept.iteFst {α : Type} {s : State} {a b : State × α} {c : Prop} [Decidable c] (h : Kept s a.1)
    (k : Kept s b.1) : Kept s (if c then a else b).1 := by
  split <;> assumption

/-- The state of a pair that an operation builds. -/
theorem Kept.pair {α : Type} {s a : State} {b : α} (h : Kept s a) : Kept s (a, b).1 := h

theorem Kept.foldFst {α β : Type} {s : State} {p : State × β} {f : State × β → α → State × β} {l : List α}
    (h : Kept s p.1) (hf : ∀ q x, Kept q.1 (f q x).1) : Kept s (l.foldl f p).1 := by
  induction l generalizing p with
  | nil => exact h
  | cons x l ih => exact ih (h.trans (hf p x))

theorem Kept.getD {s t : State} {o : Option State} (h : Kept s t) (k : ∀ u, o = some u → Kept s u) :
    Kept s (o.getD t) := by
  cases o with
  | none => exact h
  | some u => exact k u (Eq.refl _)

theorem Kept.shed {s t : State} (h : Kept s t) : Shed s t := ⟨h.1, h.2, h.3, fun _ m => h.4 ▸ m, h.5, h.6⟩

theorem Shed.rfl (s : State) : Shed s s := (Kept.rfl s).shed

theorem Shed.trans {s t u : State} (h : Shed s t) (k : Shed t u) : Shed s u :=
  ⟨k.1.trans h.1, k.2.trans h.2, k.3.trans h.3, fun r m => h.4 r (k.4 r m), k.5.trans h.5, fun c => k.6 (h.6 c)⟩

theorem Shed.step {s t u : State} (k : Kept t u) (h : Shed s t) : Shed s u := h.trans k.shed

theorem Shed.ite {s a b : State} {c : Prop} [Decidable c] (h : Shed s a) (k : Shed s b) :
    Shed s (if c then a else b) := by
  split <;> assumption

theorem Shed.upd {s t : State} {a : Tab W32} {b : Tab W32} {c : Pins} {d : Boot} {e : Stack} {f : Journal} {g : Power} {i : I3c} {j : Tap}
    {k : Regulation} {m : Pipelines} {n : Ledger} {o : Belt} {p : RingSt} {q : Nat} (h : Shed s t) :
    Shed s ⟨t.regs, a, b, c, d, e, f, t.flash,
      t.host, g, i, j,
      t.ul,
      k, t.tiles, m, n, o, p, q, t.pending⟩ :=
  ⟨h.1, h.2, h.3, h.4, h.5, h.6⟩

theorem Shed.updU {s t : State} {a : Tab W32} {b : Tab W32} {c : Pins} {d : Boot} {e : Stack} {f : Journal} {g : Power} {i : I3c} {j : Tap}
    {k : Regulation} {m : Pipelines} {n : Ledger} {o : Belt} {p : RingSt} {q : Nat}
    {u1 : List Nat} {u2 : Tab Line} {u3 : Tab (List Nat)} {u4 : Tab (List Mshr)} {u5 : Tab (List UlOp)} {u6 : Tab UlPoint}
    {u7 : Nat} {u8 : Tab (List ((Nat × Nat × Nat) × Nat))} {u9 : List ((Nat × Nat × Nat) × Nat)}
    {u10 : List (Nat × Nat × Nat)} {u11 : List (Nat × Nat × Nat)} {u12 : List (Nat × Nat)} {u13 : List Drain}
    {u14 : List RangeRec} {u15 : Bool} {u16 : List (Nat × Nat)} {u17 u18 : Nat} {u19 : List UlReply} (h : Shed s t) :
    Shed s ⟨t.regs, a, b, c, d, e, f, t.flash,
      t.host, g, i, j,
      ⟨u1, t.ul.hbm, t.ul.hbmPoison, u2, u3, u4, u5, u6, u7, u8, u9, u10, u11, u12, u13, u14, u15, u16, u17, u18, u19⟩,
      k, t.tiles, m, n, o, p, q, t.pending⟩ :=
  ⟨h.1, h.2, h.3, h.4, h.5, h.6⟩

theorem Shed.updH {s t : State} {a : Tab W32} {b : Tab W32} {c : Pins} {d : Boot} {e : Stack} {f : Journal} {g : Power} {i : I3c} {j : Tap}
    {k : Regulation} {m : Pipelines} {n : Ledger} {o : Belt} {p : RingSt} {q : Nat}
    {h1 : List Cmd} {h2 : List Completion} {h3 h4 : Tab Nat} {h5 : Tab Slot} {h6 h7 h8 h9 : Nat} {h10 : Option Nat} {h11 : Bool}
    {h12 : Option Nat} {h13 : W32} (h : Shed s t) :
    Shed s ⟨t.regs, a, b, c, d, e, f, t.flash,
      ⟨t.host.mem, h1, h2, h3, h4, h5, h6, h7, h8, h9, h10, h11, h12, h13⟩, g, i, j,
      t.ul,
      k, t.tiles, m, n, o, p, q, t.pending⟩ :=
  ⟨h.1, h.2, h.3, h.4, h.5, h.6⟩

theorem Shed.updF {s t : State} {a : Tab W32} {b : Tab W32} {c : Pins} {d : Boot} {e : Stack} {f : Journal} {g : Power} {i : I3c} {j : Tap}
    {k : Regulation} {m : Pipelines} {n : Ledger} {o : Belt} {p : RingSt} {q : Nat} {x : List FlashOp} {y : Option Image} (h : Shed s t) :
    Shed s ⟨t.regs, a, b, c, d, e, f, ⟨t.flash.bankA, t.flash.bankB, t.flash.licences, x, t.flash.nvm, y⟩,
      t.host, g, i, j,
      t.ul,
      k, t.tiles, m, n, o, p, q, t.pending⟩ :=
  ⟨h.1, h.2, h.3, h.4, h.5, h.6⟩

theorem Shed.updUH {s t : State} {a : Tab W32} {b : Tab W32} {c : Pins} {d : Boot} {e : Stack} {f : Journal} {g : Power} {i : I3c} {j : Tap}
    {k : Regulation} {m : Pipelines} {n : Ledger} {o : Belt} {p : RingSt} {q : Nat}
    {u1 : List Nat} {u2 : Tab Line} {u3 : Tab (List Nat)} {u4 : Tab (List Mshr)} {u5 : Tab (List UlOp)} {u6 : Tab UlPoint}
    {u7 : Nat} {u8 : Tab (List ((Nat × Nat × Nat) × Nat))} {u9 : List ((Nat × Nat × Nat) × Nat)}
    {u10 : List (Nat × Nat × Nat)} {u11 : List (Nat × Nat × Nat)} {u12 : List (Nat × Nat)} {u13 : List Drain}
    {u14 : List RangeRec} {u15 : Bool} {u16 : List (Nat × Nat)} {u17 u18 : Nat} {u19 : List UlReply}
    {h1 : List Cmd} {h2 : List Completion} {h3 h4 : Tab Nat} {h5 : Tab Slot} {h6 h7 h8 h9 : Nat} {h10 : Option Nat} {h11 : Bool}
    {h12 : Option Nat} {h13 : W32} (h : Shed s t) :
    Shed s ⟨t.regs, a, b, c, d, e, f, t.flash,
      ⟨t.host.mem, h1, h2, h3, h4, h5, h6, h7, h8, h9, h10, h11, h12, h13⟩, g, i, j,
      ⟨u1, t.ul.hbm, t.ul.hbmPoison, u2, u3, u4, u5, u6, u7, u8, u9, u10, u11, u12, u13, u14, u15, u16, u17, u18, u19⟩,
      k, t.tiles, m, n, o, p, q, t.pending⟩ :=
  ⟨h.1, h.2, h.3, h.4, h.5, h.6⟩

theorem Shed.dropF {s t : State} {a : Tab W32} {b : Tab W32} {c : Pins} {d : Boot} {e : Stack} {f : Journal} {g : Power} {i : I3c} {j : Tap}
    {k : Regulation} {m : Pipelines} {n : Ledger} {o : Belt} {p : RingSt} {q : Nat} {x : List FlashOp} {y : Option Image} (h : Shed s t) :
    Shed s ⟨t.regs, a, b, c, d, e, f, ⟨t.flash.bankA, t.flash.bankB, t.flash.licences, x, [], y⟩,
      t.host, g, i, j,
      t.ul,
      k, t.tiles, m, n, o, p, q, t.pending⟩ :=
  ⟨h.1, h.2, h.3, fun _ m => (nomatch m), h.5, h.6⟩

theorem Shed.dropFH {s t : State} {a : Tab W32} {b : Tab W32} {c : Pins} {d : Boot} {e : Stack} {f : Journal} {g : Power} {i : I3c} {j : Tap}
    {k : Regulation} {m : Pipelines} {n : Ledger} {o : Belt} {p : RingSt} {q : Nat}
    {h1 : List Cmd} {h2 : List Completion} {h3 h4 : Tab Nat} {h5 : Tab Slot} {h6 h7 h8 h9 : Nat} {h10 : Option Nat} {h11 : Bool}
    {h12 : Option Nat} {h13 : W32} {x : List FlashOp} {y : Option Image} (h : Shed s t) :
    Shed s ⟨t.regs, a, b, c, d, e, f, ⟨t.flash.bankA, t.flash.bankB, t.flash.licences, x, [], y⟩,
      ⟨t.host.mem, h1, h2, h3, h4, h5, h6, h7, h8, h9, h10, h11, h12, h13⟩, g, i, j,
      t.ul,
      k, t.tiles, m, n, o, p, q, t.pending⟩ :=
  ⟨h.1, h.2, h.3, fun _ m => (nomatch m), h.5, h.6⟩

theorem Shed.eta {s t : State} (h : Shed s t) :
    Shed s ⟨t.regs, t.pairCap, t.pairLo, t.pins, t.boot, t.stack, t.jrn, t.flash, t.host, t.power, t.i3c, t.tap, t.ul, t.rgl,
      t.tiles, t.ppl, t.kvl, t.belt, t.ring, t.free, t.pending⟩ := h

/-! ## Updates of registers and byte memories -/

/-- Registers dropped by a filter. -/
theorem canon_filter {s t : State} (p : Nat × W32 → Bool) (h : s.canon = true) (hr : t.regs = s.regs.filter p)
    (hm : t.memWf = true) : t.canon = true := by
  simp only [State.canon, State.regsWf, Bool.and_eq_true, List.all_eq_true] at h ⊢
  refine ⟨hm, ?_, fun e m => ?_⟩
  · rw [hr]
    exact tabFilter_rising p h.2.1
  · rw [hr] at m
    exact h.2.2 e (List.mem_filter.1 m).1

theorem canon_mem {s : State} (h : s.canon = true) : s.memWf = true := by
  simp only [State.canon, Bool.and_eq_true] at h
  exact h.1

/-- The underlayer's contents lost. -/
theorem Kept.lost {s t : State} {a : Tab W32} {b : Tab W32} {c : Pins} {d : Boot} {e : Stack} {f : Journal} {g : Power} {i : I3c} {j : Tap}
    {k : Regulation} {m : Pipelines} {n : Ledger} {o : Belt} {p : RingSt} {q : Nat}
    (h : Kept s t) :
    Kept s ⟨t.regs, a, b, c, d, e, f, t.flash, t.host, g, i, j, State.reset.ul, k, [], m, n, o, p, q, t.pending⟩ := by
  refine ⟨h.1, h.2, h.3, h.4, h.5, fun x => ?_⟩
  have y := h.6 x
  simp only [State.canon, State.memWf, State.regsWf, Bool.and_eq_true] at y ⊢
  exact ⟨⟨⟨⟨by decide, by decide⟩, y.1.1.2⟩, Eq.refl _⟩, y.2⟩

theorem tilesWf_same {s t : State} (h : t.tiles = s.tiles) : t.tilesWf = s.tilesWf := by
  simp only [State.tilesWf, h]

/-- Host memory written. -/
theorem canon_host {s t : State} (a : Nat) (bs : List Byte) (h : s.canon = true) (hr : t.regs = s.regs)
    (hb : t.ul.hbm = s.ul.hbm) (hp : t.ul.hbmPoison = s.ul.hbmPoison) (hh : t.host.mem = putBytes s.host.mem a bs)
    (ht : t.tiles = s.tiles) :
    t.canon = true := by
  simp only [State.canon, State.memWf, State.regsWf, Bool.and_eq_true] at h ⊢
  rw [hr, hb, hp, hh, tilesWf_same ht]
  exact ⟨⟨⟨h.1.1.1, putBytes_wf a bs h.1.1.2⟩, h.1.2⟩, h.2⟩

/-- The tiles dropped. -/
theorem Kept.dropTiles {s t : State} {a : Tab W32} {b : Tab W32} {c : Pins} {d : Boot} {e : Stack} {f : Journal} {g : Power} {i : I3c} {j : Tap}
    {k : Regulation} {m : Pipelines} {n : Ledger} {o : Belt} {p : RingSt} {q : Nat}
    (h : Kept s t) :
    Kept s ⟨t.regs, a, b, c, d, e, f, t.flash, t.host, g, i, j, t.ul, k, [], m, n, o, p, q, t.pending⟩ := by
  refine ⟨h.1, h.2, h.3, h.4, h.5, fun x => ?_⟩
  have y := h.6 x
  simp only [State.canon, State.memWf, State.regsWf, Bool.and_eq_true] at y ⊢
  exact ⟨⟨y.1.1, Eq.refl _⟩, y.2⟩

/-- A tile of a canonical state is in canonical form. -/
theorem Kept.tile {s t : State} {c p : Nat} (h : Kept s t) : s.canon = true → (t.tile c p).wf = true := by
  intro x
  have y := h.6 x
  simp only [State.canon, State.memWf, State.tilesWf, Bool.and_eq_true, List.all_eq_true] at y
  have z := y.1.2.2
  unfold State.tile tabGet
  cases e : tabFind t.tiles (c * 16 + p) with
  | none => exact emptyTile_wf
  | some u =>
    obtain ⟨n, m⟩ := mem_tabFind e
    exact z _ m

/-- A group found on a tile of a canonical state is in canonical form. -/
theorem Kept.group {s t : State} {c p n : Nat} {g : Group} (h : Kept s t) (e : tabFind (t.tile c p).groups n = some g) :
    s.canon = true → g.wf = true := Tile.find_wf h.tile e

end Sys2Proof.Machine
end

