-- ==== Sys2Proof/Laws/Keep1.lean ====
section
/-! SUPPORT. One lemma for each operation and each command: it leaves what `Kept` (`Shed`) names (Access to KvOps). -/

namespace Sys2Proof.Machine

theorem State.setReg_kept {s0 : State} (s : State) (off : Nat) (v : W32) (hk : Kept s0 s) :
    Kept s0 (State.setReg s off v) := by
  refine ⟨hk.1, hk.2, hk.3, hk.4, hk.5, fun c => ?_⟩
  have k := hk.6 c
  simp only [State.canon, Bool.and_eq_true] at k ⊢
  exact ⟨k.1, setReg_regsWf s off v k.2⟩

theorem State.setFld_kept {s0 : State} (s : State) (f : Fld) (v : Nat) (hk : Kept s0 s) :
    Kept s0 (State.setFld s f v) := by
  unfold State.setFld
  repeat' (first
    | with_reducible exact Kept.rfl _
    | with_reducible assumption
    | with_reducible apply State.setReg_kept)

theorem State.raise_kept {s0 : State} (s : State) (f : Fld) (hk : Kept s0 s) :
    Kept s0 (State.raise s f) := by
  unfold State.raise
  repeat' (first
    | with_reducible exact Kept.rfl _
    | with_reducible assumption
    | with_reducible apply State.setFld_kept)

theorem State.setBit_kept {s0 : State} (s : State) (f : Fld) (i : Nat) (hk : Kept s0 s) :
    Kept s0 (State.setBit s f i) := by
  unfold State.setBit
  repeat' (first
    | with_reducible exact Kept.rfl _
    | with_reducible assumption
    | with_reducible apply State.setFld_kept)

theorem State.clrBit_kept {s0 : State} (s : State) (f : Fld) (i : Nat) (hk : Kept s0 s) :
    Kept s0 (State.clrBit s f i) := by
  unfold State.clrBit
  repeat' (first
    | with_reducible exact Kept.rfl _
    | with_reducible assumption
    | with_reducible apply State.setFld_kept
    | with_reducible apply Kept.ite)

theorem State.putBit_kept {s0 : State} (s : State) (f : Fld) (i : Nat) (b : Bool) (hk : Kept s0 s) :
    Kept s0 (State.putBit s f i b) := by
  unfold State.putBit
  repeat' (first
    | with_reducible exact Kept.rfl _
    | with_reducible assumption
    | with_reducible apply State.setBit_kept
    | with_reducible apply State.clrBit_kept
    | with_reducible apply Kept.ite)

theorem State.addFld_kept {s0 : State} (s : State) (f : Fld) (n : Nat) (hk : Kept s0 s) :
    Kept s0 (State.addFld s f n) := by
  unfold State.addFld
  repeat' (first
    | with_reducible exact Kept.rfl _
    | with_reducible assumption
    | with_reducible apply State.setFld_kept)

theorem State.incFld_kept {s0 : State} (s : State) (f : Fld) (hk : Kept s0 s) :
    Kept s0 (State.incFld s f) := by
  unfold State.incFld
  repeat' (first
    | with_reducible exact Kept.rfl _
    | with_reducible assumption
    | with_reducible apply State.addFld_kept)

theorem State.hostWrite_kept {s0 : State} (s : State) (off : Nat) (v : W32) (hk : Kept s0 s) :
    Kept s0 (State.hostWrite s off v) := by
  unfold State.hostWrite
  repeat' (first
    | with_reducible exact Kept.rfl _
    | with_reducible assumption
    | with_reducible apply State.setReg_kept
    | intro _
    | extract_lets
    | split)

theorem State.readReg_kept {s0 : State} (s : State) (off : Nat) (hk : Kept s0 s) :
    Kept s0 (State.readReg s off).1 := by
  unfold State.readReg
  repeat' (first
    | with_reducible exact Kept.rfl _
    | with_reducible assumption
    | with_reducible apply Kept.iteFst
    | with_reducible apply Kept.foldFst
    | with_reducible apply Kept.ite
    | intro _
    | extract_lets
    | split
    | ((with_reducible conv => arg 2; whnf); split)
    | ((fail_if_success with_reducible apply Kept.eta); first | with_reducible apply Kept.upd))

theorem State.readReg_kept_eq {s0 t' : State} {x' : W32} (s : State) (off : Nat) (eqn : State.readReg s off = (t', x')) (hk : Kept s0 s) : Kept s0 t' := by
  have k := State.readReg_kept (s0 := s0) s off hk
  rw [eqn] at k
  exact k

theorem State.noteServed_kept {s0 : State} (s : State) (m r n : Nat) (hk : Kept s0 s) :
    Kept s0 (State.noteServed s m r n) := by
  unfold State.noteServed
  repeat' (first
    | with_reducible exact Kept.rfl _
    | with_reducible assumption
    | intro _
    | extract_lets
    | ((fail_if_success with_reducible apply Kept.eta); first | with_reducible apply Kept.upd))

theorem State.setRglPoint_kept {s0 : State} (s : State) (i : Nat) (p : UlPoint) (hk : Kept s0 s) :
    Kept s0 (State.setRglPoint s i p) := by
  unfold State.setRglPoint
  repeat' (first
    | with_reducible exact Kept.rfl _
    | with_reducible assumption
    | intro _
    | extract_lets
    | ((fail_if_success with_reducible apply Kept.eta); first | with_reducible apply Kept.upd))

theorem State.throughPcie_kept {s0 : State} (s : State) (m dir bytes : Nat) (hk : Kept s0 s) :
    Kept s0 (State.throughPcie s m dir bytes) := by
  unfold State.throughPcie
  repeat' (first
    | with_reducible exact Kept.rfl _
    | with_reducible assumption
    | with_reducible apply State.setRglPoint_kept
    | with_reducible apply State.noteServed_kept
    | with_reducible apply Kept.ite
    | intro _
    | extract_lets
    | ((fail_if_success with_reducible apply Kept.eta); first | with_reducible apply Kept.upd))

theorem State.dmaOut_kept {s0 : State} (s : State) (bytes : Nat) (hk : Kept s0 s) :
    Kept s0 (State.dmaOut s bytes) := by
  unfold State.dmaOut
  repeat' (first
    | with_reducible exact Kept.rfl _
    | with_reducible assumption
    | with_reducible apply State.throughPcie_kept
    | intro _
    | extract_lets)

theorem State.dmaIn_kept {s0 : State} (s : State) (bytes : Nat) (hk : Kept s0 s) :
    Kept s0 (State.dmaIn s bytes) := by
  unfold State.dmaIn
  repeat' (first
    | with_reducible exact Kept.rfl _
    | with_reducible assumption
    | with_reducible apply State.throughPcie_kept
    | intro _
    | extract_lets)

theorem State.swapDma_kept {s0 : State} (s : State) (dir bytes : Nat) (hk : Kept s0 s) :
    Kept s0 (State.swapDma s dir bytes) := by
  unfold State.swapDma
  repeat' (first
    | with_reducible exact Kept.rfl _
    | with_reducible assumption
    | with_reducible apply State.throughPcie_kept
    | intro _
    | extract_lets)

theorem State.jrnPush_kept {s0 : State} (s : State) (r : JRec) (hk : Kept s0 s) :
    Kept s0 (State.jrnPush s r) := by
  unfold State.jrnPush
  repeat' (first
    | with_reducible exact Kept.rfl _
    | with_reducible assumption
    | with_reducible apply State.nextSeq_kept
    | (with_reducible apply State.nextSeq_kept_eq; assumption)
    | intro _
    | extract_lets
    | ((fail_if_success with_reducible apply Kept.eta); first | with_reducible apply Kept.upd))

theorem State.jrnDrop_kept {s0 : State} (s : State) (n : Nat) (hk : Kept s0 s) :
    Kept s0 (State.jrnDrop s n) := by
  unfold State.jrnDrop
  repeat' (first
    | with_reducible exact Kept.rfl _
    | with_reducible assumption
    | with_reducible apply State.addFld_kept
    | with_reducible apply State.raise_kept
    | intro _
    | extract_lets
    | ((fail_if_success with_reducible apply Kept.eta); first | with_reducible apply Kept.upd))

theorem State.jrnReportDropped_kept {s0 : State} (s : State) (hk : Kept s0 s) :
    Kept s0 (State.jrnReportDropped s) := by
  unfold State.jrnReportDropped
  repeat' (first
    | with_reducible exact Kept.rfl _
    | with_reducible assumption
    | with_reducible apply State.jrnPush_kept
    | with_reducible apply Kept.ite
    | intro _
    | extract_lets
    | ((fail_if_success with_reducible apply Kept.eta); first | with_reducible apply Kept.upd))

theorem State.journal_kept {s0 : State} (s : State) (type source : Nat) (payload : BitVec 288) (hk : Kept s0 s) :
    Kept s0 (State.journal s type source payload) := by
  unfold State.journal
  repeat' (first
    | with_reducible exact Kept.rfl _
    | with_reducible assumption
    | with_reducible apply State.jrnPush_kept
    | with_reducible apply State.raise_kept
    | with_reducible apply State.jrnDrop_kept
    | with_reducible apply State.jrnReportDropped_kept
    | with_reducible apply Kept.ite
    | intro _
    | extract_lets
    | ((fail_if_success with_reducible apply Kept.eta); first | with_reducible apply Kept.upd))

theorem State.jrnEvent_kept {s0 : State} (s : State) (code unit cause args : Nat) (hk : Kept s0 s) :
    Kept s0 (State.jrnEvent s code unit cause args) := by
  unfold State.jrnEvent
  repeat' (first
    | with_reducible exact Kept.rfl _
    | with_reducible assumption
    | with_reducible apply State.journal_kept
    | with_reducible apply Kept.ite
    | intro _
    | extract_lets
    | split
    | ((with_reducible conv => arg 2; whnf); split)
    | ((fail_if_success with_reducible apply Kept.eta); first | with_reducible apply Kept.upd))

theorem State.msi_kept {s0 : State} (s : State) (vector : Nat) (hk : Kept s0 s) :
    Kept s0 (State.msi s vector) := by
  unfold State.msi
  repeat' (first
    | with_reducible exact Kept.rfl _
    | with_reducible assumption
    | with_reducible apply State.raise_kept
    | with_reducible apply Kept.ite
    | intro _
    | extract_lets
    | ((fail_if_success with_reducible apply Kept.eta); first | with_reducible apply Kept.upd | with_reducible apply Kept.updH))

theorem State.event_kept {s0 : State} (s : State) (code unit : Nat) (cause : Nat) (args : Nat) (hk : Kept s0 s) :
    Kept s0 (State.event s code unit cause args) := by
  unfold State.event
  repeat' (first
    | with_reducible exact Kept.rfl _
    | with_reducible assumption
    | with_reducible apply State.jrnEvent_kept
    | with_reducible apply State.setReg_kept
    | with_reducible apply State.msi_kept
    | with_reducible apply State.setFld_kept
    | with_reducible apply State.raise_kept
    | with_reducible apply Kept.ite)

theorem State.updFault_kept {s0 : State} (s : State) (hk : Kept s0 s) :
    Kept s0 (State.updFault s) := by
  unfold State.updFault
  repeat' (first
    | with_reducible exact Kept.rfl _
    | with_reducible assumption
    | with_reducible apply State.setFld_kept)

theorem State.setDstate_kept {s0 : State} (s : State) (d : Nat) (hk : Kept s0 s) :
    Kept s0 (State.setDstate s d) := by
  unfold State.setDstate
  repeat' (first
    | with_reducible exact Kept.rfl _
    | with_reducible assumption
    | with_reducible apply State.setFld_kept
    | with_reducible apply State.updFault_kept)

theorem State.cqMessage_kept {s0 : State} (s : State) (q : Nat) (hk : Kept s0 s) :
    Kept s0 (State.cqMessage s q) := by
  unfold State.cqMessage
  repeat' (first
    | with_reducible exact Kept.rfl _
    | with_reducible assumption
    | with_reducible apply State.msi_kept
    | intro _
    | extract_lets
    | ((fail_if_success with_reducible apply Kept.eta); first | with_reducible apply Kept.upd | with_reducible apply Kept.updH))

theorem State.cqNote_kept {s0 : State} (s : State) (q : Nat) (hk : Kept s0 s) :
    Kept s0 (State.cqNote s q) := by
  unfold State.cqNote
  repeat' (first
    | with_reducible exact Kept.rfl _
    | with_reducible assumption
    | with_reducible apply State.cqMessage_kept
    | with_reducible apply Kept.ite
    | intro _
    | extract_lets
    | ((fail_if_success with_reducible apply Kept.eta); first | with_reducible apply Kept.upd | with_reducible apply Kept.updH))

theorem State.cqWrite_kept {s0 : State} (s : State) (c : Completion) (hk : Kept s0 s) :
    Kept s0 (State.cqWrite s c) := by
  unfold State.cqWrite
  extract_lets q tail bytes src sA s1 tail' s3 s4
  have h2 : Kept s0 s1 := State.dmaOut_kept _ _ ⟨hk.1, hk.2, hk.3, hk.4, hk.5, fun c => canon_host _ _ (hk.6 c) (Eq.refl _) (Eq.refl _) (Eq.refl _) (Eq.refl _) (Eq.refl _)⟩
  clear_value s1
  have h3 : Kept s0 s3 := State.setFld_kept _ _ _ h2
  have h4 : Kept s0 s4 := by
    clear_value s3 tail'
    simp only [s4]
    split
    · exact State.setFld_kept _ _ _ h3
    · exact h3
  exact State.cqNote_kept _ _ h4

theorem State.cqPost_kept {s0 : State} (s : State) (c : Completion) (hk : Kept s0 s) :
    Kept s0 (State.cqPost s c) := by
  unfold State.cqPost
  repeat' (first
    | with_reducible exact Kept.rfl _
    | with_reducible assumption
    | with_reducible apply State.cqWrite_kept
    | with_reducible apply Kept.ite
    | intro _
    | extract_lets
    | ((fail_if_success with_reducible apply Kept.eta); first | with_reducible apply Kept.upd | with_reducible apply Kept.updH))

theorem State.updBusy_kept {s0 : State} (s : State) (sq : Nat) (hk : Kept s0 s) :
    Kept s0 (State.updBusy s sq) := by
  unfold State.updBusy
  repeat' (first
    | with_reducible exact Kept.rfl _
    | with_reducible assumption
    | with_reducible apply State.setFld_kept)

theorem State.cqDrain_kept {s0 : State}  (y0 : Nat) (s : State) (y2 : Nat) (hk : Kept s0 s) :
    Kept s0 (State.cqDrain y0 s y2) := by
  induction y0 generalizing s y2 with
  | zero =>
    unfold State.cqDrain
    exact hk
  | succ n ih =>
    unfold State.cqDrain
    repeat' (first
      | with_reducible apply ih
      | with_reducible exact Kept.rfl _
      | with_reducible assumption
      | with_reducible apply State.cqWrite_kept
      | with_reducible apply State.updBusy_kept
      | with_reducible apply Kept.ite
      | intro _
      | extract_lets
      | split
      | ((with_reducible conv => arg 2; whnf); split)
      | ((fail_if_success with_reducible apply Kept.eta); first | with_reducible apply Kept.upd | with_reducible apply Kept.updH))

theorem State.modCmd_kept {s0 : State} (s : State) (sq cid : Nat) (f : Cmd → Cmd) (hk : Kept s0 s) :
    Kept s0 (State.modCmd s sq cid f) := by
  unfold State.modCmd
  repeat' (first
    | with_reducible exact Kept.rfl _
    | with_reducible assumption
    | intro _
    | extract_lets
    | ((fail_if_success with_reducible apply Kept.eta); first | with_reducible apply Kept.upd | with_reducible apply Kept.updH))

theorem State.updDefer_kept {s0 : State} (s : State) (hk : Kept s0 s) :
    Kept s0 (State.updDefer s) := by
  unfold State.updDefer
  repeat' (first
    | with_reducible exact Kept.rfl _
    | with_reducible assumption
    | with_reducible apply State.setFld_kept)

theorem State.freeReserved_kept {s0 : State} (s : State) (sq cid : Nat) (hk : Kept s0 s) :
    Kept s0 (State.freeReserved s sq cid) := by
  unfold State.freeReserved
  repeat' (first
    | with_reducible exact Kept.rfl _
    | with_reducible assumption
    | intro _
    | extract_lets
    | ((fail_if_success with_reducible apply Kept.eta); first | with_reducible apply Kept.upd | with_reducible apply Kept.updH))

theorem State.complete_kept {s0 : State} (s : State) (sq cid status : Nat) (info : Nat) (stateCode : Nat) (hk : Kept s0 s) :
    Kept s0 (State.complete s sq cid status info stateCode) := by
  unfold State.complete
  repeat' (first
    | with_reducible exact Kept.rfl _
    | with_reducible assumption
    | with_reducible apply State.freeReserved_kept
    | with_reducible apply State.updDefer_kept
    | with_reducible apply State.cqPost_kept
    | with_reducible apply State.updBusy_kept
    | intro _
    | extract_lets
    | split
    | ((with_reducible conv => arg 2; whnf); split)
    | ((fail_if_success with_reducible apply Kept.eta); first | with_reducible apply Kept.upd | with_reducible apply Kept.updH))

theorem State.completeAll_kept {s0 : State} (s : State) (status : Nat) (y0 : List Cmd) (hk : Kept s0 s) :
    Kept s0 (State.completeAll s status y0) := by
  induction y0 generalizing s status with
  | nil =>
    unfold State.completeAll
    exact hk
  | cons o l ih =>
    unfold State.completeAll
    repeat' (first
      | with_reducible apply ih
      | with_reducible exact Kept.rfl _
      | with_reducible assumption
      | with_reducible apply State.complete_kept)

theorem State.endCommands_kept {s0 : State} (s : State) (hk : Kept s0 s) :
    Kept s0 (State.endCommands s) := by
  unfold State.endCommands
  repeat' (first
    | with_reducible exact Kept.rfl _
    | with_reducible assumption
    | with_reducible apply State.setFld_kept
    | with_reducible apply State.updDefer_kept
    | with_reducible apply Kept.fold
    | intro _
    | extract_lets
    | ((fail_if_success with_reducible apply Kept.eta); first | with_reducible apply Kept.upd | with_reducible apply Kept.updH))

theorem State.writeResult_kept {s0 : State} (s : State) (c : Cmd) (status : Nat) (bytes : List Byte) (hk : Kept s0 s) :
    Kept s0 (State.writeResult s c status bytes) := by
  unfold State.writeResult
  extract_lets b
  split
  · exact State.dmaOut_kept _ _ ⟨hk.1, hk.2, hk.3, hk.4, hk.5, fun c => canon_host _ _ (hk.6 c) (Eq.refl _) (Eq.refl _) (Eq.refl _) (Eq.refl _) (Eq.refl _)⟩
  · split
    · exact Kept.updH hk
    · exact hk

theorem State.finish_kept {s0 : State} (s : State) (c : Cmd) (bytes : List Byte) (second : Nat) (two : Bool) (hk : Kept s0 s) :
    Kept s0 (State.finish s c bytes second two) := by
  unfold State.finish
  repeat' (first
    | with_reducible exact Kept.rfl _
    | with_reducible assumption
    | with_reducible apply State.writeResult_kept
    | with_reducible apply State.complete_kept)

theorem State.portsDown_kept {s0 : State} (s : State) (hk : Kept s0 s) :
    Kept s0 (State.portsDown s) := by
  unfold State.portsDown
  repeat' (first
    | with_reducible exact Kept.rfl _
    | with_reducible assumption
    | with_reducible apply State.setFld_kept
    | with_reducible apply Kept.fold
    | with_reducible apply Kept.ite
    | intro _)

theorem State.failDevice_kept {s0 : State} (s : State) (cause : Nat) (hk : Kept s0 s) :
    Kept s0 (State.failDevice s cause) := by
  unfold State.failDevice
  repeat' (first
    | with_reducible exact Kept.rfl _
    | with_reducible assumption
    | with_reducible apply State.event_kept
    | with_reducible apply State.setDstate_kept
    | with_reducible apply State.setFld_kept
    | with_reducible apply State.portsDown_kept
    | with_reducible apply State.completeAll_kept)

theorem State.addDefect_kept {s0 : State} (s : State) (kind unit cause : Nat) (hk : Kept s0 s) :
    Kept s0 (State.addDefect s kind unit cause) := by
  unfold State.addDefect
  repeat' (first
    | with_reducible exact Kept.rfl _
    | with_reducible assumption
    | with_reducible apply State.raise_kept
    | with_reducible apply State.event_kept
    | with_reducible apply State.failDevice_kept
    | with_reducible apply State.setFld_kept
    | with_reducible apply State.journal_kept
    | with_reducible apply Kept.ite
    | intro _
    | extract_lets
    | ((fail_if_success with_reducible apply Kept.eta); first | with_reducible apply Kept.upd))

theorem State.jrnConfig_kept {s0 : State} (s : State) (kind source fields : Nat) (hk : Kept s0 s) :
    Kept s0 (State.jrnConfig s kind source fields) := by
  unfold State.jrnConfig
  repeat' (first
    | with_reducible exact Kept.rfl _
    | with_reducible assumption
    | with_reducible apply State.journal_kept)

theorem State.jrnPeer_kept {s0 : State} (s : State) (pos : Nat) (uid : W64) (sub payload : Nat) (hk : Kept s0 s) :
    Kept s0 (State.jrnPeer s pos uid sub payload) := by
  unfold State.jrnPeer
  repeat' (first
    | with_reducible exact Kept.rfl _
    | with_reducible assumption
    | with_reducible apply State.journal_kept)

theorem State.setRole_kept {s0 : State} (s : State) (r : Nat) (hk : Kept s0 s) :
    Kept s0 (State.setRole s r) := by
  unfold State.setRole
  repeat' (first
    | with_reducible exact Kept.rfl _
    | with_reducible assumption
    | with_reducible apply State.setFld_kept)

theorem State.deviceScope_kept {s0 : State} (s : State) (code : Nat) (hk : Kept s0 s) :
    Kept s0 (State.deviceScope s code) := by
  unfold State.deviceScope
  repeat' (first
    | with_reducible exact Kept.rfl _
    | with_reducible assumption
    | with_reducible apply Kept.ite
    | intro _
    | extract_lets
    | ((fail_if_success with_reducible apply Kept.eta); first | with_reducible apply Kept.upd))

theorem State.setBkt_kept {s0 : State} (s : State) (h b : Nat) (valid : Bool) (slice : Nat) (hk : Kept s0 s) :
    Kept s0 (State.setBkt s h b valid slice) := by
  unfold State.setBkt
  repeat' (first
    | with_reducible exact Kept.rfl _
    | with_reducible assumption
    | with_reducible apply State.setFld_kept)

theorem State.hbmPutSector_kept {s0 : State} (s : State) (sec : Nat) (v : BitVec 256) (poison : Bool) (hk : Kept s0 s) :
    Kept s0 (State.hbmPutSector s sec v poison) := by
  unfold State.hbmPutSector
  split
  · refine ⟨hk.1, hk.2, hk.3, hk.4, hk.5, fun c => ?_⟩
    have k := hk.6 c
    simp only [State.canon, State.memWf, State.regsWf, Bool.and_eq_true] at k ⊢
    exact ⟨⟨⟨⟨putBytes_wf _ _ k.1.1.1.1, tabPut_wf _ _ k.1.1.1.2⟩, k.1.1.2⟩, k.1.2⟩, k.2⟩
  · exact hk

theorem State.setLine_kept {s0 : State} (s : State) (k : Nat) (l : Line) (hk : Kept s0 s) :
    Kept s0 (State.setLine s k l) := by
  unfold State.setLine
  repeat' (first
    | with_reducible exact Kept.rfl _
    | with_reducible assumption
    | intro _
    | extract_lets
    | ((fail_if_success with_reducible apply Kept.eta); first | with_reducible apply Kept.upd | with_reducible apply Kept.updU))

theorem State.touch_kept {s0 : State} (s : State) (k : Nat) (recent : Bool) (hk : Kept s0 s) :
    Kept s0 (State.touch s k recent) := by
  unfold State.touch
  repeat' (first
    | with_reducible exact Kept.rfl _
    | with_reducible assumption
    | with_reducible apply Kept.ite
    | intro _
    | extract_lets
    | ((fail_if_success with_reducible apply Kept.eta); first | with_reducible apply Kept.upd | with_reducible apply Kept.updU))

theorem State.dropLine_kept {s0 : State} (s : State) (k : Nat) (hk : Kept s0 s) :
    Kept s0 (State.dropLine s k) := by
  unfold State.dropLine
  repeat' (first
    | with_reducible exact Kept.rfl _
    | with_reducible assumption
    | intro _
    | extract_lets
    | ((fail_if_success with_reducible apply Kept.eta); first | with_reducible apply Kept.upd | with_reducible apply Kept.updU))

theorem State.writeSectors_kept {s0 : State} (s : State) (l : Nat) (dirty poison : BitVec 8) (data : BitVec 2048) (hk : Kept s0 s) :
    Kept s0 (State.writeSectors s l dirty poison data) := by
  unfold State.writeSectors
  repeat' (first
    | with_reducible exact Kept.rfl _
    | with_reducible assumption
    | with_reducible apply State.hbmPutSector_kept
    | with_reducible apply Kept.fold
    | with_reducible apply Kept.ite
    | intro _)

theorem State.writeBack_kept {s0 : State} (s : State) (k : Nat) (hk : Kept s0 s) :
    Kept s0 (State.writeBack s k) := by
  unfold State.writeBack
  repeat' (first
    | with_reducible exact Kept.rfl _
    | with_reducible assumption
    | with_reducible apply State.writeSectors_kept
    | with_reducible apply State.setLine_kept
    | intro _
    | extract_lets
    | split)

theorem State.evict_kept {s0 : State} (s : State) (k : Nat) (hk : Kept s0 s) :
    Kept s0 (State.evict s k) := by
  unfold State.evict
  repeat' (first
    | with_reducible exact Kept.rfl _
    | with_reducible assumption
    | with_reducible apply State.writeBack_kept
    | with_reducible apply State.dropLine_kept)

theorem State.countDead_kept {s0 : State} (s : State) (l : Nat) (hk : Kept s0 s) :
    Kept s0 (State.countDead s l) := by
  unfold State.countDead
  repeat' (first
    | with_reducible exact Kept.rfl _
    | with_reducible assumption
    | with_reducible apply State.incFld_kept
    | intro _
    | extract_lets
    | split
    | ((with_reducible conv => arg 2; whnf); split)
    | ((fail_if_success with_reducible apply Kept.eta); first | with_reducible apply Kept.upd))

theorem State.noteReply_kept {s0 : State} (s : State) (r : UlReq) (p : UlReply) (hk : Kept s0 s) :
    Kept s0 (State.noteReply s r p) := by
  unfold State.noteReply
  repeat' (first
    | with_reducible exact Kept.rfl _
    | with_reducible assumption
    | with_reducible apply State.countDead_kept
    | with_reducible apply Kept.ite
    | intro _
    | extract_lets
    | ((fail_if_success with_reducible apply Kept.eta); first | with_reducible apply Kept.upd | with_reducible apply Kept.updU))

theorem State.runOps_kept {s0 : State} (s : State) (w : Work) (y0 : List UlOp) (hk : Kept s0 s) :
    Kept s0 (State.runOps s w y0).1 := by
  induction y0 generalizing s w with
  | nil =>
    unfold State.runOps
    exact hk
  | cons o l ih =>
    unfold State.runOps
    repeat' (first
      | with_reducible apply ih
      | with_reducible exact Kept.rfl _
      | with_reducible assumption
      | with_reducible apply State.noteReply_kept
      | with_reducible apply Kept.iteFst
      | with_reducible apply Kept.foldFst
      | intro _
      | extract_lets
      | split)

theorem State.runOps_kept_eq {s0 t' : State} {x' : Work} (s : State) (w : Work) (y0 : List UlOp) (eqn : State.runOps s w y0 = (t', x')) (hk : Kept s0 s) : Kept s0 t' := by
  have k := State.runOps_kept (s0 := s0) s w y0 hk
  rw [eqn] at k
  exact k

theorem State.settle_kept {s0 : State} (s : State) (l cls : Nat) (w : Work) {t' : State} (eqn : State.settle s l cls w = some t') (hk : Kept s0 s) :
    Kept s0 t' := by
  unfold State.settle at eqn
  repeat' (first
    | (injection eqn with eqn; subst eqn)
    | (injection eqn with eqn; injection eqn with eqm eqn; subst eqn)
    | (exact absurd eqn (fun e => by injection e))
    | split at eqn
    | dsimp only at eqn)
  all_goals
    repeat' (first
      | with_reducible exact Kept.rfl _
      | with_reducible assumption
      | with_reducible apply State.setLine_kept
      | with_reducible apply State.touch_kept
      | with_reducible apply State.bypass_kept
      | with_reducible apply State.writeSectors_kept
      | with_reducible apply State.evict_kept)

theorem State.fillHbm_kept {s0 : State} (s : State) (l cls : Nat) (asked : BitVec 8) (ops : List UlOp) {t' : State} (eqn : State.fillHbm s l cls asked ops = some t') (hk : Kept s0 s) :
    Kept s0 t' := by
  unfold State.fillHbm at eqn
  repeat' (first
    | (injection eqn with eqn; subst eqn)
    | (injection eqn with eqn; injection eqn with eqm eqn; subst eqn)
    | (exact absurd eqn (fun e => by injection e))
    | split at eqn
    | dsimp only at eqn)
  all_goals
    repeat' (first
      | with_reducible exact Kept.rfl _
      | with_reducible assumption
      | with_reducible apply State.runOps_kept
      | (with_reducible apply State.runOps_kept_eq; assumption)
      | (with_reducible apply State.settle_kept; assumption))

theorem State.readSector_kept {s0 : State} (s : State) (sec cls : Nat) (hk : Kept s0 s) :
    Kept s0 (State.readSector s sec cls).1 := by
  unfold State.readSector
  repeat' (first
    | with_reducible exact Kept.rfl _
    | with_reducible assumption
    | with_reducible apply State.touch_kept
    | (with_reducible apply State.fillHbm_kept; assumption)
    | with_reducible apply Kept.getD
    | with_reducible apply Kept.iteFst
    | with_reducible apply Kept.foldFst
    | with_reducible apply Kept.ite
    | intro _
    | extract_lets
    | split
    | ((with_reducible conv => arg 2; whnf); split)
    | ((fail_if_success with_reducible apply Kept.eta); first | with_reducible apply Kept.upd))

theorem State.readSector_kept_eq {s0 t' : State} {x' : (BitVec 256 × Bool)} (s : State) (sec cls : Nat) (eqn : State.readSector s sec cls = (t', x')) (hk : Kept s0 s) : Kept s0 t' := by
  have k := State.readSector_kept (s0 := s0) s sec cls hk
  rw [eqn] at k
  exact k

theorem State.sourceSector_kept {s0 : State} (s : State) (sec cls : Nat) (hk : Kept s0 s) :
    Kept s0 (State.sourceSector s sec cls).1 := by
  unfold State.sourceSector
  repeat' (first
    | with_reducible exact Kept.rfl _
    | with_reducible assumption
    | with_reducible apply State.readSector_kept
    | (with_reducible apply State.readSector_kept_eq; assumption)
    | with_reducible apply State.countDead_kept
    | with_reducible apply Kept.iteFst
    | with_reducible apply Kept.foldFst
    | with_reducible apply Kept.ite
    | intro _
    | extract_lets)

theorem State.sourceSector_kept_eq {s0 t' : State} {x' : (BitVec 256 × Bool)} (s : State) (sec cls : Nat) (eqn : State.sourceSector s sec cls = (t', x')) (hk : Kept s0 s) : Kept s0 t' := by
  have k := State.sourceSector_kept (s0 := s0) s sec cls hk
  rw [eqn] at k
  exact k

theorem State.viewRow_kept {s0 : State} (s : State) (w cls e b i u : Nat) (acc : BitVec 2048 × BitVec 8) (hk : Kept s0 s) :
    Kept s0 (State.viewRow s w cls e b i u acc).1 := by
  unfold State.viewRow
  with_reducible refine Kept.pair ?_
  with_reducible exact State.sourceSector_kept _ _ _ hk

theorem State.viewRow_kept_eq {s0 t' : State} {x' : BitVec 2048 × BitVec 8} (s : State) (w cls e b i u : Nat) (acc : BitVec 2048 × BitVec 8) (eqn : State.viewRow s w cls e b i u acc = (t', x')) (hk : Kept s0 s) : Kept s0 t' := by
  have k := State.viewRow_kept (s0 := s0) s w cls e b i u acc hk
  rw [eqn] at k
  exact k

theorem State.viewLine_kept {s0 : State} (s : State) (w l cls : Nat) (hk : Kept s0 s) :
    Kept s0 (State.viewLine s w l cls).1 := by
  have hq : ∀ (w cls e b k rows n : Nat) p, Kept s0 p.1 →
      Kept s0 ((List.range n).foldl (fun acc u => State.viewStep w cls e b k rows acc u) p).1 := by
    intro w cls e b k rows n p hp
    refine Kept.foldFst hp (fun q u => ?_)
    unfold State.viewStep
    with_reducible apply Kept.iteFst
    · exact Kept.rfl _
    · with_reducible exact State.viewRow_kept _ _ _ _ _ _ _ _ (Kept.rfl _)
  rw [State.viewLine]
  split
  · exact hk
  · exact hq _ _ _ _ _ _ _ _ hk

theorem State.viewLine_kept_eq {s0 t' : State} {x' : BitVec 2048 × BitVec 8} (s : State) (w l cls : Nat) (eqn : State.viewLine s w l cls = (t', x')) (hk : Kept s0 s) : Kept s0 t' := by
  have k := State.viewLine_kept (s0 := s0) s w l cls hk
  rw [eqn] at k
  exact k

theorem State.fillView_kept {s0 : State} (s : State) (w l cls : Nat) (ops : List UlOp) {t' : State} (eqn : State.fillView s w l cls ops = some t') (hk : Kept s0 s) :
    Kept s0 t' := by
  rw [State.fillView] at eqn
  with_reducible exact State.settle_kept _ _ _ _ eqn (State.runOps_kept _ _ _ (State.viewLine_kept _ _ _ _ hk))

theorem State.fillLine_kept {s0 : State} (s : State) (l cls : Nat) (asked : BitVec 8) (ops : List UlOp) {t' : State} (eqn : State.fillLine s l cls asked ops = some t') (hk : Kept s0 s) :
    Kept s0 t' := by
  rw [State.fillLine] at eqn
  split at eqn
  · split at eqn
    · injection eqn with eqn
      subst eqn
      exact hk
    · with_reducible exact State.fillView_kept _ _ _ _ _ eqn hk
  · with_reducible exact State.fillHbm_kept _ _ _ _ _ eqn hk

theorem State.readLine_kept {s0 : State} (s : State) (l cls : Nat) (hk : Kept s0 s) :
    Kept s0 (State.readLine s l cls).1 := by
  unfold State.readLine
  split
  · split
    · with_reducible exact Kept.pair hk
    · with_reducible refine Kept.pair ?_
      with_reducible exact State.viewLine_kept _ _ _ _ hk
    · with_reducible exact Kept.pair hk
  · with_reducible refine Kept.pair ?_
    with_reducible exact Kept.ite hk (State.countDead_kept _ _ hk)

theorem State.readLine_kept_eq {s0 t' : State} {x' : List Byte × Bool} (s : State) (l cls : Nat) (eqn : State.readLine s l cls = (t', x')) (hk : Kept s0 s) : Kept s0 t' := by
  have k := State.readLine_kept (s0 := s0) s l cls hk
  rw [eqn] at k
  exact k

theorem State.readLines_kept {s0 : State} (s : State) (l cls : Nat) (y0 : Nat) (hk : Kept s0 s) :
    Kept s0 (State.readLines s l cls y0).1 := by
  induction y0 generalizing s l cls with
  | zero =>
    unfold State.readLines
    exact hk
  | succ n ih =>
    unfold State.readLines
    repeat' (first
      | with_reducible apply ih
      | with_reducible exact Kept.rfl _
      | with_reducible assumption
      | with_reducible apply State.readLine_kept
      | (with_reducible apply State.readLine_kept_eq; assumption)
      | with_reducible apply Kept.iteFst
      | with_reducible apply Kept.foldFst
      | intro _
      | extract_lets)

theorem State.readLines_kept_eq {s0 t' : State} {x' : List Byte × Bool} (s : State) (l cls : Nat) (y0 : Nat) (eqn : State.readLines s l cls y0 = (t', x')) (hk : Kept s0 s) : Kept s0 t' := by
  have k := State.readLines_kept (s0 := s0) s l cls y0 hk
  rw [eqn] at k
  exact k

theorem State.putSector_kept {s0 : State} (s : State) (sec : Nat) (v : BitVec 256) (poison : Bool) (hk : Kept s0 s) :
    Kept s0 (State.putSector s sec v poison) := by
  unfold State.putSector
  repeat' (first
    | with_reducible exact Kept.rfl _
    | with_reducible assumption
    | with_reducible apply State.setLine_kept
    | with_reducible apply State.hbmPutSector_kept
    | with_reducible apply Kept.ite
    | intro _
    | extract_lets
    | split)

theorem State.devWriteGo_kept {s0 : State}  (y0 : Nat) (s : State) (y2 : Nat) (y3 : List Byte) (hk : Kept s0 s) :
    Kept s0 (State.devWriteGo y0 s y2 y3) := by
  induction y0 generalizing s y2 y3 with
  | zero =>
    unfold State.devWriteGo
    exact hk
  | succ n ih =>
    unfold State.devWriteGo
    repeat' (first
      | with_reducible apply ih
      | with_reducible exact Kept.rfl _
      | with_reducible assumption
      | with_reducible apply State.putSector_kept
      | intro _
      | extract_lets
      | split)

theorem State.devWrite_kept {s0 : State} (s : State) (a : Nat) (bs : List Byte) (hk : Kept s0 s) :
    Kept s0 (State.devWrite s a bs) := by
  unfold State.devWrite
  repeat' (first
    | with_reducible exact Kept.rfl _
    | with_reducible assumption
    | with_reducible apply State.devWriteGo_kept)

theorem State.setPoint_kept {s0 : State} (s : State) (i : Nat) (p : UlPoint) (hk : Kept s0 s) :
    Kept s0 (State.setPoint s i p) := by
  unfold State.setPoint
  repeat' (first
    | with_reducible exact Kept.rfl _
    | with_reducible assumption
    | intro _
    | extract_lets
    | ((fail_if_success with_reducible apply Kept.eta); first | with_reducible apply Kept.upd | with_reducible apply Kept.updU))

theorem State.inPoint_kept {s0 : State} (s : State) (i : Nat) (o : UlOp) (hk : Kept s0 s) :
    Kept s0 (State.inPoint s i o) := by
  unfold State.inPoint
  repeat' (first
    | with_reducible exact Kept.rfl _
    | with_reducible assumption
    | with_reducible apply State.setPoint_kept)

theorem State.grant_kept {s0 : State} (s : State) (i : Nat) (may : UlOp → Bool) (hk : Kept s0 s) :
    Kept s0 (State.grant s i may).1 := by
  unfold State.grant
  extract_lets r
  split
  · exact State.setPoint_kept _ _ _ hk
  · exact State.noteServed_kept _ _ _ _ (State.setPoint_kept _ _ _ hk)

theorem State.grant_kept_eq {s0 t' : State} {x' : Option UlOp} (s : State) (i : Nat) (may : UlOp → Bool) (eqn : State.grant s i may = (t', x')) (hk : Kept s0 s) : Kept s0 t' := by
  have k := State.grant_kept (s0 := s0) s i may hk
  rw [eqn] at k
  exact k

theorem State.askChannel_kept {s0 : State} (s : State) (r : UlReq) (sectors : BitVec 8) (hk : Kept s0 s) :
    Kept s0 (State.askChannel s r sectors) := by
  unfold State.askChannel
  repeat' (first
    | with_reducible exact Kept.rfl _
    | with_reducible assumption
    | with_reducible apply State.setRglPoint_kept
    | with_reducible apply Kept.ite
    | intro _
    | extract_lets
    | split
    | ((with_reducible conv => arg 2; whnf); split)
    | ((fail_if_success with_reducible apply Kept.eta); first | with_reducible apply Kept.upd))

theorem State.channelClock_kept {s0 : State} (s : State) (ch : Nat) (hk : Kept s0 s) :
    Kept s0 (State.channelClock s ch) := by
  unfold State.channelClock
  repeat' (first
    | with_reducible exact Kept.rfl _
    | with_reducible assumption
    | with_reducible apply State.setRglPoint_kept
    | with_reducible apply State.noteServed_kept
    | with_reducible apply Kept.ite
    | intro _
    | extract_lets
    | split
    | ((with_reducible conv => arg 2; whnf); split)
    | ((fail_if_success with_reducible apply Kept.eta); first | with_reducible apply Kept.upd))

theorem State.channelRun_kept {s0 : State} (s : State) (ch : Nat) (mine : UlOp → Bool) (y0 : Nat) {t' : State} (eqn : State.channelRun s ch mine y0 = some t') (hk : Kept s0 s) :
    Kept s0 t' := by
  induction y0 generalizing s with
  | zero =>
    rw [State.channelRun] at eqn
    split at eqn
    · exact nomatch eqn
    · exact Option.some.inj eqn ▸ hk
  | succ n ih =>
    rw [State.channelRun] at eqn
    split at eqn
    · exact ih _ eqn (State.channelClock_kept _ _ hk)
    · exact Option.some.inj eqn ▸ hk

theorem State.channelTurn_kept {s0 : State} (s : State) (line : Nat) (mine : UlOp → Bool) {t' : State} (eqn : State.channelTurn s line mine = some t') (hk : Kept s0 s) :
    Kept s0 t' := by
  unfold State.channelTurn at eqn
  repeat' (first
    | (injection eqn with eqn; subst eqn)
    | (injection eqn with eqn; injection eqn with eqm eqn; subst eqn)
    | (exact absurd eqn (fun e => by injection e))
    | split at eqn
    | dsimp only at eqn)
  all_goals
    repeat' (first
      | with_reducible exact Kept.rfl _
      | with_reducible assumption
      | (with_reducible apply State.channelRun_kept; assumption)
      | intro _
      | extract_lets
      | split
      | ((with_reducible conv => arg 2; whnf); split)
      | ((fail_if_success with_reducible apply Kept.eta); first | with_reducible apply Kept.upd))

theorem State.setMshr_kept {s0 : State} (s : State) (slice : Nat) (l : List Mshr) (hk : Kept s0 s) :
    Kept s0 (State.setMshr s slice l) := by
  unfold State.setMshr
  repeat' (first
    | with_reducible exact Kept.rfl _
    | with_reducible assumption
    | intro _
    | extract_lets
    | ((fail_if_success with_reducible apply Kept.eta); first | with_reducible apply Kept.upd | with_reducible apply Kept.updU))

theorem State.setInq_kept {s0 : State} (s : State) (slice : Nat) (l : List UlOp) (hk : Kept s0 s) :
    Kept s0 (State.setInq s slice l) := by
  unfold State.setInq
  repeat' (first
    | with_reducible exact Kept.rfl _
    | with_reducible assumption
    | intro _
    | extract_lets
    | ((fail_if_success with_reducible apply Kept.eta); first | with_reducible apply Kept.upd | with_reducible apply Kept.updU))

theorem State.missReq_kept {s0 : State} (s : State) (slice : Nat) (o : UlOp) (need : BitVec 8) {t' : State} (eqn : State.missReq s slice o need = some t') (hk : Kept s0 s) :
    Kept s0 t' := by
  unfold State.missReq at eqn
  repeat' (first
    | (injection eqn with eqn; subst eqn)
    | (injection eqn with eqn; injection eqn with eqm eqn; subst eqn)
    | (exact absurd eqn (fun e => by injection e))
    | split at eqn
    | dsimp only at eqn)
  all_goals
    repeat' (first
      | with_reducible exact Kept.rfl _
      | with_reducible assumption
      | with_reducible apply State.setMshr_kept
      | with_reducible apply State.askChannel_kept)

theorem State.takeReq_kept {s0 : State} (s : State) (p : Place) (o : UlOp) {t' : State} (eqn : State.takeReq s p o = some t') (hk : Kept s0 s) :
    Kept s0 t' := by
  unfold State.takeReq at eqn
  repeat' (first
    | (injection eqn with eqn; subst eqn)
    | (injection eqn with eqn; injection eqn with eqm eqn; subst eqn)
    | (exact absurd eqn (fun e => by injection e))
    | split at eqn
    | dsimp only at eqn)
  all_goals
    repeat' (first
      | with_reducible exact Kept.rfl _
      | with_reducible assumption
      | with_reducible apply State.noteReply_kept
      | (with_reducible apply State.missReq_kept; assumption)
      | with_reducible apply State.runOps_kept
      | (with_reducible apply State.runOps_kept_eq; assumption)
      | (with_reducible apply State.settle_kept; assumption)
      | with_reducible apply State.setMshr_kept
      | with_reducible apply Kept.iteFst
      | with_reducible apply Kept.foldFst
      | with_reducible apply Kept.ite)

theorem State.retryInq_kept {s0 : State} (s : State) (slice : Nat) (y0 : List UlOp) (hk : Kept s0 s) :
    Kept s0 (State.retryInq s slice y0) := by
  induction y0 generalizing s slice with
  | nil =>
    unfold State.retryInq
    exact hk
  | cons o l ih =>
    unfold State.retryInq
    repeat' (first
      | with_reducible apply ih
      | with_reducible exact Kept.rfl _
      | with_reducible assumption
      | with_reducible apply State.setInq_kept
      | (with_reducible apply State.takeReq_kept; assumption)
      | with_reducible apply Kept.ite
      | intro _
      | extract_lets
      | split)

theorem State.drainInq_kept {s0 : State} (s : State) (slice : Nat) (hk : Kept s0 s) :
    Kept s0 (State.drainInq s slice) := by
  unfold State.drainInq
  repeat' (first
    | with_reducible exact Kept.rfl _
    | with_reducible assumption
    | with_reducible apply State.retryInq_kept)

theorem State.setBuckets_kept {s0 : State} (s : State) (x n : Nat) (hk : Kept s0 s) :
    Kept s0 (State.setBuckets s x n) := by
  unfold State.setBuckets
  repeat' (first
    | with_reducible exact Kept.rfl _
    | with_reducible assumption
    | with_reducible apply State.setFld_kept)

theorem State.moveBucket_kept {s0 : State} (s : State) (h x b : Nat) (hk : Kept s0 s) :
    Kept s0 (State.moveBucket s h x b) := by
  unfold State.moveBucket
  repeat' (first
    | with_reducible exact Kept.rfl _
    | with_reducible assumption
    | with_reducible apply State.setBkt_kept
    | with_reducible apply State.setBuckets_kept
    | intro _
    | extract_lets
    | split)

theorem State.checkSlices_kept {s0 : State} (s : State) (hk : Kept s0 s) :
    Kept s0 (State.checkSlices s) := by
  unfold State.checkSlices
  repeat' (first
    | with_reducible exact Kept.rfl _
    | with_reducible assumption
    | with_reducible apply State.failDevice_kept
    | with_reducible apply Kept.ite)

theorem State.retireSlice_kept {s0 : State} (s : State) (x cause causeEv : Nat) (hk : Kept s0 s) :
    Kept s0 (State.retireSlice s x cause causeEv) := by
  unfold State.retireSlice
  repeat' (first
    | with_reducible exact Kept.rfl _
    | with_reducible assumption
    | with_reducible apply State.setFld_kept
    | with_reducible apply State.moveBucket_kept
    | with_reducible apply Kept.fold
    | with_reducible apply Kept.ite
    | intro _
    | extract_lets
    | ((fail_if_success with_reducible apply Kept.eta); first | with_reducible apply Kept.upd | with_reducible apply Kept.updU))

theorem State.atPort_kept {s0 : State} (s : State) (o : UlOp) (hk : Kept s0 s) :
    Kept s0 (State.atPort s o) := by
  unfold State.atPort
  repeat' (first
    | with_reducible exact Kept.rfl _
    | with_reducible assumption
    | with_reducible apply State.inPoint_kept
    | intro _
    | extract_lets
    | split
    | ((with_reducible conv => arg 2; whnf); split)
    | ((fail_if_success with_reducible apply Kept.eta); first | with_reducible apply Kept.upd))

theorem State.submit_kept {s0 : State} (s : State) (o : UlOp) (hk : Kept s0 s) :
    Kept s0 (State.submit s o) := by
  unfold State.submit
  repeat' (first
    | with_reducible exact Kept.rfl _
    | with_reducible assumption
    | with_reducible apply State.inPoint_kept
    | with_reducible apply State.atPort_kept
    | with_reducible apply Kept.ite
    | intro _
    | extract_lets
    | split)

theorem State.rehome_kept {s0 : State} (s : State) (x : Nat) (hk : Kept s0 s) :
    Kept s0 (State.rehome s x) := by
  unfold State.rehome
  repeat' (first
    | with_reducible exact Kept.rfl _
    | with_reducible assumption
    | with_reducible apply State.setPoint_kept
    | with_reducible apply State.atPort_kept
    | with_reducible apply Kept.fold
    | intro _)

theorem State.endRetire_kept {s0 : State} (s : State) (x : Nat) (hk : Kept s0 s) :
    Kept s0 (State.endRetire s x) := by
  unfold State.endRetire
  repeat' (first
    | with_reducible exact Kept.rfl _
    | with_reducible assumption
    | with_reducible apply State.setFld_kept
    | with_reducible apply State.setBit_kept
    | with_reducible apply State.raise_kept
    | with_reducible apply State.rehome_kept
    | with_reducible apply State.checkSlices_kept
    | intro _
    | extract_lets
    | split
    | ((with_reducible conv => arg 2; whnf); split)
    | ((fail_if_success with_reducible apply Kept.eta); first | with_reducible apply Kept.upd | with_reducible apply Kept.updU))

theorem State.journalRetirements_kept {s0 : State} (s : State) (hk : Kept s0 s) :
    Kept s0 (State.journalRetirements s) := by
  unfold State.journalRetirements
  repeat' (first
    | with_reducible exact Kept.rfl _
    | with_reducible assumption
    | with_reducible apply State.event_kept
    | with_reducible apply State.addDefect_kept
    | with_reducible apply Kept.fold
    | intro _
    | extract_lets
    | ((fail_if_success with_reducible apply Kept.eta); first | with_reducible apply Kept.upd | with_reducible apply Kept.updU))

theorem State.rowOut_kept {s0 : State} (s : State) (slice die row : Nat) (hk : Kept s0 s) :
    Kept s0 (State.rowOut s slice die row) := by
  unfold State.rowOut
  repeat' (first
    | with_reducible exact Kept.rfl _
    | with_reducible assumption
    | with_reducible apply State.row_kept
    | with_reducible apply State.evict_kept
    | with_reducible apply Kept.fold
    | intro _
    | extract_lets
    | ((fail_if_success with_reducible apply Kept.eta); first | with_reducible apply Kept.upd | with_reducible apply Kept.updU))

theorem State.disableRow_kept {s0 : State} (s : State) (slice die row : Nat) (hk : Kept s0 s) :
    Kept s0 (State.disableRow s slice die row) := by
  unfold State.disableRow
  repeat' (first
    | with_reducible exact Kept.rfl _
    | with_reducible assumption
    | with_reducible apply State.row_kept
    | with_reducible apply State.rowOut_kept
    | with_reducible apply State.incFld_kept
    | with_reducible apply State.raise_kept
    | with_reducible apply State.event_kept
    | with_reducible apply State.addDefect_kept
    | with_reducible apply State.retireSlice_kept
    | with_reducible apply Kept.ite)

theorem State.replaceRow_kept {s0 : State} (s : State) (slice die row : Nat) (hk : Kept s0 s) :
    Kept s0 (State.replaceRow s slice die row) := by
  unfold State.replaceRow
  repeat' (first
    | with_reducible exact Kept.rfl _
    | with_reducible assumption
    | with_reducible apply State.row_kept
    | with_reducible apply State.disableRow_kept
    | with_reducible apply Kept.ite
    | intro _
    | extract_lets
    | ((fail_if_success with_reducible apply Kept.eta); first | with_reducible apply Kept.upd | with_reducible apply Kept.updU))

theorem State.pinRecompute_kept {s0 : State} (s : State) (start : Bool) (hk : Kept s0 s) :
    Kept s0 (State.pinRecompute s start) := by
  unfold State.pinRecompute
  repeat' (first
    | with_reducible exact Kept.rfl _
    | with_reducible assumption
    | with_reducible apply State.setFld_kept
    | with_reducible apply State.event_kept
    | with_reducible apply State.raise_kept
    | with_reducible apply Kept.fold
    | with_reducible apply Kept.ite
    | intro _)

theorem State.prefetchLine_kept {s0 : State} (s : State) (l cls : Nat) (hk : Kept s0 s) :
    Kept s0 (State.prefetchLine s l cls) := by
  unfold State.prefetchLine
  repeat' (first
    | with_reducible exact Kept.rfl _
    | with_reducible assumption
    | (with_reducible apply State.fillLine_kept; assumption)
    | with_reducible apply Kept.getD
    | with_reducible apply Kept.ite
    | intro _
    | extract_lets
    | split)

theorem State.setDead_kept {s0 : State} (s : State) (l : List (Nat × Nat)) (hk : Kept s0 s) :
    Kept s0 (State.setDead s l) := by
  unfold State.setDead
  repeat' (first
    | with_reducible exact Kept.rfl _
    | with_reducible assumption
    | with_reducible apply State.setFld_kept
    | intro _
    | extract_lets
    | ((fail_if_success with_reducible apply Kept.eta); first | with_reducible apply Kept.upd | with_reducible apply Kept.updU))

theorem State.deadOverflow_kept {s0 : State} (s : State) (w base size : Nat) (hk : Kept s0 s) :
    Kept s0 (State.deadOverflow s w base size) := by
  unfold State.deadOverflow
  repeat' (first
    | with_reducible exact Kept.rfl _
    | with_reducible assumption
    | with_reducible apply State.hbmPutSector_kept
    | with_reducible apply State.incFld_kept
    | with_reducible apply State.raise_kept
    | with_reducible apply State.event_kept
    | with_reducible apply Kept.fold
    | intro _)

theorem State.deadRange_kept {s0 : State} (s : State) (base size : Nat) (hk : Kept s0 s) :
    Kept s0 (State.deadRange s base size) := by
  unfold State.deadRange
  repeat' (first
    | with_reducible exact Kept.rfl _
    | with_reducible assumption
    | with_reducible apply State.dropLine_kept
    | with_reducible apply State.setDead_kept
    | with_reducible apply State.deadOverflow_kept
    | with_reducible apply Kept.fold
    | with_reducible apply Kept.ite
    | intro _
    | extract_lets
    | split)

theorem State.liveRange_kept {s0 : State} (s : State) (base size : Nat) (hk : Kept s0 s) :
    Kept s0 (State.liveRange s base size) := by
  unfold State.liveRange
  repeat' (first
    | with_reducible exact Kept.rfl _
    | with_reducible assumption
    | with_reducible apply State.deadOverflow_kept
    | with_reducible apply State.setDead_kept
    | with_reducible apply Kept.fold
    | with_reducible apply Kept.ite
    | intro _
    | extract_lets
    | split)

theorem State.applyRange_kept {s0 : State} (s : State) (op base size cls : Nat) (hk : Kept s0 s) :
    Kept s0 (State.applyRange s op base size cls) := by
  unfold State.applyRange
  repeat' (first
    | with_reducible exact Kept.rfl _
    | with_reducible assumption
    | with_reducible apply State.prefetchLine_kept
    | with_reducible apply State.writeBack_kept
    | with_reducible apply State.evict_kept
    | with_reducible apply State.deadRange_kept
    | with_reducible apply State.liveRange_kept
    | with_reducible apply Kept.fold
    | intro _
    | extract_lets
    | split)

theorem State.writeRef_kept {s0 : State} (s : State) (u : Nat) (w : W32) (hk : Kept s0 s) :
    Kept s0 (State.writeRef s u w) := by
  unfold State.writeRef
  repeat' (first
    | with_reducible exact Kept.rfl _
    | with_reducible assumption
    | with_reducible apply State.devWrite_kept
    | intro _
    | extract_lets
    | split
    | ((with_reducible conv => arg 2; whnf); split)
    | ((fail_if_success with_reducible apply Kept.eta); first | with_reducible apply Kept.upd))

theorem State.writeList_kept {s0 : State} (s : State) (list : Option Nat) (pages : List PageEntry) (hk : Kept s0 s) :
    Kept s0 (State.writeList s list pages) := by
  unfold State.writeList
  repeat' (first
    | with_reducible exact Kept.rfl _
    | with_reducible assumption
    | with_reducible apply State.devWrite_kept
    | intro _
    | extract_lets
    | split
    | ((with_reducible conv => arg 2; whnf); split)
    | ((fail_if_success with_reducible apply Kept.eta); first | with_reducible apply Kept.upd))

theorem State.setSeq_kept {s0 : State} (s : State) (n : Nat) (q : Seq) (hk : Kept s0 s) :
    Kept s0 (State.setSeq s n q) := by
  unfold State.setSeq
  repeat' (first
    | with_reducible exact Kept.rfl _
    | with_reducible assumption
    | with_reducible apply State.writeList_kept
    | with_reducible apply Kept.ite
    | intro _
    | extract_lets
    | ((fail_if_success with_reducible apply Kept.eta); first | with_reducible apply Kept.upd))

theorem State.modSeq_kept {s0 : State} (s : State) (n : Nat) (f : Seq → Seq) (hk : Kept s0 s) :
    Kept s0 (State.modSeq s n f) := by
  unfold State.modSeq
  repeat' (first
    | with_reducible exact Kept.rfl _
    | with_reducible assumption
    | with_reducible apply State.setSeq_kept
    | intro _
    | extract_lets
    | split)

theorem State.syncKv_kept {s0 : State} (s : State) (hk : Kept s0 s) :
    Kept s0 (State.syncKv s) := by
  unfold State.syncKv
  repeat' (first
    | with_reducible exact Kept.rfl _
    | with_reducible assumption
    | with_reducible apply State.setFld_kept)

theorem State.clearLedger_kept {s0 : State} (s : State) (hk : Kept s0 s) :
    Kept s0 (State.clearLedger s) := by
  unfold State.clearLedger
  repeat' (first
    | with_reducible exact Kept.rfl _
    | with_reducible assumption
    | with_reducible apply State.writeRef_kept
    | with_reducible apply State.setFld_kept
    | with_reducible apply State.syncKv_kept
    | with_reducible apply Kept.fold
    | intro _
    | extract_lets
    | ((fail_if_success with_reducible apply Kept.eta); first | with_reducible apply Kept.upd))

theorem State.setRef_kept {s0 : State} (s : State) (u : Nat) (r : PageRef) (hk : Kept s0 s) :
    Kept s0 (State.setRef s u r) := by
  unfold State.setRef
  repeat' (first
    | with_reducible exact Kept.rfl _
    | with_reducible assumption
    | with_reducible apply State.writeRef_kept
    | intro _
    | extract_lets
    | ((fail_if_success with_reducible apply Kept.eta); first | with_reducible apply Kept.upd))

theorem State.returnHanded_kept {s0 : State} (s : State) (hk : Kept s0 s) :
    Kept s0 (State.returnHanded s) := by
  unfold State.returnHanded
  repeat' (first
    | with_reducible exact Kept.rfl _
    | with_reducible assumption
    | with_reducible apply Kept.fold
    | intro _
    | extract_lets
    | ((fail_if_success with_reducible apply Kept.eta); first | with_reducible apply Kept.upd))

theorem State.maybeFree_kept {s0 : State} (s : State) (u : Nat) (hk : Kept s0 s) :
    Kept s0 (State.maybeFree s u) := by
  unfold State.maybeFree
  repeat' (first
    | with_reducible exact Kept.rfl _
    | with_reducible assumption
    | with_reducible apply State.writeRef_kept
    | with_reducible apply State.replaceRow_kept
    | with_reducible apply State.returnHanded_kept
    | with_reducible apply Kept.fold
    | with_reducible apply Kept.ite
    | intro _
    | extract_lets
    | ((fail_if_success with_reducible apply Kept.eta); first | with_reducible apply Kept.upd))

theorem State.dropRef_kept {s0 : State} (s : State) (u : Nat) (hk : Kept s0 s) :
    Kept s0 (State.dropRef s u) := by
  unfold State.dropRef
  repeat' (first
    | with_reducible exact Kept.rfl _
    | with_reducible assumption
    | with_reducible apply State.setRef_kept
    | with_reducible apply State.maybeFree_kept)

theorem State.takePage_kept {s0 : State} (s : State) (c : Nat) {t' : State} {u : Nat} (eqn : State.takePage s c = some (u, t')) (hk : Kept s0 s) :
    Kept s0 t' := by
  unfold State.takePage at eqn
  repeat' (first
    | (injection eqn with eqn; subst eqn)
    | (injection eqn with eqn; injection eqn with eqm eqn; subst eqn)
    | (exact absurd eqn (fun e => by injection e))
    | split at eqn
    | dsimp only at eqn)
  all_goals
    repeat' (first
      | with_reducible exact Kept.rfl _
      | with_reducible assumption
      | with_reducible apply State.setRef_kept
      | intro _
      | extract_lets
      | split
      | ((with_reducible conv => arg 2; whnf); split)
      | ((fail_if_success with_reducible apply Kept.eta); first | with_reducible apply Kept.upd))

theorem State.takeList_kept {s0 : State} (s : State) {t' : State} {u : Nat} (eqn : State.takeList s = some (u, t')) (hk : Kept s0 s) :
    Kept s0 t' := by
  unfold State.takeList at eqn
  repeat' (first
    | (injection eqn with eqn; subst eqn)
    | (injection eqn with eqn; injection eqn with eqm eqn; subst eqn)
    | (exact absurd eqn (fun e => by injection e))
    | split at eqn
    | dsimp only at eqn)
  all_goals
    repeat' (first
      | with_reducible exact Kept.rfl _
      | with_reducible assumption
      | intro _
      | extract_lets
      | split
      | ((with_reducible conv => arg 2; whnf); split)
      | ((fail_if_success with_reducible apply Kept.eta); first | with_reducible apply Kept.upd))

theorem State.freeList_kept {s0 : State} (s : State) (u : Option Nat) (hk : Kept s0 s) :
    Kept s0 (State.freeList s u) := by
  unfold State.freeList
  repeat' (first
    | with_reducible exact Kept.rfl _
    | with_reducible assumption
    | intro _
    | extract_lets
    | split
    | ((with_reducible conv => arg 2; whnf); split)
    | ((fail_if_success with_reducible apply Kept.eta); first | with_reducible apply Kept.upd))

theorem State.freeSwap_kept {s0 : State} (s : State) (l : List (Nat × Nat)) (hk : Kept s0 s) :
    Kept s0 (State.freeSwap s l) := by
  unfold State.freeSwap
  repeat' (first
    | with_reducible exact Kept.rfl _
    | with_reducible assumption
    | with_reducible apply Kept.fold
    | intro _
    | extract_lets
    | ((fail_if_success with_reducible apply Kept.eta); first | with_reducible apply Kept.upd))

theorem State.modCmdU_kept {s0 : State} (s : State) (uid : Nat) (f : Cmd → Cmd) (hk : Kept s0 s) :
    Kept s0 (State.modCmdU s uid f) := by
  unfold State.modCmdU
  repeat' (first
    | with_reducible exact Kept.rfl _
    | with_reducible assumption
    | intro _
    | extract_lets
    | ((fail_if_success with_reducible apply Kept.eta); first | with_reducible apply Kept.upd | with_reducible apply Kept.updH))

theorem State.completeU_kept {s0 : State} (s : State) (uid status info : Nat) (stateCode : Nat) (hk : Kept s0 s) :
    Kept s0 (State.completeU s uid status info stateCode) := by
  unfold State.completeU
  repeat' (first
    | with_reducible exact Kept.rfl _
    | with_reducible assumption
    | with_reducible apply State.freeReserved_kept
    | with_reducible apply State.updDefer_kept
    | with_reducible apply State.cqPost_kept
    | with_reducible apply State.updBusy_kept
    | intro _
    | extract_lets
    | split
    | ((with_reducible conv => arg 2; whnf); split)
    | ((fail_if_success with_reducible apply Kept.eta); first | with_reducible apply Kept.upd | with_reducible apply Kept.updH))

theorem State.endRows_kept {s0 : State} (s : State) (uid status count : Nat) (hk : Kept s0 s) :
    Kept s0 (State.endRows s uid status count) := by
  unfold State.endRows
  repeat' (first
    | with_reducible exact Kept.rfl _
    | with_reducible assumption
    | with_reducible apply State.writeResult_kept
    | with_reducible apply State.completeU_kept
    | with_reducible apply Kept.iteFst
    | with_reducible apply Kept.foldFst
    | intro _
    | extract_lets
    | split)

theorem State.endSeqCmd_kept {s0 : State} (s : State) (uid status : Nat) (hk : Kept s0 s) :
    Kept s0 (State.endSeqCmd s uid status) := by
  unfold State.endSeqCmd
  repeat' (first
    | with_reducible exact Kept.rfl _
    | with_reducible assumption
    | with_reducible apply State.modSeq_kept
    | with_reducible apply State.endRows_kept
    | with_reducible apply Kept.ite
    | intro _
    | extract_lets
    | split
    | ((with_reducible conv => arg 2; whnf); split)
    | ((fail_if_success with_reducible apply Kept.eta); first | with_reducible apply Kept.upd))

theorem State.checkSeqCmd_kept {s0 : State} (s : State) (uid : Nat) (hk : Kept s0 s) :
    Kept s0 (State.checkSeqCmd s uid) := by
  unfold State.checkSeqCmd
  repeat' (first
    | with_reducible exact Kept.rfl _
    | with_reducible assumption
    | with_reducible apply State.endSeqCmd_kept
    | with_reducible apply Kept.ite
    | intro _
    | extract_lets
    | split)

theorem State.endSeqCmds_kept {s0 : State} (s : State) (n status : Nat) (hk : Kept s0 s) :
    Kept s0 (State.endSeqCmds s n status) := by
  unfold State.endSeqCmds
  repeat' (first
    | with_reducible exact Kept.rfl _
    | with_reducible assumption
    | with_reducible apply State.endSeqCmd_kept
    | with_reducible apply Kept.fold
    | intro _)

theorem State.invalidateSeq_kept {s0 : State} (s : State) (n : Nat) (hk : Kept s0 s) :
    Kept s0 (State.invalidateSeq s n) := by
  unfold State.invalidateSeq
  repeat' (first
    | with_reducible exact Kept.rfl _
    | with_reducible assumption
    | intro _
    | extract_lets
    | ((fail_if_success with_reducible apply Kept.eta); first | with_reducible apply Kept.upd))

theorem State.releaseSeq_kept {s0 : State} (s : State) (n : Nat) (hk : Kept s0 s) :
    Kept s0 (State.releaseSeq s n) := by
  unfold State.releaseSeq
  repeat' (first
    | with_reducible exact Kept.rfl _
    | with_reducible assumption
    | with_reducible apply State.freeSwap_kept
    | with_reducible apply State.dropRef_kept
    | with_reducible apply State.freeList_kept
    | with_reducible apply State.taken_kept
    | with_reducible apply State.syncKv_kept
    | with_reducible apply Kept.fold
    | with_reducible apply Kept.ite
    | intro _
    | extract_lets
    | split
    | ((with_reducible conv => arg 2; whnf); split)
    | ((fail_if_success with_reducible apply Kept.eta); first | with_reducible apply Kept.upd))

theorem State.endWaitCmd_kept {s0 : State} (s : State) (n status : Nat) (hk : Kept s0 s) :
    Kept s0 (State.endWaitCmd s n status) := by
  unfold State.endWaitCmd
  repeat' (first
    | with_reducible exact Kept.rfl _
    | with_reducible assumption
    | with_reducible apply State.setSeq_kept
    | with_reducible apply State.complete_kept
    | intro _
    | extract_lets
    | split)

theorem State.trimSeq_kept {s0 : State} (s : State) (n : Nat) (hk : Kept s0 s) :
    Kept s0 (State.trimSeq s n) := by
  unfold State.trimSeq
  repeat' (first
    | with_reducible exact Kept.rfl _
    | with_reducible assumption
    | with_reducible apply State.dropRef_kept
    | with_reducible apply State.freeSwap_kept
    | with_reducible apply State.setSeq_kept
    | with_reducible apply State.endWaitCmd_kept
    | with_reducible apply State.releaseSeq_kept
    | with_reducible apply State.syncKv_kept
    | with_reducible apply Kept.fold
    | with_reducible apply Kept.ite
    | intro _
    | extract_lets
    | split)

theorem State.holdSource_kept {s0 : State} (s : State) (u : Nat) (hk : Kept s0 s) :
    Kept s0 (State.holdSource s u) := by
  unfold State.holdSource
  repeat' (first
    | with_reducible exact Kept.rfl _
    | with_reducible assumption
    | with_reducible apply State.setRef_kept)

theorem State.dropSource_kept {s0 : State} (s : State) (u : Nat) (hk : Kept s0 s) :
    Kept s0 (State.dropSource s u) := by
  unfold State.dropSource
  repeat' (first
    | with_reducible exact Kept.rfl _
    | with_reducible assumption
    | with_reducible apply State.setRef_kept
    | with_reducible apply State.maybeFree_kept)

end Sys2Proof.Machine
end

