-- ==== Sys2Proof/Laws/Keep2.lean ====
section
/-! SUPPORT. One lemma for each operation and each command: it leaves what `Kept` (`Shed`) names (KvOps to PipeOps). -/

namespace Sys2Proof.Machine

theorem State.dropFork_kept {s0 : State} (s : State) (n : Nat) (hk : Kept s0 s) :
    Kept s0 (State.dropFork s n) := by
  unfold State.dropFork
  repeat' (first
    | with_reducible exact Kept.rfl _
    | with_reducible assumption
    | with_reducible apply State.dropSource_kept
    | with_reducible apply State.setSeq_kept
    | with_reducible apply Kept.fold
    | intro _
    | extract_lets
    | split)

theorem State.faultSeq_kept {s0 : State} (s : State) (n : Nat) (hk : Kept s0 s) :
    Kept s0 (State.faultSeq s n) := by
  unfold State.faultSeq
  repeat' (first
    | with_reducible exact Kept.rfl _
    | with_reducible assumption
    | with_reducible apply State.endSeqCmds_kept
    | with_reducible apply State.dropFork_kept
    | with_reducible apply State.endWaitCmd_kept
    | with_reducible apply State.modSeq_kept
    | with_reducible apply State.trimSeq_kept
    | with_reducible apply Kept.ite
    | intro _
    | extract_lets
    | ((fail_if_success with_reducible apply Kept.eta); first | with_reducible apply Kept.upd))

theorem State.preempt_kept {s0 : State} (s : State) (n : Nat) (hk : Kept s0 s) :
    Kept s0 (State.preempt s n) := by
  unfold State.preempt
  repeat' (first
    | with_reducible exact Kept.rfl _
    | with_reducible assumption
    | with_reducible apply State.setSeq_kept
    | with_reducible apply State.endSeqCmd_kept
    | with_reducible apply State.completeU_kept
    | with_reducible apply State.raise_kept
    | with_reducible apply State.incFld_kept
    | with_reducible apply State.event_kept
    | with_reducible apply State.syncKv_kept
    | with_reducible apply Kept.fold
    | with_reducible apply Kept.ite
    | intro _
    | extract_lets
    | split
    | ((with_reducible conv => arg 2; whnf); split)
    | ((fail_if_success with_reducible apply Kept.eta); first | with_reducible apply Kept.upd))

theorem State.reclaim_kept {s0 : State} (s : State) (hk : Kept s0 s) :
    Kept s0 (State.reclaim s) := by
  unfold State.reclaim
  repeat' (first
    | with_reducible exact Kept.rfl _
    | with_reducible assumption
    | with_reducible apply State.preempt_kept
    | with_reducible apply Kept.ite
    | intro _
    | extract_lets
    | split)

theorem State.waitFor_kept {s0 : State} (s : State) (w : LWait) (hk : Kept s0 s) :
    Kept s0 (State.waitFor s w) := by
  unfold State.waitFor
  repeat' (first
    | with_reducible exact Kept.rfl _
    | with_reducible assumption
    | with_reducible apply State.reclaim_kept
    | with_reducible apply Kept.ite
    | intro _
    | extract_lets
    | ((fail_if_success with_reducible apply Kept.eta); first | with_reducible apply Kept.upd))

theorem State.endWait_kept {s0 : State} (s : State) (n : Nat) (hk : Kept s0 s) :
    Kept s0 (State.endWait s n) := by
  unfold State.endWait
  repeat' (first
    | with_reducible exact Kept.rfl _
    | with_reducible assumption
    | intro _
    | extract_lets
    | ((fail_if_success with_reducible apply Kept.eta); first | with_reducible apply Kept.upd))

theorem State.copyRuns_kept {s0 : State} (s : State) (src dst : Nat) (runs : List (Nat × Nat)) (hk : Kept s0 s) :
    Kept s0 (State.copyRuns s src dst runs) := by
  unfold State.copyRuns
  repeat' (first
    | with_reducible exact Kept.rfl _
    | with_reducible assumption
    | with_reducible apply State.devWrite_kept
    | with_reducible apply Kept.fold
    | intro _)

theorem State.setTile_kept {s0 : State} (s : State) (c p : Nat) (t : Tile) (ht : s0.canon = true → t.wf = true) (hk : Kept s0 s) :
    Kept s0 (State.setTile s c p t) := by
  refine ⟨hk.1, hk.2, hk.3, hk.4, hk.5, fun c0 => ?_⟩
  have k := hk.6 c0
  simp only [State.canon, State.memWf, State.tilesWf, Bool.and_eq_true, List.all_eq_true] at k ⊢
  refine ⟨⟨k.1.1, tabPut_wf _ _ k.1.2.1, fun e m => ?_⟩, k.2⟩
  simp only [State.setTile, tabPut] at m
  split at m
  · exact k.1.2.2 e (mem_tabErase m)
  · rcases mem_tabInsert m with m | m
    · subst m
      exact ht c0
    · exact k.1.2.2 e m

theorem State.setLmap_kept {s0 : State} (s : State) (c t p : Nat) (hk : Kept s0 s) :
    Kept s0 (State.setLmap s c t p) := by
  unfold State.setLmap
  repeat' (first
    | with_reducible exact Kept.rfl _
    | with_reducible assumption
    | with_reducible apply State.setFld_kept
    | with_reducible apply Kept.ite)

theorem State.syncOcc_kept {s0 : State} (s : State) (c : Nat) (hk : Kept s0 s) :
    Kept s0 (State.syncOcc s c) := by
  unfold State.syncOcc
  repeat' (first
    | with_reducible exact Kept.rfl _
    | with_reducible assumption
    | with_reducible apply State.setFld_kept)

theorem State.putTile_kept {s0 : State} (s : State) (c p : Nat) (t : Tile) (ht : s0.canon = true → t.wf = true) (hk : Kept s0 s) :
    Kept s0 (State.putTile s c p t) := by
  unfold State.putTile
  repeat' (first
    | with_reducible exact Kept.rfl _
    | with_reducible assumption
    | with_reducible apply State.setTile_kept
    | with_reducible apply State.syncOcc_kept)

theorem State.dropCommits_kept {s0 : State} (s : State) (c : Nat) (h : W64) (hk : Kept s0 s) :
    Kept s0 (State.dropCommits s c h) := by
  unfold State.dropCommits
  repeat' (first
    | with_reducible exact Kept.rfl _
    | with_reducible assumption
    | (with_reducible refine Kept.group ?_ (by assumption))
    | (with_reducible refine Tile.launch_wf (by assumption) ?_)
    | with_reducible apply Kept.tile
    | ((fail_if_success with_reducible apply Group.wf_eta); with_reducible apply Group.wf_upd)
    | ((fail_if_success with_reducible apply Tile.wf_eta); with_reducible apply Tile.wf_upd)
    | with_reducible exact fun _ => emptyTile_wf
    | with_reducible apply State.setTile_kept
    | with_reducible apply Kept.fold
    | intro _
    | extract_lets
    | ((fail_if_success with_reducible apply Kept.eta); first | with_reducible apply Kept.upd))

theorem State.haltBlockOn_kept {s0 : State} (s : State) (c : Nat) (h : W64) (hk : Kept s0 s) :
    Kept s0 (State.haltBlockOn s c h) := by
  unfold State.haltBlockOn
  repeat' (first
    | with_reducible exact Kept.rfl _
    | with_reducible assumption
    | (with_reducible refine Kept.group ?_ (by assumption))
    | (with_reducible refine Tile.launch_wf (by assumption) ?_)
    | with_reducible apply Kept.tile
    | with_reducible apply Tile.haltBlock_wf
    | with_reducible exact fun _ => emptyTile_wf
    | with_reducible apply State.setTile_kept
    | with_reducible apply State.syncOcc_kept
    | with_reducible apply Kept.fold
    | intro _)

theorem State.haltCluster_kept {s0 : State} (s : State) (c : Nat) (hk : Kept s0 s) :
    Kept s0 (State.haltCluster s c) := by
  unfold State.haltCluster
  repeat' (first
    | with_reducible exact Kept.rfl _
    | with_reducible assumption
    | (with_reducible refine Kept.group ?_ (by assumption))
    | (with_reducible refine Tile.launch_wf (by assumption) ?_)
    | with_reducible apply Kept.tile
    | with_reducible apply Tile.halted_wf
    | with_reducible exact fun _ => emptyTile_wf
    | with_reducible apply State.setTile_kept
    | with_reducible apply State.syncOcc_kept
    | with_reducible apply Kept.fold
    | intro _)

theorem State.setGroup_kept {s0 : State} (s : State) (c p slot : Nat) (g : Group) (hg : s0.canon = true → g.wf = true) (hk : Kept s0 s) :
    Kept s0 (State.setGroup s c p slot g) := by
  unfold State.setGroup
  exact State.setTile_kept _ _ _ _ (Tile.insert_wf (Kept.tile hk) hg) hk

theorem State.setPort_kept {s0 : State} (s : State) (x : Nat) (p : Port) (hk : Kept s0 s) :
    Kept s0 (State.setPort s x p) := by
  unfold State.setPort
  repeat' (first
    | with_reducible exact Kept.rfl _
    | with_reducible assumption
    | intro _
    | extract_lets
    | ((fail_if_success with_reducible apply Kept.eta); first | with_reducible apply Kept.upd))

theorem State.activate_kept {s0 : State} (s : State) (x : Nat) (hk : Kept s0 s) :
    Kept s0 (State.activate s x) := by
  unfold State.activate
  repeat' (first
    | with_reducible exact Kept.rfl _
    | with_reducible assumption
    | with_reducible apply State.setFld_kept
    | with_reducible apply Kept.ite)

theorem State.transmit_kept {s0 : State} (s : State) (t : TxSlot) (hk : Kept s0 s) :
    Kept s0 (State.transmit s t) := by
  unfold State.transmit
  repeat' (first
    | with_reducible exact Kept.rfl _
    | with_reducible assumption
    | intro _
    | extract_lets
    | ((fail_if_success with_reducible apply Kept.eta); first | with_reducible apply Kept.upd))

theorem State.clearTx_kept {s0 : State} (s : State) (hk : Kept s0 s) :
    Kept s0 (State.clearTx s) := by
  unfold State.clearTx
  repeat' (first
    | with_reducible exact Kept.rfl _
    | with_reducible assumption
    | intro _
    | extract_lets
    | ((fail_if_success with_reducible apply Kept.eta); first | with_reducible apply Kept.upd))

theorem State.sendLop_kept {s0 : State} (s : State) (x : Nat) (op : Lop) (arg : Nat) (hk : Kept s0 s) :
    Kept s0 (State.sendLop s x op arg) := by
  unfold State.sendLop
  repeat' (first
    | with_reducible exact Kept.rfl _
    | with_reducible assumption
    | with_reducible apply State.transmit_kept
    | with_reducible apply State.setPort_kept
    | with_reducible apply Kept.ite
    | ((fail_if_success with_reducible apply Kept.eta); first | with_reducible apply Kept.upd))

theorem State.heartbeat_kept {s0 : State} (s : State) (x : Nat) (hk : Kept s0 s) :
    Kept s0 (State.heartbeat s x) := by
  unfold State.heartbeat
  repeat' (first
    | with_reducible exact Kept.rfl _
    | with_reducible assumption
    | with_reducible apply State.sendLop_kept
    | with_reducible apply Kept.ite
    | intro _
    | extract_lets)

theorem State.fillSlot_kept {s0 : State} (s : State) (x : Nat) (hk : Kept s0 s) :
    Kept s0 (State.fillSlot s x) := by
  unfold State.fillSlot
  repeat' (first
    | with_reducible exact Kept.rfl _
    | with_reducible assumption
    | with_reducible apply State.heartbeat_kept
    | with_reducible apply State.sendLop_kept
    | with_reducible apply Kept.ite
    | intro _
    | extract_lets)

theorem State.slotTime_kept {s0 : State} (s : State) (x : Nat) (hk : Kept s0 s) :
    Kept s0 (State.slotTime s x) := by
  unfold State.slotTime
  repeat' (first
    | with_reducible exact Kept.rfl _
    | with_reducible assumption
    | with_reducible apply State.setPort_kept
    | with_reducible apply State.transmit_kept
    | with_reducible apply State.fillSlot_kept
    | intro _
    | extract_lets
    | split
    | ((with_reducible conv => arg 2; whnf); split)
    | ((fail_if_success with_reducible apply Kept.eta); first | with_reducible apply Kept.upd))

theorem State.intoFifo_kept {s0 : State} (s : State) (x : Nat) (f : Frame) (hk : Kept s0 s) :
    Kept s0 (State.intoFifo s x f) := by
  unfold State.intoFifo
  repeat' (first
    | with_reducible exact Kept.rfl _
    | with_reducible assumption
    | with_reducible apply State.setPort_kept
    | with_reducible apply Kept.ite
    | intro _
    | extract_lets
    | ((fail_if_success with_reducible apply Kept.eta); first | with_reducible apply Kept.upd))

theorem State.sendOn_kept {s0 : State} (s : State) (x : Nat) (f : Frame) (hk : Kept s0 s) :
    Kept s0 (State.sendOn s x f) := by
  unfold State.sendOn
  repeat' (first
    | with_reducible exact Kept.rfl _
    | with_reducible assumption
    | with_reducible apply State.activate_kept
    | with_reducible apply State.sendLop_kept
    | with_reducible apply State.intoFifo_kept
    | with_reducible apply State.slotTime_kept
    | with_reducible apply Kept.ite)

theorem State.drainPorts_kept {s0 : State} (s : State) (hk : Kept s0 s) :
    Kept s0 (State.drainPorts s) := by
  unfold State.drainPorts
  repeat' (first
    | with_reducible exact Kept.rfl _
    | with_reducible assumption
    | with_reducible apply State.slotTime_kept
    | with_reducible apply State.clearTx_kept
    | with_reducible apply Kept.fold
    | with_reducible apply Kept.ite
    | intro _
    | extract_lets)

theorem State.idlePort_kept {s0 : State} (s : State) (x : Nat) (hk : Kept s0 s) :
    Kept s0 (State.idlePort s x) := by
  unfold State.idlePort
  repeat' (first
    | with_reducible exact Kept.rfl _
    | with_reducible assumption
    | with_reducible apply State.setFld_kept
    | with_reducible apply State.heartbeat_kept
    | with_reducible apply Kept.ite
    | intro _
    | extract_lets)

theorem State.settlePorts_kept {s0 : State} (s : State) (net : Nat) (hk : Kept s0 s) :
    Kept s0 (State.settlePorts s net) := by
  unfold State.settlePorts
  repeat' (first
    | with_reducible exact Kept.rfl _
    | with_reducible assumption
    | with_reducible apply State.idlePort_kept
    | with_reducible apply Kept.fold
    | with_reducible apply Kept.ite
    | intro _
    | extract_lets)

theorem State.syncStore_kept {s0 : State} (s : State) (hk : Kept s0 s) :
    Kept s0 (State.syncStore s) := by
  unfold State.syncStore
  repeat' (first
    | with_reducible exact Kept.rfl _
    | with_reducible assumption
    | with_reducible apply State.setFld_kept
    | with_reducible apply State.raise_kept
    | with_reducible apply Kept.ite
    | ((fail_if_success with_reducible apply Kept.eta); first | with_reducible apply Kept.upd))

theorem State.sendFwd_kept {s0 : State} (s : State) (net : Nat) (f : Frame) (hk : Kept s0 s) :
    Kept s0 (State.sendFwd s net f) := by
  unfold State.sendFwd
  repeat' (first
    | with_reducible exact Kept.rfl _
    | with_reducible assumption
    | with_reducible apply State.sendOn_kept
    | with_reducible apply State.syncStore_kept
    | with_reducible apply Kept.ite
    | intro _
    | extract_lets
    | split
    | ((with_reducible conv => arg 2; whnf); split)
    | ((fail_if_success with_reducible apply Kept.eta); first | with_reducible apply Kept.upd))

theorem State.inject_kept {s0 : State} (s : State) (net : Nat) (f : Frame) (hk : Kept s0 s) :
    Kept s0 (State.inject s net f) := by
  unfold State.inject
  repeat' (first
    | with_reducible exact Kept.rfl _
    | with_reducible assumption
    | with_reducible apply State.sendOn_kept)

theorem State.sendRet_kept {s0 : State} (s : State) (net : Nat) (f : Frame) (hk : Kept s0 s) :
    Kept s0 (State.sendRet s net f) := by
  unfold State.sendRet
  repeat' (first
    | with_reducible exact Kept.rfl _
    | with_reducible assumption
    | with_reducible apply State.sendOn_kept)

theorem State.onward_kept {s0 : State} (s : State) (x : Nat) (f : Frame) (hk : Kept s0 s) :
    Kept s0 (State.onward s x f) := by
  unfold State.onward
  repeat' (first
    | with_reducible exact Kept.rfl _
    | with_reducible assumption
    | with_reducible apply State.sendFwd_kept
    | with_reducible apply State.sendRet_kept
    | with_reducible apply Kept.ite)

theorem State.forwardStomped_kept {s0 : State} (s : State) (x : Nat) (f : Frame) (hk : Kept s0 s) :
    Kept s0 (State.forwardStomped s x f) := by
  unfold State.forwardStomped
  repeat' (first
    | with_reducible exact Kept.rfl _
    | with_reducible assumption
    | with_reducible apply State.onward_kept
    | with_reducible apply Kept.ite)

theorem State.askRetry_kept {s0 : State} (s : State) (x h : Nat) (hk : Kept s0 s) :
    Kept s0 (State.askRetry s x h) := by
  unfold State.askRetry
  repeat' (first
    | with_reducible exact Kept.rfl _
    | with_reducible assumption
    | with_reducible apply State.setPort_kept
    | with_reducible apply State.sendLop_kept
    | with_reducible apply Kept.ite)

theorem State.noteAudit_kept {s0 : State} (s : State) (x : Nat) (f : Frame) (hk : Kept s0 s) :
    Kept s0 (State.noteAudit s x f) := by
  unfold State.noteAudit
  repeat' (first
    | with_reducible exact Kept.rfl _
    | with_reducible assumption
    | with_reducible apply Kept.ite
    | intro _
    | extract_lets
    | split
    | ((with_reducible conv => arg 2; whnf); split)
    | ((fail_if_success with_reducible apply Kept.eta); first | with_reducible apply Kept.upd))

theorem State.rxCheck_kept {s0 : State} (s : State) (rx : Rx) (kind : Nat) (f : Frame) (hk : Kept s0 s) :
    Kept s0 (State.rxCheck s rx kind f).1 := by
  unfold State.rxCheck
  repeat' (first
    | with_reducible exact Kept.rfl _
    | with_reducible assumption
    | with_reducible apply State.activate_kept
    | with_reducible apply State.setPort_kept
    | with_reducible apply State.askRetry_kept
    | with_reducible apply Kept.fold
    | with_reducible apply Kept.getD
    | with_reducible apply Kept.iteFst
    | with_reducible apply Kept.foldFst
    | with_reducible apply Kept.ite
    | intro _
    | extract_lets
    | split)

theorem State.rxCheck_kept_eq {s0 t' : State} {x' : RxVerdict} (s : State) (rx : Rx) (kind : Nat) (f : Frame) (eqn : State.rxCheck s rx kind f = (t', x')) (hk : Kept s0 s) : Kept s0 t' := by
  have k := State.rxCheck_kept (s0 := s0) s rx kind f hk
  rw [eqn] at k
  exact k

theorem State.nextSeq_kept {s0 : State} (s : State) (hk : Kept s0 s) :
    Kept s0 (State.nextSeq s).1 := by
  unfold State.nextSeq
  repeat' (first
    | with_reducible exact Kept.rfl _
    | with_reducible assumption
    | with_reducible apply Kept.iteFst
    | with_reducible apply Kept.foldFst
    | intro _
    | extract_lets
    | ((fail_if_success with_reducible apply Kept.eta); first | with_reducible apply Kept.upd))

theorem State.nextSeq_kept_eq {s0 t' : State} {x' : Nat} (s : State) (eqn : State.nextSeq s = (t', x')) (hk : Kept s0 s) : Kept s0 t' := by
  have k := State.nextSeq_kept (s0 := s0) s hk
  rw [eqn] at k
  exact k

theorem State.control_kept {s0 : State} (s : State) (net dest sub arg w5 w6 : Nat) (body : List W64) (hk : Kept s0 s) :
    Kept s0 (State.control s net dest sub arg w5 w6 body).1 := by
  unfold State.control
  repeat' (first
    | with_reducible exact Kept.rfl _
    | with_reducible assumption
    | with_reducible apply State.nextSeq_kept)

theorem State.control_kept_eq {s0 t' : State} {x' : List Frame} (s : State) (net dest sub arg w5 w6 : Nat) (body : List W64) (eqn : State.control s net dest sub arg w5 w6 body = (t', x')) (hk : Kept s0 s) : Kept s0 t' := by
  have k := State.control_kept (s0 := s0) s net dest sub arg w5 w6 body hk
  rw [eqn] at k
  exact k

theorem State.sendControl_kept {s0 : State} (s : State) (net dest sub : Nat) (arg : Nat) (w5 : Nat) (w6 : Nat)
    (body : List W64) (hk : Kept s0 s) :
    Kept s0 (State.sendControl s net dest sub arg w5 w6 body) := by
  unfold State.sendControl
  repeat' (first
    | with_reducible exact Kept.rfl _
    | with_reducible assumption
    | with_reducible apply State.control_kept
    | (with_reducible apply State.control_kept_eq; assumption)
    | with_reducible apply State.inject_kept
    | with_reducible apply Kept.fold
    | with_reducible apply Kept.iteFst
    | with_reducible apply Kept.foldFst
    | intro _)

theorem State.sendReturn_kept {s0 : State} (s : State) (net dest sub : Nat) (arg : Nat) (w5 : Nat) (w6 : Nat)
    (body : List W64) (hk : Kept s0 s) :
    Kept s0 (State.sendReturn s net dest sub arg w5 w6 body) := by
  unfold State.sendReturn
  repeat' (first
    | with_reducible exact Kept.rfl _
    | with_reducible assumption
    | with_reducible apply State.control_kept
    | (with_reducible apply State.control_kept_eq; assumption)
    | with_reducible apply State.sendRet_kept
    | with_reducible apply Kept.fold
    | with_reducible apply Kept.iteFst
    | with_reducible apply Kept.foldFst
    | with_reducible apply Kept.ite
    | intro _
    | extract_lets
    | ((fail_if_success with_reducible apply Kept.eta); first | with_reducible apply Kept.upd))

theorem State.effectDone_kept {s0 : State} (s : State) (p : Frame → Bool) (hk : Kept s0 s) :
    Kept s0 (State.effectDone s p) := by
  unfold State.effectDone
  repeat' (first
    | with_reducible exact Kept.rfl _
    | with_reducible assumption
    | intro _
    | extract_lets
    | ((fail_if_success with_reducible apply Kept.eta); first | with_reducible apply Kept.upd))

theorem State.markSeen_kept {s0 : State} (s : State) (net : Nat) (f : Frame) (hk : Kept s0 s) :
    Kept s0 (State.markSeen s net f) := by
  unfold State.markSeen
  repeat' (first
    | with_reducible exact Kept.rfl _
    | with_reducible assumption
    | with_reducible apply Kept.ite
    | intro _
    | extract_lets
    | ((fail_if_success with_reducible apply Kept.eta); first | with_reducible apply Kept.upd))

theorem State.assemble_kept {s0 : State} (s : State) (f : Frame) (hk : Kept s0 s) :
    Kept s0 (State.assemble s f).1 := by
  unfold State.assemble
  repeat' (first
    | with_reducible exact Kept.rfl _
    | with_reducible assumption
    | with_reducible apply Kept.iteFst
    | with_reducible apply Kept.foldFst
    | with_reducible apply Kept.ite
    | intro _
    | extract_lets
    | split
    | ((with_reducible conv => arg 2; whnf); split)
    | ((fail_if_success with_reducible apply Kept.eta); first | with_reducible apply Kept.upd))

theorem State.assemble_kept_eq {s0 t' : State} {x' : Option (List W64)} (s : State) (f : Frame) (eqn : State.assemble s f = (t', x')) (hk : Kept s0 s) : Kept s0 t' := by
  have k := State.assemble_kept (s0 := s0) s f hk
  rw [eqn] at k
  exact k

theorem State.noteStaged_kept {s0 : State} (s : State) (r : StagedRep) (hk : Kept s0 s) :
    Kept s0 (State.noteStaged s r) := by
  unfold State.noteStaged
  repeat' (first
    | with_reducible exact Kept.rfl _
    | with_reducible assumption
    | intro _
    | extract_lets
    | split
    | ((with_reducible conv => arg 2; whnf); split)
    | ((fail_if_success with_reducible apply Kept.eta); first | with_reducible apply Kept.upd))

theorem State.noteReport_kept {s0 : State} (s : State) (sender arg w5 w6 : Nat) (body : List W64) (hk : Kept s0 s) :
    Kept s0 (State.noteReport s sender arg w5 w6 body) := by
  unfold State.noteReport
  repeat' (first
    | with_reducible exact Kept.rfl _
    | with_reducible assumption
    | with_reducible apply State.event_kept
    | with_reducible apply Kept.ite
    | intro _
    | extract_lets
    | split
    | ((with_reducible conv => arg 2; whnf); split)
    | ((fail_if_success with_reducible apply Kept.eta); first | with_reducible apply Kept.upd))

theorem State.mgrNote_kept {s0 : State} (s : State) (sender sub arg w5 w6 : Nat) (body : List W64) (hk : Kept s0 s) :
    Kept s0 (State.mgrNote s sender sub arg w5 w6 body) := by
  unfold State.mgrNote
  repeat' (first
    | with_reducible exact Kept.rfl _
    | with_reducible assumption
    | with_reducible apply State.noteReport_kept
    | with_reducible apply State.noteStaged_kept
    | with_reducible apply Kept.ite
    | intro _
    | extract_lets
    | split
    | ((with_reducible conv => arg 2; whnf); split)
    | ((fail_if_success with_reducible apply Kept.eta); first | with_reducible apply Kept.upd))

theorem State.tellManager_kept {s0 : State} (s : State) (sub : Nat) (arg : Nat) (w5 : Nat) (w6 : Nat) (body : List W64) (hk : Kept s0 s) :
    Kept s0 (State.tellManager s sub arg w5 w6 body) := by
  unfold State.tellManager
  repeat' (first
    | with_reducible exact Kept.rfl _
    | with_reducible assumption
    | with_reducible apply State.mgrNote_kept
    | with_reducible apply State.sendReturn_kept
    | with_reducible apply Kept.ite)

theorem State.setCluster_kept {s0 : State} (s : State) (c : Nat) (k : Cluster) (hk : Kept s0 s) :
    Kept s0 (State.setCluster s c k) := by
  unfold State.setCluster
  repeat' (first
    | with_reducible exact Kept.rfl _
    | with_reducible assumption
    | intro _
    | extract_lets
    | ((fail_if_success with_reducible apply Kept.eta); first | with_reducible apply Kept.upd))

theorem State.setScore_kept {s0 : State} (s : State) (c : Nat) (k : ScoreCl) (hk : Kept s0 s) :
    Kept s0 (State.setScore s c k) := by
  unfold State.setScore
  repeat' (first
    | with_reducible exact Kept.rfl _
    | with_reducible assumption
    | intro _
    | extract_lets
    | ((fail_if_success with_reducible apply Kept.eta); first | with_reducible apply Kept.upd))

theorem State.syncCluster_kept {s0 : State} (s : State) (c : Nat) (hk : Kept s0 s) :
    Kept s0 (State.syncCluster s c) := by
  unfold State.syncCluster
  repeat' (first
    | with_reducible exact Kept.rfl _
    | with_reducible assumption
    | with_reducible apply State.setFld_kept)

theorem State.syncBelt_kept {s0 : State} (s : State) (hk : Kept s0 s) :
    Kept s0 (State.syncBelt s) := by
  unfold State.syncBelt
  repeat' (first
    | with_reducible exact Kept.rfl _
    | with_reducible assumption
    | with_reducible apply State.setFld_kept
    | with_reducible apply State.syncCluster_kept
    | with_reducible apply Kept.fold
    | intro _)

theorem State.endQuery_kept {s0 : State} (s : State) (uid status : Nat) (ws : List W64) (count : Nat) (hk : Kept s0 s) :
    Kept s0 (State.endQuery s uid status ws count) := by
  unfold State.endQuery
  repeat' (first
    | with_reducible exact Kept.rfl _
    | with_reducible assumption
    | with_reducible apply State.writeResult_kept
    | with_reducible apply State.completeU_kept
    | intro _
    | extract_lets
    | split)

theorem State.deliver_kept {s0 : State} (s : State) (q : Query) (status lost : Nat) (es : List Entry) (hk : Kept s0 s) :
    Kept s0 (State.deliver s q status lost es) := by
  unfold State.deliver
  repeat' (first
    | with_reducible exact Kept.rfl _
    | with_reducible assumption
    | with_reducible apply State.incFld_kept
    | with_reducible apply State.endQuery_kept
    | with_reducible apply State.sendReturn_kept
    | with_reducible apply Kept.ite
    | intro _
    | extract_lets
    | split)

theorem State.setSlot_kept {s0 : State} (s : State) (k : Nat) (x : QSlot) (hk : Kept s0 s) :
    Kept s0 (State.setSlot s k x) := by
  unfold State.setSlot
  repeat' (first
    | with_reducible exact Kept.rfl _
    | with_reducible assumption
    | intro _
    | extract_lets
    | ((fail_if_success with_reducible apply Kept.eta); first | with_reducible apply Kept.upd))

theorem State.freeSlot_kept {s0 : State} (s : State) (k : Nat) (hk : Kept s0 s) :
    Kept s0 (State.freeSlot s k) := by
  unfold State.freeSlot
  repeat' (first
    | with_reducible exact Kept.rfl _
    | with_reducible assumption
    | intro _
    | extract_lets
    | ((fail_if_success with_reducible apply Kept.eta); first | with_reducible apply Kept.upd))

theorem State.endSlot_kept {s0 : State} (s : State) (k : Nat) (x : QSlot) (status : Nat) (es : List Entry) (hk : Kept s0 s) :
    Kept s0 (State.endSlot s k x status es) := by
  unfold State.endSlot
  repeat' (first
    | with_reducible exact Kept.rfl _
    | with_reducible assumption
    | with_reducible apply State.deliver_kept
    | with_reducible apply State.setSlot_kept
    | with_reducible apply State.freeSlot_kept
    | with_reducible apply Kept.ite)

theorem State.completeReady_kept {s0 : State} (s : State) (c : Nat) (hk : Kept s0 s) :
    Kept s0 (State.completeReady s c) := by
  unfold State.completeReady
  repeat' (first
    | with_reducible exact Kept.rfl _
    | with_reducible assumption
    | with_reducible apply State.endSlot_kept
    | with_reducible apply Kept.fold
    | with_reducible apply Kept.ite
    | intro _)

theorem State.endAllQueries_kept {s0 : State} (s : State) (status : Nat) (hk : Kept s0 s) :
    Kept s0 (State.endAllQueries s status) := by
  unfold State.endAllQueries
  repeat' (first
    | with_reducible exact Kept.rfl _
    | with_reducible assumption
    | with_reducible apply State.freeSlot_kept
    | with_reducible apply State.deliver_kept
    | with_reducible apply State.syncBelt_kept
    | with_reducible apply Kept.fold
    | with_reducible apply Kept.ite
    | intro _
    | extract_lets
    | ((fail_if_success with_reducible apply Kept.eta); first | with_reducible apply Kept.upd))

theorem State.modTally_kept {s0 : State} (s : State) (r g : Nat) (f : Tally → Tally) (hk : Kept s0 s) :
    Kept s0 (State.modTally s r g f) := by
  unfold State.modTally
  repeat' (first
    | with_reducible exact Kept.rfl _
    | with_reducible assumption
    | with_reducible apply Kept.ite
    | intro _
    | extract_lets
    | ((fail_if_success with_reducible apply Kept.eta); first | with_reducible apply Kept.upd))

theorem State.loseTo_kept {s0 : State} (s : State) (n : Nat) (es : List (Nat × QSlot)) (hk : Kept s0 s) :
    Kept s0 (State.loseTo s n es) := by
  unfold State.loseTo
  repeat' (first
    | with_reducible exact Kept.rfl _
    | with_reducible assumption
    | with_reducible apply State.setSlot_kept
    | with_reducible apply Kept.fold
    | intro _
    | extract_lets
    | ((fail_if_success with_reducible apply Kept.eta); first | with_reducible apply Kept.upd))

theorem State.addLost_kept {s0 : State} (s : State) (r g h q n : Nat) (hk : Kept s0 s) :
    Kept s0 (State.addLost s r g h q n) := by
  unfold State.addLost
  repeat' (first
    | with_reducible exact Kept.rfl _
    | with_reducible assumption
    | with_reducible apply State.loseTo_kept
    | with_reducible apply Kept.fold
    | intro _)

theorem State.abandonTally_kept {s0 : State} (s : State) (c r g : Nat) (hk : Kept s0 s) :
    Kept s0 (State.abandonTally s c r g) := by
  unfold State.abandonTally
  repeat' (first
    | with_reducible exact Kept.rfl _
    | with_reducible assumption
    | with_reducible apply State.setScore_kept
    | with_reducible apply State.setSlot_kept
    | with_reducible apply State.incFld_kept
    | with_reducible apply State.raise_kept
    | with_reducible apply State.event_kept
    | with_reducible apply Kept.fold
    | with_reducible apply Kept.getD
    | with_reducible apply Kept.ite
    | intro _)

theorem State.letPass_kept {s0 : State} (s : State) (c r g h q : Nat) (hk : Kept s0 s) :
    Kept s0 (State.letPass s c r g h q) := by
  unfold State.letPass
  repeat' (first
    | with_reducible exact Kept.rfl _
    | with_reducible assumption
    | with_reducible apply State.setScore_kept
    | with_reducible apply State.abandonTally_kept
    | with_reducible apply Kept.fold
    | with_reducible apply Kept.ite
    | intro _
    | extract_lets
    | split)

theorem State.settleScore_kept {s0 : State} (s : State) (c : Nat) (hk : Kept s0 s) :
    Kept s0 (State.settleScore s c) := by
  unfold State.settleScore
  repeat' (first
    | with_reducible exact Kept.rfl _
    | with_reducible assumption
    | with_reducible apply State.setScore_kept
    | with_reducible apply State.setSlot_kept
    | with_reducible apply State.completeReady_kept
    | with_reducible apply Kept.fold
    | with_reducible apply Kept.getD
    | with_reducible apply Kept.ite
    | intro _)

theorem State.settleAll_kept {s0 : State} (s : State) (hk : Kept s0 s) :
    Kept s0 (State.settleAll s) := by
  unfold State.settleAll
  repeat' (first
    | with_reducible exact Kept.rfl _
    | with_reducible assumption
    | with_reducible apply State.settleScore_kept
    | with_reducible apply Kept.fold
    | intro _)

theorem State.trimTap_kept {s0 : State} (s : State) (hk : Kept s0 s) :
    Kept s0 (State.trimTap s) := by
  unfold State.trimTap
  repeat' (first
    | with_reducible exact Kept.rfl _
    | with_reducible assumption
    | with_reducible apply State.taken_kept
    | intro _
    | extract_lets
    | ((fail_if_success with_reducible apply Kept.eta); first | with_reducible apply Kept.upd))

theorem State.skim_kept {s0 : State} (s : State) (c : Nat) (hk : Kept s0 s) :
    Kept s0 (State.skim s c) := by
  unfold State.skim
  repeat' (first
    | with_reducible exact Kept.rfl _
    | with_reducible assumption
    | with_reducible apply State.trimTap_kept
    | with_reducible apply Kept.ite
    | intro _
    | extract_lets
    | ((fail_if_success with_reducible apply Kept.eta); first | with_reducible apply Kept.upd))

theorem State.letPassTap_kept {s0 : State} (s : State) (c : Nat) (p : TapFrame → Bool) (hk : Kept s0 s) :
    Kept s0 (State.letPassTap s c p) := by
  unfold State.letPassTap
  repeat' (first
    | with_reducible exact Kept.rfl _
    | with_reducible assumption
    | with_reducible apply State.letPass_kept
    | with_reducible apply State.trimTap_kept
    | with_reducible apply Kept.fold
    | with_reducible apply Kept.ite
    | intro _
    | extract_lets
    | ((fail_if_success with_reducible apply Kept.eta); first | with_reducible apply Kept.upd))

theorem State.overflow_kept {s0 : State} (s : State) (hk : Kept s0 s) :
    Kept s0 (State.overflow s) := by
  unfold State.overflow
  repeat' (first
    | with_reducible exact Kept.rfl _
    | with_reducible assumption
    | with_reducible apply State.letPass_kept
    | with_reducible apply State.trimTap_kept
    | with_reducible apply State.raise_kept
    | with_reducible apply Kept.fold
    | with_reducible apply Kept.ite
    | intro _
    | extract_lets
    | split
    | ((with_reducible conv => arg 2; whnf); split)
    | ((fail_if_success with_reducible apply Kept.eta); first | with_reducible apply Kept.upd))

theorem State.tapIn_kept {s0 : State} (s : State) (f : Frame) (hk : Kept s0 s) :
    Kept s0 (State.tapIn s f) := by
  unfold State.tapIn
  repeat' (first
    | with_reducible exact Kept.rfl _
    | with_reducible assumption
    | with_reducible apply State.modTally_kept
    | with_reducible apply State.addLost_kept
    | with_reducible apply State.raise_kept
    | with_reducible apply State.overflow_kept
    | with_reducible apply State.letPassTap_kept
    | with_reducible apply State.skim_kept
    | with_reducible apply State.settleAll_kept
    | with_reducible apply State.syncBelt_kept
    | with_reducible apply Kept.fold
    | with_reducible apply Kept.ite
    | intro _
    | extract_lets
    | split
    | ((with_reducible conv => arg 2; whnf); split)
    | ((fail_if_success with_reducible apply Kept.eta); first | with_reducible apply Kept.upd))

theorem State.dropTaken_kept {s0 : State} (s : State) (c : Nat) (hk : Kept s0 s) :
    Kept s0 (State.dropTaken s c) := by
  unfold State.dropTaken
  repeat' (first
    | with_reducible exact Kept.rfl _
    | with_reducible assumption
    | with_reducible apply State.taken_kept
    | with_reducible apply State.letPass_kept
    | with_reducible apply State.trimTap_kept
    | with_reducible apply State.settleScore_kept
    | with_reducible apply Kept.fold
    | intro _
    | extract_lets
    | ((fail_if_success with_reducible apply Kept.eta); first | with_reducible apply Kept.upd))

theorem State.scoreLost_kept {s0 : State} (s : State) (c : Nat) (hk : Kept s0 s) :
    Kept s0 (State.scoreLost s c) := by
  unfold State.scoreLost
  repeat' (first
    | with_reducible exact Kept.rfl _
    | with_reducible assumption
    | with_reducible apply State.dropTaken_kept
    | with_reducible apply State.letPassTap_kept
    | with_reducible apply State.syncBelt_kept
    | with_reducible apply Kept.ite)

theorem State.settleCand_kept {s0 : State} (s : State) (c : Nat) (hk : Kept s0 s) :
    Kept s0 (State.settleCand s c) := by
  unfold State.settleCand
  repeat' (first
    | with_reducible exact Kept.rfl _
    | with_reducible assumption
    | with_reducible apply State.setScore_kept
    | with_reducible apply State.setSlot_kept
    | intro _
    | extract_lets
    | split
    | ((with_reducible conv => arg 2; whnf); split)
    | ((fail_if_success with_reducible apply Kept.eta); first | with_reducible apply Kept.upd))

theorem State.pushCand_kept {s0 : State} (s : State) (c i : Nat) (e : Entry) (hk : Kept s0 s) :
    Kept s0 (State.pushCand s c i e) := by
  unfold State.pushCand
  repeat' (first
    | with_reducible exact Kept.rfl _
    | with_reducible assumption
    | with_reducible apply State.settleCand_kept
    | with_reducible apply State.setScore_kept
    | with_reducible apply Kept.ite
    | intro _
    | extract_lets
    | ((fail_if_success with_reducible apply Kept.eta); first | with_reducible apply Kept.upd))

theorem State.settleCands_kept {s0 : State} (s : State) (c : Nat) (hk : Kept s0 s) :
    Kept s0 (State.settleCands s c) := by
  unfold State.settleCands
  repeat' (first
    | with_reducible exact Kept.rfl _
    | with_reducible assumption
    | with_reducible apply State.settleCand_kept
    | with_reducible apply Kept.fold
    | intro _
    | extract_lets)

theorem State.scoreRec_kept {s0 : State} (s : State) (c : Nat) (w : List W64) (e : Nat × QSlot) (hk : Kept s0 s) :
    Kept s0 (State.scoreRec s c w e) := by
  unfold State.scoreRec
  repeat' (first
    | with_reducible exact Kept.rfl _
    | with_reducible assumption
    | with_reducible apply State.incFld_kept
    | with_reducible apply State.raise_kept
    | with_reducible apply State.pushCand_kept
    | with_reducible apply Kept.ite
    | intro _
    | extract_lets
    | split)

theorem State.scoreFrame_kept {s0 : State} (s : State) (c : Nat) (f : TapFrame) (hk : Kept s0 s) :
    Kept s0 (State.scoreFrame s c f) := by
  unfold State.scoreFrame
  repeat' (first
    | with_reducible exact Kept.rfl _
    | with_reducible assumption
    | with_reducible apply State.scoreRec_kept
    | with_reducible apply Kept.fold
    | with_reducible apply Kept.ite
    | intro _
    | extract_lets
    | split)

theorem State.roundEnd_kept {s0 : State} (s : State) (c : Nat) (hk : Kept s0 s) :
    Kept s0 (State.roundEnd s c) := by
  unfold State.roundEnd
  repeat' (first
    | with_reducible exact Kept.rfl _
    | with_reducible assumption
    | with_reducible apply State.taken_kept
    | with_reducible apply State.scoreFrame_kept
    | with_reducible apply State.settleCands_kept
    | with_reducible apply State.trimTap_kept
    | with_reducible apply State.freeSlot_kept
    | with_reducible apply State.deliver_kept
    | with_reducible apply State.settleScore_kept
    | with_reducible apply State.skim_kept
    | with_reducible apply State.syncBelt_kept
    | with_reducible apply Kept.fold
    | with_reducible apply Kept.ite
    | intro _
    | extract_lets
    | ((fail_if_success with_reducible apply Kept.eta); first | with_reducible apply Kept.upd))

theorem State.cancelQuery_kept {s0 : State} (s : State) (p : Query → Bool) (hk : Kept s0 s) :
    Kept s0 (State.cancelQuery s p) := by
  unfold State.cancelQuery
  repeat' (first
    | with_reducible exact Kept.rfl _
    | with_reducible assumption
    | with_reducible apply State.deliver_kept
    | with_reducible apply State.syncBelt_kept
    | with_reducible apply State.setSlot_kept
    | with_reducible apply State.freeSlot_kept
    | with_reducible apply Kept.ite
    | intro _
    | extract_lets
    | split
    | ((with_reducible conv => arg 2; whnf); split)
    | ((fail_if_success with_reducible apply Kept.eta); first | with_reducible apply Kept.upd))

theorem State.admitQuery_kept {s0 : State} (s : State) (r g : Nat) (q : Query) (hk : Kept s0 s) :
    Kept s0 (State.admitQuery s r g q) := by
  unfold State.admitQuery
  repeat' (first
    | with_reducible exact Kept.rfl _
    | with_reducible assumption
    | with_reducible apply State.setSlot_kept
    | with_reducible apply Kept.ite
    | intro _
    | extract_lets
    | split
    | ((with_reducible conv => arg 2; whnf); split)
    | ((fail_if_success with_reducible apply Kept.eta); first | with_reducible apply Kept.upd))

theorem State.admitAll_kept {s0 : State} (s : State) (r g : Nat) (hk : Kept s0 s) :
    Kept s0 (State.admitAll s r g) := by
  unfold State.admitAll
  repeat' (first
    | with_reducible exact Kept.rfl _
    | with_reducible assumption
    | with_reducible apply State.admitQuery_kept
    | with_reducible apply Kept.fold
    | intro _
    | extract_lets
    | ((fail_if_success with_reducible apply Kept.eta); first | with_reducible apply Kept.upd))

theorem State.setInject_kept {s0 : State} (s : State) (i : Nat) (x : Inject) (hk : Kept s0 s) :
    Kept s0 (State.setInject s i x) := by
  unfold State.setInject
  repeat' (first
    | with_reducible exact Kept.rfl _
    | with_reducible assumption
    | with_reducible apply State.inject_kept
    | intro _
    | extract_lets
    | ((fail_if_success with_reducible apply Kept.eta); first | with_reducible apply Kept.upd))

theorem State.sendBehind_kept {s0 : State} (s : State) (on : Bool) (hk : Kept s0 s) :
    Kept s0 (State.sendBehind s on) := by
  unfold State.sendBehind
  repeat' (first
    | with_reducible exact Kept.rfl _
    | with_reducible assumption
    | with_reducible apply State.tellManager_kept)

theorem State.nextPart_kept {s0 : State} (s : State) (i : Nat) (x : Inject) (hk : Kept s0 s) :
    Kept s0 (State.nextPart s i x) := by
  unfold State.nextPart
  repeat' (first
    | with_reducible exact Kept.rfl _
    | with_reducible assumption
    | with_reducible apply State.setInject_kept
    | with_reducible apply State.sendBehind_kept
    | with_reducible apply Kept.ite
    | intro _
    | extract_lets
    | split)

theorem State.fromInject_kept {s0 : State}  (y0 : Nat) (s : State) (y2 : Nat) (hk : Kept s0 s) :
    Kept s0 (State.fromInject y0 s y2).1 := by
  induction y0 generalizing s y2 with
  | zero =>
    unfold State.fromInject
    exact hk
  | succ n ih =>
    unfold State.fromInject
    repeat' (first
      | with_reducible apply ih
      | with_reducible exact Kept.rfl _
      | with_reducible assumption
      | with_reducible apply State.inject_kept
      | with_reducible apply State.setInject_kept
      | with_reducible apply State.nextPart_kept
      | with_reducible apply State.event_kept
      | with_reducible apply State.sendReturn_kept
      | with_reducible apply Kept.iteFst
      | with_reducible apply Kept.foldFst
      | with_reducible apply Kept.ite
      | intro _
      | extract_lets
      | split
      | ((with_reducible conv => arg 2; whnf); split)
      | ((fail_if_success with_reducible apply Kept.eta); first | with_reducible apply Kept.upd))

theorem State.fromInject_kept_eq {s0 t' : State} {x' : Option (Frame × Bool)}  (y0 : Nat) (s : State) (y2 : Nat) (eqn : State.fromInject y0 s y2 = (t', x')) (hk : Kept s0 s) : Kept s0 t' := by
  have k := State.fromInject_kept (s0 := s0) y0 s y2 hk
  rw [eqn] at k
  exact k

theorem State.fromInjects_kept {s0 : State} (s : State) (y0 : List Nat) (hk : Kept s0 s) :
    Kept s0 (State.fromInjects s y0).1 := by
  induction y0 generalizing s with
  | nil =>
    unfold State.fromInjects
    exact hk
  | cons o l ih =>
    unfold State.fromInjects
    repeat' (first
      | with_reducible apply ih
      | with_reducible exact Kept.rfl _
      | with_reducible assumption
      | with_reducible apply State.fromInject_kept
      | (with_reducible apply State.fromInject_kept_eq; assumption)
      | with_reducible apply Kept.iteFst
      | with_reducible apply Kept.foldFst
      | intro _
      | extract_lets
      | split)

theorem State.fromInjects_kept_eq {s0 t' : State} {x' : Option (Frame × Bool)} (s : State) (y0 : List Nat) (eqn : State.fromInjects s y0 = (t', x')) (hk : Kept s0 s) : Kept s0 t' := by
  have k := State.fromInjects_kept (s0 := s0) s y0 hk
  rw [eqn] at k
  exact k

theorem State.nextFrame_kept {s0 : State} (s : State) (hk : Kept s0 s) :
    Kept s0 (State.nextFrame s).1 := by
  unfold State.nextFrame
  repeat' (first
    | with_reducible exact Kept.rfl _
    | with_reducible assumption
    | with_reducible apply State.fromInjects_kept
    | (with_reducible apply State.fromInjects_kept_eq; assumption)
    | with_reducible apply State.inject_kept
    | with_reducible apply Kept.iteFst
    | with_reducible apply Kept.foldFst
    | with_reducible apply Kept.ite
    | intro _
    | extract_lets
    | split
    | ((with_reducible conv => arg 2; whnf); split)
    | ((fail_if_success with_reducible apply Kept.eta); first | with_reducible apply Kept.upd))

theorem State.nextFrame_kept_eq {s0 t' : State} {x' : Option (Frame × Bool)} (s : State) (eqn : State.nextFrame s = (t', x')) (hk : Kept s0 s) : Kept s0 t' := by
  have k := State.nextFrame_kept (s0 := s0) s hk
  rw [eqn] at k
  exact k

theorem State.emptyFrame_kept {s0 : State} (s : State) (owner : Nat) (hk : Kept s0 s) :
    Kept s0 (State.emptyFrame s owner).1 := by
  unfold State.emptyFrame
  repeat' (first
    | with_reducible exact Kept.rfl _
    | with_reducible assumption
    | with_reducible apply State.nextSeq_kept
    | (with_reducible apply State.nextSeq_kept_eq; assumption)
    | with_reducible apply Kept.iteFst
    | with_reducible apply Kept.foldFst
    | intro _
    | extract_lets)

theorem State.emptyFrame_kept_eq {s0 t' : State} {x' : Frame} (s : State) (owner : Nat) (eqn : State.emptyFrame s owner = (t', x')) (hk : Kept s0 s) : Kept s0 t' := by
  have k := State.emptyFrame_kept (s0 := s0) s owner hk
  rw [eqn] at k
  exact k

theorem State.sendEmpty_kept {s0 : State} (s : State) (owner : Nat) (hk : Kept s0 s) :
    Kept s0 (State.sendEmpty s owner) := by
  unfold State.sendEmpty
  repeat' (first
    | with_reducible exact Kept.rfl _
    | with_reducible assumption
    | with_reducible apply State.emptyFrame_kept
    | (with_reducible apply State.emptyFrame_kept_eq; assumption)
    | with_reducible apply State.sendFwd_kept
    | with_reducible apply Kept.iteFst
    | with_reducible apply Kept.foldFst
    | intro _
    | extract_lets)

theorem State.ownFrame_kept {s0 : State} (s : State) (hk : Kept s0 s) :
    Kept s0 (State.ownFrame s).1 := by
  unfold State.ownFrame
  repeat' (first
    | with_reducible exact Kept.rfl _
    | with_reducible assumption
    | with_reducible apply State.nextFrame_kept
    | (with_reducible apply State.nextFrame_kept_eq; assumption)
    | with_reducible apply State.tapIn_kept
    | with_reducible apply State.emptyFrame_kept
    | (with_reducible apply State.emptyFrame_kept_eq; assumption)
    | with_reducible apply Kept.iteFst
    | with_reducible apply Kept.foldFst
    | with_reducible apply Kept.ite
    | intro _
    | extract_lets
    | split
    | ((with_reducible conv => arg 2; whnf); split)
    | ((fail_if_success with_reducible apply Kept.eta); first | with_reducible apply Kept.upd))

theorem State.ownFrame_kept_eq {s0 t' : State} {x' : Frame} (s : State) (eqn : State.ownFrame s = (t', x')) (hk : Kept s0 s) : Kept s0 t' := by
  have k := State.ownFrame_kept (s0 := s0) s hk
  rw [eqn] at k
  exact k

theorem State.useSlot_kept {s0 : State} (s : State) (hk : Kept s0 s) :
    Kept s0 (State.useSlot s) := by
  unfold State.useSlot
  repeat' (first
    | with_reducible exact Kept.rfl _
    | with_reducible assumption
    | with_reducible apply State.ownFrame_kept
    | (with_reducible apply State.ownFrame_kept_eq; assumption)
    | with_reducible apply State.sendFwd_kept
    | with_reducible apply Kept.iteFst
    | with_reducible apply Kept.foldFst
    | intro _
    | extract_lets)

theorem State.putBack_kept {s0 : State} (s : State) (f : Frame) (hk : Kept s0 s) :
    Kept s0 (State.putBack s f) := by
  unfold State.putBack
  repeat' (first
    | with_reducible exact Kept.rfl _
    | with_reducible assumption
    | with_reducible apply State.inject_kept
    | with_reducible apply Kept.ite
    | intro _
    | extract_lets
    | ((fail_if_success with_reducible apply Kept.eta); first | with_reducible apply Kept.upd))

theorem State.addPart_kept {s0 : State} (s : State) (r g i : Nat) (hk : Kept s0 s) :
    Kept s0 (State.addPart s r g i) := by
  unfold State.addPart
  repeat' (first
    | with_reducible exact Kept.rfl _
    | with_reducible assumption
    | with_reducible apply State.inject_kept
    | with_reducible apply State.setInject_kept
    | with_reducible apply State.sendBehind_kept
    | with_reducible apply Kept.ite
    | intro _
    | extract_lets
    | split)

theorem State.noSourceTally_kept {s0 : State} (s : State) (h : Home) (t : Tally) (hk : Kept s0 s) :
    Kept s0 (State.noSourceTally s h t) := by
  unfold State.noSourceTally
  repeat' (first
    | with_reducible exact Kept.rfl _
    | with_reducible assumption
    | with_reducible apply State.loseTo_kept
    | with_reducible apply State.modTally_kept
    | with_reducible apply Kept.fold
    | with_reducible apply Kept.ite
    | intro _)

theorem State.applyTakeover_kept {s0 : State} (s : State) (p r g : Nat) (noSource : Bool) (hk : Kept s0 s) :
    Kept s0 (State.applyTakeover s p r g noSource) := by
  unfold State.applyTakeover
  repeat' (first
    | with_reducible exact Kept.rfl _
    | with_reducible assumption
    | with_reducible apply State.raise_kept
    | with_reducible apply State.event_kept
    | with_reducible apply State.noSourceTally_kept
    | with_reducible apply State.settleAll_kept
    | with_reducible apply State.syncBelt_kept
    | with_reducible apply State.modTally_kept
    | with_reducible apply State.inject_kept
    | with_reducible apply Kept.fold
    | with_reducible apply Kept.iteFst
    | with_reducible apply Kept.foldFst
    | with_reducible apply Kept.ite
    | intro _
    | extract_lets
    | split
    | ((with_reducible conv => arg 2; whnf); split)
    | ((fail_if_success with_reducible apply Kept.eta); first | with_reducible apply Kept.upd))

theorem State.reportUnheld_kept {s0 : State} (s : State) (hk : Kept s0 s) :
    Kept s0 (State.reportUnheld s) := by
  unfold State.reportUnheld
  repeat' (first
    | with_reducible exact Kept.rfl _
    | with_reducible assumption
    | with_reducible apply State.tellManager_kept
    | with_reducible apply Kept.fold
    | with_reducible apply Kept.ite
    | intro _)

theorem State.writeDir_kept {s0 : State} (s : State) (d : Directory) (hk : Kept s0 s) :
    Kept s0 (State.writeDir s d) := by
  unfold State.writeDir
  repeat' (first
    | with_reducible exact Kept.rfl _
    | with_reducible assumption
    | with_reducible apply State.devWrite_kept
    | intro _
    | extract_lets
    | split
    | ((with_reducible conv => arg 2; whnf); split)
    | ((fail_if_success with_reducible apply Kept.eta); first | with_reducible apply Kept.upd))

theorem State.sendDir_kept {s0 : State} (s : State) (d : Directory) (hk : Kept s0 s) :
    Kept s0 (State.sendDir s d) := by
  unfold State.sendDir
  repeat' (first
    | with_reducible exact Kept.rfl _
    | with_reducible assumption
    | with_reducible apply State.sendControl_kept)

theorem State.installDir_kept {s0 : State} (s : State) (d : Directory) (epoch : Nat) (hk : Kept s0 s) :
    Kept s0 (State.installDir s d epoch) := by
  unfold State.installDir
  repeat' (first
    | with_reducible exact Kept.rfl _
    | with_reducible assumption
    | with_reducible apply State.inject_kept
    | with_reducible apply State.writeDir_kept
    | with_reducible apply State.reportUnheld_kept
    | with_reducible apply State.setFld_kept
    | with_reducible apply State.syncBelt_kept
    | with_reducible apply Kept.ite
    | intro _
    | extract_lets
    | ((fail_if_success with_reducible apply Kept.eta); first | with_reducible apply Kept.upd))

theorem State.dropAged_kept {s0 : State} (s : State) (r g : Nat) (hk : Kept s0 s) :
    Kept s0 (State.dropAged s r g) := by
  unfold State.dropAged
  repeat' (first
    | with_reducible exact Kept.rfl _
    | with_reducible assumption
    | with_reducible apply State.setScore_kept
    | with_reducible apply Kept.fold
    | with_reducible apply Kept.ite
    | intro _
    | extract_lets
    | ((fail_if_success with_reducible apply Kept.eta); first | with_reducible apply Kept.upd))

theorem State.timeouts_kept {s0 : State} (s : State) (r g : Nat) (hk : Kept s0 s) :
    Kept s0 (State.timeouts s r g) := by
  unfold State.timeouts
  repeat' (first
    | with_reducible exact Kept.rfl _
    | with_reducible assumption
    | with_reducible apply State.endSlot_kept
    | with_reducible apply State.raise_kept
    | with_reducible apply Kept.fold
    | with_reducible apply Kept.ite
    | intro _)

theorem State.openTally_kept {s0 : State} (s : State) (r g : Nat) (hk : Kept s0 s) :
    Kept s0 (State.openTally s r g) := by
  unfold State.openTally
  repeat' (first
    | with_reducible exact Kept.rfl _
    | with_reducible assumption
    | with_reducible apply Kept.ite
    | intro _
    | extract_lets
    | ((fail_if_success with_reducible apply Kept.eta); first | with_reducible apply Kept.upd))

theorem State.noSourceAt_kept {s0 : State} (s : State) (r g : Nat) (hk : Kept s0 s) :
    Kept s0 (State.noSourceAt s r g) := by
  unfold State.noSourceAt
  repeat' (first
    | with_reducible exact Kept.rfl _
    | with_reducible assumption
    | with_reducible apply State.noSourceTally_kept
    | with_reducible apply Kept.fold
    | intro _
    | extract_lets
    | split
    | ((with_reducible conv => arg 2; whnf); split)
    | ((fail_if_success with_reducible apply Kept.eta); first | with_reducible apply Kept.upd))

theorem State.askDir_kept {s0 : State} (s : State) (hk : Kept s0 s) :
    Kept s0 (State.askDir s) := by
  unfold State.askDir
  repeat' (first
    | with_reducible exact Kept.rfl _
    | with_reducible assumption
    | with_reducible apply State.writeDir_kept
    | with_reducible apply State.sendDir_kept
    | with_reducible apply State.tellManager_kept
    | with_reducible apply Kept.ite
    | intro _
    | extract_lets
    | ((fail_if_success with_reducible apply Kept.eta); first | with_reducible apply Kept.upd))

theorem State.takeMarker_kept {s0 : State} (s : State) (f : Frame) (hk : Kept s0 s) :
    Kept s0 (State.takeMarker s f) := by
  unfold State.takeMarker
  repeat' (first
    | with_reducible exact Kept.rfl _
    | with_reducible assumption
    | with_reducible apply State.installDir_kept
    | with_reducible apply State.setFld_kept
    | with_reducible apply Kept.ite
    | intro _
    | extract_lets
    | split
    | ((with_reducible conv => arg 2; whnf); split)
    | ((fail_if_success with_reducible apply Kept.eta); first | with_reducible apply Kept.upd))

theorem State.checkMarker_kept {s0 : State} (s : State) (f : Frame) (hk : Kept s0 s) :
    Kept s0 (State.checkMarker s f) := by
  unfold State.checkMarker
  repeat' (first
    | with_reducible exact Kept.rfl _
    | with_reducible assumption
    | with_reducible apply State.raise_kept
    | with_reducible apply State.event_kept
    | with_reducible apply State.askDir_kept
    | with_reducible apply State.abandonTally_kept
    | with_reducible apply Kept.fold
    | with_reducible apply Kept.ite
    | intro _)

theorem State.reportQuiet_kept {s0 : State} (s : State) (r g : Nat) (hk : Kept s0 s) :
    Kept s0 (State.reportQuiet s r g) := by
  unfold State.reportQuiet
  repeat' (first
    | with_reducible exact Kept.rfl _
    | with_reducible assumption
    | with_reducible apply State.tellManager_kept
    | with_reducible apply Kept.ite)

theorem State.atMarker_kept {s0 : State} (s : State) (f : Frame) (hk : Kept s0 s) :
    Kept s0 (State.atMarker s f) := by
  unfold State.atMarker
  repeat' (first
    | with_reducible exact Kept.rfl _
    | with_reducible assumption
    | with_reducible apply State.takeMarker_kept
    | with_reducible apply State.dropAged_kept
    | with_reducible apply State.timeouts_kept
    | with_reducible apply State.openTally_kept
    | with_reducible apply State.admitAll_kept
    | with_reducible apply State.noSourceAt_kept
    | with_reducible apply State.checkMarker_kept
    | with_reducible apply State.inject_kept
    | with_reducible apply State.addPart_kept
    | with_reducible apply State.reportQuiet_kept
    | with_reducible apply State.settleAll_kept
    | with_reducible apply State.syncBelt_kept
    | with_reducible apply Kept.fold
    | with_reducible apply Kept.ite
    | intro _)

theorem State.syncDstate_kept {s0 : State} (s : State) (hk : Kept s0 s) :
    Kept s0 (State.syncDstate s) := by
  unfold State.syncDstate
  repeat' (first
    | with_reducible exact Kept.rfl _
    | with_reducible assumption
    | with_reducible apply State.setFld_kept
    | with_reducible apply Kept.ite)

theorem State.syncAllowed_kept {s0 : State} (s : State) (hk : Kept s0 s) :
    Kept s0 (State.syncAllowed s) := by
  unfold State.syncAllowed
  repeat' (first
    | with_reducible exact Kept.rfl _
    | with_reducible assumption
    | with_reducible apply State.setFld_kept
    | with_reducible apply State.syncDstate_kept)

theorem State.setRegion_kept {s0 : State} (s : State) (r st : Nat) (hk : Kept s0 s) :
    Kept s0 (State.setRegion s r st) := by
  unfold State.setRegion
  repeat' (first
    | with_reducible exact Kept.rfl _
    | with_reducible assumption
    | with_reducible apply State.setFld_kept
    | with_reducible apply State.syncDstate_kept)

theorem State.startRamp_kept {s0 : State} (s : State) (r : Nat) (hk : Kept s0 s) :
    Kept s0 (State.startRamp s r) := by
  unfold State.startRamp
  repeat' (first
    | with_reducible exact Kept.rfl _
    | with_reducible assumption
    | with_reducible apply Kept.ite
    | intro _
    | extract_lets
    | ((fail_if_success with_reducible apply Kept.eta); first | with_reducible apply Kept.upd))

theorem State.grantWakes_kept {s0 : State} (s : State) (r : Nat) (hk : Kept s0 s) :
    Kept s0 (State.grantWakes s r) := by
  unfold State.grantWakes
  repeat' (first
    | with_reducible exact Kept.rfl _
    | with_reducible assumption
    | with_reducible apply State.startRamp_kept
    | with_reducible apply Kept.fold
    | with_reducible apply Kept.ite
    | intro _)

theorem State.requestWake_kept {s0 : State} (s : State) (r : Nat) (hk : Kept s0 s) :
    Kept s0 (State.requestWake s r) := by
  unfold State.requestWake
  repeat' (first
    | with_reducible exact Kept.rfl _
    | with_reducible assumption
    | with_reducible apply State.setRegion_kept
    | with_reducible apply State.raise_kept
    | with_reducible apply State.event_kept
    | with_reducible apply Kept.ite
    | intro _
    | extract_lets
    | ((fail_if_success with_reducible apply Kept.eta); first | with_reducible apply Kept.upd))

theorem State.setLevel_kept {s0 : State} (s : State) (r l : Nat) (hk : Kept s0 s) :
    Kept s0 (State.setLevel s r l) := by
  unfold State.setLevel
  repeat' (first
    | with_reducible exact Kept.rfl _
    | with_reducible assumption
    | with_reducible apply State.setFld_kept
    | with_reducible apply State.grantWakes_kept
    | with_reducible apply Kept.ite)

theorem State.dropWake_kept {s0 : State} (s : State) (r : Nat) (hk : Kept s0 s) :
    Kept s0 (State.dropWake s r) := by
  unfold State.dropWake
  repeat' (first
    | with_reducible exact Kept.rfl _
    | with_reducible assumption
    | intro _
    | extract_lets
    | ((fail_if_success with_reducible apply Kept.eta); first | with_reducible apply Kept.upd))

theorem State.fresh_kept {s0 : State} (s : State) (bound : Nat) (hk : Kept s0 s) :
    Kept s0 (State.fresh s bound).1 := by
  unfold State.fresh
  repeat' (first
    | with_reducible exact Kept.rfl _
    | with_reducible assumption
    | with_reducible apply Kept.iteFst
    | with_reducible apply Kept.foldFst
    | intro _
    | extract_lets
    | ((fail_if_success with_reducible apply Kept.eta); first | with_reducible apply Kept.upd))

theorem State.fresh_kept_eq {s0 t' : State} {x' : Nat} (s : State) (bound : Nat) (eqn : State.fresh s bound = (t', x')) (hk : Kept s0 s) : Kept s0 t' := by
  have k := State.fresh_kept (s0 := s0) s bound hk
  rw [eqn] at k
  exact k

theorem State.startRound_kept {s0 : State} (s : State) (c : Nat) (hk : Kept s0 s) :
    Kept s0 (State.startRound s c) := by
  unfold State.startRound
  repeat' (first
    | with_reducible exact Kept.rfl _
    | with_reducible assumption
    | with_reducible apply State.setCluster_kept
    | with_reducible apply State.skim_kept
    | with_reducible apply State.setRegion_kept
    | with_reducible apply Kept.ite
    | intro _
    | extract_lets
    | ((fail_if_success with_reducible apply Kept.eta); first | with_reducible apply Kept.upd))

theorem State.kick_kept {s0 : State} (s : State) (c : Nat) (hk : Kept s0 s) :
    Kept s0 (State.kick s c) := by
  unfold State.kick
  repeat' (first
    | with_reducible exact Kept.rfl _
    | with_reducible assumption
    | with_reducible apply State.skim_kept
    | with_reducible apply State.requestWake_kept
    | with_reducible apply State.fresh_kept
    | (with_reducible apply State.fresh_kept_eq; assumption)
    | with_reducible apply State.setLevel_kept
    | with_reducible apply State.setCluster_kept
    | with_reducible apply State.startRound_kept
    | with_reducible apply Kept.iteFst
    | with_reducible apply Kept.foldFst
    | with_reducible apply Kept.ite)

theorem State.kickAll_kept {s0 : State} (s : State) (hk : Kept s0 s) :
    Kept s0 (State.kickAll s) := by
  unfold State.kickAll
  repeat' (first
    | with_reducible exact Kept.rfl _
    | with_reducible assumption
    | with_reducible apply State.kick_kept
    | with_reducible apply State.syncBelt_kept
    | with_reducible apply Kept.fold
    | intro _)

theorem State.roundIdle_kept {s0 : State} (s : State) (c : Nat) (hk : Kept s0 s) :
    Kept s0 (State.roundIdle s c) := by
  unfold State.roundIdle
  repeat' (first
    | with_reducible exact Kept.rfl _
    | with_reducible assumption
    | with_reducible apply State.setCluster_kept
    | with_reducible apply State.setRegion_kept)

theorem State.rglSample_kept {s0 : State} (s : State) (hk : Kept s0 s) :
    Kept s0 (State.rglSample s) := by
  unfold State.rglSample
  repeat' (first
    | with_reducible exact Kept.rfl _
    | with_reducible assumption
    | with_reducible apply Kept.fold
    | intro _
    | extract_lets
    | split
    | ((with_reducible conv => arg 2; whnf); split)
    | ((fail_if_success with_reducible apply Kept.eta); first | with_reducible apply Kept.upd))

theorem State.noteDark_kept {s0 : State} (s : State) (hk : Kept s0 s) :
    Kept s0 (State.noteDark s) := by
  unfold State.noteDark
  repeat' (first
    | with_reducible exact Kept.rfl _
    | with_reducible assumption
    | intro _
    | extract_lets
    | ((fail_if_success with_reducible apply Kept.eta); first | with_reducible apply Kept.upd))

theorem State.rglTick_kept {s0 : State} (s : State) (hk : Kept s0 s) :
    Kept s0 (State.rglTick s) := by
  unfold State.rglTick
  repeat' (first
    | with_reducible exact Kept.rfl _
    | with_reducible assumption
    | with_reducible apply State.noteDark_kept
    | with_reducible apply State.rglSample_kept
    | with_reducible apply Kept.ite
    | intro _
    | extract_lets)

theorem State.syncStage_kept {s0 : State} (s : State) (c : Nat) (hk : Kept s0 s) :
    Kept s0 (State.syncStage s c) := by
  unfold State.syncStage
  repeat' (first
    | with_reducible exact Kept.rfl _
    | with_reducible assumption
    | with_reducible apply State.setFld_kept)

theorem State.putCluster_kept {s0 : State} (s : State) (c : Nat) (k : Cluster) (hk : Kept s0 s) :
    Kept s0 (State.putCluster s c k) := by
  unfold State.putCluster
  repeat' (first
    | with_reducible exact Kept.rfl _
    | with_reducible assumption
    | with_reducible apply State.setCluster_kept
    | with_reducible apply State.syncStage_kept)

theorem State.modCluster_kept {s0 : State} (s : State) (c : Nat) (f : Cluster → Cluster) (hk : Kept s0 s) :
    Kept s0 (State.modCluster s c f) := by
  unfold State.modCluster
  repeat' (first
    | with_reducible exact Kept.rfl _
    | with_reducible assumption
    | with_reducible apply State.putCluster_kept)

end Sys2Proof.Machine
end

