-- ==== Sys2Proof/Laws/Keep3.lean ====
section
/-! SUPPORT. One lemma for each operation and each command: it leaves what `Kept` (`Shed`) names (PipeOps to FlashOps). -/

namespace Sys2Proof.Machine

theorem State.enqueue_kept {s0 : State} (s : State) (c : Nat) (b : Block) (senior : Bool) (hk : Kept s0 s) :
    Kept s0 (State.enqueue s c b senior) := by
  unfold State.enqueue
  repeat' (first
    | with_reducible exact Kept.rfl _
    | with_reducible assumption
    | with_reducible apply State.modCluster_kept)

theorem State.dequeue_kept {s0 : State} (s : State) (c : Nat) (h : W64) (hk : Kept s0 s) :
    Kept s0 (State.dequeue s c h) := by
  unfold State.dequeue
  repeat' (first
    | with_reducible exact Kept.rfl _
    | with_reducible assumption
    | with_reducible apply State.modCluster_kept)

theorem State.modEntry_kept {s0 : State} (s : State) (c : Nat) (h : W64) (f : QEntry → QEntry) (hk : Kept s0 s) :
    Kept s0 (State.modEntry s c h f) := by
  unfold State.modEntry
  repeat' (first
    | with_reducible exact Kept.rfl _
    | with_reducible assumption
    | with_reducible apply State.modCluster_kept)

theorem State.setTrain_kept {s0 : State} (s : State) (pipe : Nat) (t : Train) (hk : Kept s0 s) :
    Kept s0 (State.setTrain s pipe t) := by
  unfold State.setTrain
  repeat' (first
    | with_reducible exact Kept.rfl _
    | with_reducible assumption
    | intro _
    | extract_lets
    | ((fail_if_success with_reducible apply Kept.eta); first | with_reducible apply Kept.upd))

theorem State.endTrain_kept {s0 : State} (s : State) (pipe status lossSum gnorm flags : Nat) (hk : Kept s0 s) :
    Kept s0 (State.endTrain s pipe status lossSum gnorm flags) := by
  unfold State.endTrain
  repeat' (first
    | with_reducible exact Kept.rfl _
    | with_reducible assumption
    | with_reducible apply State.writeResult_kept
    | with_reducible apply State.completeU_kept
    | intro _
    | extract_lets
    | split
    | ((with_reducible conv => arg 2; whnf); split)
    | ((fail_if_success with_reducible apply Kept.eta); first | with_reducible apply Kept.upd))

theorem State.failTrain_kept {s0 : State} (s : State) (pipe status : Nat) (hk : Kept s0 s) :
    Kept s0 (State.failTrain s pipe status) := by
  unfold State.failTrain
  repeat' (first
    | with_reducible exact Kept.rfl _
    | with_reducible assumption
    | with_reducible apply State.fresh_kept
    | (with_reducible apply State.fresh_kept_eq; assumption)
    | with_reducible apply State.endTrain_kept
    | with_reducible apply Kept.iteFst
    | with_reducible apply Kept.foldFst
    | with_reducible apply Kept.ite)

theorem State.faultRow_kept {s0 : State} (s : State) (pipe : Nat) (r : RowDesc) (hk : Kept s0 s) :
    Kept s0 (State.faultRow s pipe r) := by
  unfold State.faultRow
  repeat' (first
    | with_reducible exact Kept.rfl _
    | with_reducible assumption
    | with_reducible apply State.faultSeq_kept
    | with_reducible apply State.endRows_kept
    | with_reducible apply State.failTrain_kept
    | with_reducible apply Kept.ite
    | intro _
    | extract_lets
    | split)

theorem State.faultRows_kept {s0 : State} (s : State) (pipe : Nat) (rs : List RowDesc) (hk : Kept s0 s) :
    Kept s0 (State.faultRows s pipe rs) := by
  unfold State.faultRows
  repeat' (first
    | with_reducible exact Kept.rfl _
    | with_reducible assumption
    | with_reducible apply State.faultRow_kept
    | with_reducible apply State.trimSeq_kept
    | with_reducible apply Kept.fold
    | intro _)

theorem State.eventReg_kept {s0 : State} (s : State) (code unit off : Nat) (cause : Nat) (hk : Kept s0 s) :
    Kept s0 (State.eventReg s code unit off cause) := by
  unfold State.eventReg
  repeat' (first
    | with_reducible exact Kept.rfl _
    | with_reducible assumption
    | with_reducible apply State.event_kept)

theorem State.blockFault_kept {s0 : State} (s : State) (h : W64) (hk : Kept s0 s) :
    Kept s0 (State.blockFault s h) := by
  unfold State.blockFault
  repeat' (first
    | with_reducible exact Kept.rfl _
    | with_reducible assumption
    | with_reducible apply State.dropCommits_kept
    | with_reducible apply State.dequeue_kept
    | with_reducible apply State.incFld_kept
    | with_reducible apply State.eventReg_kept
    | with_reducible apply State.faultRows_kept
    | with_reducible apply Kept.ite
    | intro _
    | extract_lets
    | split)

theorem State.looseFault_kept {s0 : State} (s : State) (pipe : Nat) (rs : List RowDesc) (hk : Kept s0 s) :
    Kept s0 (State.looseFault s pipe rs) := by
  unfold State.looseFault
  repeat' (first
    | with_reducible exact Kept.rfl _
    | with_reducible assumption
    | with_reducible apply State.fresh_kept
    | (with_reducible apply State.fresh_kept_eq; assumption)
    | with_reducible apply State.event_kept
    | with_reducible apply State.faultRows_kept)

theorem State.faultStuck_kept {s0 : State} (s : State) (hk : Kept s0 s) :
    Kept s0 (State.faultStuck s) := by
  unfold State.faultStuck
  repeat' (first
    | with_reducible exact Kept.rfl _
    | with_reducible assumption
    | with_reducible apply State.blockFault_kept
    | with_reducible apply Kept.fold
    | intro _)

theorem State.showRoutes_kept {s0 : State} (s : State) (p gen : Nat) (hk : Kept s0 s) :
    Kept s0 (State.showRoutes s p gen) := by
  unfold State.showRoutes
  repeat' (first
    | with_reducible exact Kept.rfl _
    | with_reducible assumption
    | with_reducible apply State.setReg_kept
    | with_reducible apply Kept.fold
    | with_reducible apply Kept.getD
    | with_reducible apply Kept.ite
    | intro _)

theorem State.applyWindows_kept {s0 : State} (s : State) (x : ImgSection) (hk : Kept s0 s) :
    Kept s0 (State.applyWindows s x) := by
  unfold State.applyWindows
  repeat' (first
    | with_reducible exact Kept.rfl _
    | with_reducible assumption
    | with_reducible apply State.setFld_kept
    | with_reducible apply Kept.fold
    | intro _
    | extract_lets
    | ((fail_if_success with_reducible apply Kept.eta); first | with_reducible apply Kept.upd | with_reducible apply Kept.updU))

theorem State.endChange_kept {s0 : State} (s : State) (x : ChangeSet) (status last code : Nat) (hk : Kept s0 s) :
    Kept s0 (State.endChange s x status last code) := by
  unfold State.endChange
  repeat' (first
    | with_reducible exact Kept.rfl _
    | with_reducible assumption
    | with_reducible apply State.setFld_kept
    | with_reducible apply State.jrnConfig_kept
    | with_reducible apply State.complete_kept
    | with_reducible apply State.eventReg_kept
    | with_reducible apply Kept.fold
    | intro _
    | extract_lets
    | ((fail_if_success with_reducible apply Kept.eta); first | with_reducible apply Kept.upd))

theorem State.abortChange_kept {s0 : State} (s : State) (last : Nat) (hk : Kept s0 s) :
    Kept s0 (State.abortChange s last) := by
  unfold State.abortChange
  repeat' (first
    | with_reducible exact Kept.rfl _
    | with_reducible assumption
    | with_reducible apply State.modCluster_kept
    | with_reducible apply State.showRoutes_kept
    | with_reducible apply State.applyWindows_kept
    | with_reducible apply State.setFld_kept
    | with_reducible apply State.endChange_kept
    | with_reducible apply State.raise_kept
    | with_reducible apply Kept.fold
    | with_reducible apply Kept.ite
    | intro _
    | extract_lets
    | split
    | ((with_reducible conv => arg 2; whnf); split)
    | ((fail_if_success with_reducible apply Kept.eta); first | with_reducible apply Kept.upd))

theorem State.abortFor_kept {s0 : State} (s : State) (c : Nat) (hk : Kept s0 s) :
    Kept s0 (State.abortFor s c) := by
  unfold State.abortFor
  repeat' (first
    | with_reducible exact Kept.rfl _
    | with_reducible assumption
    | with_reducible apply State.abortChange_kept
    | with_reducible apply Kept.ite
    | intro _
    | extract_lets
    | split)

theorem State.checkDegraded_kept {s0 : State} (s : State) (hk : Kept s0 s) :
    Kept s0 (State.checkDegraded s) := by
  unfold State.checkDegraded
  repeat' (first
    | with_reducible exact Kept.rfl _
    | with_reducible assumption
    | with_reducible apply State.raise_kept
    | with_reducible apply State.setBit_kept
    | with_reducible apply State.updFault_kept
    | with_reducible apply State.event_kept
    | with_reducible apply Kept.fold
    | with_reducible apply Kept.ite
    | intro _)

theorem State.checkClusters_kept {s0 : State} (s : State) (cause : Nat) (hk : Kept s0 s) :
    Kept s0 (State.checkClusters s cause) := by
  unfold State.checkClusters
  repeat' (first
    | with_reducible exact Kept.rfl _
    | with_reducible assumption
    | with_reducible apply State.failDevice_kept
    | with_reducible apply Kept.ite)

theorem State.callReserve_kept {s0 : State} (s : State) (c : Nat) (hk : Kept s0 s) :
    Kept s0 (State.callReserve s c) := by
  unfold State.callReserve
  repeat' (first
    | with_reducible exact Kept.rfl _
    | with_reducible assumption
    | with_reducible apply State.modCluster_kept
    | with_reducible apply State.requestWake_kept
    | with_reducible apply Kept.ite
    | intro _
    | extract_lets
    | split
    | ((with_reducible conv => arg 2; whnf); split)
    | ((fail_if_success with_reducible apply Kept.eta); first | with_reducible apply Kept.upd))

theorem State.retireCluster_kept {s0 : State} (s : State) (c cause : Nat) (hk : Kept s0 s) :
    Kept s0 (State.retireCluster s c cause) := by
  unfold State.retireCluster
  repeat' (first
    | with_reducible exact Kept.rfl _
    | with_reducible assumption
    | with_reducible apply State.modCluster_kept
    | with_reducible apply State.haltCluster_kept
    | with_reducible apply State.scoreLost_kept
    | with_reducible apply State.raise_kept
    | with_reducible apply State.event_kept
    | with_reducible apply State.addDefect_kept
    | with_reducible apply State.abortFor_kept
    | with_reducible apply State.callReserve_kept
    | with_reducible apply State.checkDegraded_kept
    | with_reducible apply State.faultStuck_kept
    | with_reducible apply State.checkClusters_kept
    | with_reducible apply Kept.ite)

theorem State.dropStores_kept {s0 : State} (s : State) (ids : List Nat) (hk : Kept s0 s) :
    Kept s0 (State.dropStores s ids) := by
  unfold State.dropStores
  repeat' (first
    | with_reducible exact Kept.rfl _
    | with_reducible assumption
    | intro _
    | extract_lets
    | ((fail_if_success with_reducible apply Kept.eta); first | with_reducible apply Kept.upd | with_reducible apply Kept.updU))

theorem State.redispatch_kept {s0 : State} (s : State) (c p : Nat) (hk : Kept s0 s) :
    Kept s0 (State.redispatch s c p) := by
  unfold State.redispatch
  repeat' (first
    | with_reducible exact Kept.rfl _
    | with_reducible assumption
    | with_reducible apply State.dropStores_kept
    | with_reducible apply State.haltBlockOn_kept
    | with_reducible apply State.modEntry_kept
    | with_reducible apply Kept.fold
    | intro _
    | extract_lets
    | ((fail_if_success with_reducible apply Kept.eta); first | with_reducible apply Kept.upd))

theorem State.syncActive_kept {s0 : State} (s : State) (c : Nat) (hk : Kept s0 s) :
    Kept s0 (State.syncActive s c) := by
  unfold State.syncActive
  repeat' (first
    | with_reducible exact Kept.rfl _
    | with_reducible assumption
    | with_reducible apply State.setFld_kept)

theorem State.emptyLogical_kept {s0 : State} (s : State) (c t : Nat) (hk : Kept s0 s) :
    Kept s0 (State.emptyLogical s c t) := by
  unfold State.emptyLogical
  repeat' (first
    | with_reducible exact Kept.rfl _
    | with_reducible assumption
    | with_reducible apply State.clrBit_kept
    | with_reducible apply State.setLmap_kept
    | with_reducible apply State.setBit_kept
    | with_reducible apply Kept.ite
    | intro _
    | extract_lets
    | split)

theorem State.steer_kept {s0 : State} (s : State) (c t p : Nat) (hk : Kept s0 s) :
    Kept s0 (State.steer s c t p) := by
  unfold State.steer
  repeat' (first
    | with_reducible exact Kept.rfl _
    | with_reducible assumption
    | (with_reducible refine Kept.group ?_ (by assumption))
    | (with_reducible refine Tile.launch_wf (by assumption) ?_)
    | with_reducible apply Kept.tile
    | ((fail_if_success with_reducible apply Group.wf_eta); with_reducible apply Group.wf_upd)
    | ((fail_if_success with_reducible apply Tile.wf_eta); with_reducible apply Tile.wf_upd)
    | with_reducible exact fun _ => emptyTile_wf
    | with_reducible apply State.clrBit_kept
    | with_reducible apply State.setFld_kept
    | with_reducible apply State.setLmap_kept
    | with_reducible apply State.setTile_kept
    | with_reducible apply State.modCluster_kept
    | with_reducible apply State.raise_kept
    | with_reducible apply State.setBit_kept
    | with_reducible apply State.emptyLogical_kept
    | intro _
    | extract_lets
    | split)

theorem State.retireTile_kept {s0 : State} (s : State) (c p cause : Nat) (hk : Kept s0 s) :
    Kept s0 (State.retireTile s c p cause) := by
  unfold State.retireTile
  repeat' (first
    | with_reducible exact Kept.rfl _
    | with_reducible assumption
    | (with_reducible refine Kept.group ?_ (by assumption))
    | (with_reducible refine Tile.launch_wf (by assumption) ?_)
    | with_reducible apply Kept.tile
    | ((fail_if_success with_reducible apply Group.wf_eta); with_reducible apply Group.wf_upd)
    | ((fail_if_success with_reducible apply Tile.wf_eta); with_reducible apply Tile.wf_upd)
    | with_reducible exact fun _ => emptyTile_wf
    | with_reducible apply State.redispatch_kept
    | with_reducible apply State.setTile_kept
    | with_reducible apply State.syncOcc_kept
    | with_reducible apply State.setBit_kept
    | with_reducible apply State.raise_kept
    | with_reducible apply State.event_kept
    | with_reducible apply State.addDefect_kept
    | with_reducible apply State.modCluster_kept
    | with_reducible apply State.emptyLogical_kept
    | with_reducible apply State.steer_kept
    | with_reducible apply State.setFld_kept
    | with_reducible apply State.syncActive_kept
    | with_reducible apply State.retireCluster_kept
    | with_reducible apply Kept.ite
    | intro _
    | extract_lets
    | split)

theorem State.setForm_kept {s0 : State} (s : State) (pipe cls : Nat) (f : Forming) (hk : Kept s0 s) :
    Kept s0 (State.setForm s pipe cls f) := by
  unfold State.setForm
  repeat' (first
    | with_reducible exact Kept.rfl _
    | with_reducible assumption
    | intro _
    | extract_lets
    | ((fail_if_success with_reducible apply Kept.eta); first | with_reducible apply Kept.upd))

theorem State.setEntries_kept {s0 : State} (s : State) (pipe : Nat) (l : List Block) (hk : Kept s0 s) :
    Kept s0 (State.setEntries s pipe l) := by
  unfold State.setEntries
  repeat' (first
    | with_reducible exact Kept.rfl _
    | with_reducible assumption
    | intro _
    | extract_lets
    | ((fail_if_success with_reducible apply Kept.eta); first | with_reducible apply Kept.upd))

theorem State.noteConds_kept {s0 : State} (s : State) (hk : Kept s0 s) :
    Kept s0 (State.noteConds s) := by
  unfold State.noteConds
  repeat' (first
    | with_reducible exact Kept.rfl _
    | with_reducible assumption
    | with_reducible apply Kept.ite
    | intro _
    | extract_lets
    | ((fail_if_success with_reducible apply Kept.eta); first | with_reducible apply Kept.upd))

theorem State.placeRow_kept {s0 : State} (s : State) (pipe cls : Nat) (train : Option Nat) (r : RowDesc) (bytes : List Byte) (hk : Kept s0 s) :
    Kept s0 (State.placeRow s pipe cls train r bytes) := by
  unfold State.placeRow
  repeat' (first
    | with_reducible exact Kept.rfl _
    | with_reducible assumption
    | with_reducible apply State.setForm_kept)

theorem State.feedCmd_kept {s0 : State}  (y0 : Nat) (s : State) (y2 : Nat) (hk : Kept s0 s) :
    Kept s0 (State.feedCmd y0 s y2) := by
  induction y0 generalizing s y2 with
  | zero =>
    unfold State.feedCmd
    exact hk
  | succ n ih =>
    unfold State.feedCmd
    repeat' (first
      | with_reducible apply ih
      | with_reducible exact Kept.rfl _
      | with_reducible assumption
      | with_reducible apply State.endRows_kept
      | with_reducible apply State.failTrain_kept
      | with_reducible apply State.placeRow_kept
      | with_reducible apply State.dmaIn_kept
      | with_reducible apply State.modCmdU_kept
      | with_reducible apply State.setForm_kept
      | with_reducible apply Kept.ite
      | intro _
      | extract_lets
      | split)

theorem State.feedPipe_kept {s0 : State} (s : State) (pipe : Nat) (hk : Kept s0 s) :
    Kept s0 (State.feedPipe s pipe) := by
  unfold State.feedPipe
  repeat' (first
    | with_reducible exact Kept.rfl _
    | with_reducible assumption
    | with_reducible apply State.feedCmd_kept
    | with_reducible apply State.noteConds_kept
    | with_reducible apply Kept.fold
    | intro _)

theorem State.poisonPage_kept {s0 : State} (s : State) (a : Nat) (hk : Kept s0 s) :
    Kept s0 (State.poisonPage s a) := by
  unfold State.poisonPage
  repeat' (first
    | with_reducible exact Kept.rfl _
    | with_reducible assumption
    | with_reducible apply State.raise_kept
    | with_reducible apply State.setRef_kept
    | with_reducible apply State.event_kept
    | with_reducible apply Kept.fold
    | intro _
    | extract_lets
    | split)

theorem State.faultResident_kept {s0 : State} (s : State) (hk : Kept s0 s) :
    Kept s0 (State.faultResident s) := by
  unfold State.faultResident
  repeat' (first
    | with_reducible exact Kept.rfl _
    | with_reducible assumption
    | with_reducible apply State.freeSlot_kept
    | with_reducible apply State.deliver_kept
    | with_reducible apply State.raise_kept
    | with_reducible apply State.event_kept
    | with_reducible apply Kept.fold
    | with_reducible apply Kept.ite
    | intro _)

theorem State.loseRecord_kept {s0 : State} (s : State) (home id gen i : Nat) (asHome : Bool) (hk : Kept s0 s) :
    Kept s0 (State.loseRecord s home id gen i asHome) := by
  unfold State.loseRecord
  repeat' (first
    | with_reducible exact Kept.rfl _
    | with_reducible assumption
    | with_reducible apply Kept.ite
    | intro _
    | extract_lets
    | ((fail_if_success with_reducible apply Kept.eta); first | with_reducible apply Kept.upd))

theorem State.loseTap_kept {s0 : State} (s : State) (r g h q : Nat) (hk : Kept s0 s) :
    Kept s0 (State.loseTap s r g h q) := by
  unfold State.loseTap
  repeat' (first
    | with_reducible exact Kept.rfl _
    | with_reducible assumption
    | with_reducible apply State.letPassTap_kept
    | with_reducible apply State.event_kept
    | with_reducible apply Kept.fold
    | intro _)

theorem State.loseTallies_kept {s0 : State} (s : State) (hk : Kept s0 s) :
    Kept s0 (State.loseTallies s) := by
  unfold State.loseTallies
  repeat' (first
    | with_reducible exact Kept.rfl _
    | with_reducible assumption
    | with_reducible apply State.faultResident_kept
    | with_reducible apply State.setScore_kept
    | with_reducible apply State.askDir_kept
    | with_reducible apply State.syncBelt_kept
    | with_reducible apply Kept.fold
    | intro _
    | extract_lets
    | ((fail_if_success with_reducible apply Kept.eta); first | with_reducible apply Kept.upd))

theorem State.beltLoss_kept {s0 : State} (s : State) (what : LostData) (hk : Kept s0 s) :
    Kept s0 (State.beltLoss s what) := by
  unfold State.beltLoss
  repeat' (first
    | with_reducible exact Kept.rfl _
    | with_reducible assumption
    | with_reducible apply State.loseRecord_kept
    | with_reducible apply State.loseTap_kept
    | with_reducible apply State.endSlot_kept
    | with_reducible apply State.raise_kept
    | with_reducible apply State.event_kept
    | with_reducible apply State.syncBelt_kept
    | with_reducible apply State.loseTallies_kept
    | with_reducible apply Kept.ite
    | intro _
    | extract_lets
    | split)

theorem State.blockLoss_kept {s0 : State} (s : State) (what : LostData) (hk : Kept s0 s) :
    Kept s0 (State.blockLoss s what) := by
  unfold State.blockLoss
  repeat' (first
    | with_reducible exact Kept.rfl _
    | with_reducible assumption
    | with_reducible apply State.blockFault_kept
    | with_reducible apply State.looseFault_kept
    | with_reducible apply State.setEntries_kept
    | intro _
    | extract_lets
    | split
    | ((with_reducible conv => arg 2; whnf); split)
    | ((fail_if_success with_reducible apply Kept.eta); first | with_reducible apply Kept.upd))

theorem State.askClusterResets_kept {s0 : State} (s : State) (cs : List Nat) (cause : Nat) (hk : Kept s0 s) :
    Kept s0 (State.askClusterResets s cs cause) := by
  unfold State.askClusterResets
  repeat' (first
    | with_reducible exact Kept.rfl _
    | with_reducible assumption
    | intro _
    | extract_lets
    | ((fail_if_success with_reducible apply Kept.eta); first | with_reducible apply Kept.upd))

theorem State.poisonEvent_kept {s0 : State} (s : State) (a : Nat) (hk : Kept s0 s) :
    Kept s0 (State.poisonEvent s a) := by
  unfold State.poisonEvent
  repeat' (first
    | with_reducible exact Kept.rfl _
    | with_reducible assumption
    | with_reducible apply State.event_kept
    | with_reducible apply State.fresh_kept
    | (with_reducible apply State.fresh_kept_eq; assumption)
    | with_reducible apply Kept.iteFst
    | with_reducible apply Kept.foldFst
    | intro _
    | extract_lets
    | split)

theorem State.ownerActs_kept {s0 : State} (s : State) (a : Nat) (what : LostData) (unbacked : Bool) (hk : Kept s0 s) :
    Kept s0 (State.ownerActs s a what unbacked) := by
  unfold State.ownerActs
  repeat' (first
    | with_reducible exact Kept.rfl _
    | with_reducible assumption
    | with_reducible apply State.beltLoss_kept
    | with_reducible apply State.poisonEvent_kept
    | with_reducible apply State.deviceScope_kept
    | with_reducible apply State.askClusterResets_kept
    | with_reducible apply State.blockLoss_kept
    | with_reducible apply State.poisonPage_kept
    | with_reducible apply Kept.ite
    | intro _
    | extract_lets
    | split
    | ((with_reducible conv => arg 2; whnf); split)
    | ((fail_if_success with_reducible apply Kept.eta); first | with_reducible apply Kept.upd))

theorem State.unbackedSectors_kept {s0 : State} (s : State) (secs : List Nat) (what : LostData) (hk : Kept s0 s) :
    Kept s0 (State.unbackedSectors s secs what) := by
  unfold State.unbackedSectors
  extract_lets new p
  have hp : ∀ (l : List Nat) (m : Tab Bool), tabWf false m = true →
      tabWf false (l.foldl (fun (m : Tab Bool) x => tabPut false m x true) m) = true := by
    intro l
    induction l with
    | nil => exact fun _ h => h
    | cons a l ih => exact fun m h => ih _ (tabPut_wf _ _ h)
  refine Kept.fold ⟨hk.1, hk.2, hk.3, hk.4, hk.5, fun c => ?_⟩ (fun s l => State.ownerActs_kept _ _ _ _ (Kept.rfl s))
  have k := hk.6 c
  simp only [State.canon, State.memWf, State.regsWf, Bool.and_eq_true] at k ⊢
  exact ⟨⟨⟨⟨k.1.1.1.1, hp new _ k.1.1.1.2⟩, k.1.1.2⟩, k.1.2⟩, k.2⟩

theorem State.captureFault_kept {s0 : State} (s : State) (kid c ltile slot cause pc : Nat) (hk : Kept s0 s) :
    Kept s0 (State.captureFault s kid c ltile slot cause pc) := by
  unfold State.captureFault
  repeat' (first
    | with_reducible exact Kept.rfl _
    | with_reducible assumption
    | with_reducible apply State.setFld_kept
    | with_reducible apply State.raise_kept
    | with_reducible apply Kept.ite)

theorem State.reportFault_kept {s0 : State} (s : State) (kid c p ltile slot cause pc : Nat) (hk : Kept s0 s) :
    Kept s0 (State.reportFault s kid c p ltile slot cause pc) := by
  unfold State.reportFault
  repeat' (first
    | with_reducible exact Kept.rfl _
    | with_reducible assumption
    | with_reducible apply State.captureFault_kept
    | with_reducible apply State.incFld_kept
    | with_reducible apply State.event_kept)

theorem State.groupFault_kept {s0 : State} (s : State) (g : GroupRef) (p : Nat) (gr : Group) (cause : Nat) (hk : Kept s0 s) :
    Kept s0 (State.groupFault s g p gr cause) := by
  unfold State.groupFault
  repeat' (first
    | with_reducible exact Kept.rfl _
    | with_reducible assumption
    | (with_reducible refine Kept.group ?_ (by assumption))
    | (with_reducible refine Tile.launch_wf (by assumption) ?_)
    | with_reducible apply Kept.tile
    | with_reducible apply Tile.haltLaunch_wf
    | ((fail_if_success with_reducible apply Group.wf_eta); with_reducible apply Group.wf_upd)
    | ((fail_if_success with_reducible apply Tile.wf_eta); with_reducible apply Tile.wf_upd)
    | with_reducible exact fun _ => emptyTile_wf
    | with_reducible apply State.reportFault_kept
    | with_reducible apply State.putTile_kept
    | with_reducible apply State.blockFault_kept
    | intro _
    | extract_lets
    | split)

theorem State.issue_kept {s0 : State} (s : State) (g : GroupRef) (f : Nat → Group → State) (hf : ∀ v0 v1, (s0.canon = true → v1.wf = true) → Kept s0 (f v0 v1)) (hk : Kept s0 s) :
    Kept s0 (State.issue s g f) := by
  unfold State.issue
  split
  · rename_i p gr e
    have hg : s0.canon = true → gr.wf = true := by
      unfold State.groupAt at e
      split at e
      · exact nomatch e
      · split at e
        · rename_i x h
          injection e with e
          injection e with e1 e2
          exact e2 ▸ Kept.group hk h
        · exact nomatch e
    exact Kept.ite (hf p gr hg) hk
  · exact hk

theorem State.stepOn_kept {s0 : State} (s : State) (g : GroupRef) (p : Nat) (gr : Group) (hg : s0.canon = true → gr.wf = true) (hk : Kept s0 s) :
    Kept s0 (State.stepOn s g p gr) := by
  unfold State.stepOn
  repeat' (first
    | with_reducible exact Kept.rfl _
    | with_reducible assumption
    | (with_reducible refine Kept.group ?_ (by assumption))
    | (with_reducible refine Tile.launch_wf (by assumption) ?_)
    | with_reducible apply Kept.tile
    | with_reducible apply Group.next_wf
    | with_reducible exact fun _ => emptyTile_wf
    | with_reducible apply State.setGroup_kept)

theorem State.stepLs_kept {s0 : State} (s : State) (g : GroupRef) (p : Nat) (gr : Group) (ls : Tab Byte) (hg : s0.canon = true → gr.wf = true) (hl : s0.canon = true → tabWf 0#8 ls = true) (hk : Kept s0 s) :
    Kept s0 (State.stepLs s g p gr ls) := by
  unfold State.stepLs
  exact State.stepOn_kept _ _ _ _ hg (State.setTile_kept _ _ _ _ (Tile.updLs_wf hl (Kept.tile hk)) hk)

theorem State.issueMat_kept {s0 : State} (s : State) (g : GroupRef) (p : Nat) (gr : Group) (descs : List (List W64)) (packed : Bool)
    (sOff sScale : Nat) (hg : s0.canon = true → gr.wf = true) (hk : Kept s0 s) :
    Kept s0 (State.issueMat s g p gr descs packed sOff sScale) := by
  unfold State.issueMat
  repeat' (first
    | with_reducible exact Kept.rfl _
    | with_reducible assumption
    | (with_reducible refine Kept.group ?_ (by assumption))
    | (with_reducible refine Tile.launch_wf (by assumption) ?_)
    | with_reducible apply Kept.tile
    | with_reducible apply Tile.enqueue_wf
    | with_reducible exact fun _ => emptyTile_wf
    | with_reducible apply State.groupFault_kept
    | with_reducible apply State.setTile_kept
    | with_reducible apply State.enqueue_kept
    | with_reducible apply State.stepOn_kept
    | with_reducible apply Kept.ite)

theorem State.takeId_kept {s0 : State} (s : State) (hk : Kept s0 s) :
    Kept s0 (State.takeId s).1 := by
  unfold State.takeId
  repeat' (first
    | with_reducible exact Kept.rfl _
    | with_reducible assumption
    | with_reducible apply Kept.iteFst
    | with_reducible apply Kept.foldFst
    | intro _
    | extract_lets
    | ((fail_if_success with_reducible apply Kept.eta); first | with_reducible apply Kept.upd | with_reducible apply Kept.updU))

theorem State.takeId_kept_eq {s0 t' : State} {x' : Nat} (s : State) (eqn : State.takeId s = (t', x')) (hk : Kept s0 s) : Kept s0 t' := by
  have k := State.takeId_kept (s0 := s0) s hk
  rw [eqn] at k
  exact k

theorem State.sendReads_kept {s0 : State} (s : State) (c cls : Nat) (y0 : List (Nat × BitVec 8)) (hk : Kept s0 s) :
    Kept s0 (State.sendReads s c cls y0).1 := by
  induction y0 generalizing s c cls with
  | nil =>
    unfold State.sendReads
    exact hk
  | cons o l ih =>
    unfold State.sendReads
    repeat' (first
      | with_reducible apply ih
      | with_reducible exact Kept.rfl _
      | with_reducible assumption
      | with_reducible apply State.takeId_kept
      | (with_reducible apply State.takeId_kept_eq; assumption)
      | with_reducible apply State.submit_kept)

theorem State.sendReads_kept_eq {s0 t' : State} {x' : List Nat} (s : State) (c cls : Nat) (y0 : List (Nat × BitVec 8)) (eqn : State.sendReads s c cls y0 = (t', x')) (hk : Kept s0 s) : Kept s0 t' := by
  have k := State.sendReads_kept (s0 := s0) s c cls y0 hk
  rw [eqn] at k
  exact k

theorem State.sendStores_kept {s0 : State} (s : State) (c cls : Nat) (els : List (Nat × Nat × Nat)) (y0 : List (Nat × BitVec 8)) (hk : Kept s0 s) :
    Kept s0 (State.sendStores s c cls els y0).1 := by
  induction y0 generalizing s c cls els with
  | nil =>
    unfold State.sendStores
    exact hk
  | cons o l ih =>
    unfold State.sendStores
    repeat' (first
      | with_reducible apply ih
      | with_reducible exact Kept.rfl _
      | with_reducible assumption
      | with_reducible apply State.takeId_kept
      | (with_reducible apply State.takeId_kept_eq; assumption)
      | with_reducible apply State.submit_kept)

theorem State.sendStores_kept_eq {s0 t' : State} {x' : List Nat} (s : State) (c cls : Nat) (els : List (Nat × Nat × Nat)) (y0 : List (Nat × BitVec 8)) (eqn : State.sendStores s c cls els y0 = (t', x')) (hk : Kept s0 s) : Kept s0 t' := by
  have k := State.sendStores_kept (s0 := s0) s c cls els y0 hk
  rw [eqn] at k
  exact k

theorem State.issueLoad_kept {s0 : State} (s : State) (g : GroupRef) (p : Nat) (gr : Group) (n d a : Nat) (nc : Bool) (evict : List Nat) (hg : s0.canon = true → gr.wf = true) (hk : Kept s0 s) :
    Kept s0 (State.issueLoad s g p gr n d a nc evict) := by
  unfold State.issueLoad
  repeat' (first
    | with_reducible exact Kept.rfl _
    | with_reducible assumption
    | (with_reducible refine Kept.group ?_ (by assumption))
    | (with_reducible refine Tile.launch_wf (by assumption) ?_)
    | with_reducible apply Kept.tile
    | with_reducible apply Group.loadElems_wf
    | ((fail_if_success with_reducible apply Group.wf_eta); with_reducible apply Group.wf_upd)
    | ((fail_if_success with_reducible apply Tile.wf_eta); with_reducible apply Tile.wf_upd)
    | with_reducible exact fun _ => emptyTile_wf
    | with_reducible apply State.groupFault_kept
    | with_reducible apply State.evict_kept
    | with_reducible apply State.setTile_kept
    | with_reducible apply State.stepOn_kept
    | with_reducible apply State.sendReads_kept
    | (with_reducible apply State.sendReads_kept_eq; assumption)
    | with_reducible apply Kept.fold
    | with_reducible apply Kept.iteFst
    | with_reducible apply Kept.foldFst
    | with_reducible apply Kept.ite)

theorem State.numbered_kept {s0 : State} (s : State) (y0 : List CommitOp) (hk : Kept s0 s) :
    Kept s0 (State.numbered s y0).1 := by
  induction y0 generalizing s with
  | nil =>
    unfold State.numbered
    exact hk
  | cons o l ih =>
    unfold State.numbered
    cases o with
    | red r => exact ih _ (State.takeId_kept _ hk)
    | kvput => exact ih _ hk

theorem State.numbered_kept_eq {s0 t' : State} {x' : List CommitOp} (s : State) (y0 : List CommitOp) (eqn : State.numbered s y0 = (t', x')) (hk : Kept s0 s) : Kept s0 t' := by
  have k := State.numbered_kept (s0 := s0) s y0 hk
  rw [eqn] at k
  exact k

theorem State.placeCommit_kept {s0 : State} (s : State) (g : GroupRef) (p : Nat) (gr : Group) (ops : List CommitOp) (hg : s0.canon = true → gr.wf = true) (hk : Kept s0 s) :
    Kept s0 (State.placeCommit s g p gr ops) := by
  unfold State.placeCommit
  repeat' (first
    | with_reducible exact Kept.rfl _
    | with_reducible assumption
    | (with_reducible refine Kept.group ?_ (by assumption))
    | (with_reducible refine Tile.launch_wf (by assumption) ?_)
    | with_reducible apply Kept.tile
    | ((fail_if_success with_reducible apply Group.wf_eta); with_reducible apply Group.wf_upd)
    | ((fail_if_success with_reducible apply Tile.wf_eta); with_reducible apply Tile.wf_upd)
    | with_reducible exact fun _ => emptyTile_wf
    | with_reducible apply State.stepOn_kept
    | with_reducible apply State.groupFault_kept
    | with_reducible apply State.numbered_kept
    | (with_reducible apply State.numbered_kept_eq; assumption)
    | with_reducible apply State.setTile_kept
    | with_reducible apply Kept.iteFst
    | with_reducible apply Kept.foldFst
    | with_reducible apply Kept.ite
    | intro _
    | extract_lets
    | split)

theorem State.startCopy_kept {s0 : State} (s : State) (n page : Nat) (old : PageEntry) (new upto : Nat) (fork : Bool) (hk : Kept s0 s) :
    Kept s0 (State.startCopy s n page old new upto fork) := by
  unfold State.startCopy
  repeat' (first
    | with_reducible exact Kept.rfl _
    | with_reducible assumption
    | with_reducible apply State.incFld_kept
    | intro _
    | extract_lets
    | ((fail_if_success with_reducible apply Kept.eta); first | with_reducible apply Kept.upd))

theorem State.copyOnWrite_kept {s0 : State} (s : State) (n page : Nat) (e : PageEntry) (new upto : Nat) (hk : Kept s0 s) :
    Kept s0 (State.copyOnWrite s n page e new upto) := by
  unfold State.copyOnWrite
  repeat' (first
    | with_reducible exact Kept.rfl _
    | with_reducible assumption
    | with_reducible apply State.setRef_kept
    | with_reducible apply State.startCopy_kept
    | with_reducible apply State.raise_kept
    | with_reducible apply State.syncKv_kept)

theorem State.setPage_kept {s0 : State} (s : State) (n i u : Nat) (hk : Kept s0 s) :
    Kept s0 (State.setPage s n i u) := by
  unfold State.setPage
  repeat' (first
    | with_reducible exact Kept.rfl _
    | with_reducible assumption
    | with_reducible apply State.modSeq_kept)

theorem State.writable_kept {s0 : State} (s : State) (n : Nat) (q : Seq) (w : LWait) (hk : Kept s0 s) :
    Kept s0 (State.writable s n q w).1 := by
  unfold State.writable
  repeat' (first
    | with_reducible exact Kept.rfl _
    | with_reducible assumption
    | with_reducible apply State.faultSeq_kept
    | (with_reducible apply State.takePage_kept; assumption)
    | with_reducible apply State.waitFor_kept
    | with_reducible apply State.endWait_kept
    | with_reducible apply State.copyOnWrite_kept
    | with_reducible apply State.modSeq_kept
    | with_reducible apply State.syncKv_kept
    | with_reducible apply Kept.iteFst
    | with_reducible apply Kept.foldFst
    | with_reducible apply Kept.ite
    | intro _
    | extract_lets
    | split)

theorem State.writable_kept_eq {s0 t' : State} {x' : Bool} (s : State) (n : Nat) (q : Seq) (w : LWait) (eqn : State.writable s n q w = (t', x')) (hk : Kept s0 s) : Kept s0 t' := by
  have k := State.writable_kept (s0 := s0) s n q w hk
  rw [eqn] at k
  exact k

theorem State.enterRow_kept {s0 : State} (s : State) (n : Nat) (q : Seq) (x : NextRow) (hk : Kept s0 s) :
    Kept s0 (State.enterRow s n q x) := by
  unfold State.enterRow
  repeat' (first
    | with_reducible exact Kept.rfl _
    | with_reducible assumption
    | with_reducible apply State.placeRow_kept
    | with_reducible apply State.modSeq_kept
    | with_reducible apply State.modCmdU_kept)

theorem State.beyondMax_kept {s0 : State} (s : State) (n : Nat) (x : NextRow) (hk : Kept s0 s) :
    Kept s0 (State.beyondMax s n x) := by
  unfold State.beyondMax
  repeat' (first
    | with_reducible exact Kept.rfl _
    | with_reducible assumption
    | with_reducible apply State.modSeq_kept
    | with_reducible apply State.modCmdU_kept
    | with_reducible apply State.checkSeqCmd_kept
    | with_reducible apply State.endSeqCmd_kept
    | with_reducible apply Kept.ite)

theorem State.placeNext_kept {s0 : State} (s : State) (n : Nat) (hk : Kept s0 s) :
    Kept s0 (State.placeNext s n) := by
  unfold State.placeNext
  repeat' (first
    | with_reducible exact Kept.rfl _
    | with_reducible assumption
    | with_reducible apply State.endSeqCmd_kept
    | with_reducible apply State.beyondMax_kept
    | with_reducible apply State.writable_kept
    | (with_reducible apply State.writable_kept_eq; assumption)
    | with_reducible apply State.row_kept
    | with_reducible apply State.enterRow_kept
    | with_reducible apply State.dmaIn_kept
    | with_reducible apply Kept.iteFst
    | with_reducible apply Kept.foldFst
    | with_reducible apply Kept.ite
    | intro _
    | extract_lets
    | split)

theorem State.openList_kept {s0 : State} (s : State) (n sq cid : Nat) (hk : Kept s0 s) :
    Kept s0 (State.openList s n sq cid) := by
  unfold State.openList
  repeat' (first
    | with_reducible exact Kept.rfl _
    | with_reducible assumption
    | (with_reducible apply State.takeList_kept; assumption)
    | with_reducible apply State.waitFor_kept
    | with_reducible apply State.endWait_kept
    | with_reducible apply State.modSeq_kept
    | with_reducible apply State.syncKv_kept
    | intro _
    | extract_lets
    | split)

theorem State.forkCopies_kept {s0 : State}  (y0 : Nat) (s : State) (y2 : Nat) (y3 : Nat) (y4 : Nat) (hk : Kept s0 s) :
    Kept s0 (State.forkCopies y0 s y2 y3 y4) := by
  induction y0 generalizing s y2 y3 y4 with
  | zero =>
    unfold State.forkCopies
    exact hk
  | succ n ih =>
    unfold State.forkCopies
    repeat' (first
      | with_reducible apply ih
      | with_reducible exact Kept.rfl _
      | with_reducible assumption
      | with_reducible apply State.endWait_kept
      | with_reducible apply State.setSeq_kept
      | (with_reducible apply State.takePage_kept; assumption)
      | with_reducible apply State.waitFor_kept
      | with_reducible apply State.startCopy_kept
      | with_reducible apply State.raise_kept
      | with_reducible apply State.setPage_kept
      | with_reducible apply State.modSeq_kept
      | intro _
      | extract_lets
      | split)

theorem State.forkOn_kept {s0 : State} (s : State) (n sq cid : Nat) (hk : Kept s0 s) :
    Kept s0 (State.forkOn s n sq cid) := by
  unfold State.forkOn
  repeat' (first
    | with_reducible exact Kept.rfl _
    | with_reducible assumption
    | (with_reducible apply State.takeList_kept; assumption)
    | with_reducible apply State.waitFor_kept
    | with_reducible apply State.endWait_kept
    | with_reducible apply State.modSeq_kept
    | with_reducible apply State.forkCopies_kept
    | with_reducible apply State.syncKv_kept
    | with_reducible apply Kept.getD
    | with_reducible apply Kept.ite
    | intro _
    | extract_lets
    | split)

theorem State.sharePages_kept {s0 : State} (s : State) (es : List PageEntry) (hk : Kept s0 s) :
    Kept s0 (State.sharePages s es).1 := by
  unfold State.sharePages
  repeat' (first
    | with_reducible exact Kept.rfl _
    | with_reducible assumption
    | with_reducible apply State.setRef_kept
    | with_reducible apply State.holdSource_kept
    | with_reducible apply Kept.fold
    | with_reducible apply Kept.iteFst
    | with_reducible apply Kept.foldFst
    | with_reducible apply Kept.ite
    | intro _)

theorem State.sharePages_kept_eq {s0 t' : State} {x' : List PageEntry} (s : State) (es : List PageEntry) (eqn : State.sharePages s es = (t', x')) (hk : Kept s0 s) : Kept s0 t' := by
  have k := State.sharePages_kept (s0 := s0) s es hk
  rw [eqn] at k
  exact k

theorem State.undoOpen_kept {s0 : State} (s : State) (n : Nat) (hk : Kept s0 s) :
    Kept s0 (State.undoOpen s n) := by
  unfold State.undoOpen
  repeat' (first
    | with_reducible exact Kept.rfl _
    | with_reducible assumption
    | with_reducible apply State.dropSource_kept
    | with_reducible apply State.dropFork_kept
    | with_reducible apply State.releaseSeq_kept
    | with_reducible apply State.completeU_kept
    | with_reducible apply Kept.fold
    | intro _
    | extract_lets
    | ((fail_if_success with_reducible apply Kept.eta); first | with_reducible apply Kept.upd))

theorem State.startResume_kept {s0 : State} (s : State) (n : Nat) (sq cid : Nat) (l : List (Nat × Nat)) (f : Tab Nat) (hk : Kept s0 s) :
    Kept s0 (State.startResume s n sq cid l f) := by
  unfold State.startResume
  repeat' (first
    | with_reducible exact Kept.rfl _
    | with_reducible assumption
    | with_reducible apply State.endWait_kept
    | with_reducible apply State.modSeq_kept
    | with_reducible apply State.taken_kept
    | with_reducible apply State.modCmd_kept
    | with_reducible apply State.updDefer_kept
    | with_reducible apply State.complete_kept
    | with_reducible apply State.syncKv_kept
    | with_reducible apply Kept.fold
    | intro _
    | extract_lets
    | ((fail_if_success with_reducible apply Kept.eta); first | with_reducible apply Kept.upd))

theorem State.resumeFails_kept {s0 : State} (s : State) (n : Nat) (q : Seq) (sq cid : Nat) (hk : Kept s0 s) :
    Kept s0 (State.resumeFails s n q sq cid) := by
  unfold State.resumeFails
  repeat' (first
    | with_reducible exact Kept.rfl _
    | with_reducible assumption
    | with_reducible apply State.endWait_kept
    | with_reducible apply State.complete_kept
    | with_reducible apply Kept.ite
    | intro _
    | extract_lets
    | split)

theorem State.tryResume_kept {s0 : State} (s : State) (n sq cid : Nat) (hk : Kept s0 s) :
    Kept s0 (State.tryResume s n sq cid) := by
  unfold State.tryResume
  repeat' (first
    | with_reducible exact Kept.rfl _
    | with_reducible assumption
    | with_reducible apply State.startResume_kept
    | with_reducible apply State.resumeFails_kept
    | with_reducible apply Kept.ite
    | intro _
    | extract_lets
    | split)

theorem State.retryWait_kept {s0 : State} (s : State) (w : LWait) (hk : Kept s0 s) :
    Kept s0 (State.retryWait s w) := by
  unfold State.retryWait
  repeat' (first
    | with_reducible exact Kept.rfl _
    | with_reducible assumption
    | with_reducible apply State.openList_kept
    | with_reducible apply State.checkSeqCmd_kept
    | with_reducible apply State.forkOn_kept
    | with_reducible apply State.row_kept
    | with_reducible apply State.placeNext_kept
    | with_reducible apply State.tryResume_kept
    | with_reducible apply Kept.ite
    | intro _
    | extract_lets
    | split)

theorem State.retryAll_kept {s0 : State} (s : State) (hk : Kept s0 s) :
    Kept s0 (State.retryAll s) := by
  unfold State.retryAll
  repeat' (first
    | with_reducible exact Kept.rfl _
    | with_reducible assumption
    | with_reducible apply State.retryWait_kept
    | with_reducible apply State.reclaim_kept
    | with_reducible apply Kept.fold
    | intro _)

theorem State.feedBack_kept {s0 : State} (s : State) (n : Nat) (r : RowDesc) (x : Option ExitRec) (hk : Kept s0 s) :
    Kept s0 (State.feedBack s n r x) := by
  unfold State.feedBack
  repeat' (first
    | with_reducible exact Kept.rfl _
    | with_reducible assumption
    | with_reducible apply State.setSeq_kept
    | with_reducible apply Kept.ite
    | intro _
    | extract_lets
    | split)

theorem State.countExit_kept {s0 : State} (s : State) (r : RowDesc) (plen32 : Nat) (x : Option ExitRec) (hk : Kept s0 s) :
    Kept s0 (State.countExit s r plen32 x) := by
  unfold State.countExit
  repeat' (first
    | with_reducible exact Kept.rfl _
    | with_reducible assumption
    | with_reducible apply State.modCmdU_kept)

theorem State.seqExit_kept {s0 : State} (s : State) (r : RowDesc) (plen32 : Nat) (x : Option ExitRec) (hk : Kept s0 s) :
    Kept s0 (State.seqExit s r plen32 x) := by
  unfold State.seqExit
  repeat' (first
    | with_reducible exact Kept.rfl _
    | with_reducible assumption
    | with_reducible apply State.setSeq_kept
    | with_reducible apply State.countExit_kept
    | with_reducible apply State.feedBack_kept
    | with_reducible apply State.checkSeqCmd_kept
    | with_reducible apply State.syncKv_kept
    | with_reducible apply Kept.iteFst
    | with_reducible apply Kept.foldFst
    | with_reducible apply Kept.ite
    | intro _
    | extract_lets
    | split)

theorem execRowPlace_kept (src : RowSource) (s : State) {t' : State} (eqn : execRowPlace src s = .next t') :
    Kept s t' := by
  unfold execRowPlace at eqn
  injection eqn with eqn
  subst eqn
  repeat' (first
    | with_reducible exact Kept.rfl _
    | with_reducible assumption
    | with_reducible apply State.feedPipe_kept
    | with_reducible apply State.placeNext_kept
    | with_reducible apply State.noteConds_kept
    | with_reducible apply Kept.ite
    | intro _
    | extract_lets
    | split)

theorem execFillTimeoutExpiry_kept (pipe cls : Nat) (s : State) {t' : State} (eqn : execFillTimeoutExpiry pipe cls s = .next t') :
    Kept s t' := by
  unfold execFillTimeoutExpiry at eqn
  injection eqn with eqn
  subst eqn
  repeat' (first
    | with_reducible exact Kept.rfl _
    | with_reducible assumption
    | with_reducible apply State.setForm_kept
    | with_reducible apply Kept.ite
    | intro _
    | extract_lets
    | split)

theorem State.closeForm_kept {s0 : State} (s : State) (pipe cls : Nat) (f : Forming) (hk : Kept s0 s) :
    Kept s0 (State.closeForm s pipe cls f) := by
  unfold State.closeForm
  repeat' (first
    | with_reducible exact Kept.rfl _
    | with_reducible assumption
    | with_reducible apply State.setEntries_kept
    | with_reducible apply State.setTrain_kept
    | intro _
    | extract_lets
    | split
    | ((with_reducible conv => arg 2; whnf); split)
    | ((fail_if_success with_reducible apply Kept.eta); first | with_reducible apply Kept.upd))

theorem execBlockClose_kept (pipe cls : Nat) (s : State) {t' : State} (eqn : execBlockClose pipe cls s = .next t') :
    Kept s t' := by
  unfold execBlockClose at eqn
  injection eqn with eqn
  subst eqn
  repeat' (first
    | with_reducible exact Kept.rfl _
    | with_reducible assumption
    | with_reducible apply State.noteConds_kept
    | with_reducible apply State.closeForm_kept
    | with_reducible apply State.feedPipe_kept
    | with_reducible apply Kept.ite
    | intro _
    | extract_lets
    | split)

theorem State.wakeFor_kept {s0 : State} (s : State) (c : Nat) (hk : Kept s0 s) :
    Kept s0 (State.wakeFor s c) := by
  unfold State.wakeFor
  repeat' (first
    | with_reducible exact Kept.rfl _
    | with_reducible assumption
    | with_reducible apply State.requestWake_kept)

theorem State.enter_kept {s0 : State} (s : State) (c : Nat) (b : Block) (isSenior : Bool) (hk : Kept s0 s) :
    Kept s0 (State.enter s c b isSenior) := by
  unfold State.enter
  repeat' (first
    | with_reducible exact Kept.rfl _
    | with_reducible assumption
    | with_reducible apply State.enqueue_kept
    | with_reducible apply State.wakeFor_kept)

theorem State.leaveEntry_kept {s0 : State} (s : State) (pipe : Nat) (b : Block) (t : List Block) (hk : Kept s0 s) :
    Kept s0 (State.leaveEntry s pipe b t) := by
  unfold State.leaveEntry
  repeat' (first
    | with_reducible exact Kept.rfl _
    | with_reducible assumption
    | with_reducible apply State.setEntries_kept
    | with_reducible apply State.looseFault_kept
    | with_reducible apply State.enter_kept
    | with_reducible apply Kept.ite
    | intro _
    | extract_lets
    | split
    | ((with_reducible conv => arg 2; whnf); split)
    | ((fail_if_success with_reducible apply Kept.eta); first | with_reducible apply Kept.upd))

theorem execBlockLeaveEntry_kept (pipe : Nat) (s : State) {t' : State} (eqn : execBlockLeaveEntry pipe s = .next t') :
    Kept s t' := by
  unfold execBlockLeaveEntry at eqn
  injection eqn with eqn
  subst eqn
  repeat' (first
    | with_reducible exact Kept.rfl _
    | with_reducible assumption
    | with_reducible apply State.leaveEntry_kept
    | with_reducible apply Kept.ite
    | intro _
    | extract_lets
    | split)

theorem State.moveBlock_kept {s0 : State} (s : State) (c : Nat) (e : QEntry) (r : W64) (hk : Kept s0 s) :
    Kept s0 (State.moveBlock s c e r) := by
  unfold State.moveBlock
  repeat' (first
    | with_reducible exact Kept.rfl _
    | with_reducible assumption
    | with_reducible apply State.blockFault_kept
    | with_reducible apply State.dequeue_kept
    | with_reducible apply State.enqueue_kept
    | with_reducible apply State.wakeFor_kept
    | with_reducible apply Kept.getD
    | with_reducible apply Kept.ite
    | intro _
    | extract_lets
    | split)

theorem execBlockTransfer_kept (handle : W64) (s : State) {t' : State} (eqn : execBlockTransfer handle s = .next t') :
    Kept s t' := by
  unfold execBlockTransfer at eqn
  injection eqn with eqn
  subst eqn
  repeat' (first
    | with_reducible exact Kept.rfl _
    | with_reducible assumption
    | with_reducible apply State.moveBlock_kept
    | with_reducible apply Kept.ite
    | intro _
    | extract_lets
    | split)

theorem State.retireLink_kept {s0 : State} (s : State) (link : Nat) (hk : Kept s0 s) :
    Kept s0 (State.retireLink s link) := by
  unfold State.retireLink
  repeat' (first
    | with_reducible exact Kept.rfl _
    | with_reducible assumption
    | with_reducible apply State.setBit_kept
    | with_reducible apply State.eventReg_kept
    | with_reducible apply State.addDefect_kept
    | with_reducible apply State.retireCluster_kept
    | with_reducible apply Kept.fold
    | intro _)

theorem execMeshHandshakeParityError_kept (link : Nat) (repeatFails : Bool) (s : State) {t' : State} (eqn : execMeshHandshakeParityError link repeatFails s = .next t') :
    Kept s t' := by
  unfold execMeshHandshakeParityError at eqn
  injection eqn with eqn
  subst eqn
  repeat' (first
    | with_reducible exact Kept.rfl _
    | with_reducible assumption
    | with_reducible apply State.retireLink_kept
    | with_reducible apply State.incFld_kept
    | with_reducible apply Kept.ite)

theorem State.firstRun_kept {s0 : State} (s : State) (c gen : Nat) (hk : Kept s0 s) :
    Kept s0 (State.firstRun s c gen) := by
  unfold State.firstRun
  repeat' (first
    | with_reducible exact Kept.rfl _
    | with_reducible assumption
    | (with_reducible refine Kept.group ?_ (by assumption))
    | (with_reducible refine Tile.launch_wf (by assumption) ?_)
    | with_reducible apply Kept.tile
    | with_reducible apply Tile.invalL1_wf
    | ((fail_if_success with_reducible apply Group.wf_eta); with_reducible apply Group.wf_upd)
    | ((fail_if_success with_reducible apply Tile.wf_eta); with_reducible apply Tile.wf_upd)
    | with_reducible exact fun _ => emptyTile_wf
    | with_reducible apply State.setTile_kept
    | with_reducible apply State.modCluster_kept
    | with_reducible apply Kept.fold
    | with_reducible apply Kept.ite
    | intro _)

theorem State.sweepOn_kept {s0 : State} (s : State) (c : Nat) (hk : Kept s0 s) :
    Kept s0 (State.sweepOn s c) := by
  unfold State.sweepOn
  repeat' (first
    | with_reducible exact Kept.rfl _
    | with_reducible assumption
    | with_reducible apply State.modCluster_kept
    | with_reducible apply State.firstRun_kept
    | with_reducible apply State.setRegion_kept
    | with_reducible apply Kept.fold
    | with_reducible apply Kept.ite
    | intro _
    | extract_lets
    | split)

theorem execSweepStart_kept (c : Nat) (s : State) {t' : State} (eqn : execSweepStart c s = .next t') :
    Kept s t' := by
  unfold execSweepStart at eqn
  injection eqn with eqn
  subst eqn
  repeat' (first
    | with_reducible exact Kept.rfl _
    | with_reducible assumption
    | with_reducible apply State.fresh_kept
    | (with_reducible apply State.fresh_kept_eq; assumption)
    | with_reducible apply State.setLevel_kept
    | with_reducible apply State.modCluster_kept
    | with_reducible apply State.sweepOn_kept
    | with_reducible apply Kept.iteFst
    | with_reducible apply Kept.foldFst
    | with_reducible apply Kept.ite)

theorem execLoadNoticeElapsed_kept (c : Nat) (s : State) {t' : State} (eqn : execLoadNoticeElapsed c s = .next t') :
    Kept s t' := by
  unfold execLoadNoticeElapsed at eqn
  injection eqn with eqn
  subst eqn
  repeat' (first
    | with_reducible exact Kept.rfl _
    | with_reducible assumption
    | with_reducible apply State.startRound_kept
    | with_reducible apply State.syncBelt_kept
    | with_reducible apply State.sweepOn_kept
    | with_reducible apply Kept.ite)

theorem State.writeKv_kept {s0 : State} (s : State) (seq pos layer : Nat) (src : List Byte) (hk : Kept s0 s) :
    Kept s0 (State.writeKv s seq pos layer src) := by
  unfold State.writeKv
  repeat' (first
    | with_reducible exact Kept.rfl _
    | with_reducible assumption
    | with_reducible apply State.devWrite_kept
    | with_reducible apply Kept.fold
    | intro _
    | extract_lets
    | split)

theorem State.releaseCommit_kept {s0 : State} (s : State) (k : Commit) (hk : Kept s0 s) :
    Kept s0 (State.releaseCommit s k) := by
  unfold State.releaseCommit
  repeat' (first
    | with_reducible exact Kept.rfl _
    | with_reducible assumption
    | with_reducible apply State.writeKv_kept
    | with_reducible apply State.submit_kept
    | intro _
    | extract_lets
    | split)

theorem State.releaseBlock_kept {s0 : State} (s : State) (c : Nat) (h : W64) (hk : Kept s0 s) :
    Kept s0 (State.releaseBlock s c h) := by
  unfold State.releaseBlock
  repeat' (first
    | with_reducible exact Kept.rfl _
    | with_reducible assumption
    | (with_reducible refine Kept.group ?_ (by assumption))
    | (with_reducible refine Tile.launch_wf (by assumption) ?_)
    | with_reducible apply Kept.tile
    | ((fail_if_success with_reducible apply Group.wf_eta); with_reducible apply Group.wf_upd)
    | ((fail_if_success with_reducible apply Tile.wf_eta); with_reducible apply Tile.wf_upd)
    | with_reducible exact fun _ => emptyTile_wf
    | with_reducible apply State.setTile_kept
    | with_reducible apply State.releaseCommit_kept
    | with_reducible apply Kept.fold
    | intro _)

theorem State.blockDone_kept {s0 : State} (s : State) (c : Nat) (outs : List BlockOut) (e : QEntry) (hk : Kept s0 s) :
    Kept s0 (State.blockDone s c outs e) := by
  unfold State.blockDone
  repeat' (first
    | with_reducible exact Kept.rfl _
    | with_reducible assumption
    | with_reducible apply State.blockFault_kept
    | with_reducible apply State.releaseBlock_kept
    | with_reducible apply State.incFld_kept
    | with_reducible apply State.modEntry_kept
    | with_reducible apply Kept.ite
    | intro _
    | extract_lets
    | split)

theorem State.releaseBelt_kept {s0 : State} (s : State) (c : Nat) (hk : Kept s0 s) :
    Kept s0 (State.releaseBelt s c) := by
  unfold State.releaseBelt
  repeat' (first
    | with_reducible exact Kept.rfl _
    | with_reducible assumption
    | with_reducible apply State.releaseBlock_kept
    | with_reducible apply Kept.fold
    | with_reducible apply Kept.ite
    | intro _
    | extract_lets)

theorem execStageOperationComplete_kept (c : Nat) (outs : List BlockOut) (s : State) {t' : State} (eqn : execStageOperationComplete c outs s = .next t') :
    Kept s t' := by
  unfold execStageOperationComplete at eqn
  injection eqn with eqn
  subst eqn
  repeat' (first
    | with_reducible exact Kept.rfl _
    | with_reducible assumption
    | with_reducible apply State.releaseBelt_kept
    | with_reducible apply State.blockDone_kept
    | with_reducible apply State.modCluster_kept
    | with_reducible apply State.setRegion_kept
    | with_reducible apply State.faultStuck_kept
    | with_reducible apply Kept.fold
    | with_reducible apply Kept.ite
    | intro _)

theorem State.runExit_kept {s0 : State} (s : State) (r : RowDesc) (plen : Nat) (x : Option ExitRec) (hk : Kept s0 s) :
    Kept s0 (State.runExit s r plen x) := by
  unfold State.runExit
  repeat' (first
    | with_reducible exact Kept.rfl _
    | with_reducible assumption
    | with_reducible apply State.countExit_kept
    | with_reducible apply State.endRows_kept
    | with_reducible apply Kept.ite
    | intro _
    | extract_lets
    | split)

theorem State.validExit_kept {s0 : State} (s : State) (pipe : Nat) (r : RowDesc) (x : Option ExitRec) (hk : Kept s0 s) :
    Kept s0 (State.validExit s pipe r x) := by
  unfold State.validExit
  repeat' (first
    | with_reducible exact Kept.rfl _
    | with_reducible assumption
    | with_reducible apply State.seqExit_kept
    | with_reducible apply State.runExit_kept
    | with_reducible apply Kept.ite)

theorem State.blockExit_kept {s0 : State} (s : State) (c : Nat) (b : Block) (hk : Kept s0 s) :
    Kept s0 (State.blockExit s c b) := by
  unfold State.blockExit
  repeat' (first
    | with_reducible exact Kept.rfl _
    | with_reducible assumption
    | with_reducible apply State.dequeue_kept
    | with_reducible apply State.setTrain_kept
    | with_reducible apply Kept.ite
    | intro _
    | extract_lets
    | split)

theorem execRowExit_kept (handle : W64) (row : Nat) (rec : Option ExitRec) (s : State) {t' : State} (eqn : execRowExit handle row rec s = .next t') :
    Kept s t' := by
  unfold execRowExit at eqn
  injection eqn with eqn
  subst eqn
  repeat' (first
    | with_reducible exact Kept.rfl _
    | with_reducible assumption
    | with_reducible apply State.row_kept
    | with_reducible apply State.modEntry_kept
    | with_reducible apply State.blockExit_kept
    | with_reducible apply State.validExit_kept
    | with_reducible apply State.trimSeq_kept
    | with_reducible apply State.noteConds_kept
    | with_reducible apply Kept.ite
    | intro _
    | extract_lets
    | split)

theorem State.takeRole_kept {s0 : State} (s : State) (c old : Nat) (hk : Kept s0 s) :
    Kept s0 (State.takeRole s c old) := by
  unfold State.takeRole
  repeat' (first
    | with_reducible exact Kept.rfl _
    | with_reducible assumption
    | with_reducible apply State.putCluster_kept
    | with_reducible apply State.modCluster_kept
    | with_reducible apply State.setFld_kept
    | with_reducible apply State.setReg_kept
    | with_reducible apply State.showRoutes_kept
    | with_reducible apply Kept.fold
    | intro _
    | extract_lets
    | ((fail_if_success with_reducible apply Kept.eta); first | with_reducible apply Kept.upd))

theorem execRoleMoveLoaded_kept (c : Nat) (s : State) {t' : State} (eqn : execRoleMoveLoaded c s = .next t') :
    Kept s t' := by
  unfold execRoleMoveLoaded at eqn
  injection eqn with eqn
  subst eqn
  repeat' (first
    | with_reducible exact Kept.rfl _
    | with_reducible assumption
    | with_reducible apply State.takeRole_kept
    | with_reducible apply State.eventReg_kept
    | with_reducible apply State.checkDegraded_kept
    | with_reducible apply Kept.ite
    | intro _
    | extract_lets
    | split)

theorem State.refuse_kept {s0 : State} (s : State) (c : Cmd) (status code : Nat) (hk : Kept s0 s) :
    Kept s0 (State.refuse s c status code) := by
  unfold State.refuse
  repeat' (first
    | with_reducible exact Kept.rfl _
    | with_reducible assumption
    | with_reducible apply State.completeU_kept)

theorem State.reserveSlots_kept {s0 : State} (s : State) (c : Cmd) (hk : Kept s0 s) :
    Kept s0 (State.reserveSlots s c) := by
  unfold State.reserveSlots
  repeat' (first
    | with_reducible exact Kept.rfl _
    | with_reducible assumption
    | with_reducible apply Kept.fold
    | intro _
    | extract_lets
    | ((fail_if_success with_reducible apply Kept.eta); first | with_reducible apply Kept.upd | with_reducible apply Kept.updH))

theorem State.started_kept {s0 : State} (s : State) (c : Cmd) (rows : Nat) (hk : Kept s0 s) :
    Kept s0 (State.started s c rows) := by
  unfold State.started
  repeat' (first
    | with_reducible exact Kept.rfl _
    | with_reducible assumption
    | with_reducible apply State.reserveSlots_kept
    | with_reducible apply State.modCmdU_kept
    | with_reducible apply State.updDefer_kept
    | with_reducible apply Kept.ite)

theorem State.deferCmd_kept {s0 : State} (s : State) (c : Cmd) (status code : Nat) (hk : Kept s0 s) :
    Kept s0 (State.deferCmd s c status code) := by
  unfold State.deferCmd
  repeat' (first
    | with_reducible exact Kept.rfl _
    | with_reducible assumption
    | with_reducible apply State.refuse_kept
    | with_reducible apply State.reserveSlots_kept
    | with_reducible apply State.modCmdU_kept
    | with_reducible apply State.updDefer_kept
    | with_reducible apply Kept.ite)

theorem State.accept_kept {s0 : State} (s : State) (sq cid op : Nat) (own : State → Cmd → Verdict) (rows : Cmd → Nat)
    (go : State → Cmd → State) (hgo : ∀ s0 v1, Kept s0 (go s0 v1)) (hk : Kept s0 s) :
    Kept s0 (State.accept s sq cid op own rows go) := by
  unfold State.accept
  repeat' (first
    | with_reducible exact Kept.rfl _
    | with_reducible assumption
    | with_reducible apply State.refuse_kept
    | with_reducible apply State.deferCmd_kept
    | with_reducible apply State.started_kept
    | with_reducible apply Kept.step (hgo ..)
    | intro _
    | extract_lets
    | split)

theorem execRunPipeline_kept (sq cid : Nat) (s : State) {t' : State} (eqn : execRunPipeline sq cid s = .next t') :
    Kept s t' := by
  unfold execRunPipeline at eqn
  injection eqn with eqn
  subst eqn
  repeat' (first
    | with_reducible exact Kept.rfl _
    | with_reducible assumption
    | with_reducible apply State.accept_kept
    | with_reducible apply State.feedPipe_kept
    | intro _)

theorem State.beginTrain_kept {s0 : State} (s : State) (c : Cmd) (hk : Kept s0 s) :
    Kept s0 (State.beginTrain s c) := by
  unfold State.beginTrain
  repeat' (first
    | with_reducible exact Kept.rfl _
    | with_reducible assumption
    | with_reducible apply State.setTrain_kept
    | with_reducible apply State.feedPipe_kept)

theorem execTrainStep_kept (sq cid : Nat) (s : State) {t' : State} (eqn : execTrainStep sq cid s = .next t') :
    Kept s t' := by
  unfold execTrainStep at eqn
  injection eqn with eqn
  subst eqn
  repeat' (first
    | with_reducible exact Kept.rfl _
    | with_reducible assumption
    | with_reducible apply State.accept_kept
    | with_reducible apply State.beginTrain_kept
    | intro _)

theorem execTrainReadersDrained_kept (pipe : Nat) (s : State) {t' : State} (eqn : execTrainReadersDrained pipe s = .next t') :
    Kept s t' := by
  unfold execTrainReadersDrained at eqn
  injection eqn with eqn
  subst eqn
  repeat' (first
    | with_reducible exact Kept.rfl _
    | with_reducible assumption
    | with_reducible apply State.setTrain_kept
    | with_reducible apply Kept.ite
    | intro _
    | extract_lets
    | split)

theorem State.writeAdapter_kept {s0 : State} (s : State) (a : Nat) (x : Adapter) (es : List (Nat × Nat × Nat)) (gs : List W32) (hk : Kept s0 s) :
    Kept s0 (State.writeAdapter s a x es gs) := by
  unfold State.writeAdapter
  repeat' (first
    | with_reducible exact Kept.rfl _
    | with_reducible assumption
    | with_reducible apply State.devWrite_kept
    | with_reducible apply Kept.fold
    | intro _)

theorem State.update_kept {s0 : State} (s : State) (pipe : Nat) (t : Train) (a gBase gBytes : Nat) (x : Adapter) (hk : Kept s0 s) :
    Kept s0 (State.update s pipe t a gBase gBytes x) := by
  unfold State.update
  repeat' (first
    | with_reducible exact Kept.rfl _
    | with_reducible assumption
    | with_reducible apply State.endTrain_kept
    | with_reducible apply State.writeAdapter_kept
    | with_reducible apply Kept.ite)

theorem execTrainUpdate_kept (pipe : Nat) (s : State) {t' : State} (eqn : execTrainUpdate pipe s = .next t') :
    Kept s t' := by
  unfold execTrainUpdate at eqn
  injection eqn with eqn
  subst eqn
  repeat' (first
    | with_reducible exact Kept.rfl _
    | with_reducible assumption
    | with_reducible apply State.update_kept
    | with_reducible apply State.failTrain_kept
    | with_reducible apply Kept.ite
    | intro _
    | extract_lets
    | split)

theorem State.setSeg_kept {s0 : State} (s : State) (k : Nat) (l : List JSlot) (hk : Kept s0 s) :
    Kept s0 (State.setSeg s k l) := by
  unfold State.setSeg
  repeat' (first
    | with_reducible exact Kept.rfl _
    | with_reducible assumption
    | with_reducible apply Kept.ite
    | intro _
    | extract_lets
    | ((fail_if_success with_reducible apply Kept.eta); first | with_reducible apply Kept.upd))

theorem State.syncFill_kept {s0 : State} (s : State) (hk : Kept s0 s) :
    Kept s0 (State.syncFill s) := by
  unfold State.syncFill
  repeat' (first
    | with_reducible exact Kept.rfl _
    | with_reducible assumption
    | with_reducible apply State.setFld_kept)

theorem State.pushOp_kept {s0 : State} (s : State) (k : FlashOpKind) (prio : Nat) (hk : Kept s0 s) :
    Kept s0 (State.pushOp s k prio) := by
  unfold State.pushOp
  repeat' (first
    | with_reducible exact Kept.rfl _
    | with_reducible assumption
    | intro _
    | extract_lets
    | ((fail_if_success with_reducible apply Kept.eta); first | with_reducible apply Kept.upd | with_reducible apply Kept.updF))

theorem State.swapOp_kept {s0 : State} (s : State) (o new : FlashOp) (hk : Kept s0 s) :
    Kept s0 (State.swapOp s o new) := by
  unfold State.swapOp
  repeat' (first
    | with_reducible exact Kept.rfl _
    | with_reducible assumption
    | intro _
    | extract_lets
    | ((fail_if_success with_reducible apply Kept.eta); first | with_reducible apply Kept.upd | with_reducible apply Kept.updF))

theorem State.dropOp_kept {s0 : State} (s : State) (o : FlashOp) (hk : Kept s0 s) :
    Kept s0 (State.dropOp s o) := by
  unfold State.dropOp
  repeat' (first
    | with_reducible exact Kept.rfl _
    | with_reducible assumption
    | intro _
    | extract_lets
    | ((fail_if_success with_reducible apply Kept.eta); first | with_reducible apply Kept.upd | with_reducible apply Kept.updF))

theorem State.flashFail_kept {s0 : State} (s : State) (hk : Kept s0 s) :
    Kept s0 (State.flashFail s) := by
  unfold State.flashFail
  repeat' (first
    | with_reducible exact Kept.rfl _
    | with_reducible assumption
    | with_reducible apply State.raise_kept
    | with_reducible apply State.event_kept)

theorem State.startCompaction_kept {s0 : State} (s : State) (hk : Kept s0 s) :
    Kept s0 (State.startCompaction s) := by
  unfold State.startCompaction
  repeat' (first
    | with_reducible exact Kept.rfl _
    | with_reducible assumption
    | with_reducible apply State.setFld_kept
    | with_reducible apply State.pushOp_kept
    | with_reducible apply Kept.ite
    | intro _
    | extract_lets
    | ((fail_if_success with_reducible apply Kept.eta); first | with_reducible apply Kept.upd))

theorem State.setCompaction_kept {s0 : State} (s : State) (c : Option Compaction) (hk : Kept s0 s) :
    Kept s0 (State.setCompaction s c) := by
  unfold State.setCompaction
  repeat' (first
    | with_reducible exact Kept.rfl _
    | with_reducible assumption
    | intro _
    | extract_lets
    | ((fail_if_success with_reducible apply Kept.eta); first | with_reducible apply Kept.upd))

theorem State.commitSeg_kept {s0 : State} (s : State) (hk : Kept s0 s) :
    Kept s0 (State.commitSeg s) := by
  unfold State.commitSeg
  repeat' (first
    | with_reducible exact Kept.rfl _
    | with_reducible assumption
    | with_reducible apply State.setSeg_kept
    | with_reducible apply State.setFld_kept
    | with_reducible apply State.raise_kept
    | with_reducible apply State.syncFill_kept
    | intro _
    | extract_lets
    | ((fail_if_success with_reducible apply Kept.eta); first | with_reducible apply Kept.upd))

theorem State.compactDone_kept {s0 : State} (s : State) (o : FlashOp) (c : Compaction) (hk : Kept s0 s) :
    Kept s0 (State.compactDone s o c) := by
  unfold State.compactDone
  repeat' (first
    | with_reducible exact Kept.rfl _
    | with_reducible assumption
    | with_reducible apply State.setSeg_kept
    | with_reducible apply State.setCompaction_kept
    | with_reducible apply State.swapOp_kept
    | with_reducible apply State.commitSeg_kept
    | with_reducible apply State.dropOp_kept
    | with_reducible apply Kept.ite
    | intro _
    | extract_lets
    | split)

theorem State.compactFail_kept {s0 : State} (s : State) (hk : Kept s0 s) :
    Kept s0 (State.compactFail s) := by
  unfold State.compactFail
  repeat' (first
    | with_reducible exact Kept.rfl _
    | with_reducible assumption
    | with_reducible apply State.setCompaction_kept
    | with_reducible apply State.setFld_kept
    | with_reducible apply State.raise_kept
    | with_reducible apply State.event_kept
    | intro _
    | extract_lets
    | ((fail_if_success with_reducible apply Kept.eta); first | with_reducible apply Kept.upd))

end Sys2Proof.Machine
end

