-- ==== Sys2Proof/Laws/Keep4.lean ====
section
/-! SUPPORT. One lemma for each operation and each command: it leaves what `Kept` (`Shed`) names (FlashOps to Stack). -/

namespace Sys2Proof.Machine

theorem State.eraseEnds_kept {s0 : State} (s : State) (hk : Kept s0 s) :
    Kept s0 (State.eraseEnds s) := by
  unfold State.eraseEnds
  repeat' (first
    | with_reducible exact Kept.rfl _
    | with_reducible assumption
    | with_reducible apply State.setCompaction_kept
    | with_reducible apply State.setFld_kept
    | with_reducible apply Kept.ite
    | intro _
    | extract_lets
    | split)

theorem State.pageDone_kept {s0 : State} (s : State) (hk : Kept s0 s) :
    Kept s0 (State.pageDone s) := by
  unfold State.pageDone
  repeat' (first
    | with_reducible exact Kept.rfl _
    | with_reducible assumption
    | with_reducible apply State.setSeg_kept
    | with_reducible apply State.syncFill_kept
    | with_reducible apply Kept.ite
    | intro _
    | extract_lets
    | ((fail_if_success with_reducible apply Kept.eta); first | with_reducible apply Kept.upd))

theorem State.pageFails_kept {s0 : State} (s : State) (hk : Kept s0 s) :
    Kept s0 (State.pageFails s) := by
  unfold State.pageFails
  repeat' (first
    | with_reducible exact Kept.rfl _
    | with_reducible assumption
    | with_reducible apply State.flashFail_kept
    | with_reducible apply State.startCompaction_kept
    | with_reducible apply Kept.ite
    | intro _
    | extract_lets
    | ((fail_if_success with_reducible apply Kept.eta); first | with_reducible apply Kept.upd))

theorem State.setBankResult_kept {s0 : State} (s : State) (k code : Nat) (hk : Kept s0 s) :
    Kept s0 (State.setBankResult s k code) := by
  unfold State.setBankResult
  repeat' (first
    | with_reducible exact Kept.rfl _
    | with_reducible assumption
    | with_reducible apply State.setFld_kept
    | with_reducible apply Kept.ite)

theorem State.setReloadBank_kept {s0 : State} (s : State) (k gen : Nat) (hk : Kept s0 s) :
    Kept s0 (State.setReloadBank s k gen) := by
  unfold State.setReloadBank
  repeat' (first
    | with_reducible exact Kept.rfl _
    | with_reducible assumption
    | with_reducible apply State.setFld_kept
    | with_reducible apply State.raise_kept
    | with_reducible apply Kept.ite)

theorem State.nvmTorn_kept {s0 : State} (s : State) (r : NvmRun) (hk : Kept s0 s) :
    Kept s0 (State.nvmTorn s r) := by
  unfold State.nvmTorn
  repeat' (first
    | with_reducible exact Kept.rfl _
    | with_reducible assumption
    | with_reducible apply State.setBankResult_kept
    | intro _
    | extract_lets
    | split)

theorem State.nvmAbort_shed {s0 : State} (s : State) (hk : Shed s0 s) :
    Shed s0 (State.nvmAbort s) := by
  unfold State.nvmAbort
  repeat' (first
    | with_reducible exact Shed.rfl _
    | with_reducible assumption
    | (with_reducible apply Shed.step; with_reducible apply State.nvmTorn_kept; with_reducible exact Kept.rfl _)
    | with_reducible apply State.nvmTorn_kept
    | (with_reducible apply Shed.step; with_reducible apply State.raise_kept; with_reducible exact Kept.rfl _)
    | with_reducible apply State.raise_kept
    | (with_reducible apply Shed.step; with_reducible apply State.setFld_kept; with_reducible exact Kept.rfl _)
    | with_reducible apply State.setFld_kept
    | intro _
    | extract_lets
    | split
    | ((with_reducible conv => arg 2; whnf); split)
    | ((fail_if_success with_reducible apply Shed.eta); first | with_reducible apply Shed.upd | with_reducible apply Shed.updF | with_reducible apply Shed.dropF))

theorem State.installPart_kept {s0 : State} (s : State) (p : Nat) (g : PartCfg) (hk : Kept s0 s) :
    Kept s0 (State.installPart s p g) := by
  unfold State.installPart
  repeat' (first
    | with_reducible exact Kept.rfl _
    | with_reducible assumption
    | with_reducible apply State.setFld_kept
    | with_reducible apply State.setReg_kept
    | with_reducible apply State.showRoutes_kept
    | with_reducible apply Kept.fold
    | with_reducible apply Kept.ite
    | intro _
    | extract_lets
    | ((fail_if_success with_reducible apply Kept.eta); first | with_reducible apply Kept.upd))

theorem State.beginChange_kept {s0 : State} (s : State) (c : Cmd) (hk : Kept s0 s) :
    Kept s0 (State.beginChange s c) := by
  unfold State.beginChange
  repeat' (first
    | with_reducible exact Kept.rfl _
    | with_reducible assumption
    | with_reducible apply State.raise_kept
    | with_reducible apply State.setFld_kept
    | with_reducible apply State.pushOp_kept
    | intro _
    | extract_lets
    | split
    | ((with_reducible conv => arg 2; whnf); split)
    | ((fail_if_success with_reducible apply Kept.eta); first | with_reducible apply Kept.upd))

theorem execReloadPartition_kept (sq cid : Nat) (s : State) {t' : State} (eqn : execReloadPartition sq cid s = .next t') :
    Kept s t' := by
  unfold execReloadPartition at eqn
  injection eqn with eqn
  subst eqn
  repeat' (first
    | with_reducible exact Kept.rfl _
    | with_reducible assumption
    | with_reducible apply State.accept_kept
    | with_reducible apply State.beginChange_kept
    | intro _)

theorem State.setChange_kept {s0 : State} (s : State) (x : ChangeSet) (hk : Kept s0 s) :
    Kept s0 (State.setChange s x) := by
  unfold State.setChange
  repeat' (first
    | with_reducible exact Kept.rfl _
    | with_reducible assumption
    | intro _
    | extract_lets
    | ((fail_if_success with_reducible apply Kept.eta); first | with_reducible apply Kept.upd))

theorem State.modChange_kept {s0 : State} (s : State) (f : ChangeSet → ChangeSet) (hk : Kept s0 s) :
    Kept s0 (State.modChange s f) := by
  unfold State.modChange
  repeat' (first
    | with_reducible exact Kept.rfl _
    | with_reducible assumption
    | with_reducible apply State.setChange_kept
    | intro _
    | extract_lets
    | split)

theorem State.loadBeside_kept {s0 : State} (s : State) (g : PartCfg) (e : Nat × Nat × Nat) (hk : Kept s0 s) :
    Kept s0 (State.loadBeside s g e) := by
  unfold State.loadBeside
  repeat' (first
    | with_reducible exact Kept.rfl _
    | with_reducible assumption
    | with_reducible apply State.modCluster_kept
    | with_reducible apply State.raise_kept
    | with_reducible apply State.modChange_kept
    | with_reducible apply Kept.fold
    | with_reducible apply Kept.ite
    | intro _
    | extract_lets
    | split)

theorem State.applyPart_kept {s0 : State} (s : State) (p : Nat) (g : PartCfg) (hk : Kept s0 s) :
    Kept s0 (State.applyPart s p g) := by
  unfold State.applyPart
  repeat' (first
    | with_reducible exact Kept.rfl _
    | with_reducible assumption
    | with_reducible apply State.setFld_kept
    | with_reducible apply State.loadBeside_kept
    | with_reducible apply Kept.fold
    | with_reducible apply Kept.ite
    | intro _
    | extract_lets
    | ((fail_if_success with_reducible apply Kept.eta); first | with_reducible apply Kept.upd))

theorem State.applyNext_kept {s0 : State} (s : State) (hk : Kept s0 s) :
    Kept s0 (State.applyNext s) := by
  unfold State.applyNext
  repeat' (first
    | with_reducible exact Kept.rfl _
    | with_reducible assumption
    | with_reducible apply State.applyPart_kept
    | intro _
    | extract_lets
    | split)

theorem execChangeSectionsStaged_kept (s : State) {t' : State} (eqn : execChangeSectionsStaged s = .next t') :
    Kept s t' := by
  unfold execChangeSectionsStaged at eqn
  injection eqn with eqn
  subst eqn
  repeat' (first
    | with_reducible exact Kept.rfl _
    | with_reducible assumption
    | with_reducible apply State.setChange_kept
    | with_reducible apply State.applyNext_kept
    | with_reducible apply Kept.ite
    | intro _
    | extract_lets
    | split)

theorem execClusterOldGenDrained_kept (c : Nat) (s : State) {t' : State} (eqn : execClusterOldGenDrained c s = .next t') :
    Kept s t' := by
  unfold execClusterOldGenDrained at eqn
  injection eqn with eqn
  subst eqn
  repeat' (first
    | with_reducible exact Kept.rfl _
    | with_reducible assumption
    | with_reducible apply State.setChange_kept
    | with_reducible apply State.modCluster_kept
    | with_reducible apply Kept.ite
    | intro _
    | extract_lets
    | split)

theorem State.finishChange_kept {s0 : State} (s : State) (x : ChangeSet) (hk : Kept s0 s) :
    Kept s0 (State.finishChange s x) := by
  unfold State.finishChange
  repeat' (first
    | with_reducible exact Kept.rfl _
    | with_reducible assumption
    | with_reducible apply State.installPart_kept
    | with_reducible apply State.modCluster_kept
    | with_reducible apply State.endChange_kept
    | with_reducible apply State.checkDegraded_kept
    | with_reducible apply Kept.fold
    | intro _)

theorem execPartitionSwitched_kept (p : Nat) (s : State) {t' : State} (eqn : execPartitionSwitched p s = .next t') :
    Kept s t' := by
  unfold execPartitionSwitched at eqn
  injection eqn with eqn
  subst eqn
  repeat' (first
    | with_reducible exact Kept.rfl _
    | with_reducible assumption
    | with_reducible apply State.setFld_kept
    | with_reducible apply State.setBit_kept
    | with_reducible apply State.setChange_kept
    | with_reducible apply State.raise_kept
    | with_reducible apply State.applyWindows_kept
    | with_reducible apply State.showRoutes_kept
    | with_reducible apply State.finishChange_kept
    | with_reducible apply State.applyNext_kept
    | with_reducible apply Kept.ite
    | intro _
    | extract_lets
    | split)

theorem execOldGenerationRelease_kept (c : Nat) (s : State) {t' : State} (eqn : execOldGenerationRelease c s = .next t') :
    Kept s t' := by
  unfold execOldGenerationRelease at eqn
  injection eqn with eqn
  subst eqn
  repeat' (first
    | with_reducible exact Kept.rfl _
    | with_reducible assumption
    | with_reducible apply State.modCluster_kept
    | with_reducible apply Kept.ite
    | intro _
    | extract_lets
    | ((fail_if_success with_reducible apply Kept.eta); first | with_reducible apply Kept.upd))

theorem execEntryHoldTimeout_kept (s : State) {t' : State} (eqn : execEntryHoldTimeout s = .next t') :
    Kept s t' := by
  unfold execEntryHoldTimeout at eqn
  injection eqn with eqn
  subst eqn
  repeat' (first
    | with_reducible exact Kept.rfl _
    | with_reducible assumption
    | with_reducible apply State.abortChange_kept
    | with_reducible apply Kept.ite
    | intro _
    | extract_lets
    | split)

theorem State.restoreCluster_kept {s0 : State} (s : State) (c : Nat) (hk : Kept s0 s) :
    Kept s0 (State.restoreCluster s c) := by
  unfold State.restoreCluster
  repeat' (first
    | with_reducible exact Kept.rfl _
    | with_reducible assumption
    | with_reducible apply State.modCluster_kept
    | intro _
    | extract_lets
    | split)

theorem execChangeRestoreComplete_kept (s : State) {t' : State} (eqn : execChangeRestoreComplete s = .next t') :
    Kept s t' := by
  unfold execChangeRestoreComplete at eqn
  injection eqn with eqn
  subst eqn
  repeat' (first
    | with_reducible exact Kept.rfl _
    | with_reducible assumption
    | with_reducible apply State.restoreCluster_kept
    | with_reducible apply State.endChange_kept
    | with_reducible apply Kept.fold
    | with_reducible apply Kept.ite
    | intro _
    | extract_lets
    | split)

theorem State.syncLands_kept {s0 : State} (s : State) (hk : Kept s0 s) :
    Kept s0 (State.syncLands s) := by
  unfold State.syncLands
  repeat' (first
    | with_reducible exact Kept.rfl _
    | with_reducible assumption
    | with_reducible apply Kept.ite
    | intro _
    | extract_lets
    | ((fail_if_success with_reducible apply Kept.eta); first | with_reducible apply Kept.upd))

theorem State.tapLoad_kept {s0 : State} (s : State) (ir : BitVec 8) (hk : Kept s0 s) :
    Kept s0 (State.tapLoad s ir) := by
  unfold State.tapLoad
  repeat' (first
    | with_reducible exact Kept.rfl _
    | with_reducible assumption
    | with_reducible apply State.syncLands_kept
    | with_reducible apply Kept.ite
    | intro _
    | extract_lets
    | ((fail_if_success with_reducible apply Kept.eta); first | with_reducible apply Kept.upd))

theorem execTapReset_kept (s : State) {t' : State} (eqn : execTapReset s = .next t') :
    Kept s t' := by
  unfold execTapReset at eqn
  injection eqn with eqn
  subst eqn
  repeat' (first
    | with_reducible exact Kept.rfl _
    | with_reducible assumption
    | with_reducible apply State.tapLoad_kept)

theorem execIdcode_kept (s : State) {t' : State} (eqn : execIdcode s = .next t') :
    Kept s t' := by
  unfold execIdcode at eqn
  injection eqn with eqn
  subst eqn
  repeat' (first
    | with_reducible exact Kept.rfl _
    | with_reducible assumption
    | with_reducible apply State.tapLoad_kept)

theorem execSamplePreload_kept (cells : BitVec 334) (s : State) {t' : State} (eqn : execSamplePreload cells s = .next t') :
    Kept s t' := by
  unfold execSamplePreload at eqn
  injection eqn with eqn
  subst eqn
  repeat' (first
    | with_reducible exact Kept.rfl _
    | with_reducible assumption
    | with_reducible apply State.tapLoad_kept
    | with_reducible apply Kept.ite
    | intro _
    | extract_lets
    | ((fail_if_success with_reducible apply Kept.eta); first | with_reducible apply Kept.upd))

theorem execExtest_kept (s : State) {t' : State} (eqn : execExtest s = .next t') :
    Kept s t' := by
  unfold execExtest at eqn
  injection eqn with eqn
  subst eqn
  repeat' (first
    | with_reducible exact Kept.rfl _
    | with_reducible assumption
    | with_reducible apply State.tapLoad_kept)

theorem execExtestPulse_kept (s : State) {t' : State} (eqn : execExtestPulse s = .next t') :
    Kept s t' := by
  unfold execExtestPulse at eqn
  injection eqn with eqn
  subst eqn
  repeat' (first
    | with_reducible exact Kept.rfl _
    | with_reducible assumption
    | with_reducible apply State.tapLoad_kept)

theorem execExtestTrain_kept (s : State) {t' : State} (eqn : execExtestTrain s = .next t') :
    Kept s t' := by
  unfold execExtestTrain at eqn
  injection eqn with eqn
  subst eqn
  repeat' (first
    | with_reducible exact Kept.rfl _
    | with_reducible assumption
    | with_reducible apply State.tapLoad_kept)

theorem execClamp_kept (s : State) {t' : State} (eqn : execClamp s = .next t') :
    Kept s t' := by
  unfold execClamp at eqn
  injection eqn with eqn
  subst eqn
  repeat' (first
    | with_reducible exact Kept.rfl _
    | with_reducible assumption
    | with_reducible apply State.tapLoad_kept)

theorem execHighz_kept (s : State) {t' : State} (eqn : execHighz s = .next t') :
    Kept s t' := by
  unfold execHighz at eqn
  injection eqn with eqn
  subst eqn
  repeat' (first
    | with_reducible exact Kept.rfl _
    | with_reducible assumption
    | with_reducible apply State.tapLoad_kept)

theorem execBypass_kept (s : State) {t' : State} (eqn : execBypass s = .next t') :
    Kept s t' := by
  unfold execBypass at eqn
  injection eqn with eqn
  subst eqn
  repeat' (first
    | with_reducible exact Kept.rfl _
    | with_reducible assumption
    | with_reducible apply State.tapLoad_kept)

theorem State.i3cCapture_kept {s0 : State} (s : State) (hk : Kept s0 s) :
    Kept s0 (State.i3cCapture s) := by
  unfold State.i3cCapture
  repeat' (first
    | with_reducible exact Kept.rfl _
    | with_reducible assumption
    | with_reducible apply Kept.ite
    | intro _
    | extract_lets
    | ((fail_if_success with_reducible apply Kept.eta); first | with_reducible apply Kept.upd))

theorem State.i3cTake_kept {s0 : State} (s : State) (hk : Kept s0 s) :
    Kept s0 (State.i3cTake s) := by
  unfold State.i3cTake
  repeat' (first
    | with_reducible exact Kept.rfl _
    | with_reducible assumption
    | intro _
    | extract_lets
    | ((fail_if_success with_reducible apply Kept.eta); first | with_reducible apply Kept.upd))

theorem State.i3cTakeN_kept {s0 : State}  (y0 : Nat) (s : State) (hk : Kept s0 s) :
    Kept s0 (State.i3cTakeN y0 s) := by
  induction y0 generalizing s with
  | zero =>
    unfold State.i3cTakeN
    exact hk
  | succ n ih =>
    unfold State.i3cTakeN
    repeat' (first
      | with_reducible apply ih
      | with_reducible exact Kept.rfl _
      | with_reducible assumption
      | with_reducible apply State.i3cTake_kept)

theorem execI3cEntdaa_kept (addr : Nat) (s : State) {t' : State} (eqn : execI3cEntdaa addr s = .next t') :
    Kept s t' := by
  unfold execI3cEntdaa at eqn
  repeat' (first
    | (injection eqn with eqn; subst eqn)
    | split at eqn)
  all_goals first
    | exact Kept.rfl _
    | exact Kept.upd (Kept.rfl _)
    | exact State.i3cTakeN_kept _ _ (Kept.upd (Kept.rfl _))

theorem execI3cCommonCommand_kept (code : Byte) (direct : Bool) (data : List Byte) (s : State) {t' : State} (eqn : execI3cCommonCommand code direct data s = .next t') :
    Kept s t' := by
  unfold execI3cCommonCommand at eqn
  repeat' (first
    | (injection eqn with eqn; subst eqn)
    | split at eqn)
  all_goals first
    | exact Kept.rfl _
    | exact Kept.upd (Kept.rfl _)
    | exact State.i3cTakeN_kept _ _ (Kept.upd (Kept.rfl _))

theorem execI3cPrivateWrite_kept (hi lo : Byte) (s : State) {t' : State} (eqn : execI3cPrivateWrite hi lo s = .next t') :
    Kept s t' := by
  unfold execI3cPrivateWrite at eqn
  repeat' (first
    | (injection eqn with eqn; subst eqn)
    | split at eqn)
  all_goals first
    | exact Kept.rfl _
    | exact Kept.upd (Kept.rfl _)
    | exact State.i3cTakeN_kept _ _ (Kept.upd (Kept.rfl _))

theorem execI3cPrivateRead_kept (n : Nat) (s : State) {t' : State} (eqn : execI3cPrivateRead n s = .next t') :
    Kept s t' := by
  unfold execI3cPrivateRead at eqn
  injection eqn with eqn
  subst eqn
  split
  · extract_lets s1
    exact State.i3cTakeN_kept _ _ (Kept.upd (State.i3cCapture_kept _ (Kept.rfl _)))
  · exact Kept.rfl _

theorem execSqTailDoorbell_kept (q : Nat) (v : W32) (s : State) {t' : State} (eqn : execSqTailDoorbell q v s = .next t') :
    Kept s t' := by
  unfold execSqTailDoorbell at eqn
  injection eqn with eqn
  subst eqn
  repeat' (first
    | with_reducible exact Kept.rfl _
    | with_reducible assumption
    | with_reducible apply State.raise_kept
    | with_reducible apply State.setFld_kept
    | with_reducible apply Kept.ite)

theorem execCqHeadDoorbell_kept (q : Nat) (v : W32) (s : State) {t' : State} (eqn : execCqHeadDoorbell q v s = .next t') :
    Kept s t' := by
  unfold execCqHeadDoorbell at eqn
  injection eqn with eqn
  subst eqn
  repeat' (first
    | with_reducible exact Kept.rfl _
    | with_reducible assumption
    | with_reducible apply State.raise_kept
    | with_reducible apply State.setFld_kept
    | with_reducible apply State.cqDrain_kept
    | with_reducible apply Kept.ite)

theorem State.reject_kept {s0 : State} (s : State) (hk : Kept s0 s) :
    Kept s0 (State.reject s) := by
  unfold State.reject
  repeat' (first
    | with_reducible exact Kept.rfl _
    | with_reducible assumption
    | with_reducible apply State.raise_kept)

theorem State.writeSqCfg_kept {s0 : State} (s : State) (q : Nat) (v : W32) (hk : Kept s0 s) :
    Kept s0 (State.writeSqCfg s q v) := by
  unfold State.writeSqCfg
  repeat' (first
    | with_reducible exact Kept.rfl _
    | with_reducible assumption
    | with_reducible apply State.reject_kept
    | with_reducible apply State.hostWrite_kept
    | with_reducible apply State.setFld_kept
    | with_reducible apply Kept.ite)

theorem State.writeCqCfg_kept {s0 : State} (s : State) (q : Nat) (v : W32) (hk : Kept s0 s) :
    Kept s0 (State.writeCqCfg s q v) := by
  unfold State.writeCqCfg
  repeat' (first
    | with_reducible exact Kept.rfl _
    | with_reducible assumption
    | with_reducible apply State.reject_kept
    | with_reducible apply State.hostWrite_kept
    | with_reducible apply State.setFld_kept
    | with_reducible apply Kept.ite
    | intro _
    | extract_lets
    | ((fail_if_success with_reducible apply Kept.eta); first | with_reducible apply Kept.upd | with_reducible apply Kept.updH))

theorem execSqEnable_kept (q : Nat) (v : W32) (s : State) {t' : State} (eqn : execSqEnable q v s = .next t') :
    Kept s t' := by
  unfold execSqEnable at eqn
  injection eqn with eqn
  subst eqn
  repeat' (first
    | with_reducible exact Kept.rfl _
    | with_reducible assumption
    | with_reducible apply State.writeSqCfg_kept
    | with_reducible apply Kept.ite)

theorem execSqDisable_kept (q : Nat) (v : W32) (s : State) {t' : State} (eqn : execSqDisable q v s = .next t') :
    Kept s t' := by
  unfold execSqDisable at eqn
  injection eqn with eqn
  subst eqn
  repeat' (first
    | with_reducible exact Kept.rfl _
    | with_reducible assumption
    | with_reducible apply State.writeSqCfg_kept
    | with_reducible apply Kept.ite)

theorem execCqEnable_kept (q : Nat) (v : W32) (s : State) {t' : State} (eqn : execCqEnable q v s = .next t') :
    Kept s t' := by
  unfold execCqEnable at eqn
  injection eqn with eqn
  subst eqn
  repeat' (first
    | with_reducible exact Kept.rfl _
    | with_reducible assumption
    | with_reducible apply State.writeCqCfg_kept
    | with_reducible apply Kept.ite)

theorem execCqDisable_kept (q : Nat) (v : W32) (s : State) {t' : State} (eqn : execCqDisable q v s = .next t') :
    Kept s t' := by
  unfold execCqDisable at eqn
  injection eqn with eqn
  subst eqn
  repeat' (first
    | with_reducible exact Kept.rfl _
    | with_reducible assumption
    | with_reducible apply State.writeCqCfg_kept
    | with_reducible apply Kept.ite)

theorem State.refuseFetched_kept {s0 : State} (s : State) (c : Cmd) (status code : Nat) (hk : Kept s0 s) :
    Kept s0 (State.refuseFetched s c status code) := by
  unfold State.refuseFetched
  repeat' (first
    | with_reducible exact Kept.rfl _
    | with_reducible assumption
    | with_reducible apply State.raise_kept
    | with_reducible apply State.cqPost_kept
    | with_reducible apply State.updBusy_kept
    | with_reducible apply Kept.ite)

theorem State.takeCmd_kept {s0 : State} (s : State) (q n : Nat) (hk : Kept s0 s) :
    Kept s0 (State.takeCmd s q n) := by
  unfold State.takeCmd
  repeat' (first
    | with_reducible exact Kept.rfl _
    | with_reducible assumption
    | with_reducible apply State.setFld_kept
    | with_reducible apply State.dmaIn_kept
    | with_reducible apply State.refuseFetched_kept
    | with_reducible apply State.updBusy_kept
    | intro _
    | extract_lets
    | split
    | ((with_reducible conv => arg 2; whnf); split)
    | ((fail_if_success with_reducible apply Kept.eta); first | with_reducible apply Kept.upd | with_reducible apply Kept.updH))

theorem execCommandFetch_kept (fetchError : Bool) (s : State) {t' : State} (eqn : execCommandFetch fetchError s = .next t') :
    Kept s t' := by
  unfold execCommandFetch at eqn
  injection eqn with eqn
  subst eqn
  repeat' (first
    | with_reducible exact Kept.rfl _
    | with_reducible assumption
    | with_reducible apply State.setFld_kept
    | with_reducible apply State.raise_kept
    | with_reducible apply State.takeCmd_kept
    | with_reducible apply Kept.ite
    | intro _
    | extract_lets
    | split)

theorem execDeferTimeout_kept (sq cid : Nat) (s : State) {t' : State} (eqn : execDeferTimeout sq cid s = .next t') :
    Kept s t' := by
  unfold execDeferTimeout at eqn
  injection eqn with eqn
  subst eqn
  repeat' (first
    | with_reducible exact Kept.rfl _
    | with_reducible assumption
    | with_reducible apply State.completeU_kept
    | with_reducible apply Kept.ite
    | intro _
    | extract_lets
    | split)

theorem execInterruptCoalesceTimeout_kept (cq : Nat) (s : State) {t' : State} (eqn : execInterruptCoalesceTimeout cq s = .next t') :
    Kept s t' := by
  unfold execInterruptCoalesceTimeout at eqn
  injection eqn with eqn
  subst eqn
  repeat' (first
    | with_reducible exact Kept.rfl _
    | with_reducible assumption
    | with_reducible apply State.cqMessage_kept
    | with_reducible apply Kept.ite)

theorem execSlotRelease_kept (n : Nat) (s : State) {t' : State} (eqn : execSlotRelease n s = .next t') :
    Kept s t' := by
  unfold execSlotRelease at eqn
  injection eqn with eqn
  subst eqn
  repeat' (first
    | with_reducible exact Kept.rfl _
    | with_reducible assumption
    | with_reducible apply Kept.ite
    | intro _
    | extract_lets
    | split
    | ((with_reducible conv => arg 2; whnf); split)
    | ((fail_if_success with_reducible apply Kept.eta); first | with_reducible apply Kept.upd | with_reducible apply Kept.updH))

theorem execNop_kept (sq cid : Nat) (s : State) {t' : State} (eqn : execNop sq cid s = .next t') :
    Kept s t' := by
  unfold execNop at eqn
  injection eqn with eqn
  subst eqn
  repeat' (first
    | with_reducible exact Kept.rfl _
    | with_reducible assumption
    | with_reducible apply State.accept_kept
    | with_reducible apply State.finish_kept
    | intro _)

theorem execIdentify_kept (sq cid : Nat) (s : State) {t' : State} (eqn : execIdentify sq cid s = .next t') :
    Kept s t' := by
  unfold execIdentify at eqn
  injection eqn with eqn
  subst eqn
  repeat' (first
    | with_reducible exact Kept.rfl _
    | with_reducible assumption
    | with_reducible apply State.accept_kept
    | with_reducible apply State.finish_kept
    | intro _)

theorem execLoadObject_kept (sq cid : Nat) (obj : Option Program) (s : State) {t' : State} (eqn : execLoadObject sq cid obj s = .next t') :
    Kept s t' := by
  unfold execLoadObject at eqn
  injection eqn with eqn
  subst eqn
  repeat' (first
    | with_reducible exact Kept.rfl _
    | with_reducible assumption
    | with_reducible apply State.accept_kept
    | with_reducible apply State.devWrite_kept
    | with_reducible apply State.dmaIn_kept
    | with_reducible apply State.finish_kept
    | with_reducible apply Kept.ite
    | intro _
    | extract_lets
    | split
    | ((with_reducible conv => arg 2; whnf); split)
    | ((fail_if_success with_reducible apply Kept.eta); first | with_reducible apply Kept.upd))

theorem execReadObject_kept (sq cid : Nat) (s : State) {t' : State} (eqn : execReadObject sq cid s = .next t') :
    Kept s t' := by
  unfold execReadObject at eqn
  injection eqn with eqn
  subst eqn
  repeat' (first
    | with_reducible exact Kept.rfl _
    | with_reducible assumption
    | with_reducible apply State.accept_kept
    | with_reducible apply State.unbackedSectors_kept
    | with_reducible apply State.readLines_kept
    | (with_reducible apply State.readLines_kept_eq; assumption)
    | with_reducible apply State.completeU_kept
    | with_reducible apply State.finish_kept
    | with_reducible apply Kept.ite
    | intro _)

theorem State.forgetCommands_shed {s0 : State} (s : State) (hk : Shed s0 s) :
    Shed s0 (State.forgetCommands s) := by
  unfold State.forgetCommands
  repeat' (first
    | with_reducible exact Shed.rfl _
    | with_reducible assumption
    | with_reducible apply State.nvmAbort_shed
    | (with_reducible apply Shed.step; with_reducible apply State.row_kept; with_reducible exact Kept.rfl _)
    | with_reducible apply State.row_kept
    | (with_reducible apply Shed.step; with_reducible apply Kept.fold; with_reducible exact Kept.rfl _)
    | with_reducible exact Kept.rfl _
    | with_reducible apply Kept.fold
    | intro _
    | extract_lets
    | ((fail_if_success with_reducible apply Shed.eta); first | with_reducible apply Shed.upd | with_reducible apply Shed.updU)
    | ((fail_if_success with_reducible apply Kept.eta); first | with_reducible apply Kept.upd | with_reducible apply Kept.updU))

theorem State.resetQueues_kept {s0 : State} (s : State) (hk : Kept s0 s) :
    Kept s0 (State.resetQueues s) := by
  unfold State.resetQueues
  extract_lets offs src s1
  exact ⟨hk.1, hk.2, hk.3, hk.4, hk.5, fun c => canon_filter (s := s1) _ (hk.6 c) (Eq.refl _) (canon_mem (s := s1) (hk.6 c))⟩

theorem State.dropHost_shed {s0 : State} (s : State) (hk : Shed s0 s) :
    Shed s0 (State.dropHost s) := by
  unfold State.dropHost
  repeat' (first
    | with_reducible exact Shed.rfl _
    | with_reducible assumption
    | with_reducible apply State.forgetCommands_shed
    | (with_reducible apply Shed.step; with_reducible apply State.endCommands_kept; with_reducible exact Kept.rfl _))

theorem execPcieHotReset_shed (s : State) {t' : State} (eqn : execPcieHotReset s = .next t') :
    Shed s t' := by
  unfold execPcieHotReset at eqn
  injection eqn with eqn
  subst eqn
  repeat' (first
    | with_reducible exact Shed.rfl _
    | with_reducible assumption
    | with_reducible apply State.dropHost_shed
    | (with_reducible apply Shed.step; with_reducible apply State.resetQueues_kept; with_reducible exact Kept.rfl _)
    | with_reducible apply State.resetQueues_kept
    | with_reducible apply Shed.ite
    | intro _
    | extract_lets
    | ((fail_if_success with_reducible apply Shed.eta); first | with_reducible apply Shed.upd | with_reducible apply Shed.updH))

theorem execPcieLinkDown_kept (s : State) {t' : State} (eqn : execPcieLinkDown s = .next t') :
    Kept s t' := by
  unfold execPcieLinkDown at eqn
  injection eqn with eqn
  subst eqn
  repeat' (first
    | with_reducible exact Kept.rfl _
    | with_reducible assumption
    | with_reducible apply Kept.ite
    | intro _
    | extract_lets
    | ((fail_if_success with_reducible apply Kept.eta); first | with_reducible apply Kept.upd | with_reducible apply Kept.updH))

theorem execPcieLinkFailure_shed (s : State) {t' : State} (eqn : execPcieLinkFailure s = .next t') :
    Shed s t' := by
  unfold execPcieLinkFailure at eqn
  injection eqn with eqn
  subst eqn
  repeat' (first
    | with_reducible exact Shed.rfl _
    | with_reducible assumption
    | with_reducible apply State.dropHost_shed
    | (with_reducible apply Shed.step; with_reducible apply State.setFld_kept; with_reducible exact Kept.rfl _)
    | with_reducible apply State.setFld_kept
    | (with_reducible apply Shed.step; with_reducible apply State.event_kept; with_reducible exact Kept.rfl _)
    | with_reducible apply State.event_kept
    | with_reducible apply Shed.ite
    | intro _
    | extract_lets
    | ((fail_if_success with_reducible apply Shed.eta); first | with_reducible apply Shed.upd | with_reducible apply Shed.updH))

theorem execJournalRead_kept (sq cid : Nat) (s : State) {t' : State} (eqn : execJournalRead sq cid s = .next t') :
    Kept s t' := by
  unfold execJournalRead at eqn
  injection eqn with eqn
  subst eqn
  repeat' (first
    | with_reducible exact Kept.rfl _
    | with_reducible assumption
    | with_reducible apply State.accept_kept
    | with_reducible apply State.writeResult_kept
    | with_reducible apply State.completeU_kept
    | intro _)

theorem execJournalPageProgram_kept (ok : Bool) (s : State) {t' : State} (eqn : execJournalPageProgram ok s = .next t') :
    Kept s t' := by
  unfold execJournalPageProgram at eqn
  injection eqn with eqn
  subst eqn
  repeat' (first
    | with_reducible exact Kept.rfl _
    | with_reducible assumption
    | with_reducible apply State.pageDone_kept
    | with_reducible apply State.pageFails_kept
    | with_reducible apply Kept.ite)

theorem execJournalCompaction_kept (s : State) {t' : State} (eqn : execJournalCompaction s = .next t') :
    Kept s t' := by
  unfold execJournalCompaction at eqn
  injection eqn with eqn
  subst eqn
  repeat' (first
    | with_reducible exact Kept.rfl _
    | with_reducible assumption
    | with_reducible apply State.startCompaction_kept
    | with_reducible apply Kept.ite)

theorem State.notice_kept {s0 : State} (s : State) (code : Nat) (hk : Kept s0 s) :
    Kept s0 (State.notice s code) := by
  unfold State.notice
  repeat' (first
    | with_reducible exact Kept.rfl _
    | with_reducible assumption
    | with_reducible apply State.setFld_kept
    | intro _
    | extract_lets
    | ((fail_if_success with_reducible apply Kept.eta); first | with_reducible apply Kept.upd))

theorem execBoardNoticeRaise_kept (demand : Nat) (s : State) {t' : State} (eqn : execBoardNoticeRaise demand s = .next t') :
    Kept s t' := by
  unfold execBoardNoticeRaise at eqn
  injection eqn with eqn
  subst eqn
  repeat' (first
    | with_reducible exact Kept.rfl _
    | with_reducible assumption
    | with_reducible apply State.notice_kept
    | with_reducible apply Kept.ite
    | intro _
    | extract_lets
    | ((fail_if_success with_reducible apply Kept.eta); first | with_reducible apply Kept.upd))

theorem execBoardHoldExpiry_kept (demand : Nat) (s : State) {t' : State} (eqn : execBoardHoldExpiry demand s = .next t') :
    Kept s t' := by
  unfold execBoardHoldExpiry at eqn
  injection eqn with eqn
  subst eqn
  repeat' (first
    | with_reducible exact Kept.rfl _
    | with_reducible assumption
    | with_reducible apply State.notice_kept
    | with_reducible apply Kept.ite
    | intro _
    | extract_lets
    | ((fail_if_success with_reducible apply Kept.eta); first | with_reducible apply Kept.upd))

theorem execBoardNoticeElapsed_kept (s : State) {t' : State} (eqn : execBoardNoticeElapsed s = .next t') :
    Kept s t' := by
  unfold execBoardNoticeElapsed at eqn
  injection eqn with eqn
  subst eqn
  repeat' (first
    | with_reducible exact Kept.rfl _
    | with_reducible assumption
    | intro _
    | extract_lets
    | ((fail_if_success with_reducible apply Kept.eta); first | with_reducible apply Kept.upd))

theorem State.regionOff_kept {s0 : State} (s : State) (r cause : Nat) (hk : Kept s0 s) :
    Kept s0 (State.regionOff s r cause) := by
  unfold State.regionOff
  repeat' (first
    | with_reducible exact Kept.rfl _
    | with_reducible assumption
    | with_reducible apply State.dropWake_kept
    | with_reducible apply State.setLevel_kept
    | with_reducible apply State.grantWakes_kept
    | with_reducible apply State.setFld_kept
    | with_reducible apply State.setRegion_kept
    | with_reducible apply State.raise_kept
    | with_reducible apply State.event_kept
    | with_reducible apply State.retireCluster_kept)

theorem State.updCap_kept {s0 : State} (s : State) (r cause unit : Nat) (hk : Kept s0 s) :
    Kept s0 (State.updCap s r cause unit) := by
  unfold State.updCap
  repeat' (first
    | with_reducible exact Kept.rfl _
    | with_reducible assumption
    | with_reducible apply State.setFld_kept
    | with_reducible apply State.regionOff_kept
    | with_reducible apply State.raise_kept
    | with_reducible apply State.eventReg_kept
    | with_reducible apply Kept.ite)

theorem State.dropTrial_kept {s0 : State} (s : State) (r ph : Nat) (hk : Kept s0 s) :
    Kept s0 (State.dropTrial s r ph) := by
  unfold State.dropTrial
  repeat' (first
    | with_reducible exact Kept.rfl _
    | with_reducible assumption
    | intro _
    | extract_lets
    | ((fail_if_success with_reducible apply Kept.eta); first | with_reducible apply Kept.upd))

theorem execPhaseMismatch_kept (r ph : Nat) (s : State) {t' : State} (eqn : execPhaseMismatch r ph s = .next t') :
    Kept s t' := by
  unfold execPhaseMismatch at eqn
  injection eqn with eqn
  subst eqn
  repeat' (first
    | with_reducible exact Kept.rfl _
    | with_reducible assumption
    | with_reducible apply State.dropTrial_kept
    | with_reducible apply State.raise_kept
    | with_reducible apply State.event_kept
    | with_reducible apply State.addDefect_kept
    | with_reducible apply State.updCap_kept
    | with_reducible apply State.clrBit_kept
    | with_reducible apply Kept.ite
    | intro _
    | extract_lets
    | split
    | ((with_reducible conv => arg 2; whnf); split)
    | ((fail_if_success with_reducible apply Kept.eta); first | with_reducible apply Kept.upd))

theorem execPhaseRetry_kept (r ph : Nat) (s : State) {t' : State} (eqn : execPhaseRetry r ph s = .next t') :
    Kept s t' := by
  unfold execPhaseRetry at eqn
  injection eqn with eqn
  subst eqn
  repeat' (first
    | with_reducible exact Kept.rfl _
    | with_reducible assumption
    | with_reducible apply Kept.ite
    | intro _
    | extract_lets
    | ((fail_if_success with_reducible apply Kept.eta); first | with_reducible apply Kept.upd))

theorem execPhaseTrackWindowEnd_kept (r ph : Nat) (s : State) {t' : State} (eqn : execPhaseTrackWindowEnd r ph s = .next t') :
    Kept s t' := by
  unfold execPhaseTrackWindowEnd at eqn
  injection eqn with eqn
  subst eqn
  repeat' (first
    | with_reducible exact Kept.rfl _
    | with_reducible assumption
    | with_reducible apply State.dropTrial_kept
    | with_reducible apply State.setBit_kept
    | with_reducible apply State.raise_kept
    | with_reducible apply State.updCap_kept
    | with_reducible apply Kept.ite
    | intro _
    | extract_lets
    | split)

theorem execPhaseShed_kept (r : Nat) (s : State) {t' : State} (eqn : execPhaseShed r s = .next t') :
    Kept s t' := by
  unfold execPhaseShed at eqn
  injection eqn with eqn
  subst eqn
  repeat' (first
    | with_reducible exact Kept.rfl _
    | with_reducible assumption
    | with_reducible apply State.setLevel_kept
    | with_reducible apply Kept.ite)

theorem execRegionWakeRequest_kept (r : Nat) (s : State) {t' : State} (eqn : execRegionWakeRequest r s = .next t') :
    Kept s t' := by
  unfold execRegionWakeRequest at eqn
  injection eqn with eqn
  subst eqn
  repeat' (first
    | with_reducible exact Kept.rfl _
    | with_reducible assumption
    | with_reducible apply State.requestWake_kept
    | with_reducible apply Kept.ite)

theorem State.pauseFor_kept {s0 : State}  (y0 : Nat) (s : State) (y2 : Nat) (hk : Kept s0 s) :
    Kept s0 (State.pauseFor y0 s y2) := by
  induction y0 generalizing s y2 with
  | zero =>
    unfold State.pauseFor
    exact hk
  | succ n ih =>
    unfold State.pauseFor
    repeat' (first
      | with_reducible apply ih
      | with_reducible exact Kept.rfl _
      | with_reducible assumption
      | with_reducible apply State.raise_kept
      | with_reducible apply Kept.ite
      | intro _
      | extract_lets
      | split
      | ((with_reducible conv => arg 2; whnf); split)
      | ((fail_if_success with_reducible apply Kept.eta); first | with_reducible apply Kept.upd))

theorem execWakeSlotWaitTimeout_kept (r : Nat) (s : State) {t' : State} (eqn : execWakeSlotWaitTimeout r s = .next t') :
    Kept s t' := by
  unfold execWakeSlotWaitTimeout at eqn
  injection eqn with eqn
  subst eqn
  repeat' (first
    | with_reducible exact Kept.rfl _
    | with_reducible assumption
    | with_reducible apply State.pauseFor_kept
    | with_reducible apply State.startRamp_kept
    | with_reducible apply Kept.ite
    | intro _
    | extract_lets
    | split)

theorem execRegionWakeComplete_kept (r : Nat) (s : State) {t' : State} (eqn : execRegionWakeComplete r s = .next t') :
    Kept s t' := by
  unfold execRegionWakeComplete at eqn
  injection eqn with eqn
  subst eqn
  repeat' (first
    | with_reducible exact Kept.rfl _
    | with_reducible assumption
    | with_reducible apply State.dropWake_kept
    | with_reducible apply State.setFld_kept
    | with_reducible apply State.setRegion_kept
    | with_reducible apply State.grantWakes_kept
    | with_reducible apply State.kickAll_kept
    | with_reducible apply Kept.ite
    | intro _
    | extract_lets
    | split)

theorem execRegionVsetWrite_kept (r : Nat) (v : W32) (s : State) {t' : State} (eqn : execRegionVsetWrite r v s = .next t') :
    Kept s t' := by
  unfold execRegionVsetWrite at eqn
  injection eqn with eqn
  subst eqn
  repeat' (first
    | with_reducible exact Kept.rfl _
    | with_reducible assumption
    | with_reducible apply State.hostWrite_kept
    | with_reducible apply Kept.ite)

theorem execQ2DwellExpiry_kept (r : Nat) (s : State) {t' : State} (eqn : execQ2DwellExpiry r s = .next t') :
    Kept s t' := by
  unfold execQ2DwellExpiry at eqn
  injection eqn with eqn
  subst eqn
  repeat' (first
    | with_reducible exact Kept.rfl _
    | with_reducible assumption
    | with_reducible apply State.setLevel_kept
    | with_reducible apply State.setFld_kept
    | with_reducible apply State.setRegion_kept
    | with_reducible apply Kept.ite
    | intro _
    | extract_lets
    | ((fail_if_success with_reducible apply Kept.eta); first | with_reducible apply Kept.upd))

theorem State.ulOff_kept {s0 : State} (s : State) (hk : Kept s0 s) :
    Kept s0 (State.ulOff s) := by
  unfold State.ulOff
  repeat' (first
    | with_reducible exact Kept.rfl _
    | with_reducible assumption
    | with_reducible apply State.writeBack_kept
    | with_reducible apply Kept.fold
    | intro _
    | extract_lets
    | ((fail_if_success with_reducible apply Kept.eta); first | with_reducible apply Kept.upd | with_reducible apply Kept.updU))

theorem execIdleDwellExpiry_kept (state : Nat) (s : State) {t' : State} (eqn : execIdleDwellExpiry state s = .next t') :
    Kept s t' := by
  unfold execIdleDwellExpiry at eqn
  injection eqn with eqn
  subst eqn
  repeat' (first
    | with_reducible exact Kept.rfl _
    | with_reducible assumption
    | with_reducible apply State.setFld_kept
    | with_reducible apply State.incFld_kept
    | with_reducible apply State.ulOff_kept
    | with_reducible apply Kept.dropTiles
    | with_reducible apply Kept.fold
    | with_reducible apply Kept.ite
    | intro _
    | extract_lets)

theorem execDeviceWake_kept (cause : WakeCause) (s : State) {t' : State} (eqn : execDeviceWake cause s = .next t') :
    Kept s t' := by
  unfold execDeviceWake at eqn
  injection eqn with eqn
  subst eqn
  repeat' (first
    | with_reducible exact Kept.rfl _
    | with_reducible assumption
    | with_reducible apply State.setFld_kept
    | with_reducible apply Kept.ite
    | ((fail_if_success with_reducible apply Kept.eta); first | with_reducible apply Kept.upd))

theorem State.refillPins_kept {s0 : State} (s : State) (hk : Kept s0 s) :
    Kept s0 (State.refillPins s) := by
  unfold State.refillPins
  repeat' (first
    | with_reducible exact Kept.rfl _
    | with_reducible assumption
    | with_reducible apply State.prefetchLine_kept
    | with_reducible apply Kept.fold
    | with_reducible apply Kept.getD
    | with_reducible apply Kept.ite
    | intro _)

theorem State.raiseRegions_kept {s0 : State} (s : State) (hk : Kept s0 s) :
    Kept s0 (State.raiseRegions s) := by
  unfold State.raiseRegions
  repeat' (first
    | with_reducible exact Kept.rfl _
    | with_reducible assumption
    | with_reducible apply State.setFld_kept
    | with_reducible apply Kept.fold
    | with_reducible apply Kept.ite
    | intro _)

theorem execDeviceWakeComplete_kept (s : State) {t' : State} (eqn : execDeviceWakeComplete s = .next t') :
    Kept s t' := by
  unfold execDeviceWakeComplete at eqn
  injection eqn with eqn
  subst eqn
  repeat' (first
    | with_reducible exact Kept.rfl _
    | with_reducible assumption
    | with_reducible apply State.raiseRegions_kept
    | with_reducible apply State.refillPins_kept
    | with_reducible apply State.setFld_kept
    | with_reducible apply State.syncDstate_kept
    | with_reducible apply Kept.ite
    | intro _
    | extract_lets
    | ((fail_if_success with_reducible apply Kept.eta); first | with_reducible apply Kept.upd))

theorem execHkChannelRead_kept (n : Nat) (v : W16) (s : State) {t' : State} (eqn : execHkChannelRead n v s = .next t') :
    Kept s t' := by
  unfold execHkChannelRead at eqn
  injection eqn with eqn
  subst eqn
  repeat' (first
    | with_reducible exact Kept.rfl _
    | with_reducible assumption
    | with_reducible apply State.setFld_kept
    | with_reducible apply Kept.ite)

theorem State.syncAlert_kept {s0 : State} (s : State) (hk : Kept s0 s) :
    Kept s0 (State.syncAlert s) := by
  unfold State.syncAlert
  repeat' (first
    | with_reducible exact Kept.rfl _
    | with_reducible assumption
    | intro _
    | extract_lets
    | ((fail_if_success with_reducible apply Kept.eta); first | with_reducible apply Kept.upd))

theorem State.vinLimit_kept {s0 : State} (s : State) (hk : Kept s0 s) :
    Kept s0 (State.vinLimit s) := by
  unfold State.vinLimit
  repeat' (first
    | with_reducible exact Kept.rfl _
    | with_reducible assumption
    | with_reducible apply State.raise_kept
    | with_reducible apply State.setFld_kept
    | with_reducible apply Kept.fold
    | with_reducible apply Kept.ite
    | intro _
    | extract_lets
    | ((fail_if_success with_reducible apply Kept.eta); first | with_reducible apply Kept.upd))

theorem State.stackLost_kept {s0 : State} (s : State) (hk : Kept s0 s) :
    Kept s0 (State.stackLost s) := by
  unfold State.stackLost
  extract_lets z s1
  with_reducible apply Kept.lost
  with_reducible apply Kept.fold
  · exact hk
  · exact fun s r => State.setFld_kept _ _ _ (State.setFld_kept _ _ _ (Kept.rfl s))

theorem State.shutDown_shed {s0 : State} (s : State) (hk : Shed s0 s) :
    Shed s0 (State.shutDown s) := by
  unfold State.shutDown
  repeat' (first
    | with_reducible exact Shed.rfl _
    | with_reducible assumption
    | (with_reducible apply Shed.step; with_reducible apply State.event_kept; with_reducible exact Kept.rfl _)
    | with_reducible apply State.event_kept
    | with_reducible apply State.dropHost_shed
    | (with_reducible apply Shed.step; with_reducible apply State.setDstate_kept; with_reducible exact Kept.rfl _)
    | with_reducible apply State.setDstate_kept
    | (with_reducible apply Shed.step; with_reducible apply State.setFld_kept; with_reducible exact Kept.rfl _)
    | with_reducible apply State.setFld_kept
    | (with_reducible apply Shed.step; with_reducible apply State.portsDown_kept; with_reducible exact Kept.rfl _)
    | with_reducible apply State.portsDown_kept
    | (with_reducible apply Shed.step; with_reducible apply State.stackLost_kept; with_reducible exact Kept.rfl _)
    | with_reducible apply State.stackLost_kept
    | (with_reducible apply Shed.step; with_reducible apply State.syncAlert_kept; with_reducible exact Kept.rfl _)
    | with_reducible apply State.syncAlert_kept
    | intro _
    | extract_lets
    | ((fail_if_success with_reducible apply Shed.eta); first | with_reducible apply Shed.upd | with_reducible apply Shed.updH))

theorem State.threshold_kept {s0 : State} (s : State) (t level clear run : Int) (f e : Fld) (code : Nat) (hk : Kept s0 s) :
    Kept s0 (State.threshold s t level clear run f e code) := by
  unfold State.threshold
  repeat' (first
    | with_reducible exact Kept.rfl _
    | with_reducible assumption
    | with_reducible apply State.setFld_kept
    | with_reducible apply State.raise_kept
    | with_reducible apply State.event_kept
    | with_reducible apply Kept.ite)

theorem State.stepDuty_kept {s0 : State} (s : State) (t : Int) (hk : Kept s0 s) :
    Kept s0 (State.stepDuty s t) := by
  unfold State.stepDuty
  repeat' (first
    | with_reducible exact Kept.rfl _
    | with_reducible assumption
    | with_reducible apply State.setFld_kept
    | with_reducible apply Kept.ite)

theorem State.thermal_shed {s0 : State} (s : State) (t : Int) (hk : Shed s0 s) :
    Shed s0 (State.thermal s t) := by
  unfold State.thermal
  repeat' (first
    | with_reducible exact Shed.rfl _
    | with_reducible assumption
    | (with_reducible apply Shed.step; with_reducible apply State.setFld_kept; with_reducible exact Kept.rfl _)
    | with_reducible apply State.setFld_kept
    | (with_reducible apply Shed.step; with_reducible apply State.threshold_kept; with_reducible exact Kept.rfl _)
    | with_reducible apply State.threshold_kept
    | with_reducible apply State.shutDown_shed
    | with_reducible apply Shed.ite
    | intro _
    | extract_lets
    | ((fail_if_success with_reducible apply Shed.eta); first | with_reducible apply Shed.upd))

theorem State.sensorBad_kept {s0 : State} (s : State) (hk : Kept s0 s) :
    Kept s0 (State.sensorBad s) := by
  unfold State.sensorBad
  repeat' (first
    | with_reducible exact Kept.rfl _
    | with_reducible assumption
    | with_reducible apply State.raise_kept
    | with_reducible apply State.event_kept
    | with_reducible apply State.sensorGood_kept
    | with_reducible apply State.setFld_kept
    | with_reducible apply State.syncAlert_kept
    | with_reducible apply Kept.ite
    | intro _
    | extract_lets
    | ((fail_if_success with_reducible apply Kept.eta); first | with_reducible apply Kept.upd))

theorem State.sensorGood_kept {s0 : State} (s : State) (hk : Kept s0 s) :
    Kept s0 (State.sensorGood s) := by
  unfold State.sensorGood
  repeat' (first
    | with_reducible exact Kept.rfl _
    | with_reducible assumption
    | with_reducible apply State.setFld_kept
    | with_reducible apply Kept.ite
    | intro _
    | extract_lets
    | ((fail_if_success with_reducible apply Kept.eta); first | with_reducible apply Kept.upd))

theorem execHousekeepingRound_shed (s : State) {t' : State} (eqn : execHousekeepingRound s = .next t') :
    Shed s t' := by
  unfold execHousekeepingRound at eqn
  injection eqn with eqn
  subst eqn
  repeat' (first
    | with_reducible exact Shed.rfl _
    | with_reducible assumption
    | (with_reducible apply Shed.step; with_reducible apply State.setFld_kept; with_reducible exact Kept.rfl _)
    | with_reducible apply State.setFld_kept
    | (with_reducible apply Shed.step; with_reducible apply State.vinLimit_kept; with_reducible exact Kept.rfl _)
    | with_reducible apply State.vinLimit_kept
    | (with_reducible apply Shed.step; with_reducible apply State.sensorBad_kept; with_reducible exact Kept.rfl _)
    | with_reducible apply State.sensorBad_kept
    | (with_reducible apply Shed.step; with_reducible apply State.sensorGood_kept; with_reducible exact Kept.rfl _)
    | with_reducible apply State.sensorGood_kept
    | with_reducible apply State.thermal_shed
    | (with_reducible apply Shed.step; with_reducible apply State.stepDuty_kept; with_reducible exact Kept.rfl _)
    | with_reducible apply State.stepDuty_kept
    | (with_reducible apply Shed.step; with_reducible apply State.syncAlert_kept; with_reducible exact Kept.rfl _)
    | with_reducible apply State.syncAlert_kept
    | with_reducible apply Shed.ite)

theorem State.guardSecond_kept {s0 : State} (s : State) (hk : Kept s0 s) :
    Kept s0 (State.guardSecond s) := by
  unfold State.guardSecond
  repeat' (first
    | with_reducible exact Kept.rfl _
    | with_reducible assumption
    | with_reducible apply State.setFld_kept
    | with_reducible apply State.syncAlert_kept
    | with_reducible apply State.raise_kept
    | with_reducible apply State.event_kept
    | with_reducible apply Kept.ite
    | intro _
    | extract_lets
    | ((fail_if_success with_reducible apply Kept.eta); first | with_reducible apply Kept.upd))

theorem execGuardSecond_kept (s : State) {t' : State} (eqn : execGuardSecond s = .next t') :
    Kept s t' := by
  unfold execGuardSecond at eqn
  injection eqn with eqn
  subst eqn
  repeat' (first
    | with_reducible exact Kept.rfl _
    | with_reducible assumption
    | with_reducible apply State.guardSecond_kept
    | with_reducible apply Kept.ite
    | intro _
    | extract_lets)

theorem State.moveRail_kept {s0 : State} (s : State) (r : Nat) (hk : Kept s0 s) :
    Kept s0 (State.moveRail s r) := by
  unfold State.moveRail
  repeat' (first
    | with_reducible exact Kept.rfl _
    | with_reducible assumption
    | with_reducible apply State.setFld_kept
    | with_reducible apply State.raise_kept
    | with_reducible apply Kept.ite)

theorem State.cadence_kept {s0 : State} (s : State) (n : Nat) (count : Option (Nat × Nat)) (hk : Kept s0 s) :
    Kept s0 (State.cadence s n count) := by
  unfold State.cadence
  repeat' (first
    | with_reducible exact Kept.rfl _
    | with_reducible assumption
    | with_reducible apply State.setFld_kept
    | with_reducible apply State.setBit_kept
    | with_reducible apply State.eventReg_kept
    | with_reducible apply Kept.ite
    | intro _
    | extract_lets
    | split)

theorem execCadenceWindowEnd_kept (counts : List (Option (Nat × Nat))) (s : State) {t' : State} (eqn : execCadenceWindowEnd counts s = .next t') :
    Kept s t' := by
  unfold execCadenceWindowEnd at eqn
  injection eqn with eqn
  subst eqn
  repeat' (first
    | with_reducible exact Kept.rfl _
    | with_reducible assumption
    | with_reducible apply State.cadence_kept
    | with_reducible apply State.moveRail_kept
    | with_reducible apply Kept.fold
    | with_reducible apply Kept.getD
    | with_reducible apply Kept.ite
    | intro _)

theorem State.clearMin_kept {s0 : State} (s : State) (hk : Kept s0 s) :
    Kept s0 (State.clearMin s) := by
  unfold State.clearMin
  repeat' (first
    | with_reducible exact Kept.rfl _
    | with_reducible assumption
    | with_reducible apply State.setFld_kept
    | with_reducible apply Kept.fold
    | intro _)

theorem execMinClear_kept (s : State) {t' : State} (eqn : execMinClear s = .next t') :
    Kept s t' := by
  unfold execMinClear at eqn
  injection eqn with eqn
  subst eqn
  repeat' (first
    | with_reducible exact Kept.rfl _
    | with_reducible assumption
    | with_reducible apply State.clearMin_kept
    | with_reducible apply Kept.ite)

theorem State.setFollower_kept {s0 : State} (s : State) (d : TbDie) (v : W64) (hk : Kept s0 s) :
    Kept s0 (State.setFollower s d v) := by
  unfold State.setFollower
  repeat' (first
    | with_reducible exact Kept.rfl _
    | with_reducible assumption
    | intro _
    | extract_lets
    | split
    | ((with_reducible conv => arg 2; whnf); split)
    | ((fail_if_success with_reducible apply Kept.eta); first | with_reducible apply Kept.upd))

theorem State.tick_kept {s0 : State} (s : State) (hk : Kept s0 s) :
    Kept s0 (State.tick s) := by
  unfold State.tick
  repeat' (first
    | with_reducible exact Kept.rfl _
    | with_reducible assumption
    | with_reducible apply State.drainPorts_kept
    | with_reducible apply State.rglTick_kept
    | with_reducible apply Kept.ite
    | intro _
    | extract_lets
    | ((fail_if_success with_reducible apply Kept.eta); first | with_reducible apply Kept.upd))

theorem State.tbDisagreed_kept {s0 : State} (s : State) (die : TbDie) (hk : Kept s0 s) :
    Kept s0 (State.tbDisagreed s die) := by
  unfold State.tbDisagreed
  repeat' (first
    | with_reducible exact Kept.rfl _
    | with_reducible assumption
    | with_reducible apply State.eventReg_kept)

theorem State.tbReloaded_kept {s0 : State} (s : State) (die : TbDie) (v : W64) (hk : Kept s0 s) :
    Kept s0 (State.tbReloaded s die v) := by
  unfold State.tbReloaded
  repeat' (first
    | with_reducible exact Kept.rfl _
    | with_reducible assumption
    | with_reducible apply State.setFollower_kept
    | with_reducible apply State.raise_kept
    | with_reducible apply State.eventReg_kept)

theorem State.tbCheck_kept {s0 : State} (s : State) (die : TbDie) (valA valB : W64) (hk : Kept s0 s) :
    Kept s0 (State.tbCheck s die valA valB) := by
  unfold State.tbCheck
  repeat' (first
    | with_reducible exact Kept.rfl _
    | with_reducible assumption
    | with_reducible apply State.tbDisagreed_kept
    | with_reducible apply State.tbReloaded_kept
    | with_reducible apply Kept.ite)

theorem execTbValueCheck_kept (die : TbDie) (valA valB : W64) (s : State) {t' : State} (eqn : execTbValueCheck die valA valB s = .next t') :
    Kept s t' := by
  unfold execTbValueCheck at eqn
  injection eqn with eqn
  subst eqn
  repeat' (first
    | with_reducible exact Kept.rfl _
    | with_reducible assumption
    | with_reducible apply State.tbCheck_kept
    | with_reducible apply Kept.ite)

theorem State.pathGone_kept {s0 : State} (s : State) (onCd pathB : Bool) (hk : Kept s0 s) :
    Kept s0 (State.pathGone s onCd pathB) := by
  unfold State.pathGone
  repeat' (first
    | with_reducible exact Kept.rfl _
    | with_reducible assumption
    | with_reducible apply State.setFld_kept
    | with_reducible apply State.eventReg_kept)

theorem execTbPathLost_kept (onCd pathB : Bool) (s : State) {t' : State} (eqn : execTbPathLost onCd pathB s = .next t') :
    Kept s t' := by
  unfold execTbPathLost at eqn
  injection eqn with eqn
  subst eqn
  repeat' (first
    | with_reducible exact Kept.rfl _
    | with_reducible assumption
    | with_reducible apply State.pathGone_kept
    | with_reducible apply State.deviceScope_kept
    | with_reducible apply Kept.ite)

theorem State.copyGone_kept {s0 : State} (s : State) (copyB : Bool) (hk : Kept s0 s) :
    Kept s0 (State.copyGone s copyB) := by
  unfold State.copyGone
  repeat' (first
    | with_reducible exact Kept.rfl _
    | with_reducible assumption
    | with_reducible apply State.event_kept
    | with_reducible apply Kept.ite
    | intro _
    | extract_lets
    | ((fail_if_success with_reducible apply Kept.eta); first | with_reducible apply Kept.upd))

theorem execSidebandCopyLost_kept (copyB : Bool) (s : State) {t' : State} (eqn : execSidebandCopyLost copyB s = .next t') :
    Kept s t' := by
  unfold execSidebandCopyLost at eqn
  injection eqn with eqn
  subst eqn
  repeat' (first
    | with_reducible exact Kept.rfl _
    | with_reducible assumption
    | with_reducible apply State.copyGone_kept
    | with_reducible apply State.deviceScope_kept
    | with_reducible apply Kept.ite)

theorem State.markSite_kept {s0 : State} (s : State) (iface group site : Nat) (hk : Kept s0 s) :
    Kept s0 (State.markSite s iface group site) := by
  unfold State.markSite
  repeat' (first
    | with_reducible exact Kept.rfl _
    | with_reducible assumption
    | with_reducible apply Kept.ite
    | intro _
    | extract_lets
    | ((fail_if_success with_reducible apply Kept.eta); first | with_reducible apply Kept.upd))

theorem State.endTest_kept {s0 : State} (s : State) (iface group : Nat) (hk : Kept s0 s) :
    Kept s0 (State.endTest s iface group) := by
  unfold State.endTest
  repeat' (first
    | with_reducible exact Kept.rfl _
    | with_reducible assumption
    | intro _
    | extract_lets
    | ((fail_if_success with_reducible apply Kept.eta); first | with_reducible apply Kept.upd))

theorem execVifParityMismatch_kept (iface group : Nat) (repeatFails : Bool) (s : State) {t' : State} (eqn : execVifParityMismatch iface group repeatFails s = .next t') :
    Kept s t' := by
  unfold execVifParityMismatch at eqn
  injection eqn with eqn
  subst eqn
  repeat' (first
    | with_reducible exact Kept.rfl _
    | with_reducible assumption
    | with_reducible apply State.incFld_kept
    | with_reducible apply Kept.ite
    | intro _
    | extract_lets
    | ((fail_if_success with_reducible apply Kept.eta); first | with_reducible apply Kept.upd))

theorem State.vifRetire_kept {s0 : State} (s : State) (iface group cause : Nat) (hk : Kept s0 s) :
    Kept s0 (State.vifRetire s iface group cause) := by
  unfold State.vifRetire
  repeat' (first
    | with_reducible exact Kept.rfl _
    | with_reducible assumption
    | with_reducible apply State.endTest_kept
    | with_reducible apply State.raise_kept
    | with_reducible apply State.incFld_kept
    | with_reducible apply State.eventReg_kept
    | with_reducible apply State.retireSlice_kept)

theorem State.showSpares_kept {s0 : State} (s : State) (i : Nat) (hk : Kept s0 s) :
    Kept s0 (State.showSpares s i) := by
  unfold State.showSpares
  repeat' (first
    | with_reducible exact Kept.rfl _
    | with_reducible assumption
    | with_reducible apply State.setFld_kept
    | with_reducible apply Kept.fold
    | intro _
    | extract_lets)

theorem State.vifNotFound_kept {s0 : State} (s : State) (iface group : Nat) (hk : Kept s0 s) :
    Kept s0 (State.vifNotFound s iface group) := by
  unfold State.vifNotFound
  repeat' (first
    | with_reducible exact Kept.rfl _
    | with_reducible assumption
    | with_reducible apply State.raise_kept
    | with_reducible apply State.eventReg_kept
    | with_reducible apply State.vifRetire_kept
    | with_reducible apply State.endTest_kept
    | with_reducible apply Kept.ite
    | intro _
    | extract_lets
    | ((fail_if_success with_reducible apply Kept.eta); first | with_reducible apply Kept.upd))

theorem State.vifSteer_kept {s0 : State} (s : State) (iface group : Nat) (at' : Nat × Nat) (thirdOk : Bool) (hk : Kept s0 s) :
    Kept s0 (State.vifSteer s iface group at' thirdOk) := by
  unfold State.vifSteer
  repeat' (first
    | with_reducible exact Kept.rfl _
    | with_reducible assumption
    | with_reducible apply State.markSite_kept
    | with_reducible apply State.showSpares_kept
    | with_reducible apply State.vifRetire_kept
    | with_reducible apply State.raise_kept
    | with_reducible apply State.eventReg_kept
    | with_reducible apply State.addDefect_kept
    | with_reducible apply State.endTest_kept
    | with_reducible apply Kept.ite
    | intro _
    | extract_lets)

theorem State.vifLocated_kept {s0 : State} (s : State) (iface group site : Nat) (thirdOk : Bool) (hk : Kept s0 s) :
    Kept s0 (State.vifLocated s iface group site thirdOk) := by
  unfold State.vifLocated
  repeat' (first
    | with_reducible exact Kept.rfl _
    | with_reducible assumption
    | with_reducible apply State.vifNotFound_kept
    | with_reducible apply State.vifSteer_kept
    | with_reducible apply State.markSite_kept
    | with_reducible apply State.showSpares_kept
    | with_reducible apply State.addDefect_kept
    | with_reducible apply Kept.ite)

end Sys2Proof.Machine
end

