-- ==== Sys2Proof/Laws/Keep5.lean ====
section
/-! SUPPORT. One lemma for each operation and each command: it leaves what `Kept` (`Shed`) names (Stack to Underlayer). -/

namespace Sys2Proof.Machine

theorem execVifWireTestComplete_kept (iface group : Nat) (located : Option Nat) (thirdOk : Bool) (s : State) {t' : State} (eqn : execVifWireTestComplete iface group located thirdOk s = .next t') :
    Kept s t' := by
  unfold execVifWireTestComplete at eqn
  injection eqn with eqn
  subst eqn
  repeat' (first
    | with_reducible exact Kept.rfl _
    | with_reducible assumption
    | with_reducible apply State.vifLocated_kept
    | with_reducible apply State.vifNotFound_kept
    | with_reducible apply Kept.ite
    | intro _
    | extract_lets
    | split)

theorem State.weaken_kept {s0 : State} (s : State) (g : SenseGroup) (hk : Kept s0 s) :
    Kept s0 (State.weaken s g) := by
  unfold State.weaken
  repeat' (first
    | with_reducible exact Kept.rfl _
    | with_reducible assumption
    | with_reducible apply State.incFld_kept
    | with_reducible apply State.eventReg_kept
    | with_reducible apply State.addDefect_kept
    | with_reducible apply State.updCap_kept
    | with_reducible apply State.event_kept
    | with_reducible apply Kept.ite
    | intro _
    | extract_lets
    | ((fail_if_success with_reducible apply Kept.eta); first | with_reducible apply Kept.upd))

theorem execTsvSenseRead_kept (weak : List SenseGroup) (s : State) {t' : State} (eqn : execTsvSenseRead weak s = .next t') :
    Kept s t' := by
  unfold execTsvSenseRead at eqn
  injection eqn with eqn
  subst eqn
  repeat' (first
    | with_reducible exact Kept.rfl _
    | with_reducible assumption
    | with_reducible apply State.weaken_kept
    | with_reducible apply Kept.fold
    | with_reducible apply Kept.ite
    | intro _)

theorem State.setBridge_kept {s0 : State} (s : State) (k : Nat) (p : BridgePair) (hk : Kept s0 s) :
    Kept s0 (State.setBridge s k p) := by
  unfold State.setBridge
  repeat' (first
    | with_reducible exact Kept.rfl _
    | with_reducible assumption
    | intro _
    | extract_lets
    | ((fail_if_success with_reducible apply Kept.eta); first | with_reducible apply Kept.upd))

theorem State.sendFlit_kept {s0 : State} (s : State) (k ftype seq : Nat) (units : List BridgeUnit) (hk : Kept s0 s) :
    Kept s0 (State.sendFlit s k ftype seq units) := by
  unfold State.sendFlit
  repeat' (first
    | with_reducible exact Kept.rfl _
    | with_reducible assumption
    | with_reducible apply State.setBridge_kept
    | intro _
    | extract_lets
    | ((fail_if_success with_reducible apply Kept.eta); first | with_reducible apply Kept.upd))

theorem State.pump_kept {s0 : State}  (y0 : Nat) (s : State) (y2 : Nat) (hk : Kept s0 s) :
    Kept s0 (State.pump y0 s y2) := by
  induction y0 generalizing s y2 with
  | zero =>
    unfold State.pump
    exact hk
  | succ n ih =>
    unfold State.pump
    repeat' (first
      | with_reducible apply ih
      | with_reducible exact Kept.rfl _
      | with_reducible assumption
      | with_reducible apply State.setBridge_kept
      | with_reducible apply State.nextSeq_kept
      | (with_reducible apply State.nextSeq_kept_eq; assumption)
      | with_reducible apply State.sendFlit_kept
      | with_reducible apply Kept.fold
      | with_reducible apply Kept.ite
      | intro _
      | extract_lets
      | split
      | ((with_reducible conv => arg 2; whnf); split)
      | ((fail_if_success with_reducible apply Kept.eta); first | with_reducible apply Kept.upd))

theorem State.pumpEnd_kept {s0 : State} (s : State) (k : Nat) (hk : Kept s0 s) :
    Kept s0 (State.pumpEnd s k) := by
  unfold State.pumpEnd
  repeat' (first
    | with_reducible exact Kept.rfl _
    | with_reducible assumption
    | with_reducible apply State.pump_kept
    | intro _
    | extract_lets)

theorem State.replayAll_kept {s0 : State} (s : State) (k : Nat) (hk : Kept s0 s) :
    Kept s0 (State.replayAll s k) := by
  unfold State.replayAll
  repeat' (first
    | with_reducible exact Kept.rfl _
    | with_reducible assumption
    | with_reducible apply State.sendFlit_kept
    | with_reducible apply Kept.fold
    | intro _
    | extract_lets)

theorem State.offerUnits_kept {s0 : State} (s : State) (atU0 : Bool) (units : List BridgeUnit) (hk : Kept s0 s) :
    Kept s0 (State.offerUnits s atU0 units) := by
  unfold State.offerUnits
  repeat' (first
    | with_reducible exact Kept.rfl _
    | with_reducible assumption
    | with_reducible apply State.setBridge_kept
    | with_reducible apply Kept.fold
    | intro _
    | extract_lets
    | ((fail_if_success with_reducible apply Kept.eta); first | with_reducible apply Kept.upd))

theorem State.pumpSide_kept {s0 : State} (s : State) (atU0 : Bool) (hk : Kept s0 s) :
    Kept s0 (State.pumpSide s atU0) := by
  unfold State.pumpSide
  repeat' (first
    | with_reducible exact Kept.rfl _
    | with_reducible assumption
    | with_reducible apply State.pumpEnd_kept
    | with_reducible apply Kept.fold
    | intro _
    | extract_lets)

theorem State.steerAway_kept {s0 : State} (s : State) (g : Nat) (hk : Kept s0 s) :
    Kept s0 (State.steerAway s g) := by
  unfold State.steerAway
  repeat' (first
    | with_reducible exact Kept.rfl _
    | with_reducible assumption
    | with_reducible apply Kept.getD
    | with_reducible apply Kept.ite
    | intro _
    | extract_lets
    | ((fail_if_success with_reducible apply Kept.eta); first | with_reducible apply Kept.upd))

theorem State.resendFlits_kept {s0 : State} (s : State) (g : Nat) (hk : Kept s0 s) :
    Kept s0 (State.resendFlits s g) := by
  unfold State.resendFlits
  repeat' (first
    | with_reducible exact Kept.rfl _
    | with_reducible assumption
    | with_reducible apply State.setBridge_kept
    | with_reducible apply State.offerUnits_kept
    | with_reducible apply State.pumpSide_kept)

theorem State.retirePair_kept {s0 : State} (s : State) (g : Nat) (hk : Kept s0 s) :
    Kept s0 (State.retirePair s g) := by
  unfold State.retirePair
  repeat' (first
    | with_reducible exact Kept.rfl _
    | with_reducible assumption
    | with_reducible apply State.setBit_kept
    | with_reducible apply State.setFld_kept
    | with_reducible apply State.steerAway_kept
    | with_reducible apply State.resendFlits_kept
    | with_reducible apply State.event_kept
    | with_reducible apply State.addDefect_kept
    | with_reducible apply State.failDevice_kept
    | with_reducible apply Kept.ite)

theorem State.discardFlit_kept {s0 : State} (s : State) (atU0 : Bool) (g : Nat) (replay : Bool) (hk : Kept s0 s) :
    Kept s0 (State.discardFlit s atU0 g replay) := by
  unfold State.discardFlit
  repeat' (first
    | with_reducible exact Kept.rfl _
    | with_reducible assumption
    | with_reducible apply State.retirePair_kept
    | with_reducible apply State.setBridge_kept
    | with_reducible apply State.sendFlit_kept
    | with_reducible apply Kept.ite)

theorem State.ackFlit_kept {s0 : State} (s : State) (k : Nat) (h : BitVec 112) (hk : Kept s0 s) :
    Kept s0 (State.ackFlit s k h) := by
  unfold State.ackFlit
  repeat' (first
    | with_reducible exact Kept.rfl _
    | with_reducible assumption
    | with_reducible apply State.setBridge_kept
    | with_reducible apply State.replayAll_kept
    | with_reducible apply Kept.ite
    | intro _
    | extract_lets
    | ((fail_if_success with_reducible apply Kept.eta); first | with_reducible apply Kept.upd))

theorem State.takeSlots_kept {s0 : State} (s : State) (k : Nat) (flit : List Byte) (ftype : Nat) (hk : Kept s0 s) :
    Kept s0 (State.takeSlots s k flit ftype) := by
  unfold State.takeSlots
  repeat' (first
    | with_reducible exact Kept.rfl _
    | with_reducible assumption
    | with_reducible apply State.setBridge_kept
    | with_reducible apply State.sendFlit_kept
    | with_reducible apply State.incFld_kept
    | with_reducible apply Kept.fold
    | with_reducible apply Kept.ite
    | intro _
    | extract_lets
    | ((fail_if_success with_reducible apply Kept.eta); first | with_reducible apply Kept.upd))

theorem State.acceptFlit_kept {s0 : State} (s : State) (atU0 : Bool) (g : Nat) (flit : List Byte) (ftype : Nat) (hk : Kept s0 s) :
    Kept s0 (State.acceptFlit s atU0 g flit ftype) := by
  unfold State.acceptFlit
  repeat' (first
    | with_reducible exact Kept.rfl _
    | with_reducible assumption
    | with_reducible apply State.ackFlit_kept
    | with_reducible apply State.takeSlots_kept)

theorem State.sendUnits_kept {s0 : State} (s : State) (atU0 : Bool) (units : List BridgeUnit) (hk : Kept s0 s) :
    Kept s0 (State.sendUnits s atU0 units) := by
  unfold State.sendUnits
  repeat' (first
    | with_reducible exact Kept.rfl _
    | with_reducible assumption
    | with_reducible apply State.offerUnits_kept
    | with_reducible apply State.pumpSide_kept
    | intro _
    | extract_lets)

theorem State.offWire_kept {s0 : State} (s : State) (atU0 : Bool) (g : Nat) (hk : Kept s0 s) :
    Kept s0 (State.offWire s atU0 g) := by
  unfold State.offWire
  repeat' (first
    | with_reducible exact Kept.rfl _
    | with_reducible assumption
    | with_reducible apply State.setBridge_kept
    | intro _
    | extract_lets
    | ((fail_if_success with_reducible apply Kept.eta); first | with_reducible apply Kept.upd))

theorem execBridgeFlitReceive_kept (pair : Nat) (rx : BridgeRx) (s : State) {t' : State} (eqn : execBridgeFlitReceive pair rx s = .next t') :
    Kept s t' := by
  unfold execBridgeFlitReceive at eqn
  injection eqn with eqn
  subst eqn
  repeat' (first
    | with_reducible exact Kept.rfl _
    | with_reducible assumption
    | with_reducible apply State.offWire_kept
    | with_reducible apply State.discardFlit_kept
    | with_reducible apply State.acceptFlit_kept
    | with_reducible apply State.sendUnits_kept
    | with_reducible apply Kept.ite)

theorem State.loseLines_kept {s0 : State} (s : State) (x : Nat) (lost : List (Nat × LostData)) (hk : Kept s0 s) :
    Kept s0 (State.loseLines s x lost) := by
  unfold State.loseLines
  repeat' (first
    | with_reducible exact Kept.rfl _
    | with_reducible assumption
    | with_reducible apply State.dropLine_kept
    | with_reducible apply State.hbmPutSector_kept
    | with_reducible apply State.raise_kept
    | with_reducible apply State.addFld_kept
    | with_reducible apply State.ownerActs_kept
    | with_reducible apply Kept.fold
    | with_reducible apply Kept.ite
    | intro _)

theorem State.retireChannel_kept {s0 : State} (s : State) (ch : Nat) (lost : List (Nat × LostData)) (hk : Kept s0 s) :
    Kept s0 (State.retireChannel s ch lost) := by
  unfold State.retireChannel
  repeat' (first
    | with_reducible exact Kept.rfl _
    | with_reducible assumption
    | with_reducible apply State.setBit_kept
    | with_reducible apply State.raise_kept
    | with_reducible apply State.event_kept
    | with_reducible apply State.addDefect_kept
    | with_reducible apply State.retireSlice_kept
    | with_reducible apply State.loseLines_kept
    | with_reducible apply State.setRglPoint_kept
    | with_reducible apply State.endRetire_kept
    | with_reducible apply State.checkSlices_kept
    | with_reducible apply Kept.ite
    | ((fail_if_success with_reducible apply Kept.eta); first | with_reducible apply Kept.upd))

theorem execHbmTransferError_kept (ch : Nat) (repeatFails : Bool) (lost : List (Nat × LostData)) (s : State) {t' : State} (eqn : execHbmTransferError ch repeatFails lost s = .next t') :
    Kept s t' := by
  unfold execHbmTransferError at eqn
  injection eqn with eqn
  subst eqn
  repeat' (first
    | with_reducible exact Kept.rfl _
    | with_reducible assumption
    | with_reducible apply State.retireChannel_kept
    | with_reducible apply Kept.ite)

theorem execMma_kept (g : GroupRef) (desc sOff sScale : Nat) (s : State) {t' : State} (eqn : execMma g desc sOff sScale s = .next t') :
    Kept s t' := by
  unfold execMma at eqn
  injection eqn with eqn
  subst eqn
  repeat' (first
    | with_reducible exact Kept.rfl _
    | with_reducible assumption
    | (with_reducible refine Kept.group ?_ (by assumption))
    | (with_reducible refine Tile.launch_wf (by assumption) ?_)
    | with_reducible apply Kept.tile
    | with_reducible apply Group.next_wf
    | ((fail_if_success with_reducible apply Group.wf_eta); with_reducible apply Group.wf_upd)
    | ((fail_if_success with_reducible apply Tile.wf_eta); with_reducible apply Tile.wf_upd)
    | with_reducible exact fun _ => emptyTile_wf
    | with_reducible apply State.issue_kept
    | with_reducible apply State.issueMat_kept
    | intro _
    | extract_lets
    | split)

theorem execMmap_kept (g : GroupRef) (desc count sOff sScale : Nat) (s : State) {t' : State} (eqn : execMmap g desc count sOff sScale s = .next t') :
    Kept s t' := by
  unfold execMmap at eqn
  injection eqn with eqn
  subst eqn
  repeat' (first
    | with_reducible exact Kept.rfl _
    | with_reducible assumption
    | (with_reducible refine Kept.group ?_ (by assumption))
    | (with_reducible refine Tile.launch_wf (by assumption) ?_)
    | with_reducible apply Kept.tile
    | with_reducible apply Group.next_wf
    | ((fail_if_success with_reducible apply Group.wf_eta); with_reducible apply Group.wf_upd)
    | ((fail_if_success with_reducible apply Tile.wf_eta); with_reducible apply Tile.wf_upd)
    | with_reducible exact fun _ => emptyTile_wf
    | with_reducible apply State.issue_kept
    | with_reducible apply State.issueMat_kept
    | with_reducible apply Kept.ite
    | intro _
    | extract_lets
    | split)

theorem execMwait_kept (g : GroupRef) (n : Nat) (s : State) {t' : State} (eqn : execMwait g n s = .next t') :
    Kept s t' := by
  unfold execMwait at eqn
  injection eqn with eqn
  subst eqn
  repeat' (first
    | with_reducible exact Kept.rfl _
    | with_reducible assumption
    | (with_reducible refine Kept.group ?_ (by assumption))
    | (with_reducible refine Tile.launch_wf (by assumption) ?_)
    | with_reducible apply Kept.tile
    | with_reducible apply Group.next_wf
    | with_reducible exact fun _ => emptyTile_wf
    | with_reducible apply State.issue_kept
    | with_reducible apply State.groupFault_kept
    | with_reducible apply State.stepOn_kept
    | with_reducible apply Kept.ite
    | intro _)

theorem State.noteSkips_kept {s0 : State} (s : State) (c p : Nat) (m : MatOp) (n : Nat) (hk : Kept s0 s) :
    Kept s0 (State.noteSkips s c p m n) := by
  unfold State.noteSkips
  repeat' (first
    | with_reducible exact Kept.rfl _
    | with_reducible assumption
    | (with_reducible refine Kept.group ?_ (by assumption))
    | (with_reducible refine Tile.launch_wf (by assumption) ?_)
    | with_reducible apply Kept.tile
    | with_reducible apply Tile.addFlags_wf
    | with_reducible exact fun _ => emptyTile_wf
    | with_reducible apply State.setTile_kept
    | with_reducible apply State.addFld_kept
    | with_reducible apply Kept.ite)

theorem State.transient_kept {s0 : State} (s : State) (c p : Nat) (hk : Kept s0 s) :
    Kept s0 (State.transient s c p) := by
  unfold State.transient
  repeat' (first
    | with_reducible exact Kept.rfl _
    | with_reducible assumption
    | (with_reducible refine Kept.group ?_ (by assumption))
    | (with_reducible refine Tile.launch_wf (by assumption) ?_)
    | with_reducible apply Kept.tile
    | ((fail_if_success with_reducible apply Group.wf_eta); with_reducible apply Group.wf_upd)
    | ((fail_if_success with_reducible apply Tile.wf_eta); with_reducible apply Tile.wf_upd)
    | with_reducible exact fun _ => emptyTile_wf
    | with_reducible apply State.setTile_kept
    | with_reducible apply State.incFld_kept
    | with_reducible apply State.raise_kept
    | with_reducible apply State.event_kept
    | with_reducible apply State.retireTile_kept
    | with_reducible apply Kept.ite)

theorem State.passOk_kept {s0 : State} (s : State) (c p at' sub : Nat) (r : SubRun) (d : MatDesc) (packed : Bool) (hk : Kept s0 s) :
    Kept s0 (State.passOk s c p at' sub r d packed) := by
  unfold State.passOk
  repeat' (first
    | with_reducible exact Kept.rfl _
    | with_reducible assumption
    | (with_reducible refine Kept.group ?_ (by assumption))
    | (with_reducible refine Tile.launch_wf (by assumption) ?_)
    | with_reducible apply Kept.tile
    | with_reducible apply Tile.setSub_wf
    | with_reducible exact fun _ => emptyTile_wf
    | with_reducible apply State.setTile_kept
    | with_reducible apply State.transient_kept
    | with_reducible apply Kept.ite)

theorem State.passBad_kept {s0 : State} (s : State) (c p at' sub : Nat) (r : SubRun) (hk : Kept s0 s) :
    Kept s0 (State.passBad s c p at' sub r) := by
  unfold State.passBad
  repeat' (first
    | with_reducible exact Kept.rfl _
    | with_reducible assumption
    | (with_reducible refine Kept.group ?_ (by assumption))
    | (with_reducible refine Tile.launch_wf (by assumption) ?_)
    | with_reducible apply Kept.tile
    | with_reducible apply Tile.setSub_wf
    | with_reducible exact fun _ => emptyTile_wf
    | with_reducible apply State.retireTile_kept
    | with_reducible apply State.setTile_kept
    | with_reducible apply Kept.ite)

theorem State.passEnd_kept {s0 : State} (s : State) (c p at' sub : Nat) (m : MatOp) (r : SubRun) (d : MatDesc) (mismatch mergeDiffers : Bool) (hk : Kept s0 s) :
    Kept s0 (State.passEnd s c p at' sub m r d mismatch mergeDiffers) := by
  unfold State.passEnd
  repeat' (first
    | with_reducible exact Kept.rfl _
    | with_reducible assumption
    | with_reducible apply State.noteSkips_kept
    | with_reducible apply State.passBad_kept
    | with_reducible apply State.passOk_kept
    | with_reducible apply Kept.ite)

theorem execMatrixPassEnd_kept (c t sub : Nat) (e : PassErrors) (s : State) {t' : State} (eqn : execMatrixPassEnd c t sub e s = .next t') :
    Kept s t' := by
  unfold execMatrixPassEnd at eqn
  injection eqn with eqn
  subst eqn
  repeat' (first
    | with_reducible exact Kept.rfl _
    | with_reducible assumption
    | with_reducible apply State.passEnd_kept
    | with_reducible apply Kept.ite
    | intro _
    | extract_lets
    | split)

theorem execMatrixInstructionComplete_kept (c t : Nat) (s : State) {t' : State} (eqn : execMatrixInstructionComplete c t s = .next t') :
    Kept s t' := by
  unfold execMatrixInstructionComplete at eqn
  injection eqn with eqn
  subst eqn
  repeat' (first
    | with_reducible exact Kept.rfl _
    | with_reducible assumption
    | (with_reducible refine Kept.group ?_ (by assumption))
    | (with_reducible refine Tile.launch_wf (by assumption) ?_)
    | with_reducible apply Kept.tile
    | with_reducible apply Group.next_wf
    | with_reducible apply Tile.completeMat_wf
    | ((fail_if_success with_reducible apply Group.wf_eta); with_reducible apply Group.wf_upd)
    | ((fail_if_success with_reducible apply Tile.wf_eta); with_reducible apply Tile.wf_upd)
    | with_reducible exact fun _ => emptyTile_wf
    | with_reducible apply State.putTile_kept
    | intro _
    | extract_lets
    | split)

theorem execSpareAttachComplete_kept (c t : Nat) (s : State) {t' : State} (eqn : execSpareAttachComplete c t s = .next t') :
    Kept s t' := by
  unfold execSpareAttachComplete at eqn
  injection eqn with eqn
  subst eqn
  repeat' (first
    | with_reducible exact Kept.rfl _
    | with_reducible assumption
    | with_reducible apply State.modCluster_kept
    | with_reducible apply State.setBit_kept
    | with_reducible apply State.raise_kept
    | with_reducible apply State.event_kept
    | with_reducible apply State.syncActive_kept
    | with_reducible apply Kept.ite)

theorem execVectorArith_kept (g : GroupRef) (op : VecOp) (d a b c : Nat) (s : State) {t' : State} (eqn : execVectorArith g op d a b c s = .next t') :
    Kept s t' := by
  unfold execVectorArith at eqn
  injection eqn with eqn
  subst eqn
  repeat' (first
    | with_reducible exact Kept.rfl _
    | with_reducible assumption
    | (with_reducible refine Kept.group ?_ (by assumption))
    | (with_reducible refine Tile.launch_wf (by assumption) ?_)
    | with_reducible apply Kept.tile
    | with_reducible apply Group.next_wf
    | with_reducible apply vecRun_wf
    | with_reducible exact fun _ => emptyTile_wf
    | with_reducible apply State.issue_kept
    | with_reducible apply State.stepOn_kept
    | with_reducible apply Kept.ite
    | intro _)

theorem execScalarArith_kept (g : GroupRef) (op : ScalarOp) (d a b : Nat) (s : State) {t' : State} (eqn : execScalarArith g op d a b s = .next t') :
    Kept s t' := by
  unfold execScalarArith at eqn
  injection eqn with eqn
  subst eqn
  repeat' (first
    | with_reducible exact Kept.rfl _
    | with_reducible assumption
    | (with_reducible refine Kept.group ?_ (by assumption))
    | (with_reducible refine Tile.launch_wf (by assumption) ?_)
    | with_reducible apply Kept.tile
    | with_reducible apply Group.next_wf
    | with_reducible apply scalarRun_wf
    | with_reducible exact fun _ => emptyTile_wf
    | with_reducible apply State.issue_kept
    | with_reducible apply State.stepOn_kept
    | with_reducible apply Kept.ite
    | intro _)

theorem execLsLoad_kept (g : GroupRef) (log2Size d a : Nat) (s : State) {t' : State} (eqn : execLsLoad g log2Size d a s = .next t') :
    Kept s t' := by
  unfold execLsLoad at eqn
  injection eqn with eqn
  subst eqn
  repeat' (first
    | with_reducible exact Kept.rfl _
    | with_reducible assumption
    | (with_reducible refine Kept.group ?_ (by assumption))
    | (with_reducible refine Tile.launch_wf (by assumption) ?_)
    | with_reducible apply Kept.tile
    | with_reducible apply Group.setElem_wf
    | with_reducible apply Group.next_wf
    | with_reducible apply Group.mapThreads_wf
    | with_reducible exact fun _ => emptyTile_wf
    | with_reducible apply State.issue_kept
    | with_reducible apply State.groupFault_kept
    | with_reducible apply State.stepOn_kept
    | with_reducible apply Kept.ite
    | intro _)

theorem execLsStore_kept (g : GroupRef) (log2Size a src : Nat) (s : State) {t' : State} (eqn : execLsStore g log2Size a src s = .next t') :
    Kept s t' := by
  unfold execLsStore at eqn
  injection eqn with eqn
  subst eqn
  repeat' (first
    | with_reducible exact Kept.rfl _
    | with_reducible assumption
    | exact storeFold_wf _ _ _ (Tile.ls_wf (Kept.tile (Kept.rfl _)))
    | (with_reducible refine Kept.group ?_ (by assumption))
    | (with_reducible refine Tile.launch_wf (by assumption) ?_)
    | with_reducible apply Kept.tile
    | with_reducible apply Group.next_wf
    | with_reducible exact fun _ => emptyTile_wf
    | with_reducible apply State.issue_kept
    | with_reducible apply State.groupFault_kept
    | with_reducible apply State.stepLs_kept
    | with_reducible apply Kept.fold
    | with_reducible apply Kept.ite
    | intro _)

theorem execLsAtomic_kept (g : GroupRef) (op : AtomicOp) (wide : Bool) (d a src cmp : Nat) (s : State) {t' : State} (eqn : execLsAtomic g op wide d a src cmp s = .next t') :
    Kept s t' := by
  unfold execLsAtomic at eqn
  injection eqn with eqn
  subst eqn
  repeat' (first
    | with_reducible exact Kept.rfl _
    | with_reducible assumption
    | exact (atomicFold_wf _ _ _ _ _ _ _ _ _ (Tile.ls_wf (Kept.tile (Kept.rfl _))) (by assumption)).1
    | exact (atomicFold_wf _ _ _ _ _ _ _ _ _ (Tile.ls_wf (Kept.tile (Kept.rfl _))) (by assumption)).2
    | (with_reducible refine Kept.group ?_ (by assumption))
    | (with_reducible refine Tile.launch_wf (by assumption) ?_)
    | with_reducible apply Kept.tile
    | with_reducible apply Group.next_wf
    | with_reducible exact fun _ => emptyTile_wf
    | with_reducible apply State.issue_kept
    | with_reducible apply State.groupFault_kept
    | with_reducible apply State.stepLs_kept
    | with_reducible apply Kept.fold
    | with_reducible apply Kept.ite
    | intro _)

theorem execGlobalLoad_kept (g : GroupRef) (log2Size d a : Nat) (evict : List Nat) (s : State) {t' : State} (eqn : execGlobalLoad g log2Size d a evict s = .next t') :
    Kept s t' := by
  unfold execGlobalLoad at eqn
  injection eqn with eqn
  subst eqn
  repeat' (first
    | with_reducible exact Kept.rfl _
    | with_reducible assumption
    | (with_reducible refine Kept.group ?_ (by assumption))
    | (with_reducible refine Tile.launch_wf (by assumption) ?_)
    | with_reducible apply Kept.tile
    | with_reducible apply Group.next_wf
    | with_reducible exact fun _ => emptyTile_wf
    | with_reducible apply State.issue_kept
    | with_reducible apply State.issueLoad_kept
    | with_reducible apply State.evict_kept
    | intro _)

theorem execLdNc_kept (g : GroupRef) (log2Size d a : Nat) (s : State) {t' : State} (eqn : execLdNc g log2Size d a s = .next t') :
    Kept s t' := by
  unfold execLdNc at eqn
  injection eqn with eqn
  subst eqn
  repeat' (first
    | with_reducible exact Kept.rfl _
    | with_reducible assumption
    | (with_reducible refine Kept.group ?_ (by assumption))
    | (with_reducible refine Tile.launch_wf (by assumption) ?_)
    | with_reducible apply Kept.tile
    | with_reducible apply Group.next_wf
    | with_reducible exact fun _ => emptyTile_wf
    | with_reducible apply State.issue_kept
    | with_reducible apply State.issueLoad_kept
    | intro _)

theorem execGlobalStore_kept (g : GroupRef) (log2Size a src : Nat) (s : State) {t' : State} (eqn : execGlobalStore g log2Size a src s = .next t') :
    Kept s t' := by
  unfold execGlobalStore at eqn
  injection eqn with eqn
  subst eqn
  repeat' (first
    | with_reducible exact Kept.rfl _
    | with_reducible assumption
    | (with_reducible refine Kept.group ?_ (by assumption))
    | (with_reducible refine Tile.launch_wf (by assumption) ?_)
    | with_reducible apply Kept.tile
    | with_reducible apply Group.next_wf
    | with_reducible apply Tile.noFill_wf
    | ((fail_if_success with_reducible apply Group.wf_eta); with_reducible apply Group.wf_upd)
    | ((fail_if_success with_reducible apply Tile.wf_eta); with_reducible apply Tile.wf_upd)
    | with_reducible exact fun _ => emptyTile_wf
    | with_reducible apply State.issue_kept
    | with_reducible apply State.groupFault_kept
    | with_reducible apply State.sendStores_kept
    | (with_reducible apply State.sendStores_kept_eq; assumption)
    | with_reducible apply State.setTile_kept
    | with_reducible apply State.stepOn_kept
    | with_reducible apply Kept.iteFst
    | with_reducible apply Kept.foldFst
    | with_reducible apply Kept.ite
    | intro _)

theorem execGlobalReduction_kept (g : GroupRef) (op : RedOp) (a src : Nat) (s : State) {t' : State} (eqn : execGlobalReduction g op a src s = .next t') :
    Kept s t' := by
  unfold execGlobalReduction at eqn
  injection eqn with eqn
  subst eqn
  repeat' (first
    | with_reducible exact Kept.rfl _
    | with_reducible assumption
    | (with_reducible refine Kept.group ?_ (by assumption))
    | (with_reducible refine Tile.launch_wf (by assumption) ?_)
    | with_reducible apply Kept.tile
    | with_reducible apply Group.next_wf
    | ((fail_if_success with_reducible apply Group.wf_eta); with_reducible apply Group.wf_upd)
    | ((fail_if_success with_reducible apply Tile.wf_eta); with_reducible apply Tile.wf_upd)
    | with_reducible exact fun _ => emptyTile_wf
    | with_reducible apply State.issue_kept
    | with_reducible apply State.groupFault_kept
    | with_reducible apply State.placeCommit_kept
    | with_reducible apply Kept.ite
    | intro _)

theorem execConstantLoad_kept (g : GroupRef) (log2Size d a : Nat) (s : State) {t' : State} (eqn : execConstantLoad g log2Size d a s = .next t') :
    Kept s t' := by
  unfold execConstantLoad at eqn
  injection eqn with eqn
  subst eqn
  repeat' (first
    | with_reducible exact Kept.rfl _
    | with_reducible assumption
    | exact imp_fold (q := fun (x : State × Group) => x.2.wf) (by assumption) (fun b x k => by dsimp only; split <;> exact Group.setElem_wf _ _ _ _ k)
    | (with_reducible refine Kept.group ?_ (by assumption))
    | (with_reducible refine Tile.launch_wf (by assumption) ?_)
    | with_reducible apply Kept.tile
    | with_reducible apply Group.setElem_wf
    | with_reducible apply Group.next_wf
    | ((fail_if_success with_reducible apply Group.wf_eta); with_reducible apply Group.wf_upd)
    | ((fail_if_success with_reducible apply Tile.wf_eta); with_reducible apply Tile.wf_upd)
    | with_reducible exact fun _ => emptyTile_wf
    | with_reducible apply State.issue_kept
    | with_reducible apply State.groupFault_kept
    | with_reducible apply State.fresh_kept
    | (with_reducible apply State.fresh_kept_eq; assumption)
    | with_reducible apply State.stepOn_kept
    | with_reducible apply Kept.fold
    | with_reducible apply Kept.iteFst
    | with_reducible apply Kept.foldFst
    | with_reducible apply Kept.ite
    | intro _
    | extract_lets
    | split)

theorem execInvalL1_kept (g : GroupRef) (s : State) {t' : State} (eqn : execInvalL1 g s = .next t') :
    Kept s t' := by
  unfold execInvalL1 at eqn
  injection eqn with eqn
  subst eqn
  repeat' (first
    | with_reducible exact Kept.rfl _
    | with_reducible assumption
    | (with_reducible refine Kept.group ?_ (by assumption))
    | (with_reducible refine Tile.launch_wf (by assumption) ?_)
    | with_reducible apply Kept.tile
    | with_reducible apply Group.next_wf
    | with_reducible apply Tile.invalL1_wf
    | with_reducible exact fun _ => emptyTile_wf
    | with_reducible apply State.issue_kept
    | with_reducible apply State.setTile_kept
    | with_reducible apply State.stepOn_kept
    | intro _)

theorem execFenceGl_kept (g : GroupRef) (s : State) {t' : State} (eqn : execFenceGl g s = .next t') :
    Kept s t' := by
  unfold execFenceGl at eqn
  injection eqn with eqn
  subst eqn
  repeat' (first
    | with_reducible exact Kept.rfl _
    | with_reducible assumption
    | (with_reducible refine Kept.group ?_ (by assumption))
    | (with_reducible refine Tile.launch_wf (by assumption) ?_)
    | with_reducible apply Kept.tile
    | with_reducible apply Group.next_wf
    | with_reducible exact fun _ => emptyTile_wf
    | with_reducible apply State.issue_kept
    | with_reducible apply State.stepOn_kept
    | with_reducible apply Kept.ite
    | intro _)

theorem execFenceLs_kept (g : GroupRef) (s : State) {t' : State} (eqn : execFenceLs g s = .next t') :
    Kept s t' := by
  unfold execFenceLs at eqn
  injection eqn with eqn
  subst eqn
  repeat' (first
    | with_reducible exact Kept.rfl _
    | with_reducible assumption
    | (with_reducible refine Kept.group ?_ (by assumption))
    | (with_reducible refine Tile.launch_wf (by assumption) ?_)
    | with_reducible apply Kept.tile
    | with_reducible apply Group.next_wf
    | with_reducible exact fun _ => emptyTile_wf
    | with_reducible apply State.issue_kept
    | with_reducible apply State.stepOn_kept
    | intro _)

theorem execBrc_kept (g : GroupRef) (p target reconv : Nat) (s : State) {t' : State} (eqn : execBrc g p target reconv s = .next t') :
    Kept s t' := by
  unfold execBrc at eqn
  injection eqn with eqn
  subst eqn
  repeat' (first
    | with_reducible exact Kept.rfl _
    | with_reducible assumption
    | (with_reducible refine Kept.group ?_ (by assumption))
    | (with_reducible refine Tile.launch_wf (by assumption) ?_)
    | with_reducible apply Kept.tile
    | with_reducible apply Group.fetch_wf
    | with_reducible apply Group.next_wf
    | with_reducible apply Group.take_wf
    | ((fail_if_success with_reducible apply Group.wf_eta); with_reducible apply Group.wf_upd)
    | ((fail_if_success with_reducible apply Tile.wf_eta); with_reducible apply Tile.wf_upd)
    | with_reducible exact fun _ => emptyTile_wf
    | with_reducible apply State.issue_kept
    | with_reducible apply State.taken_kept
    | with_reducible apply State.stepOn_kept
    | with_reducible apply State.setGroup_kept
    | with_reducible apply State.groupFault_kept
    | with_reducible apply Kept.ite
    | intro _)

theorem execBackwardBranch_kept (g : GroupRef) (target : Nat) (s : State) {t' : State} (eqn : execBackwardBranch g target s = .next t') :
    Kept s t' := by
  unfold execBackwardBranch at eqn
  injection eqn with eqn
  subst eqn
  repeat' (first
    | with_reducible exact Kept.rfl _
    | with_reducible assumption
    | (with_reducible refine Kept.group ?_ (by assumption))
    | (with_reducible refine Tile.launch_wf (by assumption) ?_)
    | with_reducible apply Kept.tile
    | with_reducible apply Group.fetch_wf
    | with_reducible apply Group.next_wf
    | with_reducible apply Group.take_wf
    | with_reducible exact fun _ => emptyTile_wf
    | with_reducible apply State.issue_kept
    | with_reducible apply State.setGroup_kept
    | intro _)

theorem execExit_kept (g : GroupRef) (s : State) {t' : State} (eqn : execExit g s = .next t') :
    Kept s t' := by
  unfold execExit at eqn
  injection eqn with eqn
  subst eqn
  repeat' (first
    | with_reducible exact Kept.rfl _
    | with_reducible assumption
    | (with_reducible refine Kept.group ?_ (by assumption))
    | (with_reducible refine Tile.launch_wf (by assumption) ?_)
    | with_reducible apply Kept.tile
    | with_reducible apply Group.fetch_wf
    | with_reducible apply Group.next_wf
    | with_reducible apply Group.exitThreads_wf
    | with_reducible apply Tile.sweepEnded_wf
    | with_reducible apply Tile.releaseBar_wf
    | with_reducible exact fun _ => emptyTile_wf
    | with_reducible apply State.issue_kept
    | with_reducible apply State.setGroup_kept
    | with_reducible apply State.putTile_kept
    | intro _)

theorem execBar_kept (g : GroupRef) (n : Nat) (s : State) {t' : State} (eqn : execBar g n s = .next t') :
    Kept s t' := by
  unfold execBar at eqn
  injection eqn with eqn
  subst eqn
  repeat' (first
    | with_reducible exact Kept.rfl _
    | with_reducible assumption
    | (with_reducible refine Kept.group ?_ (by assumption))
    | (with_reducible refine Tile.launch_wf (by assumption) ?_)
    | with_reducible apply Kept.tile
    | with_reducible apply Group.next_wf
    | with_reducible apply Tile.releaseBar_wf
    | ((fail_if_success with_reducible apply Group.wf_eta); with_reducible apply Group.wf_upd)
    | ((fail_if_success with_reducible apply Tile.wf_eta); with_reducible apply Tile.wf_upd)
    | with_reducible exact fun _ => emptyTile_wf
    | with_reducible apply State.issue_kept
    | with_reducible apply State.groupFault_kept
    | with_reducible apply State.stepOn_kept
    | with_reducible apply State.setTile_kept
    | with_reducible apply Kept.ite
    | intro _)

theorem execLockAcq_kept (g : GroupRef) (a p : Nat) (s : State) {t' : State} (eqn : execLockAcq g a p s = .next t') :
    Kept s t' := by
  unfold execLockAcq at eqn
  injection eqn with eqn
  subst eqn
  repeat' (first
    | with_reducible exact Kept.rfl _
    | with_reducible assumption
    | exact (lockFold_wf _ _ _ _ _ _ (Tile.ls_wf (Kept.tile (Kept.rfl _))) (by assumption)).2
    | exact Tile.updLs_wf (lockFold_wf _ _ _ _ _ _ (Tile.ls_wf (Kept.tile (Kept.rfl _))) (by assumption)).1 (Kept.tile (Kept.rfl _))
    | (with_reducible refine Kept.group ?_ (by assumption))
    | (with_reducible refine Tile.launch_wf (by assumption) ?_)
    | with_reducible apply Kept.tile
    | with_reducible apply Group.next_wf
    | ((fail_if_success with_reducible apply Group.wf_eta); with_reducible apply Group.wf_upd)
    | ((fail_if_success with_reducible apply Tile.wf_eta); with_reducible apply Tile.wf_upd)
    | with_reducible exact fun _ => emptyTile_wf
    | with_reducible apply State.issue_kept
    | with_reducible apply State.groupFault_kept
    | with_reducible apply State.setTile_kept
    | with_reducible apply State.stepOn_kept
    | with_reducible apply Kept.fold
    | with_reducible apply Kept.ite
    | intro _)

theorem execLockRel_kept (g : GroupRef) (a : Nat) (s : State) {t' : State} (eqn : execLockRel g a s = .next t') :
    Kept s t' := by
  unfold execLockRel at eqn
  injection eqn with eqn
  subst eqn
  repeat' (first
    | with_reducible exact Kept.rfl _
    | with_reducible assumption
    | exact Tile.updLs_wf (unlockFold_wf _ _ _ _ _ _ (by assumption) (fun _ e => Option.some.inj e ▸ Tile.ls_wf (Kept.tile (Kept.rfl _)))) (Kept.tile (Kept.rfl _))
    | (with_reducible refine Kept.group ?_ (by assumption))
    | (with_reducible refine Tile.launch_wf (by assumption) ?_)
    | with_reducible apply Kept.tile
    | with_reducible apply Group.next_wf
    | ((fail_if_success with_reducible apply Group.wf_eta); with_reducible apply Group.wf_upd)
    | ((fail_if_success with_reducible apply Tile.wf_eta); with_reducible apply Tile.wf_upd)
    | with_reducible exact fun _ => emptyTile_wf
    | with_reducible apply State.issue_kept
    | with_reducible apply State.groupFault_kept
    | with_reducible apply State.setTile_kept
    | with_reducible apply State.stepOn_kept
    | with_reducible apply Kept.fold
    | with_reducible apply Kept.ite
    | intro _
    | extract_lets
    | split)

theorem execShready_kept (g : GroupRef) (s : State) {t' : State} (eqn : execShready g s = .next t') :
    Kept s t' := by
  unfold execShready at eqn
  injection eqn with eqn
  subst eqn
  repeat' (first
    | with_reducible exact Kept.rfl _
    | with_reducible assumption
    | (with_reducible refine Kept.group ?_ (by assumption))
    | (with_reducible refine Tile.launch_wf (by assumption) ?_)
    | with_reducible apply Kept.tile
    | with_reducible apply Group.next_wf
    | ((fail_if_success with_reducible apply Group.wf_eta); with_reducible apply Group.wf_upd)
    | ((fail_if_success with_reducible apply Tile.wf_eta); with_reducible apply Tile.wf_upd)
    | with_reducible exact fun _ => emptyTile_wf
    | with_reducible apply State.issue_kept
    | with_reducible apply State.setTile_kept
    | with_reducible apply State.stepOn_kept
    | with_reducible apply Kept.ite
    | intro _)

theorem State.tryLaunch_kept {s0 : State} (s : State) (c t p : Nat) (handle : W64) (words : List W64) (gen : Nat) (hk : Kept s0 s) :
    Kept s0 (State.tryLaunch s c t p handle words gen) := by
  unfold State.tryLaunch
  repeat' (first
    | with_reducible exact Kept.rfl _
    | with_reducible assumption
    | (with_reducible refine Kept.group ?_ (by assumption))
    | (with_reducible refine Tile.launch_wf (by assumption) ?_)
    | with_reducible apply Kept.tile
    | ((fail_if_success with_reducible apply Group.wf_eta); with_reducible apply Group.wf_upd)
    | ((fail_if_success with_reducible apply Tile.wf_eta); with_reducible apply Tile.wf_upd)
    | with_reducible exact fun _ => emptyTile_wf
    | with_reducible apply State.putTile_kept
    | with_reducible apply State.modEntry_kept
    | with_reducible apply Kept.ite
    | intro _
    | extract_lets
    | split)

theorem execLaunchAdmit_kept (c t : Nat) (handle : W64) (desc : Nat) (s : State) {t' : State} (eqn : execLaunchAdmit c t handle desc s = .next t') :
    Kept s t' := by
  unfold execLaunchAdmit at eqn
  injection eqn with eqn
  subst eqn
  repeat' (first
    | with_reducible exact Kept.rfl _
    | with_reducible assumption
    | with_reducible apply State.tryLaunch_kept
    | intro _
    | extract_lets
    | split)

theorem State.watchTile_kept {s0 : State} (s : State) (c p : Nat) (hk : Kept s0 s) :
    Kept s0 (State.watchTile s c p) := by
  unfold State.watchTile
  repeat' (first
    | with_reducible exact Kept.rfl _
    | with_reducible assumption
    | (with_reducible refine Kept.group ?_ (by assumption))
    | (with_reducible refine Tile.launch_wf (by assumption) ?_)
    | with_reducible apply Kept.tile
    | with_reducible apply Tile.haltLaunch_wf
    | ((fail_if_success with_reducible apply Group.wf_eta); with_reducible apply Group.wf_upd)
    | ((fail_if_success with_reducible apply Tile.wf_eta); with_reducible apply Tile.wf_upd)
    | with_reducible exact fun _ => emptyTile_wf
    | with_reducible apply State.reportFault_kept
    | with_reducible apply State.setTile_kept
    | with_reducible apply Kept.fold
    | with_reducible apply Kept.getD
    | with_reducible apply Kept.iteFst
    | with_reducible apply Kept.foldFst
    | intro _)

theorem execStageWatchdogExpiry_kept (c : Nat) (s : State) {t' : State} (eqn : execStageWatchdogExpiry c s = .next t') :
    Kept s t' := by
  unfold execStageWatchdogExpiry at eqn
  injection eqn with eqn
  subst eqn
  repeat' (first
    | with_reducible exact Kept.rfl _
    | with_reducible assumption
    | with_reducible apply State.watchTile_kept
    | with_reducible apply State.syncOcc_kept
    | with_reducible apply State.blockFault_kept
    | with_reducible apply Kept.fold
    | with_reducible apply Kept.ite
    | intro _)

theorem State.cacheLasting_kept {s0 : State} (s : State) (c kind set way : Nat) (hk : Kept s0 s) :
    Kept s0 (State.cacheLasting s c kind set way) := by
  unfold State.cacheLasting
  repeat' (first
    | with_reducible exact Kept.rfl _
    | with_reducible assumption
    | with_reducible apply State.eventReg_kept
    | with_reducible apply State.addDefect_kept
    | with_reducible apply State.retireCluster_kept
    | with_reducible apply State.modCluster_kept
    | with_reducible apply Kept.ite)

theorem execCacheParityError_kept (c : Nat) (cache : CacheKind) (set way : Nat) (s : State) {t' : State} (eqn : execCacheParityError c cache set way s = .next t') :
    Kept s t' := by
  unfold execCacheParityError at eqn
  injection eqn with eqn
  subst eqn
  repeat' (first
    | with_reducible exact Kept.rfl _
    | with_reducible assumption
    | with_reducible apply State.incFld_kept
    | with_reducible apply State.modCluster_kept
    | with_reducible apply State.cacheLasting_kept
    | with_reducible apply Kept.ite)

theorem State.tileUncorrectable_kept {s0 : State} (s : State) (c p : Nat) (hk : Kept s0 s) :
    Kept s0 (State.tileUncorrectable s c p) := by
  unfold State.tileUncorrectable
  repeat' (first
    | with_reducible exact Kept.rfl _
    | with_reducible assumption
    | (with_reducible refine Kept.group ?_ (by assumption))
    | (with_reducible refine Tile.launch_wf (by assumption) ?_)
    | with_reducible apply Kept.tile
    | with_reducible apply Tile.clearShared_wf
    | with_reducible apply Tile.halted_wf
    | ((fail_if_success with_reducible apply Group.wf_eta); with_reducible apply Group.wf_upd)
    | ((fail_if_success with_reducible apply Tile.wf_eta); with_reducible apply Tile.wf_upd)
    | with_reducible exact fun _ => emptyTile_wf
    | with_reducible apply State.incFld_kept
    | with_reducible apply State.eventReg_kept
    | with_reducible apply State.retireTile_kept
    | with_reducible apply State.redispatch_kept
    | with_reducible apply State.putTile_kept
    | with_reducible apply Kept.ite)

theorem execTileStoreEccError_kept (c t : Nat) (correctable : Bool) (s : State) {t' : State} (eqn : execTileStoreEccError c t correctable s = .next t') :
    Kept s t' := by
  unfold execTileStoreEccError at eqn
  injection eqn with eqn
  subst eqn
  repeat' (first
    | with_reducible exact Kept.rfl _
    | with_reducible assumption
    | with_reducible apply State.incFld_kept
    | with_reducible apply State.tileUncorrectable_kept
    | with_reducible apply Kept.ite
    | intro _
    | extract_lets
    | split)

theorem State.sfu_kept {s0 : State} (s : State) (g : GroupRef) (o : SfuOpt) (d a : Nat) (f : Bool → W32 → W32 × AswBits) (hk : Kept s0 s) :
    Kept s0 (State.sfu s g o d a f) := by
  unfold State.sfu
  repeat' (first
    | with_reducible exact Kept.rfl _
    | with_reducible assumption
    | (with_reducible refine Kept.group ?_ (by assumption))
    | (with_reducible refine Tile.launch_wf (by assumption) ?_)
    | with_reducible apply Kept.tile
    | with_reducible apply Group.setV_wf
    | with_reducible apply Group.flags_wf
    | with_reducible apply Group.mapThreads_wf
    | with_reducible exact fun _ => emptyTile_wf
    | with_reducible apply State.issue_kept
    | with_reducible apply State.stepOn_kept
    | with_reducible apply Kept.ite
    | intro _)

theorem execRcp_kept (g : GroupRef) (o : SfuOpt) (d a : Nat) (s : State) {t' : State} (eqn : execRcp g o d a s = .next t') :
    Kept s t' := by
  unfold execRcp at eqn
  injection eqn with eqn
  subst eqn
  repeat' (first
    | with_reducible exact Kept.rfl _
    | with_reducible assumption
    | with_reducible apply State.sfu_kept)

theorem execRsqrt_kept (g : GroupRef) (o : SfuOpt) (d a : Nat) (s : State) {t' : State} (eqn : execRsqrt g o d a s = .next t') :
    Kept s t' := by
  unfold execRsqrt at eqn
  injection eqn with eqn
  subst eqn
  repeat' (first
    | with_reducible exact Kept.rfl _
    | with_reducible assumption
    | with_reducible apply State.sfu_kept)

theorem execSqrt_kept (g : GroupRef) (o : SfuOpt) (d a : Nat) (s : State) {t' : State} (eqn : execSqrt g o d a s = .next t') :
    Kept s t' := by
  unfold execSqrt at eqn
  injection eqn with eqn
  subst eqn
  repeat' (first
    | with_reducible exact Kept.rfl _
    | with_reducible assumption
    | with_reducible apply State.sfu_kept)

theorem State.sfu2_kept {s0 : State} (s : State) (g : GroupRef) (o : SfuOpt) (d a b : Nat) (sfg : Bool) (f : Bool → W32 → W32 → W32 × AswBits) (hk : Kept s0 s) :
    Kept s0 (State.sfu2 s g o d a b sfg f) := by
  unfold State.sfu2
  repeat' (first
    | with_reducible exact Kept.rfl _
    | with_reducible assumption
    | (with_reducible refine Kept.group ?_ (by assumption))
    | (with_reducible refine Tile.launch_wf (by assumption) ?_)
    | with_reducible apply Kept.tile
    | with_reducible apply Group.setV_wf
    | with_reducible apply Group.flags_wf
    | with_reducible apply Group.mapThreads_wf
    | with_reducible exact fun _ => emptyTile_wf
    | with_reducible apply State.issue_kept
    | with_reducible apply State.stepOn_kept
    | with_reducible apply Kept.ite
    | intro _)

theorem execDiv_kept (g : GroupRef) (o : SfuOpt) (d a b : Nat) (s : State) {t' : State} (eqn : execDiv g o d a b s = .next t') :
    Kept s t' := by
  unfold execDiv at eqn
  injection eqn with eqn
  subst eqn
  repeat' (first
    | with_reducible exact Kept.rfl _
    | with_reducible assumption
    | with_reducible apply State.sfu2_kept)

theorem execExp2_kept (g : GroupRef) (o : SfuOpt) (d a : Nat) (s : State) {t' : State} (eqn : execExp2 g o d a s = .next t') :
    Kept s t' := by
  unfold execExp2 at eqn
  injection eqn with eqn
  subst eqn
  repeat' (first
    | with_reducible exact Kept.rfl _
    | with_reducible assumption
    | with_reducible apply State.sfu_kept)

theorem execExp_kept (g : GroupRef) (o : SfuOpt) (d a : Nat) (s : State) {t' : State} (eqn : execExp g o d a s = .next t') :
    Kept s t' := by
  unfold execExp at eqn
  injection eqn with eqn
  subst eqn
  repeat' (first
    | with_reducible exact Kept.rfl _
    | with_reducible assumption
    | with_reducible apply State.sfu_kept)

theorem execLog2_kept (g : GroupRef) (o : SfuOpt) (d a : Nat) (s : State) {t' : State} (eqn : execLog2 g o d a s = .next t') :
    Kept s t' := by
  unfold execLog2 at eqn
  injection eqn with eqn
  subst eqn
  repeat' (first
    | with_reducible exact Kept.rfl _
    | with_reducible assumption
    | with_reducible apply State.sfu_kept)

theorem execLn_kept (g : GroupRef) (o : SfuOpt) (d a : Nat) (s : State) {t' : State} (eqn : execLn g o d a s = .next t') :
    Kept s t' := by
  unfold execLn at eqn
  injection eqn with eqn
  subst eqn
  repeat' (first
    | with_reducible exact Kept.rfl _
    | with_reducible assumption
    | with_reducible apply State.sfu_kept)

theorem execSinpi_kept (g : GroupRef) (o : SfuOpt) (d a : Nat) (s : State) {t' : State} (eqn : execSinpi g o d a s = .next t') :
    Kept s t' := by
  unfold execSinpi at eqn
  injection eqn with eqn
  subst eqn
  repeat' (first
    | with_reducible exact Kept.rfl _
    | with_reducible assumption
    | with_reducible apply State.sfu_kept)

theorem execCospi_kept (g : GroupRef) (o : SfuOpt) (d a : Nat) (s : State) {t' : State} (eqn : execCospi g o d a s = .next t') :
    Kept s t' := by
  unfold execCospi at eqn
  injection eqn with eqn
  subst eqn
  repeat' (first
    | with_reducible exact Kept.rfl _
    | with_reducible assumption
    | with_reducible apply State.sfu_kept)

theorem execTanh_kept (g : GroupRef) (o : SfuOpt) (d a : Nat) (s : State) {t' : State} (eqn : execTanh g o d a s = .next t') :
    Kept s t' := by
  unfold execTanh at eqn
  injection eqn with eqn
  subst eqn
  repeat' (first
    | with_reducible exact Kept.rfl _
    | with_reducible assumption
    | with_reducible apply State.sfu_kept)

theorem execSigmoid_kept (g : GroupRef) (o : SfuOpt) (d a : Nat) (s : State) {t' : State} (eqn : execSigmoid g o d a s = .next t') :
    Kept s t' := by
  unfold execSigmoid at eqn
  injection eqn with eqn
  subst eqn
  repeat' (first
    | with_reducible exact Kept.rfl _
    | with_reducible assumption
    | with_reducible apply State.sfu_kept)

theorem execSfg_kept (g : GroupRef) (act : SfgAct) (o : SfuOpt) (d gate up : Nat) (s : State) {t' : State} (eqn : execSfg g act o d gate up s = .next t') :
    Kept s t' := by
  unfold execSfg at eqn
  injection eqn with eqn
  subst eqn
  repeat' (first
    | with_reducible exact Kept.rfl _
    | with_reducible assumption
    | with_reducible apply State.sfu2_kept)

theorem State.rowDo_kept {s0 : State} (s : State) (g : GroupRef) (p : Nat) (gr : Group) (op : RowOp) (sd : Nat) (r : RowDec) (sc : W64) (hg : s0.canon = true → gr.wf = true) (hk : Kept s0 s) :
    Kept s0 (State.rowDo s g p gr op sd r sc) := by
  unfold State.rowDo
  extract_lets t res
  split
  rename_i ls f e
  refine State.stepLs_kept _ _ _ _ _ (Group.rowResult_wf _ _ _ hg) ?_ hk
  have h : ls = (if op = .rstat then (t.ls, 0#32) else r.put t.ls res.ys).1 := by rw [e]
  rw [h]
  split
  · exact Tile.ls_wf (Kept.tile hk)
  · exact RowDec.put_wf _ _ (Tile.ls_wf (Kept.tile hk))

theorem State.row_kept {s0 : State} (s : State) (g : GroupRef) (op : RowOp) (sd sa sb sc : Nat) (accDisagree : Bool) (hk : Kept s0 s) :
    Kept s0 (State.row s g op sd sa sb sc accDisagree) := by
  unfold State.row
  repeat' (first
    | with_reducible exact Kept.rfl _
    | with_reducible assumption
    | (with_reducible refine Kept.group ?_ (by assumption))
    | (with_reducible refine Tile.launch_wf (by assumption) ?_)
    | with_reducible apply Kept.tile
    | ((fail_if_success with_reducible apply Group.wf_eta); with_reducible apply Group.wf_upd)
    | ((fail_if_success with_reducible apply Tile.wf_eta); with_reducible apply Tile.wf_upd)
    | with_reducible exact fun _ => emptyTile_wf
    | with_reducible apply State.issue_kept
    | with_reducible apply State.groupFault_kept
    | with_reducible apply State.tileUncorrectable_kept
    | with_reducible apply State.rowDo_kept
    | with_reducible apply Kept.ite
    | intro _
    | extract_lets
    | split)

theorem execRowRstat_kept (g : GroupRef) (sd sa sb sc : Nat) (accDisagree : Bool) (s : State) {t' : State} (eqn : execRowRstat g sd sa sb sc accDisagree s = .next t') :
    Kept s t' := by
  unfold execRowRstat at eqn
  injection eqn with eqn
  subst eqn
  repeat' (first
    | with_reducible exact Kept.rfl _
    | with_reducible assumption
    | with_reducible apply State.row_kept)

theorem execRowLnorm_kept (g : GroupRef) (sd sa sb sc : Nat) (accDisagree : Bool) (s : State) {t' : State} (eqn : execRowLnorm g sd sa sb sc accDisagree s = .next t') :
    Kept s t' := by
  unfold execRowLnorm at eqn
  injection eqn with eqn
  subst eqn
  repeat' (first
    | with_reducible exact Kept.rfl _
    | with_reducible assumption
    | with_reducible apply State.row_kept)

theorem execRowRmsnorm_kept (g : GroupRef) (sd sa sb sc : Nat) (accDisagree : Bool) (s : State) {t' : State} (eqn : execRowRmsnorm g sd sa sb sc accDisagree s = .next t') :
    Kept s t' := by
  unfold execRowRmsnorm at eqn
  injection eqn with eqn
  subst eqn
  repeat' (first
    | with_reducible exact Kept.rfl _
    | with_reducible assumption
    | with_reducible apply State.row_kept)

theorem execRowSmax_kept (g : GroupRef) (sd sa sb sc : Nat) (accDisagree : Bool) (s : State) {t' : State} (eqn : execRowSmax g sd sa sb sc accDisagree s = .next t') :
    Kept s t' := by
  unfold execRowSmax at eqn
  injection eqn with eqn
  subst eqn
  repeat' (first
    | with_reducible exact Kept.rfl _
    | with_reducible assumption
    | with_reducible apply State.row_kept)

theorem execRowSmaxStep_kept (g : GroupRef) (sd sa sb sc : Nat) (accDisagree : Bool) (s : State) {t' : State} (eqn : execRowSmaxStep g sd sa sb sc accDisagree s = .next t') :
    Kept s t' := by
  unfold execRowSmaxStep at eqn
  injection eqn with eqn
  subst eqn
  repeat' (first
    | with_reducible exact Kept.rfl _
    | with_reducible assumption
    | with_reducible apply State.row_kept)

theorem State.rowReserved_kept {s0 : State} (s : State) (g : GroupRef) (hk : Kept s0 s) :
    Kept s0 (State.rowReserved s g) := by
  unfold State.rowReserved
  repeat' (first
    | with_reducible exact Kept.rfl _
    | with_reducible assumption
    | with_reducible apply State.issue_kept
    | with_reducible apply State.groupFault_kept
    | intro _
    | extract_lets)

theorem execRowSmaxFin_kept (g : GroupRef) (sd sa sb : Nat) (w : FinWord) (s : State) {t' : State} (eqn : execRowSmaxFin g sd sa sb w s = .next t') :
    Kept s t' := by
  unfold execRowSmaxFin at eqn
  injection eqn with eqn
  subst eqn
  cases w
  · exact State.row_kept _ _ _ _ _ _ _ _ (Kept.rfl _)
  · exact State.rowReserved_kept _ _ (Kept.rfl _)

theorem execKvaddr_kept (g : GroupRef) (sd ss : Nat) (s : State) {t' : State} (eqn : execKvaddr g sd ss s = .next t') :
    Kept s t' := by
  unfold execKvaddr at eqn
  injection eqn with eqn
  subst eqn
  repeat' (first
    | with_reducible exact Kept.rfl _
    | with_reducible assumption
    | (with_reducible refine Kept.group ?_ (by assumption))
    | (with_reducible refine Tile.launch_wf (by assumption) ?_)
    | with_reducible apply Kept.tile
    | with_reducible apply Group.setS_wf
    | with_reducible apply Group.next_wf
    | ((fail_if_success with_reducible apply Group.wf_eta); with_reducible apply Group.wf_upd)
    | ((fail_if_success with_reducible apply Tile.wf_eta); with_reducible apply Tile.wf_upd)
    | with_reducible exact fun _ => emptyTile_wf
    | with_reducible apply State.issue_kept
    | with_reducible apply State.groupFault_kept
    | with_reducible apply State.stepOn_kept
    | with_reducible apply Kept.ite
    | intro _
    | extract_lets
    | split)

theorem execKvput_kept (g : GroupRef) (ss sa : Nat) (s : State) {t' : State} (eqn : execKvput g ss sa s = .next t') :
    Kept s t' := by
  unfold execKvput at eqn
  injection eqn with eqn
  subst eqn
  repeat' (first
    | with_reducible exact Kept.rfl _
    | with_reducible assumption
    | (with_reducible refine Kept.group ?_ (by assumption))
    | (with_reducible refine Tile.launch_wf (by assumption) ?_)
    | with_reducible apply Kept.tile
    | with_reducible apply Group.next_wf
    | ((fail_if_success with_reducible apply Group.wf_eta); with_reducible apply Group.wf_upd)
    | ((fail_if_success with_reducible apply Tile.wf_eta); with_reducible apply Tile.wf_upd)
    | with_reducible exact fun _ => emptyTile_wf
    | with_reducible apply State.issue_kept
    | with_reducible apply State.groupFault_kept
    | with_reducible apply State.placeCommit_kept
    | with_reducible apply Kept.ite
    | intro _
    | extract_lets
    | split)

theorem execReservationRetry_kept (s : State) {t' : State} (eqn : execReservationRetry s = .next t') :
    Kept s t' := by
  unfold execReservationRetry at eqn
  injection eqn with eqn
  subst eqn
  repeat' (first
    | with_reducible exact Kept.rfl _
    | with_reducible assumption
    | with_reducible apply State.retryAll_kept
    | with_reducible apply State.noteConds_kept)

theorem State.starve_kept {s0 : State} (s : State) (n : Nat) (hk : Kept s0 s) :
    Kept s0 (State.starve s n) := by
  unfold State.starve
  repeat' (first
    | with_reducible exact Kept.rfl _
    | with_reducible assumption
    | with_reducible apply State.raise_kept
    | with_reducible apply State.event_kept)

theorem State.stallOut_kept {s0 : State} (s : State) (w : LWait) (hk : Kept s0 s) :
    Kept s0 (State.stallOut s w) := by
  unfold State.stallOut
  repeat' (first
    | with_reducible exact Kept.rfl _
    | with_reducible assumption
    | with_reducible apply State.row_kept
    | with_reducible apply State.endSeqCmd_kept
    | with_reducible apply State.starve_kept
    | with_reducible apply State.undoOpen_kept
    | with_reducible apply State.completeU_kept
    | intro _
    | extract_lets
    | split
    | ((with_reducible conv => arg 2; whnf); split)
    | ((fail_if_success with_reducible apply Kept.eta); first | with_reducible apply Kept.upd))

theorem execReservationStallTimeout_kept (w : WaitRef) (s : State) {t' : State} (eqn : execReservationStallTimeout w s = .next t') :
    Kept s t' := by
  unfold execReservationStallTimeout at eqn
  injection eqn with eqn
  subst eqn
  repeat' (first
    | with_reducible exact Kept.rfl _
    | with_reducible assumption
    | with_reducible apply State.stallOut_kept
    | with_reducible apply State.noteConds_kept
    | intro _
    | extract_lets
    | split)

theorem State.newSeq_kept {s0 : State} (s : State) (n : Nat) (q : Seq) (c : Cmd) (hk : Kept s0 s) :
    Kept s0 (State.newSeq s n q c) := by
  unfold State.newSeq
  repeat' (first
    | with_reducible exact Kept.rfl _
    | with_reducible assumption
    | with_reducible apply State.setSeq_kept
    | with_reducible apply Kept.ite
    | intro _
    | extract_lets
    | ((fail_if_success with_reducible apply Kept.eta); first | with_reducible apply Kept.upd))

theorem openGo_kept {s0 : State} (s : State) (c : Cmd) (hk : Kept s0 s) :
    Kept s0 (openGo s c) := by
  unfold openGo
  repeat' (first
    | with_reducible exact Kept.rfl _
    | with_reducible assumption
    | with_reducible apply State.newSeq_kept
    | with_reducible apply State.syncKv_kept
    | with_reducible apply State.openList_kept
    | with_reducible apply State.checkSeqCmd_kept
    | with_reducible apply State.noteConds_kept)

theorem execSeqOpen_kept (sq cid : Nat) (s : State) {t' : State} (eqn : execSeqOpen sq cid s = .next t') :
    Kept s t' := by
  unfold execSeqOpen at eqn
  injection eqn with eqn
  subst eqn
  repeat' (first
    | with_reducible exact Kept.rfl _
    | with_reducible assumption
    | with_reducible apply State.accept_kept
    | with_reducible apply openGo_kept
    | intro _)

theorem appendGo_kept {s0 : State} (s : State) (c : Cmd) (hk : Kept s0 s) :
    Kept s0 (appendGo s c) := by
  unfold appendGo
  repeat' (first
    | with_reducible exact Kept.rfl _
    | with_reducible assumption
    | with_reducible apply State.modSeq_kept
    | with_reducible apply State.noteConds_kept
    | with_reducible apply Kept.ite)

theorem execSeqAppend_kept (sq cid : Nat) (s : State) {t' : State} (eqn : execSeqAppend sq cid s = .next t') :
    Kept s t' := by
  unfold execSeqAppend at eqn
  injection eqn with eqn
  subst eqn
  repeat' (first
    | with_reducible exact Kept.rfl _
    | with_reducible assumption
    | with_reducible apply State.accept_kept
    | with_reducible apply appendGo_kept
    | intro _)

theorem forkGo_kept {s0 : State} (s : State) (c : Cmd) (hk : Kept s0 s) :
    Kept s0 (forkGo s c) := by
  unfold forkGo
  repeat' (first
    | with_reducible exact Kept.rfl _
    | with_reducible assumption
    | with_reducible apply State.sharePages_kept
    | (with_reducible apply State.sharePages_kept_eq; assumption)
    | with_reducible apply State.newSeq_kept
    | with_reducible apply State.syncKv_kept
    | with_reducible apply State.forkOn_kept
    | with_reducible apply State.checkSeqCmd_kept
    | with_reducible apply State.noteConds_kept
    | with_reducible apply Kept.iteFst
    | with_reducible apply Kept.foldFst
    | with_reducible apply Kept.ite
    | intro _
    | extract_lets
    | split)

theorem execSeqFork_kept (sq cid : Nat) (s : State) {t' : State} (eqn : execSeqFork sq cid s = .next t') :
    Kept s t' := by
  unfold execSeqFork at eqn
  injection eqn with eqn
  subst eqn
  repeat' (first
    | with_reducible exact Kept.rfl _
    | with_reducible assumption
    | with_reducible apply State.accept_kept
    | with_reducible apply forkGo_kept
    | intro _)

theorem State.checkSeqCmds_kept {s0 : State} (s : State) (n : Nat) (hk : Kept s0 s) :
    Kept s0 (State.checkSeqCmds s n) := by
  unfold State.checkSeqCmds
  repeat' (first
    | with_reducible exact Kept.rfl _
    | with_reducible assumption
    | with_reducible apply State.checkSeqCmd_kept
    | with_reducible apply Kept.fold
    | intro _)

theorem State.endCopy_kept {s0 : State} (s : State) (k : KvCopy) (q : Seq) (hk : Kept s0 s) :
    Kept s0 (State.endCopy s k q) := by
  unfold State.endCopy
  repeat' (first
    | with_reducible exact Kept.rfl _
    | with_reducible assumption
    | with_reducible apply State.copyRuns_kept
    | with_reducible apply State.setPage_kept
    | with_reducible apply State.dropSource_kept
    | with_reducible apply State.faultSeq_kept
    | with_reducible apply State.checkSeqCmds_kept
    | with_reducible apply State.placeNext_kept
    | with_reducible apply State.trimSeq_kept
    | with_reducible apply State.syncKv_kept
    | with_reducible apply State.noteConds_kept
    | with_reducible apply Kept.ite
    | intro _
    | extract_lets
    | ((fail_if_success with_reducible apply Kept.eta); first | with_reducible apply Kept.upd))

theorem execKvCopyComplete_kept (id : Nat) (s : State) {t' : State} (eqn : execKvCopyComplete id s = .next t') :
    Kept s t' := by
  unfold execKvCopyComplete at eqn
  injection eqn with eqn
  subst eqn
  repeat' (first
    | with_reducible exact Kept.rfl _
    | with_reducible assumption
    | with_reducible apply State.endCopy_kept
    | intro _
    | extract_lets
    | split)

theorem State.closeSwapped_kept {s0 : State} (s : State) (n : Nat) (q : Seq) (uid : Nat) (hk : Kept s0 s) :
    Kept s0 (State.closeSwapped s n q uid) := by
  unfold State.closeSwapped
  repeat' (first
    | with_reducible exact Kept.rfl _
    | with_reducible assumption
    | with_reducible apply State.complete_kept
    | with_reducible apply State.endSeqCmds_kept
    | with_reducible apply State.completeU_kept
    | with_reducible apply State.releaseSeq_kept
    | with_reducible apply Kept.fold
    | intro _)

theorem State.closeResident_kept {s0 : State} (s : State) (n : Nat) (c : Cmd) (hk : Kept s0 s) :
    Kept s0 (State.closeResident s n c) := by
  unfold State.closeResident
  repeat' (first
    | with_reducible exact Kept.rfl _
    | with_reducible assumption
    | with_reducible apply State.invalidateSeq_kept
    | with_reducible apply State.endSeqCmds_kept
    | with_reducible apply State.endWait_kept
    | with_reducible apply State.modSeq_kept
    | with_reducible apply State.trimSeq_kept)

theorem closeGo_kept {s0 : State} (s : State) (c : Cmd) (hk : Kept s0 s) :
    Kept s0 (closeGo s c) := by
  unfold closeGo
  repeat' (first
    | with_reducible exact Kept.rfl _
    | with_reducible assumption
    | with_reducible apply State.closeSwapped_kept
    | with_reducible apply State.endSeqCmds_kept
    | with_reducible apply State.undoOpen_kept
    | with_reducible apply State.completeU_kept
    | with_reducible apply State.closeResident_kept
    | with_reducible apply State.noteConds_kept
    | with_reducible apply Kept.ite
    | intro _
    | extract_lets
    | split)

theorem execSeqClose_kept (sq cid : Nat) (s : State) {t' : State} (eqn : execSeqClose sq cid s = .next t') :
    Kept s t' := by
  unfold execSeqClose at eqn
  injection eqn with eqn
  subst eqn
  repeat' (first
    | with_reducible exact Kept.rfl _
    | with_reducible assumption
    | with_reducible apply State.accept_kept
    | with_reducible apply closeGo_kept
    | intro _)

theorem State.preemptBy_kept {s0 : State} (s : State) (n : Nat) (q : Seq) (c : Cmd) (l : List (Nat × Nat)) (f : Tab Nat) (hk : Kept s0 s) :
    Kept s0 (State.preemptBy s n q c l f) := by
  unfold State.preemptBy
  repeat' (first
    | with_reducible exact Kept.rfl _
    | with_reducible assumption
    | with_reducible apply State.setSeq_kept
    | with_reducible apply State.invalidateSeq_kept
    | with_reducible apply State.endSeqCmds_kept
    | with_reducible apply State.endWait_kept
    | with_reducible apply State.raise_kept
    | with_reducible apply State.incFld_kept
    | with_reducible apply State.event_kept
    | with_reducible apply State.trimSeq_kept
    | with_reducible apply State.syncKv_kept
    | with_reducible apply State.noteConds_kept
    | intro _
    | extract_lets
    | ((fail_if_success with_reducible apply Kept.eta); first | with_reducible apply Kept.upd))

theorem preemptGo_kept {s0 : State} (s : State) (c : Cmd) (hk : Kept s0 s) :
    Kept s0 (preemptGo s c) := by
  unfold preemptGo
  repeat' (first
    | with_reducible exact Kept.rfl _
    | with_reducible assumption
    | with_reducible apply State.preemptBy_kept
    | with_reducible apply State.completeU_kept
    | intro _
    | extract_lets
    | split)

theorem execSeqPreempt_kept (sq cid : Nat) (s : State) {t' : State} (eqn : execSeqPreempt sq cid s = .next t') :
    Kept s t' := by
  unfold execSeqPreempt at eqn
  injection eqn with eqn
  subst eqn
  repeat' (first
    | with_reducible exact Kept.rfl _
    | with_reducible assumption
    | with_reducible apply State.accept_kept
    | with_reducible apply preemptGo_kept
    | intro _)

theorem State.swapOne_kept {s0 : State} (s : State) (e : PageEntry) (u : Nat) (hk : Kept s0 s) :
    Kept s0 (State.swapOne s e u).1 := by
  unfold State.swapOne
  exact State.swapDma_kept _ _ _ ⟨hk.1, hk.2, hk.3, hk.4, hk.5, fun c => canon_host _ _ (hk.6 c) (Eq.refl _) (Eq.refl _) (Eq.refl _) (Eq.refl _) (Eq.refl _)⟩

theorem State.swapOne_kept_eq {s0 t' : State} {x' : PageEntry} (s : State) (e : PageEntry) (u : Nat) (eqn : State.swapOne s e u = (t', x')) (hk : Kept s0 s) : Kept s0 t' := by
  have k := State.swapOne_kept (s0 := s0) s e u hk
  rw [eqn] at k
  exact k

theorem State.swapPages_kept {s0 : State} (s : State) (y0 : List (PageEntry × (Nat × Nat))) (hk : Kept s0 s) :
    Kept s0 (State.swapPages s y0).1 := by
  induction y0 generalizing s with
  | nil =>
    unfold State.swapPages
    exact hk
  | cons o l ih =>
    unfold State.swapPages
    repeat' (first
      | with_reducible apply ih
      | with_reducible exact Kept.rfl _
      | with_reducible assumption
      | with_reducible apply State.swapOne_kept)

theorem State.swapPages_kept_eq {s0 t' : State} {x' : List PageEntry} (s : State) (y0 : List (PageEntry × (Nat × Nat))) (eqn : State.swapPages s y0 = (t', x')) (hk : Kept s0 s) : Kept s0 t' := by
  have k := State.swapPages_kept (s0 := s0) s y0 hk
  rw [eqn] at k
  exact k

theorem State.swapOut_kept {s0 : State} (s : State) (n : Nat) (q : Seq) (hk : Kept s0 s) :
    Kept s0 (State.swapOut s n q) := by
  unfold State.swapOut
  repeat' (first
    | with_reducible exact Kept.rfl _
    | with_reducible assumption
    | with_reducible apply State.swapPages_kept
    | (with_reducible apply State.swapPages_kept_eq; assumption)
    | with_reducible apply State.dropRef_kept
    | with_reducible apply State.freeSwap_kept
    | with_reducible apply State.setSeq_kept
    | with_reducible apply State.endWaitCmd_kept
    | with_reducible apply State.syncKv_kept
    | with_reducible apply Kept.fold
    | with_reducible apply Kept.iteFst
    | with_reducible apply Kept.foldFst
    | with_reducible apply Kept.ite
    | intro _
    | extract_lets
    | ((fail_if_success with_reducible apply Kept.eta); first | with_reducible apply Kept.upd))

theorem execSwapOutComplete_kept (seq : Nat) (s : State) {t' : State} (eqn : execSwapOutComplete seq s = .next t') :
    Kept s t' := by
  unfold execSwapOutComplete at eqn
  injection eqn with eqn
  subst eqn
  repeat' (first
    | with_reducible exact Kept.rfl _
    | with_reducible assumption
    | with_reducible apply State.freeSwap_kept
    | with_reducible apply State.setSeq_kept
    | with_reducible apply State.faultSeq_kept
    | with_reducible apply State.syncKv_kept
    | with_reducible apply State.swapOut_kept
    | with_reducible apply Kept.ite
    | intro _
    | extract_lets
    | split)

theorem State.resumeGo_kept {s0 : State} (s : State) (c : Cmd) (hk : Kept s0 s) :
    Kept s0 (State.resumeGo s c) := by
  unfold State.resumeGo
  repeat' (first
    | with_reducible exact Kept.rfl _
    | with_reducible assumption
    | with_reducible apply State.started_kept
    | with_reducible apply State.startResume_kept
    | with_reducible apply State.completeU_kept
    | with_reducible apply State.deferCmd_kept
    | with_reducible apply State.waitFor_kept
    | with_reducible apply Kept.ite
    | intro _
    | extract_lets
    | split)

theorem execSeqResume_kept (sq cid : Nat) (s : State) {t' : State} (eqn : execSeqResume sq cid s = .next t') :
    Kept s t' := by
  unfold execSeqResume at eqn
  injection eqn with eqn
  subst eqn
  repeat' (first
    | with_reducible exact Kept.rfl _
    | with_reducible assumption
    | with_reducible apply State.refuse_kept
    | with_reducible apply State.resumeGo_kept
    | intro _
    | extract_lets
    | split)

theorem State.swapBack_kept {s0 : State} (s : State) (n : Nat) (q : Seq) (data : Bool) (hk : Kept s0 s) :
    Kept s0 (State.swapBack s n q data) := by
  unfold State.swapBack
  repeat' (first
    | with_reducible exact Kept.rfl _
    | with_reducible assumption
    | with_reducible apply State.taken_kept
    | with_reducible apply State.devWrite_kept
    | with_reducible apply State.swapDma_kept
    | with_reducible apply State.setRef_kept
    | with_reducible apply State.freeSwap_kept
    | with_reducible apply State.setSeq_kept
    | with_reducible apply Kept.fold
    | with_reducible apply Kept.ite
    | intro _)

theorem State.swapFail_kept {s0 : State} (s : State) (n : Nat) (q : Seq) (hk : Kept s0 s) :
    Kept s0 (State.swapFail s n q) := by
  unfold State.swapFail
  repeat' (first
    | with_reducible exact Kept.rfl _
    | with_reducible assumption
    | with_reducible apply State.swapBack_kept
    | with_reducible apply State.raise_kept
    | with_reducible apply State.event_kept
    | with_reducible apply State.faultSeq_kept)

theorem execSwapInComplete_kept (seq : Nat) (readError : Bool) (s : State) {t' : State} (eqn : execSwapInComplete seq readError s = .next t') :
    Kept s t' := by
  unfold execSwapInComplete at eqn
  injection eqn with eqn
  subst eqn
  repeat' (first
    | with_reducible exact Kept.rfl _
    | with_reducible assumption
    | with_reducible apply State.swapFail_kept
    | with_reducible apply State.syncKv_kept
    | with_reducible apply State.swapBack_kept
    | with_reducible apply State.modSeq_kept
    | with_reducible apply State.endWaitCmd_kept
    | with_reducible apply State.noteConds_kept
    | with_reducible apply Kept.ite
    | intro _
    | extract_lets
    | split)

theorem State.commitPair_kept {s0 : State} (s : State) (lo hi : Nat) (v : W32) (hk : Kept s0 s) :
    Kept s0 (State.commitPair s lo hi v) := by
  unfold State.commitPair
  repeat' (first
    | with_reducible exact Kept.rfl _
    | with_reducible assumption
    | with_reducible apply State.hostWrite_kept
    | intro _
    | extract_lets
    | split
    | ((with_reducible conv => arg 2; whnf); split)
    | ((fail_if_success with_reducible apply Kept.eta); first | with_reducible apply Kept.upd))

theorem State.writeSwapSize_kept {s0 : State} (s : State) (v : W32) (hk : Kept s0 s) :
    Kept s0 (State.writeSwapSize s v) := by
  unfold State.writeSwapSize
  repeat' (first
    | with_reducible exact Kept.rfl _
    | with_reducible assumption
    | with_reducible apply State.raise_kept
    | with_reducible apply State.hostWrite_kept
    | with_reducible apply Kept.ite
    | intro _
    | extract_lets
    | ((fail_if_success with_reducible apply Kept.eta); first | with_reducible apply Kept.upd))

theorem State.writeSwapArea_kept {s0 : State} (s : State) (off : Nat) (v : W32) (hk : Kept s0 s) :
    Kept s0 (State.writeSwapArea s off v) := by
  unfold State.writeSwapArea
  repeat' (first
    | with_reducible exact Kept.rfl _
    | with_reducible assumption
    | with_reducible apply State.writeSwapSize_kept
    | with_reducible apply State.commitPair_kept
    | with_reducible apply Kept.ite
    | intro _
    | extract_lets
    | ((fail_if_success with_reducible apply Kept.eta); first | with_reducible apply Kept.upd))

theorem execSwapAreaWrite_kept (off : Nat) (v : W32) (s : State) {t' : State} (eqn : execSwapAreaWrite off v s = .next t') :
    Kept s t' := by
  unfold execSwapAreaWrite at eqn
  injection eqn with eqn
  subst eqn
  repeat' (first
    | with_reducible exact Kept.rfl _
    | with_reducible assumption
    | with_reducible apply State.writeSwapArea_kept
    | with_reducible apply Kept.ite)

theorem State.captureSeq_kept {s0 : State} (s : State) (n : Nat) (hk : Kept s0 s) :
    Kept s0 (State.captureSeq s n) := by
  unfold State.captureSeq
  repeat' (first
    | with_reducible exact Kept.rfl _
    | with_reducible assumption
    | with_reducible apply State.setReg_kept
    | with_reducible apply State.setFld_kept
    | intro _
    | extract_lets
    | split)

theorem State.writeSeqSel_kept {s0 : State} (s : State) (v : W32) (hk : Kept s0 s) :
    Kept s0 (State.writeSeqSel s v) := by
  unfold State.writeSeqSel
  repeat' (first
    | with_reducible exact Kept.rfl _
    | with_reducible assumption
    | with_reducible apply State.hostWrite_kept
    | with_reducible apply State.captureSeq_kept)

theorem execSeqSelWrite_kept (v : W32) (s : State) {t' : State} (eqn : execSeqSelWrite v s = .next t') :
    Kept s t' := by
  unfold execSeqSelWrite at eqn
  injection eqn with eqn
  subst eqn
  repeat' (first
    | with_reducible exact Kept.rfl _
    | with_reducible assumption
    | with_reducible apply State.writeSeqSel_kept
    | with_reducible apply Kept.ite)

theorem State.endLoad_kept {s0 : State} (s : State) (g : GroupRef) (p : Nat) (gr : Group) (d : PendLoad) (hg : s0.canon = true → gr.wf = true) (hk : Kept s0 s) :
    Kept s0 (State.endLoad s g p gr d) := by
  unfold State.endLoad
  repeat' (first
    | with_reducible exact Kept.rfl _
    | with_reducible assumption
    | (with_reducible refine Kept.group ?_ (by assumption))
    | (with_reducible refine Tile.launch_wf (by assumption) ?_)
    | with_reducible apply Kept.tile
    | with_reducible apply Group.loadElems_wf
    | ((fail_if_success with_reducible apply Group.wf_eta); with_reducible apply Group.wf_upd)
    | ((fail_if_success with_reducible apply Tile.wf_eta); with_reducible apply Tile.wf_upd)
    | with_reducible exact fun _ => emptyTile_wf
    | with_reducible apply State.setTile_kept
    | with_reducible apply State.stepOn_kept)

theorem State.answerLoad_kept {s0 : State} (s : State) (c p : Nat) (r : UlReply) (hk : Kept s0 s) :
    Kept s0 (State.answerLoad s c p r) := by
  unfold State.answerLoad
  repeat' (first
    | with_reducible exact Kept.rfl _
    | with_reducible assumption
    | (with_reducible refine Kept.group ?_ (by assumption))
    | (with_reducible refine Tile.launch_wf (by assumption) ?_)
    | with_reducible apply Kept.tile
    | with_reducible apply Group.take_wf
    | with_reducible apply Tile.haltLaunch_wf
    | ((fail_if_success with_reducible apply Group.wf_eta); with_reducible apply Group.wf_upd)
    | ((fail_if_success with_reducible apply Tile.wf_eta); with_reducible apply Tile.wf_upd)
    | with_reducible exact fun _ => emptyTile_wf
    | with_reducible apply State.putTile_kept
    | with_reducible apply State.blockFault_kept
    | with_reducible apply State.groupFault_kept
    | with_reducible apply State.endLoad_kept
    | with_reducible apply State.setTile_kept
    | with_reducible apply Kept.ite
    | intro _
    | extract_lets
    | split)

theorem State.answer_kept {s0 : State} (s : State) (r : UlReply) (hk : Kept s0 s) :
    Kept s0 (State.answer s r) := by
  unfold State.answer
  repeat' (first
    | with_reducible exact Kept.rfl _
    | with_reducible assumption
    | with_reducible apply State.answerLoad_kept
    | with_reducible apply Kept.fold
    | with_reducible apply Kept.ite
    | intro _)

end Sys2Proof.Machine
end

