-- ==== Sys2Proof/Laws/Keep6.lean ====
section
/-! SUPPORT. One lemma for each operation and each command: it leaves what `Kept` (`Shed`) names (Underlayer to Belt). -/

namespace Sys2Proof.Machine

theorem State.ackStores_kept {s0 : State} (s : State) (hk : Kept s0 s) :
    Kept s0 (State.ackStores s) := by
  unfold State.ackStores
  extract_lets x
  refine ⟨hk.1, hk.2, hk.3, hk.4, hk.5, fun c0 => ?_⟩
  have k := hk.6 c0
  clear_value x
  simp only [State.canon, State.memWf, State.tilesWf, tabWf, Bool.and_eq_true, List.all_eq_true, decide_eq_true_eq] at k ⊢
  refine ⟨⟨k.1.1, ⟨tabMap_rising _ (fun _ => Eq.refl _) k.1.2.1.1, fun e m => ?_⟩, fun e m => ?_⟩, k.2⟩
  · obtain ⟨y, my, rfl⟩ := List.mem_map.1 m
    have h := k.1.2.1.2 y my
    generalize y.2 = t at h
    obtain ⟨a, b, c, d, e, f, g, i, j, k, l, m, n⟩ := t
    cases g with
    | nil => exact h
    | cons z g => exact fun u => nomatch congrArg Tile.groups u
  · obtain ⟨y, my, rfl⟩ := List.mem_map.1 m
    exact Tile.mapGroups_wf (P := True) (fun _ => k.1.2.2 y my) (fun _ => Eq.refl _) (fun _ h => h) trivial

theorem State.unbackedRead_kept {s0 : State} (s : State) (o : UlOp) (what : LostData) (hk : Kept s0 s) :
    Kept s0 (State.unbackedRead s o what) := by
  unfold State.unbackedRead
  repeat' (first
    | with_reducible exact Kept.rfl _
    | with_reducible assumption
    | with_reducible apply State.unbackedSectors_kept
    | with_reducible apply Kept.ite
    | intro _
    | extract_lets)

theorem State.settleSlice_kept {s0 : State} (s : State) (hk : Kept s0 s) :
    Kept s0 (State.settleSlice s) := by
  unfold State.settleSlice
  repeat' (first
    | with_reducible exact Kept.rfl _
    | with_reducible assumption
    | with_reducible apply State.answer_kept
    | with_reducible apply State.ackStores_kept
    | with_reducible apply Kept.fold
    | intro _)

theorem State.crossEquator_kept {s0 : State} (s : State) (half : Nat) (hk : Kept s0 s) :
    Kept s0 (State.crossEquator s half) := by
  unfold State.crossEquator
  repeat' (first
    | with_reducible exact Kept.rfl _
    | with_reducible assumption
    | with_reducible apply State.grant_kept
    | (with_reducible apply State.grant_kept_eq; assumption)
    | with_reducible apply State.atPort_kept
    | intro _
    | extract_lets
    | split
    | ((with_reducible conv => arg 2; whnf); split)
    | ((fail_if_success with_reducible apply Kept.eta); first | with_reducible apply Kept.upd))

theorem State.serve_kept {s0 : State} (s : State) (o : UlOp) (what : LostData) (hk : Kept s0 s) :
    Kept s0 (State.serve s o what) := by
  unfold State.serve
  repeat' (first
    | with_reducible exact Kept.rfl _
    | with_reducible assumption
    | with_reducible apply State.unbackedRead_kept
    | with_reducible apply State.setInq_kept
    | (with_reducible apply State.takeReq_kept; assumption)
    | with_reducible apply Kept.ite
    | intro _
    | extract_lets
    | split)

theorem State.closeEntry_kept {s0 : State} (s : State) (slice line : Nat) (hk : Kept s0 s) :
    Kept s0 (State.closeEntry s slice line) := by
  unfold State.closeEntry
  repeat' (first
    | with_reducible exact Kept.rfl _
    | with_reducible assumption
    | with_reducible apply State.setMshr_kept)

theorem State.closeFilled_kept {s0 : State} (s : State) (x line : Nat) (m : Mshr) (hk : Kept s0 s) :
    Kept s0 (State.closeFilled s x line m) := by
  unfold State.closeFilled
  repeat' (first
    | with_reducible exact Kept.rfl _
    | with_reducible assumption
    | with_reducible apply State.closeEntry_kept
    | with_reducible apply State.unbackedRead_kept
    | with_reducible apply State.unbackedSectors_kept
    | with_reducible apply Kept.fold
    | with_reducible apply Kept.ite
    | intro _
    | extract_lets
    | ((fail_if_success with_reducible apply Kept.eta); first | with_reducible apply Kept.upd | with_reducible apply Kept.updU))

theorem State.fillEntry_kept {s0 : State} (s : State) (x line : Nat) (m : Mshr) {t' : State} (eqn : State.fillEntry s x line m = some t') (hk : Kept s0 s) :
    Kept s0 t' := by
  unfold State.fillEntry at eqn
  repeat' (first
    | (injection eqn with eqn; subst eqn)
    | (injection eqn with eqn; injection eqn with eqm eqn; subst eqn)
    | (exact absurd eqn (fun e => by injection e))
    | split at eqn
    | dsimp only at eqn)
  all_goals
    repeat' (first
      | with_reducible exact Kept.rfl _
      | with_reducible assumption
      | with_reducible apply State.closeFilled_kept
      | (with_reducible apply State.fillLine_kept; assumption)
      | with_reducible apply State.drainInq_kept
      | with_reducible apply State.settleSlice_kept
      | intro _
      | extract_lets
      | split
      | ((with_reducible conv => arg 2; whnf); split)
      | ((fail_if_success with_reducible apply Kept.eta); first | with_reducible apply Kept.upd))

theorem execSliceFillComplete_kept (line : Nat) (s : State) {t' : State} (eqn : execSliceFillComplete line s = .next t') :
    Kept s t' := by
  unfold execSliceFillComplete at eqn
  injection eqn with eqn
  subst eqn
  repeat' (first
    | with_reducible exact Kept.rfl _
    | with_reducible assumption
    | (with_reducible apply State.channelTurn_kept; assumption)
    | (with_reducible apply State.fillEntry_kept; assumption)
    | with_reducible apply Kept.getD
    | with_reducible apply Kept.ite
    | intro _
    | extract_lets
    | split
    | ((with_reducible conv => arg 2; whnf); split)
    | ((fail_if_success with_reducible apply Kept.eta); first | with_reducible apply Kept.upd))

theorem State.fallThrough_kept {s0 : State} (s : State) (line : Nat) (m : Mshr) (hk : Kept s0 s) :
    Kept s0 (State.fallThrough s line m) := by
  unfold State.fallThrough
  repeat' (first
    | with_reducible exact Kept.rfl _
    | with_reducible assumption
    | with_reducible apply State.runOps_kept
    | (with_reducible apply State.runOps_kept_eq; assumption)
    | with_reducible apply State.writeSectors_kept)

theorem execFallThroughComplete_kept (line : Nat) (s : State) {t' : State} (eqn : execFallThroughComplete line s = .next t') :
    Kept s t' := by
  unfold execFallThroughComplete at eqn
  injection eqn with eqn
  subst eqn
  repeat' (first
    | with_reducible exact Kept.rfl _
    | with_reducible assumption
    | (with_reducible apply State.channelTurn_kept; assumption)
    | with_reducible apply State.closeEntry_kept
    | with_reducible apply State.fallThrough_kept
    | with_reducible apply State.drainInq_kept
    | with_reducible apply State.settleSlice_kept
    | with_reducible apply Kept.ite
    | intro _
    | extract_lets
    | split
    | ((with_reducible conv => arg 2; whnf); split)
    | ((fail_if_success with_reducible apply Kept.eta); first | with_reducible apply Kept.upd | with_reducible apply Kept.updU))

theorem State.startRange_kept {s0 : State} (s : State) (op base size cls : Nat) (cmd : Option (Nat × Nat)) (group : Option GroupRef) (after : List Nat) (hk : Kept s0 s) :
    Kept s0 (State.startRange s op base size cls cmd group after) := by
  unfold State.startRange
  repeat' (first
    | with_reducible exact Kept.rfl _
    | with_reducible assumption
    | with_reducible apply State.takeId_kept
    | (with_reducible apply State.takeId_kept_eq; assumption)
    | with_reducible apply Kept.iteFst
    | with_reducible apply Kept.foldFst
    | intro _
    | extract_lets
    | ((fail_if_success with_reducible apply Kept.eta); first | with_reducible apply Kept.upd | with_reducible apply Kept.updU))

theorem execRngInstruction_kept (g : GroupRef) (op sa sb : Nat) (s : State) {t' : State} (eqn : execRngInstruction g op sa sb s = .next t') :
    Kept s t' := by
  unfold execRngInstruction at eqn
  injection eqn with eqn
  subst eqn
  repeat' (first
    | with_reducible exact Kept.rfl _
    | with_reducible assumption
    | (with_reducible refine Kept.group ?_ (by assumption))
    | (with_reducible refine Tile.launch_wf (by assumption) ?_)
    | with_reducible apply Kept.tile
    | with_reducible apply Group.next_wf
    | ((fail_if_success with_reducible apply Group.wf_eta); with_reducible apply Group.wf_upd)
    | ((fail_if_success with_reducible apply Tile.wf_eta); with_reducible apply Tile.wf_upd)
    | with_reducible exact fun _ => emptyTile_wf
    | with_reducible apply State.issue_kept
    | with_reducible apply State.groupFault_kept
    | with_reducible apply State.startRange_kept
    | with_reducible apply State.stepOn_kept
    | with_reducible apply Kept.ite
    | intro _)

theorem execRangeOp_kept (sq cid : Nat) (s : State) {t' : State} (eqn : execRangeOp sq cid s = .next t') :
    Kept s t' := by
  unfold execRangeOp at eqn
  injection eqn with eqn
  subst eqn
  repeat' (first
    | with_reducible exact Kept.rfl _
    | with_reducible assumption
    | with_reducible apply State.accept_kept
    | with_reducible apply State.startRange_kept
    | intro _)

theorem State.runRange_kept {s0 : State} (s : State) (id op : Nat) (hk : Kept s0 s) :
    Kept s0 (State.runRange s id op) := by
  unfold State.runRange
  repeat' (first
    | with_reducible exact Kept.rfl _
    | with_reducible assumption
    | with_reducible apply State.applyRange_kept
    | with_reducible apply Kept.ite
    | intro _
    | extract_lets
    | split
    | ((with_reducible conv => arg 2; whnf); split)
    | ((fail_if_success with_reducible apply Kept.eta); first | with_reducible apply Kept.upd | with_reducible apply Kept.updU))

theorem execPrefetch_kept (id : Nat) (s : State) {t' : State} (eqn : execPrefetch id s = .next t') :
    Kept s t' := by
  unfold execPrefetch at eqn
  injection eqn with eqn
  subst eqn
  repeat' (first
    | with_reducible exact Kept.rfl _
    | with_reducible assumption
    | with_reducible apply State.runRange_kept)

theorem execFlush_kept (id : Nat) (s : State) {t' : State} (eqn : execFlush id s = .next t') :
    Kept s t' := by
  unfold execFlush at eqn
  injection eqn with eqn
  subst eqn
  repeat' (first
    | with_reducible exact Kept.rfl _
    | with_reducible assumption
    | with_reducible apply State.runRange_kept)

theorem execInvalidate_kept (id : Nat) (s : State) {t' : State} (eqn : execInvalidate id s = .next t') :
    Kept s t' := by
  unfold execInvalidate at eqn
  injection eqn with eqn
  subst eqn
  repeat' (first
    | with_reducible exact Kept.rfl _
    | with_reducible assumption
    | with_reducible apply State.runRange_kept)

theorem execDead_kept (id : Nat) (s : State) {t' : State} (eqn : execDead id s = .next t') :
    Kept s t' := by
  unfold execDead at eqn
  injection eqn with eqn
  subst eqn
  repeat' (first
    | with_reducible exact Kept.rfl _
    | with_reducible assumption
    | with_reducible apply State.runRange_kept)

theorem execLive_kept (id : Nat) (s : State) {t' : State} (eqn : execLive id s = .next t') :
    Kept s t' := by
  unfold execLive at eqn
  injection eqn with eqn
  subst eqn
  repeat' (first
    | with_reducible exact Kept.rfl _
    | with_reducible assumption
    | with_reducible apply State.runRange_kept)

theorem execRangeOpComplete_kept (id : Nat) (s : State) {t' : State} (eqn : execRangeOpComplete id s = .next t') :
    Kept s t' := by
  unfold execRangeOpComplete at eqn
  injection eqn with eqn
  subst eqn
  repeat' (first
    | with_reducible exact Kept.rfl _
    | with_reducible assumption
    | with_reducible apply State.complete_kept
    | intro _
    | extract_lets
    | split
    | ((with_reducible conv => arg 2; whnf); split)
    | ((fail_if_success with_reducible apply Kept.eta); first | with_reducible apply Kept.upd | with_reducible apply Kept.updU))

theorem State.lastingRow_kept {s0 : State} (s : State) (slice die row : Nat) (hk : Kept s0 s) :
    Kept s0 (State.lastingRow s slice die row) := by
  unfold State.lastingRow
  repeat' (first
    | with_reducible exact Kept.rfl _
    | with_reducible assumption
    | with_reducible apply State.row_kept
    | with_reducible apply State.event_kept
    | with_reducible apply State.replaceRow_kept
    | intro _
    | extract_lets
    | ((fail_if_success with_reducible apply Kept.eta); first | with_reducible apply Kept.upd | with_reducible apply Kept.updU))

theorem State.correctUl_kept {s0 : State} (s : State) (slice die row word : Nat) (hk : Kept s0 s) :
    Kept s0 (State.correctUl s slice die row word) := by
  unfold State.correctUl
  repeat' (first
    | with_reducible exact Kept.rfl _
    | with_reducible assumption
    | with_reducible apply State.raise_kept
    | with_reducible apply State.incFld_kept
    | with_reducible apply State.row_kept
    | with_reducible apply State.lastingRow_kept
    | with_reducible apply Kept.ite
    | intro _
    | extract_lets
    | ((fail_if_success with_reducible apply Kept.eta); first | with_reducible apply Kept.upd | with_reducible apply Kept.updU))

theorem execCorrectionLogExpiry_kept (slice : Nat) (s : State) {t' : State} (eqn : execCorrectionLogExpiry slice s = .next t') :
    Kept s t' := by
  unfold execCorrectionLogExpiry at eqn
  injection eqn with eqn
  subst eqn
  repeat' (first
    | with_reducible exact Kept.rfl _
    | with_reducible assumption
    | intro _
    | extract_lets
    | ((fail_if_success with_reducible apply Kept.eta); first | with_reducible apply Kept.upd | with_reducible apply Kept.updU))

theorem execRowReplacementComplete_kept (slice die row : Nat) (s : State) {t' : State} (eqn : execRowReplacementComplete slice die row s = .next t') :
    Kept s t' := by
  unfold execRowReplacementComplete at eqn
  injection eqn with eqn
  subst eqn
  repeat' (first
    | with_reducible exact Kept.rfl _
    | with_reducible assumption
    | with_reducible apply State.row_kept
    | with_reducible apply State.incFld_kept
    | with_reducible apply State.raise_kept
    | with_reducible apply State.event_kept
    | with_reducible apply State.addDefect_kept
    | with_reducible apply State.returnHanded_kept
    | with_reducible apply Kept.ite
    | intro _
    | extract_lets
    | ((fail_if_success with_reducible apply Kept.eta); first | with_reducible apply Kept.upd | with_reducible apply Kept.updU))

theorem State.correctHbm_kept {s0 : State} (s : State) (ch row word : Nat) (repairLeft : Bool) (hk : Kept s0 s) :
    Kept s0 (State.correctHbm s ch row word repairLeft) := by
  unfold State.correctHbm
  repeat' (first
    | with_reducible exact Kept.rfl _
    | with_reducible assumption
    | with_reducible apply State.raise_kept
    | with_reducible apply State.incFld_kept
    | with_reducible apply State.row_kept
    | with_reducible apply State.event_kept
    | with_reducible apply Kept.ite
    | intro _
    | extract_lets
    | ((fail_if_success with_reducible apply Kept.eta); first | with_reducible apply Kept.upd | with_reducible apply Kept.updU))

theorem execHbmCorrectableError_kept (ch row word : Nat) (repairLeft : Bool) (s : State) {t' : State} (eqn : execHbmCorrectableError ch row word repairLeft s = .next t') :
    Kept s t' := by
  unfold execHbmCorrectableError at eqn
  injection eqn with eqn
  subst eqn
  repeat' (first
    | with_reducible exact Kept.rfl _
    | with_reducible assumption
    | with_reducible apply State.correctHbm_kept
    | with_reducible apply State.row_kept
    | with_reducible apply Kept.ite)

theorem State.failClean_kept {s0 : State} (s : State) (k : Nat) (hk : Kept s0 s) :
    Kept s0 (State.failClean s k) := by
  unfold State.failClean
  repeat' (first
    | with_reducible exact Kept.rfl _
    | with_reducible assumption
    | with_reducible apply State.evict_kept
    | with_reducible apply State.raise_kept
    | with_reducible apply State.incFld_kept)

theorem State.failDirty_kept {s0 : State} (s : State) (k : Nat) (l : Line) (sector : Nat) (what : LostData) (hk : Kept s0 s) :
    Kept s0 (State.failDirty s k l sector what) := by
  unfold State.failDirty
  repeat' (first
    | with_reducible exact Kept.rfl _
    | with_reducible assumption
    | with_reducible apply State.setLine_kept
    | with_reducible apply State.raise_kept
    | with_reducible apply State.incFld_kept
    | with_reducible apply State.ownerActs_kept)

theorem State.failHbm_kept {s0 : State} (s : State) (line sector : Nat) (what : LostData) (hk : Kept s0 s) :
    Kept s0 (State.failHbm s line sector what) := by
  unfold State.failHbm
  repeat' (first
    | with_reducible exact Kept.rfl _
    | with_reducible assumption
    | with_reducible apply State.hbmPutSector_kept
    | with_reducible apply State.raise_kept
    | with_reducible apply State.incFld_kept
    | with_reducible apply State.ownerActs_kept
    | with_reducible apply Kept.ite)

theorem State.failCached_kept {s0 : State} (s : State) (k : Nat) (l : Line) (sector : Nat) (what : LostData) (hk : Kept s0 s) :
    Kept s0 (State.failCached s k l sector what) := by
  unfold State.failCached
  repeat' (first
    | with_reducible exact Kept.rfl _
    | with_reducible assumption
    | with_reducible apply State.failDirty_kept
    | with_reducible apply State.failClean_kept
    | with_reducible apply Kept.ite)

theorem State.checkWord_kept {s0 : State} (s : State) (slice die row word bits : Nat) (bit0 : Bool) (hk : Kept s0 s) :
    Kept s0 (State.checkWord s slice die row word bits bit0) := by
  unfold State.checkWord
  repeat' (first
    | with_reducible exact Kept.rfl _
    | with_reducible assumption
    | with_reducible apply State.row_kept
    | with_reducible apply State.failCached_kept
    | with_reducible apply State.correctUl_kept
    | with_reducible apply Kept.ite
    | intro _
    | extract_lets
    | split
    | ((with_reducible conv => arg 2; whnf); split)
    | ((fail_if_success with_reducible apply Kept.eta); first | with_reducible apply Kept.upd))

theorem execUlCorrectableError_kept (slice die row : Nat) (w : BadWord) (s : State) {t' : State} (eqn : execUlCorrectableError slice die row w s = .next t') :
    Kept s t' := by
  unfold execUlCorrectableError at eqn
  injection eqn with eqn
  subst eqn
  repeat' (first
    | with_reducible exact Kept.rfl _
    | with_reducible assumption
    | with_reducible apply State.row_kept
    | with_reducible apply State.checkWord_kept
    | with_reducible apply Kept.ite)

theorem execUlUncorrectableClean_kept (line sector : Nat) (s : State) {t' : State} (eqn : execUlUncorrectableClean line sector s = .next t') :
    Kept s t' := by
  unfold execUlUncorrectableClean at eqn
  injection eqn with eqn
  subst eqn
  repeat' (first
    | with_reducible exact Kept.rfl _
    | with_reducible assumption
    | with_reducible apply State.failCached_kept
    | with_reducible apply Kept.ite
    | intro _
    | extract_lets
    | split)

theorem execUlUncorrectableDirty_kept (line sector : Nat) (inHbm : Bool) (what : LostData) (s : State) {t' : State} (eqn : execUlUncorrectableDirty line sector inHbm what s = .next t') :
    Kept s t' := by
  unfold execUlUncorrectableDirty at eqn
  injection eqn with eqn
  subst eqn
  repeat' (first
    | with_reducible exact Kept.rfl _
    | with_reducible assumption
    | with_reducible apply State.failHbm_kept
    | with_reducible apply State.failCached_kept
    | with_reducible apply Kept.ite
    | intro _
    | extract_lets
    | split)

theorem State.loseTag_kept {s0 : State} (s : State) (k : Nat) (hk : Kept s0 s) :
    Kept s0 (State.loseTag s k) := by
  unfold State.loseTag
  repeat' (first
    | with_reducible exact Kept.rfl _
    | with_reducible assumption
    | with_reducible apply State.dropLine_kept
    | with_reducible apply State.raise_kept
    | with_reducible apply State.incFld_kept
    | with_reducible apply State.event_kept
    | with_reducible apply State.deviceScope_kept)

theorem execTagError_kept (line : Nat) (bothFail : Bool) (s : State) {t' : State} (eqn : execTagError line bothFail s = .next t') :
    Kept s t' := by
  unfold execTagError at eqn
  injection eqn with eqn
  subst eqn
  repeat' (first
    | with_reducible exact Kept.rfl _
    | with_reducible assumption
    | with_reducible apply State.loseTag_kept
    | with_reducible apply State.raise_kept
    | with_reducible apply Kept.ite
    | intro _
    | extract_lets
    | split)

theorem State.ulVisit_kept {s0 : State} (s : State) (k : Nat) (found : ScrubFind) (what : LostData) (hk : Kept s0 s) :
    Kept s0 (State.ulVisit s k found what) := by
  unfold State.ulVisit
  repeat' (first
    | with_reducible exact Kept.rfl _
    | with_reducible assumption
    | with_reducible apply State.correctUl_kept
    | with_reducible apply State.failCached_kept
    | with_reducible apply Kept.ite
    | intro _
    | extract_lets
    | split
    | ((with_reducible conv => arg 2; whnf); split)
    | ((fail_if_success with_reducible apply Kept.eta); first | with_reducible apply Kept.upd))

theorem State.ulWalk_kept {s0 : State} (s : State) (found : ScrubFind) (what : LostData) (hk : Kept s0 s) :
    Kept s0 (State.ulWalk s found what) := by
  unfold State.ulWalk
  repeat' (first
    | with_reducible exact Kept.rfl _
    | with_reducible assumption
    | with_reducible apply State.ulVisit_kept
    | with_reducible apply State.incFld_kept
    | with_reducible apply Kept.ite
    | intro _
    | extract_lets
    | ((fail_if_success with_reducible apply Kept.eta); first | with_reducible apply Kept.upd | with_reducible apply Kept.updU))

theorem State.hbmVisit_kept {s0 : State} (s : State) (l : Nat) (found : ScrubFind) (what : LostData) (hk : Kept s0 s) :
    Kept s0 (State.hbmVisit s l found what) := by
  unfold State.hbmVisit
  repeat' (first
    | with_reducible exact Kept.rfl _
    | with_reducible assumption
    | with_reducible apply State.row_kept
    | with_reducible apply State.correctHbm_kept
    | with_reducible apply State.failHbm_kept
    | with_reducible apply Kept.ite
    | intro _
    | extract_lets
    | split
    | ((with_reducible conv => arg 2; whnf); split)
    | ((fail_if_success with_reducible apply Kept.eta); first | with_reducible apply Kept.upd))

theorem State.hbmWalk_kept {s0 : State} (s : State) (found : ScrubFind) (what : LostData) (hk : Kept s0 s) :
    Kept s0 (State.hbmWalk s found what) := by
  unfold State.hbmWalk
  repeat' (first
    | with_reducible exact Kept.rfl _
    | with_reducible assumption
    | with_reducible apply State.hbmVisit_kept
    | with_reducible apply State.incFld_kept
    | with_reducible apply Kept.ite
    | intro _
    | extract_lets
    | ((fail_if_success with_reducible apply Kept.eta); first | with_reducible apply Kept.upd | with_reducible apply Kept.updU))

theorem State.portServes_kept {s0 : State} (s : State) (x : UlOp) (found : ScrubFind) (what : LostData) (hk : Kept s0 s) :
    Kept s0 (State.portServes s x found what) := by
  unfold State.portServes
  repeat' (first
    | with_reducible exact Kept.rfl _
    | with_reducible assumption
    | with_reducible apply State.ulWalk_kept
    | with_reducible apply State.serve_kept
    | with_reducible apply State.settleSlice_kept
    | with_reducible apply Kept.ite
    | intro _
    | extract_lets)

theorem State.atSlice_kept {s0 : State} (s : State) (o : UlOp) (what : LostData) (hk : Kept s0 s) :
    Kept s0 (State.atSlice s o what) := by
  unfold State.atSlice
  repeat' (first
    | with_reducible exact Kept.rfl _
    | with_reducible assumption
    | with_reducible apply State.submit_kept
    | with_reducible apply State.crossEquator_kept
    | with_reducible apply State.grant_kept
    | (with_reducible apply State.grant_kept_eq; assumption)
    | with_reducible apply State.portServes_kept
    | with_reducible apply Kept.ite
    | intro _
    | extract_lets
    | split
    | ((with_reducible conv => arg 2; whnf); split)
    | ((fail_if_success with_reducible apply Kept.eta); first | with_reducible apply Kept.upd | with_reducible apply Kept.updU))

theorem execSliceRead_kept (r : UlReq) (what : LostData) (s : State) {t' : State} (eqn : execSliceRead r what s = .next t') :
    Kept s t' := by
  unfold execSliceRead at eqn
  injection eqn with eqn
  subst eqn
  repeat' (first
    | with_reducible exact Kept.rfl _
    | with_reducible assumption
    | with_reducible apply State.atSlice_kept)

theorem execSliceStore_kept (r : UlReq) (s : State) {t' : State} (eqn : execSliceStore r s = .next t') :
    Kept s t' := by
  unfold execSliceStore at eqn
  injection eqn with eqn
  subst eqn
  repeat' (first
    | with_reducible exact Kept.rfl _
    | with_reducible assumption
    | with_reducible apply State.atSlice_kept)

theorem execReductionRequest_kept (r : UlReq) (s : State) {t' : State} (eqn : execReductionRequest r s = .next t') :
    Kept s t' := by
  unfold execReductionRequest at eqn
  injection eqn with eqn
  subst eqn
  repeat' (first
    | with_reducible exact Kept.rfl _
    | with_reducible assumption
    | with_reducible apply State.atSlice_kept)

theorem State.askScrub_kept {s0 : State} (s : State) (hk : Kept s0 s) :
    Kept s0 (State.askScrub s) := by
  unfold State.askScrub
  repeat' (first
    | with_reducible exact Kept.rfl _
    | with_reducible assumption
    | with_reducible apply State.inPoint_kept
    | with_reducible apply Kept.ite
    | intro _
    | extract_lets
    | split
    | ((with_reducible conv => arg 2; whnf); split)
    | ((fail_if_success with_reducible apply Kept.eta); first | with_reducible apply Kept.upd | with_reducible apply Kept.updU))

theorem execScrubUlVisit_kept (found : ScrubFind) (what : LostData) (s : State) {t' : State} (eqn : execScrubUlVisit found what s = .next t') :
    Kept s t' := by
  unfold execScrubUlVisit at eqn
  injection eqn with eqn
  subst eqn
  repeat' (first
    | with_reducible exact Kept.rfl _
    | with_reducible assumption
    | with_reducible apply State.ulWalk_kept
    | with_reducible apply State.askScrub_kept
    | with_reducible apply State.grant_kept
    | (with_reducible apply State.grant_kept_eq; assumption)
    | with_reducible apply State.portServes_kept
    | with_reducible apply Kept.ite
    | intro _
    | extract_lets
    | split
    | ((with_reducible conv => arg 2; whnf); split)
    | ((fail_if_success with_reducible apply Kept.eta); first | with_reducible apply Kept.upd | with_reducible apply Kept.updU))

theorem State.askScrubHbm_kept {s0 : State} (s : State) (l : Nat) (hk : Kept s0 s) :
    Kept s0 (State.askScrubHbm s l) := by
  unfold State.askScrubHbm
  repeat' (first
    | with_reducible exact Kept.rfl _
    | with_reducible assumption
    | with_reducible apply State.askChannel_kept
    | with_reducible apply Kept.ite
    | intro _
    | extract_lets
    | split
    | ((with_reducible conv => arg 2; whnf); split)
    | ((fail_if_success with_reducible apply Kept.eta); first | with_reducible apply Kept.upd | with_reducible apply Kept.updU))

theorem execScrubHbmVisit_kept (found : ScrubFind) (what : LostData) (s : State) {t' : State} (eqn : execScrubHbmVisit found what s = .next t') :
    Kept s t' := by
  unfold execScrubHbmVisit at eqn
  injection eqn with eqn
  subst eqn
  repeat' (first
    | with_reducible exact Kept.rfl _
    | with_reducible assumption
    | with_reducible apply State.askScrubHbm_kept
    | (with_reducible apply State.channelTurn_kept; assumption)
    | with_reducible apply State.hbmWalk_kept
    | with_reducible apply Kept.ite
    | intro _
    | extract_lets
    | split
    | ((with_reducible conv => arg 2; whnf); split)
    | ((fail_if_success with_reducible apply Kept.eta); first | with_reducible apply Kept.upd))

theorem State.drainLine_kept {s0 : State} (s : State) (lost : List (Nat × LostData)) (k : Nat) (hk : Kept s0 s) :
    Kept s0 (State.drainLine s lost k) := by
  unfold State.drainLine
  repeat' (first
    | with_reducible exact Kept.rfl _
    | with_reducible assumption
    | with_reducible apply State.dropLine_kept
    | with_reducible apply State.writeSectors_kept
    | with_reducible apply State.raise_kept
    | with_reducible apply State.addFld_kept
    | with_reducible apply State.ownerActs_kept
    | with_reducible apply State.evict_kept
    | with_reducible apply Kept.ite
    | intro _
    | extract_lets
    | split)

theorem execSliceDrainComplete_kept (slice : Nat) (lost : List (Nat × LostData)) (s : State) {t' : State} (eqn : execSliceDrainComplete slice lost s = .next t') :
    Kept s t' := by
  unfold execSliceDrainComplete at eqn
  injection eqn with eqn
  subst eqn
  repeat' (first
    | with_reducible exact Kept.rfl _
    | with_reducible assumption
    | with_reducible apply State.drainLine_kept
    | with_reducible apply State.endRetire_kept
    | with_reducible apply State.returnHanded_kept
    | with_reducible apply Kept.fold
    | with_reducible apply Kept.ite
    | intro _)

theorem execPinRecomputeComplete_kept (s : State) {t' : State} (eqn : execPinRecomputeComplete s = .next t') :
    Kept s t' := by
  unfold execPinRecomputeComplete at eqn
  injection eqn with eqn
  subst eqn
  repeat' (first
    | with_reducible exact Kept.rfl _
    | with_reducible assumption
    | with_reducible apply State.pinRecompute_kept
    | with_reducible apply State.journalRetirements_kept
    | with_reducible apply Kept.ite
    | intro _
    | extract_lets
    | ((fail_if_success with_reducible apply Kept.eta); first | with_reducible apply Kept.upd | with_reducible apply Kept.updU))

theorem State.returnAct_kept {s0 : State} (s : State) (x : Nat) (f : Frame) (act : State → Frame → State) (hact : ∀ s0 v1, Kept s0 (act s0 v1)) (hk : Kept s0 s) :
    Kept s0 (State.returnAct s x f act) := by
  unfold State.returnAct
  repeat' (first
    | with_reducible exact Kept.rfl _
    | with_reducible assumption
    | with_reducible apply State.markSeen_kept
    | with_reducible apply State.mgrNote_kept
    | with_reducible apply State.onward_kept
    | with_reducible apply Kept.step (hact ..)
    | with_reducible apply Kept.ite)

theorem State.forwardAct_kept {s0 : State} (s : State) (x : Nat) (f : Frame) (act : State → Frame → State) (hact : ∀ s0 v1, Kept s0 (act s0 v1)) (hk : Kept s0 s) :
    Kept s0 (State.forwardAct s x f act) := by
  unfold State.forwardAct
  repeat' (first
    | with_reducible exact Kept.rfl _
    | with_reducible assumption
    | with_reducible apply State.onward_kept
    | with_reducible apply Kept.step (hact ..)
    | with_reducible apply Kept.ite)

theorem State.syncBrake_kept {s0 : State} (s : State) (hk : Kept s0 s) :
    Kept s0 (State.syncBrake s) := by
  unfold State.syncBrake
  repeat' (first
    | with_reducible exact Kept.rfl _
    | with_reducible assumption
    | with_reducible apply State.setFld_kept)

theorem State.addBrake_kept {s0 : State} (s : State) (p : Nat) (hk : Kept s0 s) :
    Kept s0 (State.addBrake s p) := by
  unfold State.addBrake
  repeat' (first
    | with_reducible exact Kept.rfl _
    | with_reducible assumption
    | with_reducible apply State.syncBrake_kept
    | with_reducible apply Kept.ite
    | intro _
    | extract_lets
    | ((fail_if_success with_reducible apply Kept.eta); first | with_reducible apply Kept.upd))

theorem State.dropBrake_kept {s0 : State} (s : State) (p : Nat) (hk : Kept s0 s) :
    Kept s0 (State.dropBrake s p) := by
  unfold State.dropBrake
  repeat' (first
    | with_reducible exact Kept.rfl _
    | with_reducible assumption
    | with_reducible apply State.syncBrake_kept
    | intro _
    | extract_lets
    | ((fail_if_success with_reducible apply Kept.eta); first | with_reducible apply Kept.upd))

theorem State.modFree_kept {s0 : State} (s : State) (p : Nat) (f : Nat → Nat) (hk : Kept s0 s) :
    Kept s0 (State.modFree s p f) := by
  unfold State.modFree
  repeat' (first
    | with_reducible exact Kept.rfl _
    | with_reducible assumption
    | with_reducible apply Kept.ite
    | intro _
    | extract_lets
    | ((fail_if_success with_reducible apply Kept.eta); first | with_reducible apply Kept.upd))

theorem State.modPlaced_kept {s0 : State} (s : State) (n : W64) (f : Placed → Placed) (hk : Kept s0 s) :
    Kept s0 (State.modPlaced s n f) := by
  unfold State.modPlaced
  repeat' (first
    | with_reducible exact Kept.rfl _
    | with_reducible assumption
    | with_reducible apply Kept.ite
    | intro _
    | extract_lets
    | ((fail_if_success with_reducible apply Kept.eta); first | with_reducible apply Kept.upd))

theorem State.dropPlaced_kept {s0 : State} (s : State) (n : W64) (hk : Kept s0 s) :
    Kept s0 (State.dropPlaced s n) := by
  unfold State.dropPlaced
  repeat' (first
    | with_reducible exact Kept.rfl _
    | with_reducible assumption
    | intro _
    | extract_lets
    | ((fail_if_success with_reducible apply Kept.eta); first | with_reducible apply Kept.upd))

theorem State.queryFrame_kept {s0 : State} (s : State) (net dest : Nat) (n : W64) (q : Query) (hk : Kept s0 s) :
    Kept s0 (State.queryFrame s net dest n q).1 := by
  unfold State.queryFrame
  repeat' (first
    | with_reducible exact Kept.rfl _
    | with_reducible assumption
    | with_reducible apply State.nextSeq_kept)

theorem State.queryFrame_kept_eq {s0 t' : State} {x' : Frame} (s : State) (net dest : Nat) (n : W64) (q : Query) (eqn : State.queryFrame s net dest n q = (t', x')) (hk : Kept s0 s) : Kept s0 t' := by
  have k := State.queryFrame_kept (s0 := s0) s net dest n q hk
  rw [eqn] at k
  exact k

theorem State.tryPlace_kept {s0 : State} (s : State) (p : Placed) (hk : Kept s0 s) :
    Kept s0 (State.tryPlace s p) := by
  unfold State.tryPlace
  repeat' (first
    | with_reducible exact Kept.rfl _
    | with_reducible assumption
    | with_reducible apply State.modPlaced_kept
    | with_reducible apply State.modFree_kept
    | with_reducible apply State.queryFrame_kept
    | (with_reducible apply State.queryFrame_kept_eq; assumption)
    | with_reducible apply State.inject_kept
    | with_reducible apply Kept.iteFst
    | with_reducible apply Kept.foldFst
    | with_reducible apply Kept.ite
    | intro _
    | extract_lets
    | split)

theorem State.placeAll_kept {s0 : State} (s : State) (hk : Kept s0 s) :
    Kept s0 (State.placeAll s) := by
  unfold State.placeAll
  repeat' (first
    | with_reducible exact Kept.rfl _
    | with_reducible assumption
    | with_reducible apply State.tryPlace_kept
    | with_reducible apply Kept.fold
    | intro _)

theorem State.takeQuery_kept {s0 : State} (s : State) (q : Query) (fed : Bool) (hk : Kept s0 s) :
    Kept s0 (State.takeQuery s q fed) := by
  unfold State.takeQuery
  repeat' (first
    | with_reducible exact Kept.rfl _
    | with_reducible assumption
    | with_reducible apply State.tryPlace_kept
    | intro _
    | extract_lets
    | ((fail_if_success with_reducible apply Kept.eta); first | with_reducible apply Kept.upd))

theorem State.replaceFrom_kept {s0 : State} (s : State) (d : Nat) (hk : Kept s0 s) :
    Kept s0 (State.replaceFrom s d) := by
  unfold State.replaceFrom
  repeat' (first
    | with_reducible exact Kept.rfl _
    | with_reducible assumption
    | with_reducible apply State.placeAll_kept
    | with_reducible apply Kept.ite
    | intro _
    | extract_lets
    | ((fail_if_success with_reducible apply Kept.eta); first | with_reducible apply Kept.upd))

theorem State.mergeFed_kept {s0 : State} (s : State) (q : FedQuery) (hk : Kept s0 s) :
    Kept s0 (State.mergeFed s q) := by
  unfold State.mergeFed
  repeat' (first
    | with_reducible exact Kept.rfl _
    | with_reducible assumption
    | with_reducible apply State.endQuery_kept
    | with_reducible apply Kept.fold
    | intro _
    | extract_lets
    | split
    | ((with_reducible conv => arg 2; whnf); split)
    | ((fail_if_success with_reducible apply Kept.eta); first | with_reducible apply Kept.upd))

theorem State.settleFed_kept {s0 : State} (s : State) (hk : Kept s0 s) :
    Kept s0 (State.settleFed s) := by
  unfold State.settleFed
  repeat' (first
    | with_reducible exact Kept.rfl _
    | with_reducible assumption
    | with_reducible apply State.mergeFed_kept
    | with_reducible apply Kept.fold
    | intro _)

theorem State.journalPairs_kept {s0 : State} (s : State) (hk : Kept s0 s) :
    Kept s0 (State.journalPairs s) := by
  unfold State.journalPairs
  repeat' (first
    | with_reducible exact Kept.rfl _
    | with_reducible assumption
    | with_reducible apply State.journal_kept
    | with_reducible apply Kept.fold
    | intro _)

theorem State.advanceFgen_kept {s0 : State} (s : State) (hk : Kept s0 s) :
    Kept s0 (State.advanceFgen s) := by
  unfold State.advanceFgen
  repeat' (first
    | with_reducible exact Kept.rfl _
    | with_reducible assumption
    | with_reducible apply State.setFld_kept
    | with_reducible apply State.journalPairs_kept
    | with_reducible apply State.sendControl_kept)

theorem State.noteChild_kept {s0 : State} (s : State) (c : Nat) (ws : List W64) (hk : Kept s0 s) :
    Kept s0 (State.noteChild s c ws) := by
  unfold State.noteChild
  repeat' (first
    | with_reducible exact Kept.rfl _
    | with_reducible assumption
    | with_reducible apply State.advanceFgen_kept
    | with_reducible apply Kept.ite
    | intro _
    | extract_lets
    | ((fail_if_success with_reducible apply Kept.eta); first | with_reducible apply Kept.upd))

theorem State.fedResult_kept {s0 : State} (s : State) (child : Nat) (n : W64) (ws : List W64) (hk : Kept s0 s) :
    Kept s0 (State.fedResult s child n ws) := by
  unfold State.fedResult
  repeat' (first
    | with_reducible exact Kept.rfl _
    | with_reducible assumption
    | with_reducible apply State.noteChild_kept
    | with_reducible apply State.settleFed_kept
    | with_reducible apply Kept.ite
    | intro _
    | extract_lets
    | ((fail_if_success with_reducible apply Kept.eta); first | with_reducible apply Kept.upd))

theorem State.rootTakeover_kept {s0 : State} (s : State) (hk : Kept s0 s) :
    Kept s0 (State.rootTakeover s) := by
  unfold State.rootTakeover
  repeat' (first
    | with_reducible exact Kept.rfl _
    | with_reducible assumption
    | with_reducible apply State.setFld_kept
    | with_reducible apply State.raise_kept
    | with_reducible apply State.event_kept
    | with_reducible apply State.advanceFgen_kept
    | ((fail_if_success with_reducible apply Kept.eta); first | with_reducible apply Kept.upd))

theorem State.fedLost_kept {s0 : State} (s : State) (p : Nat) (hk : Kept s0 s) :
    Kept s0 (State.fedLost s p) := by
  unfold State.fedLost
  repeat' (first
    | with_reducible exact Kept.rfl _
    | with_reducible assumption
    | with_reducible apply State.raise_kept
    | with_reducible apply State.event_kept
    | intro _
    | extract_lets)

theorem State.memberLost_kept {s0 : State} (s : State) (p : Nat) (hk : Kept s0 s) :
    Kept s0 (State.memberLost s p) := by
  unfold State.memberLost
  repeat' (first
    | with_reducible exact Kept.rfl _
    | with_reducible assumption
    | with_reducible apply State.rootTakeover_kept
    | with_reducible apply State.fedLost_kept
    | with_reducible apply State.sendControl_kept
    | with_reducible apply State.settleFed_kept
    | with_reducible apply Kept.ite
    | intro _
    | extract_lets
    | ((fail_if_success with_reducible apply Kept.eta); first | with_reducible apply Kept.upd))

theorem State.stopRing_kept {s0 : State} (s : State) (hk : Kept s0 s) :
    Kept s0 (State.stopRing s) := by
  unfold State.stopRing
  repeat' (first
    | with_reducible exact Kept.rfl _
    | with_reducible assumption
    | with_reducible apply State.endAllQueries_kept
    | with_reducible apply State.endQuery_kept
    | with_reducible apply State.completeU_kept
    | with_reducible apply State.inject_kept
    | with_reducible apply State.setScore_kept
    | with_reducible apply State.syncBrake_kept
    | with_reducible apply State.syncBelt_kept
    | with_reducible apply Kept.fold
    | intro _
    | extract_lets
    | split
    | ((with_reducible conv => arg 2; whnf); split)
    | ((fail_if_success with_reducible apply Kept.eta); first | with_reducible apply Kept.upd))

theorem State.breakHere_kept {s0 : State} (s : State) (net : Nat) (hk : Kept s0 s) :
    Kept s0 (State.breakHere s net) := by
  unfold State.breakHere
  repeat' (first
    | with_reducible exact Kept.rfl _
    | with_reducible assumption
    | with_reducible apply State.stopRing_kept
    | with_reducible apply State.setFld_kept
    | with_reducible apply State.raise_kept
    | with_reducible apply State.event_kept
    | with_reducible apply State.mergeFed_kept
    | with_reducible apply Kept.fold
    | with_reducible apply Kept.ite
    | intro _
    | extract_lets
    | ((fail_if_success with_reducible apply Kept.eta); first | with_reducible apply Kept.upd))

theorem State.breakRing_kept {s0 : State} (s : State) (net : Nat) (hk : Kept s0 s) :
    Kept s0 (State.breakRing s net) := by
  unfold State.breakRing
  repeat' (first
    | with_reducible exact Kept.rfl _
    | with_reducible assumption
    | with_reducible apply State.sendReturn_kept
    | with_reducible apply State.breakHere_kept
    | with_reducible apply Kept.ite
    | intro _
    | extract_lets)

theorem State.abandonThree_kept {s0 : State} (s : State) (r g : Nat) (hk : Kept s0 s) :
    Kept s0 (State.abandonThree s r g) := by
  unfold State.abandonThree
  repeat' (first
    | with_reducible exact Kept.rfl _
    | with_reducible assumption
    | with_reducible apply State.abandonTally_kept
    | with_reducible apply Kept.fold
    | intro _)

theorem State.sendAbandon_kept {s0 : State} (s : State) (hk : Kept s0 s) :
    Kept s0 (State.sendAbandon s) := by
  unfold State.sendAbandon
  repeat' (first
    | with_reducible exact Kept.rfl _
    | with_reducible assumption
    | with_reducible apply State.abandonThree_kept
    | with_reducible apply State.sendControl_kept)

theorem State.reportGap_kept {s0 : State} (s : State) (net : Nat) (hk : Kept s0 s) :
    Kept s0 (State.reportGap s net) := by
  unfold State.reportGap
  repeat' (first
    | with_reducible exact Kept.rfl _
    | with_reducible assumption
    | with_reducible apply State.raise_kept
    | with_reducible apply State.event_kept
    | with_reducible apply State.sendAbandon_kept
    | with_reducible apply State.sendReturn_kept
    | with_reducible apply Kept.ite)

theorem State.takeTakeover_kept {s0 : State} (s : State) (p r g : Nat) (noSource : Bool) (hk : Kept s0 s) :
    Kept s0 (State.takeTakeover s p r g noSource) := by
  unfold State.takeTakeover
  repeat' (first
    | with_reducible exact Kept.rfl _
    | with_reducible assumption
    | with_reducible apply State.applyTakeover_kept
    | with_reducible apply State.inject_kept
    | with_reducible apply Kept.ite
    | intro _
    | extract_lets
    | ((fail_if_success with_reducible apply Kept.eta); first | with_reducible apply Kept.upd))

theorem State.sendTakeover_kept {s0 : State} (s : State) (p r g : Nat) (noSource : Bool) (hk : Kept s0 s) :
    Kept s0 (State.sendTakeover s p r g noSource) := by
  unfold State.sendTakeover
  repeat' (first
    | with_reducible exact Kept.rfl _
    | with_reducible assumption
    | with_reducible apply State.sendControl_kept
    | with_reducible apply State.takeTakeover_kept)

theorem State.seeBypassed_kept {s0 : State} (s : State) (p : Nat) (hk : Kept s0 s) :
    Kept s0 (State.seeBypassed s p) := by
  unfold State.seeBypassed
  repeat' (first
    | with_reducible exact Kept.rfl _
    | with_reducible assumption
    | with_reducible apply State.setFld_kept
    | with_reducible apply State.dropBrake_kept
    | with_reducible apply Kept.ite
    | intro _
    | extract_lets
    | ((fail_if_success with_reducible apply Kept.eta); first | with_reducible apply Kept.upd))

theorem State.unshadow_kept {s0 : State} (s : State) (p : Nat) (hk : Kept s0 s) :
    Kept s0 (State.unshadow s p) := by
  unfold State.unshadow
  repeat' (first
    | with_reducible exact Kept.rfl _
    | with_reducible assumption
    | with_reducible apply State.event_kept
    | with_reducible apply State.sendTakeover_kept
    | with_reducible apply Kept.fold
    | intro _
    | extract_lets
    | split
    | ((with_reducible conv => arg 2; whnf); split)
    | ((fail_if_success with_reducible apply Kept.eta); first | with_reducible apply Kept.upd))

theorem State.dutyBypass_kept {s0 : State} (s : State) (p : Nat) (hk : Kept s0 s) :
    Kept s0 (State.dutyBypass s p) := by
  unfold State.dutyBypass
  repeat' (first
    | with_reducible exact Kept.rfl _
    | with_reducible assumption
    | with_reducible apply State.seeBypassed_kept
    | with_reducible apply State.sendControl_kept
    | with_reducible apply State.unshadow_kept
    | with_reducible apply State.sendTakeover_kept
    | with_reducible apply State.replaceFrom_kept
    | intro _
    | extract_lets
    | split)

theorem State.tellBypass_kept {s0 : State} (s : State) (net p : Nat) (hk : Kept s0 s) :
    Kept s0 (State.tellBypass s net p) := by
  unfold State.tellBypass
  repeat' (first
    | with_reducible exact Kept.rfl _
    | with_reducible assumption
    | with_reducible apply State.dutyBypass_kept
    | with_reducible apply State.sendReturn_kept
    | with_reducible apply State.bypass_kept
    | with_reducible apply State.memberLost_kept
    | with_reducible apply Kept.ite)

theorem State.setDown_kept {s0 : State} (s : State) (net : Nat) (b : Bool) (hk : Kept s0 s) :
    Kept s0 (State.setDown s net b) := by
  unfold State.setDown
  repeat' (first
    | with_reducible exact Kept.rfl _
    | with_reducible assumption
    | with_reducible apply State.setFld_kept
    | with_reducible apply Kept.ite
    | intro _
    | extract_lets
    | ((fail_if_success with_reducible apply Kept.eta); first | with_reducible apply Kept.upd))

theorem State.setUp_kept {s0 : State} (s : State) (net : Nat) (b : Bool) (hk : Kept s0 s) :
    Kept s0 (State.setUp s net b) := by
  unfold State.setUp
  repeat' (first
    | with_reducible exact Kept.rfl _
    | with_reducible assumption
    | with_reducible apply State.setFld_kept
    | with_reducible apply Kept.ite
    | intro _
    | extract_lets
    | ((fail_if_success with_reducible apply Kept.eta); first | with_reducible apply Kept.upd))

theorem State.sendResume_kept {s0 : State} (s : State) (net old skip : Nat) (hk : Kept s0 s) :
    Kept s0 (State.sendResume s net old skip) := by
  unfold State.sendResume
  repeat' (first
    | with_reducible exact Kept.rfl _
    | with_reducible assumption
    | with_reducible apply State.control_kept
    | (with_reducible apply State.control_kept_eq; assumption)
    | with_reducible apply State.sendOn_kept
    | with_reducible apply State.reportGap_kept
    | with_reducible apply Kept.fold
    | with_reducible apply Kept.iteFst
    | with_reducible apply Kept.foldFst
    | with_reducible apply Kept.ite
    | intro _)

theorem State.bypass_kept {s0 : State} (s : State) (net : Nat) (down tell : Bool) (hk : Kept s0 s) :
    Kept s0 (State.bypass s net down tell) := by
  unfold State.bypass
  repeat' (first
    | with_reducible exact Kept.rfl _
    | with_reducible assumption
    | with_reducible apply State.breakRing_kept
    | with_reducible apply State.sendLop_kept
    | with_reducible apply State.activate_kept
    | with_reducible apply State.setDown_kept
    | with_reducible apply State.setUp_kept
    | with_reducible apply State.settlePorts_kept
    | with_reducible apply State.incFld_kept
    | with_reducible apply State.raise_kept
    | with_reducible apply State.event_kept
    | with_reducible apply State.sendResume_kept
    | with_reducible apply State.seeBypassed_kept
    | with_reducible apply State.tellBypass_kept
    | with_reducible apply Kept.ite)

theorem State.portDown_kept {s0 : State} (s : State) (x : Nat) (hk : Kept s0 s) :
    Kept s0 (State.portDown s x) := by
  unfold State.portDown
  repeat' (first
    | with_reducible exact Kept.rfl _
    | with_reducible assumption
    | with_reducible apply State.setFld_kept
    | with_reducible apply Kept.ite)

theorem State.linkLasting_kept {s0 : State} (s : State) (x : Nat) (hk : Kept s0 s) :
    Kept s0 (State.linkLasting s x) := by
  unfold State.linkLasting
  repeat' (first
    | with_reducible exact Kept.rfl _
    | with_reducible assumption
    | with_reducible apply State.raise_kept
    | with_reducible apply State.event_kept
    | with_reducible apply State.portDown_kept
    | with_reducible apply State.bypass_kept
    | with_reducible apply State.breakRing_kept
    | with_reducible apply Kept.ite)

theorem State.takeDir_kept {s0 : State} (s : State) (d : Directory) (hk : Kept s0 s) :
    Kept s0 (State.takeDir s d) := by
  unfold State.takeDir
  repeat' (first
    | with_reducible exact Kept.rfl _
    | with_reducible assumption
    | with_reducible apply State.effectDone_kept
    | with_reducible apply State.installDir_kept
    | with_reducible apply Kept.ite
    | intro _
    | extract_lets
    | ((fail_if_success with_reducible apply Kept.eta); first | with_reducible apply Kept.upd))

theorem State.trySwitch_kept {s0 : State} (s : State) (hk : Kept s0 s) :
    Kept s0 (State.trySwitch s) := by
  unfold State.trySwitch
  repeat' (first
    | with_reducible exact Kept.rfl _
    | with_reducible assumption
    | with_reducible apply State.setFld_kept
    | with_reducible apply State.sendDir_kept
    | with_reducible apply Kept.iteFst
    | with_reducible apply Kept.foldFst
    | with_reducible apply Kept.ite
    | intro _
    | extract_lets
    | split
    | ((with_reducible conv => arg 2; whnf); split)
    | ((fail_if_success with_reducible apply Kept.eta); first | with_reducible apply Kept.upd))

theorem State.markerFrame_kept {s0 : State} (s : State) (r g epoch : Nat) (d : Directory) (hold : Bool) (hk : Kept s0 s) :
    Kept s0 (State.markerFrame s r g epoch d hold).1 := by
  unfold State.markerFrame
  repeat' (first
    | with_reducible exact Kept.rfl _
    | with_reducible assumption
    | with_reducible apply State.nextSeq_kept)

theorem State.markerFrame_kept_eq {s0 t' : State} {x' : Frame} (s : State) (r g epoch : Nat) (d : Directory) (hold : Bool) (eqn : State.markerFrame s r g epoch d hold = (t', x')) (hk : Kept s0 s) : Kept s0 t' := by
  have k := State.markerFrame_kept (s0 := s0) s r g epoch d hold hk
  rw [eqn] at k
  exact k

theorem State.serveLeavers_kept {s0 : State} (s : State) (top : Bool) (hk : Kept s0 s) :
    Kept s0 (State.serveLeavers s top) := by
  unfold State.serveLeavers
  repeat' (first
    | with_reducible exact Kept.rfl _
    | with_reducible assumption
    | with_reducible apply State.seeBypassed_kept
    | with_reducible apply State.sendControl_kept
    | with_reducible apply State.raise_kept
    | with_reducible apply State.event_kept
    | with_reducible apply State.sendTakeover_kept
    | with_reducible apply State.unshadow_kept
    | with_reducible apply Kept.fold
    | with_reducible apply Kept.ite
    | intro _
    | extract_lets
    | split
    | ((with_reducible conv => arg 2; whnf); split)
    | ((fail_if_success with_reducible apply Kept.eta); first | with_reducible apply Kept.upd))

theorem State.seeJoined_kept {s0 : State} (s : State) (p : Nat) (hk : Kept s0 s) :
    Kept s0 (State.seeJoined s p) := by
  unfold State.seeJoined
  repeat' (first
    | with_reducible exact Kept.rfl _
    | with_reducible assumption
    | with_reducible apply State.raise_kept
    | with_reducible apply State.event_kept
    | with_reducible apply Kept.ite
    | intro _
    | extract_lets
    | ((fail_if_success with_reducible apply Kept.eta); first | with_reducible apply Kept.upd))

theorem State.sendLast_kept {s0 : State} (s : State) (x : Nat) (hk : Kept s0 s) :
    Kept s0 (State.sendLast s x) := by
  unfold State.sendLast
  repeat' (first
    | with_reducible exact Kept.rfl _
    | with_reducible assumption
    | with_reducible apply State.transmit_kept
    | with_reducible apply Kept.ite)

theorem State.pathBack_kept {s0 : State} (s : State) (hk : Kept s0 s) :
    Kept s0 (State.pathBack s) := by
  unfold State.pathBack
  repeat' (first
    | with_reducible exact Kept.rfl _
    | with_reducible assumption
    | with_reducible apply State.sendLast_kept
    | with_reducible apply State.setDown_kept
    | with_reducible apply State.settlePorts_kept
    | with_reducible apply Kept.ite
    | intro _
    | extract_lets
    | split)

theorem State.leaveStep_kept {s0 : State} (s : State) (top : Bool) (hk : Kept s0 s) :
    Kept s0 (State.leaveStep s top) := by
  unfold State.leaveStep
  repeat' (first
    | with_reducible exact Kept.rfl _
    | with_reducible assumption
    | with_reducible apply State.sendLast_kept
    | with_reducible apply State.raise_kept
    | with_reducible apply State.event_kept
    | with_reducible apply State.stopRing_kept
    | with_reducible apply State.setFld_kept
    | with_reducible apply State.idlePort_kept
    | with_reducible apply State.tellManager_kept
    | with_reducible apply Kept.fold
    | with_reducible apply Kept.ite
    | intro _
    | extract_lets
    | split
    | ((with_reducible conv => arg 2; whnf); split)
    | ((fail_if_success with_reducible apply Kept.eta); first | with_reducible apply Kept.upd))

theorem State.sendMarker_kept {s0 : State} (s : State) (r g epoch : Nat) (d : Directory) (hold : Bool) (hk : Kept s0 s) :
    Kept s0 (State.sendMarker s r g epoch d hold) := by
  unfold State.sendMarker
  repeat' (first
    | with_reducible exact Kept.rfl _
    | with_reducible assumption
    | with_reducible apply State.markerFrame_kept
    | (with_reducible apply State.markerFrame_kept_eq; assumption)
    | with_reducible apply State.atMarker_kept
    | with_reducible apply State.pathBack_kept
    | with_reducible apply State.sendFwd_kept
    | with_reducible apply State.inject_kept
    | with_reducible apply State.leaveStep_kept
    | with_reducible apply State.seeJoined_kept
    | with_reducible apply State.sendControl_kept
    | with_reducible apply State.serveLeavers_kept
    | with_reducible apply State.trySwitch_kept
    | with_reducible apply Kept.iteFst
    | with_reducible apply Kept.foldFst
    | with_reducible apply Kept.ite
    | intro _
    | extract_lets
    | split
    | ((with_reducible conv => arg 2; whnf); split)
    | ((fail_if_success with_reducible apply Kept.eta); first | with_reducible apply Kept.upd))

theorem State.switchEpoch_kept {s0 : State} (s : State) (w : EpochSwitch) (d : Directory) (hk : Kept s0 s) :
    Kept s0 (State.switchEpoch s w d) := by
  unfold State.switchEpoch
  repeat' (first
    | with_reducible exact Kept.rfl _
    | with_reducible assumption
    | with_reducible apply State.sendMarker_kept
    | with_reducible apply State.completeU_kept
    | intro _
    | extract_lets
    | split
    | ((with_reducible conv => arg 2; whnf); split)
    | ((fail_if_success with_reducible apply Kept.eta); first | with_reducible apply Kept.upd))

theorem State.nextMarker_kept {s0 : State} (s : State) (hk : Kept s0 s) :
    Kept s0 (State.nextMarker s) := by
  unfold State.nextMarker
  repeat' (first
    | with_reducible exact Kept.rfl _
    | with_reducible assumption
    | with_reducible apply State.switchEpoch_kept
    | with_reducible apply State.sendMarker_kept
    | with_reducible apply Kept.iteFst
    | with_reducible apply Kept.foldFst
    | intro _
    | extract_lets
    | split)

theorem State.markNow_kept {s0 : State} (s : State) (hk : Kept s0 s) :
    Kept s0 (State.markNow s) := by
  unfold State.markNow
  repeat' (first
    | with_reducible exact Kept.rfl _
    | with_reducible assumption
    | with_reducible apply State.nextMarker_kept
    | with_reducible apply Kept.ite
    | intro _
    | extract_lets
    | ((fail_if_success with_reducible apply Kept.eta); first | with_reducible apply Kept.upd))

theorem State.rollCall_kept {s0 : State} (s : State) (net phase size join rtt p : Nat) (hk : Kept s0 s) :
    Kept s0 (State.rollCall s net phase size join rtt p).1 := by
  unfold State.rollCall
  repeat' (first
    | with_reducible exact Kept.rfl _
    | with_reducible assumption
    | with_reducible apply State.nextSeq_kept)

theorem State.rollCall_kept_eq {s0 t' : State} {x' : Frame} (s : State) (net phase size join rtt p : Nat) (eqn : State.rollCall s net phase size join rtt p = (t', x')) (hk : Kept s0 s) : Kept s0 t' := by
  have k := State.rollCall_kept (s0 := s0) s net phase size join rtt p hk
  rw [eqn] at k
  exact k

theorem State.sendDiscover_kept {s0 : State} (s : State) (net : Nat) (hk : Kept s0 s) :
    Kept s0 (State.sendDiscover s net) := by
  unfold State.sendDiscover
  repeat' (first
    | with_reducible exact Kept.rfl _
    | with_reducible assumption
    | with_reducible apply State.rollCall_kept
    | (with_reducible apply State.rollCall_kept_eq; assumption)
    | with_reducible apply State.inject_kept
    | with_reducible apply Kept.iteFst
    | with_reducible apply Kept.foldFst
    | intro _
    | extract_lets
    | ((fail_if_success with_reducible apply Kept.eta); first | with_reducible apply Kept.upd))

theorem State.sendIdentity_kept {s0 : State} (s : State) (net : Nat) (hk : Kept s0 s) :
    Kept s0 (State.sendIdentity s net) := by
  unfold State.sendIdentity
  repeat' (first
    | with_reducible exact Kept.rfl _
    | with_reducible assumption
    | with_reducible apply State.tellManager_kept
    | with_reducible apply State.sendReturn_kept
    | with_reducible apply Kept.ite)

theorem State.failFormation_kept {s0 : State} (s : State) (net : Nat) (hk : Kept s0 s) :
    Kept s0 (State.failFormation s net) := by
  unfold State.failFormation
  repeat' (first
    | with_reducible exact Kept.rfl _
    | with_reducible assumption
    | with_reducible apply State.raise_kept
    | with_reducible apply State.event_kept
    | with_reducible apply Kept.ite
    | intro _
    | extract_lets
    | ((fail_if_success with_reducible apply Kept.eta); first | with_reducible apply Kept.upd))

theorem State.settleCancels_kept {s0 : State} (s : State) (hk : Kept s0 s) :
    Kept s0 (State.settleCancels s) := by
  unfold State.settleCancels
  repeat' (first
    | with_reducible exact Kept.rfl _
    | with_reducible assumption
    | with_reducible apply State.completeU_kept
    | with_reducible apply Kept.fold
    | with_reducible apply Kept.getD
    | intro _)

theorem State.beltDone_kept {s0 : State} (s : State) (hk : Kept s0 s) :
    Kept s0 (State.beltDone s) := by
  unfold State.beltDone
  repeat' (first
    | with_reducible exact Kept.rfl _
    | with_reducible assumption
    | with_reducible apply State.kickAll_kept
    | with_reducible apply State.settleCancels_kept)

theorem State.absorb_kept {s0 : State} (s : State) (f : Frame) (hk : Kept s0 s) :
    Kept s0 (State.absorb s f) := by
  unfold State.absorb
  repeat' (first
    | with_reducible exact Kept.rfl _
    | with_reducible assumption
    | with_reducible apply State.syncStore_kept
    | with_reducible apply Kept.ite
    | intro _
    | extract_lets
    | ((fail_if_success with_reducible apply Kept.eta); first | with_reducible apply Kept.upd))

theorem State.absorbEmpty_kept {s0 : State} (s : State) (o : Nat) (hk : Kept s0 s) :
    Kept s0 (State.absorbEmpty s o) := by
  unfold State.absorbEmpty
  repeat' (first
    | with_reducible exact Kept.rfl _
    | with_reducible assumption
    | with_reducible apply State.emptyFrame_kept
    | (with_reducible apply State.emptyFrame_kept_eq; assumption)
    | with_reducible apply State.absorb_kept
    | with_reducible apply Kept.iteFst
    | with_reducible apply Kept.foldFst
    | intro _
    | extract_lets)

theorem State.inherit_kept {s0 : State} (s : State) (p : Nat) (hk : Kept s0 s) :
    Kept s0 (State.inherit s p) := by
  unfold State.inherit
  repeat' (first
    | with_reducible exact Kept.rfl _
    | with_reducible assumption
    | with_reducible apply State.useSlot_kept
    | with_reducible apply State.sendEmpty_kept
    | with_reducible apply State.absorbEmpty_kept
    | with_reducible apply Kept.ite
    | intro _
    | extract_lets
    | split)

theorem State.ownSlot_kept {s0 : State} (s : State) (hk : Kept s0 s) :
    Kept s0 (State.ownSlot s) := by
  unfold State.ownSlot
  repeat' (first
    | with_reducible exact Kept.rfl _
    | with_reducible assumption
    | with_reducible apply State.nextMarker_kept
    | with_reducible apply State.useSlot_kept
    | with_reducible apply Kept.ite
    | intro _
    | extract_lets
    | ((fail_if_success with_reducible apply Kept.eta); first | with_reducible apply Kept.upd))

theorem State.takeSurplus_kept {s0 : State} (s : State) (o : Nat) {t' : State} (eqn : State.takeSurplus s o = some t') (hk : Kept s0 s) :
    Kept s0 t' := by
  unfold State.takeSurplus at eqn
  repeat' (first
    | (injection eqn with eqn; subst eqn)
    | (injection eqn with eqn; injection eqn with eqm eqn; subst eqn)
    | (exact absurd eqn (fun e => by injection e))
    | split at eqn
    | dsimp only at eqn)
  all_goals
    repeat' (first
      | with_reducible exact Kept.rfl _
      | with_reducible assumption
      | with_reducible apply State.absorbEmpty_kept
      | with_reducible apply Kept.ite
      | intro _
      | extract_lets
      | split
      | ((with_reducible conv => arg 2; whnf); split)
      | ((fail_if_success with_reducible apply Kept.eta); first | with_reducible apply Kept.upd))

theorem State.emptyAct_kept {s0 : State} (s : State) (x : Nat) (f : Frame) (hk : Kept s0 s) :
    Kept s0 (State.emptyAct s x f) := by
  unfold State.emptyAct
  repeat' (first
    | with_reducible exact Kept.rfl _
    | with_reducible assumption
    | with_reducible apply State.onward_kept
    | (with_reducible apply State.takeSurplus_kept; assumption)
    | with_reducible apply State.ownSlot_kept
    | with_reducible apply State.inherit_kept
    | with_reducible apply Kept.ite
    | intro _
    | extract_lets
    | split)

theorem State.fillAnswered_kept {s0 : State} (s : State) (f : Frame) (hk : Kept s0 s) :
    Kept s0 (State.fillAnswered s f) := by
  unfold State.fillAnswered
  repeat' (first
    | with_reducible exact Kept.rfl _
    | with_reducible assumption
    | with_reducible apply State.effectDone_kept
    | with_reducible apply Kept.ite
    | intro _
    | extract_lets
    | ((fail_if_success with_reducible apply Kept.eta); first | with_reducible apply Kept.upd))

theorem State.tapFrame_kept {s0 : State} (s : State) (f : Frame) (hk : Kept s0 s) :
    Kept s0 (State.tapFrame s f) := by
  unfold State.tapFrame
  repeat' (first
    | with_reducible exact Kept.rfl _
    | with_reducible assumption
    | with_reducible apply State.tapIn_kept
    | with_reducible apply Kept.ite)

theorem State.corpusAct_kept {s0 : State} (s : State) (x : Nat) (f : Frame) (hk : Kept s0 s) :
    Kept s0 (State.corpusAct s x f) := by
  unfold State.corpusAct
  repeat' (first
    | with_reducible exact Kept.rfl _
    | with_reducible assumption
    | with_reducible apply State.onward_kept
    | with_reducible apply State.ownSlot_kept
    | with_reducible apply State.fillAnswered_kept
    | with_reducible apply State.tapFrame_kept
    | with_reducible apply State.inherit_kept
    | with_reducible apply Kept.ite)

theorem State.markerBack_kept {s0 : State} (s : State) (f : Frame) (hk : Kept s0 s) :
    Kept s0 (State.markerBack s f) := by
  unfold State.markerBack
  repeat' (first
    | with_reducible exact Kept.rfl _
    | with_reducible assumption
    | with_reducible apply State.ownSlot_kept
    | with_reducible apply Kept.ite
    | intro _
    | extract_lets
    | ((fail_if_success with_reducible apply Kept.eta); first | with_reducible apply Kept.upd))

theorem State.markerAct_kept {s0 : State} (s : State) (x : Nat) (f : Frame) (hk : Kept s0 s) :
    Kept s0 (State.markerAct s x f) := by
  unfold State.markerAct
  repeat' (first
    | with_reducible exact Kept.rfl _
    | with_reducible assumption
    | with_reducible apply State.onward_kept
    | with_reducible apply State.markerBack_kept
    | with_reducible apply State.inherit_kept
    | with_reducible apply State.atMarker_kept
    | with_reducible apply State.takeMarker_kept
    | with_reducible apply State.reportQuiet_kept
    | with_reducible apply State.pathBack_kept
    | with_reducible apply State.leaveStep_kept
    | with_reducible apply Kept.ite)

theorem State.acceptQuery_kept {s0 : State} (s : State) (q : Query) (sender : Nat) (hk : Kept s0 s) :
    Kept s0 (State.acceptQuery s q sender) := by
  unfold State.acceptQuery
  repeat' (first
    | with_reducible exact Kept.rfl _
    | with_reducible assumption
    | with_reducible apply State.sendReturn_kept
    | with_reducible apply State.syncBelt_kept
    | with_reducible apply Kept.ite
    | intro _
    | extract_lets
    | ((fail_if_success with_reducible apply Kept.eta); first | with_reducible apply Kept.upd))

theorem State.refused_kept {s0 : State} (s : State) (n : W64) (d : Nat) (hk : Kept s0 s) :
    Kept s0 (State.refused s n d) := by
  unfold State.refused
  repeat' (first
    | with_reducible exact Kept.rfl _
    | with_reducible assumption
    | with_reducible apply State.modPlaced_kept
    | with_reducible apply State.tryPlace_kept
    | intro _
    | extract_lets
    | split)

theorem State.queryAct_kept {s0 : State} (s : State) (x : Nat) (f : Frame) (hk : Kept s0 s) :
    Kept s0 (State.queryAct s x f) := by
  unfold State.queryAct
  repeat' (first
    | with_reducible exact Kept.rfl _
    | with_reducible assumption
    | with_reducible apply State.acceptQuery_kept
    | with_reducible apply State.refused_kept
    | with_reducible apply State.onward_kept
    | with_reducible apply State.takeQuery_kept
    | with_reducible apply Kept.ite)

theorem State.fedSubmit_kept {s0 : State} (s : State) (q : Query) (hk : Kept s0 s) :
    Kept s0 (State.fedSubmit s q) := by
  unfold State.fedSubmit
  repeat' (first
    | with_reducible exact Kept.rfl _
    | with_reducible assumption
    | with_reducible apply State.queryFrame_kept
    | (with_reducible apply State.queryFrame_kept_eq; assumption)
    | with_reducible apply State.inject_kept
    | with_reducible apply State.takeQuery_kept
    | with_reducible apply Kept.iteFst
    | with_reducible apply Kept.foldFst
    | intro _
    | extract_lets
    | ((fail_if_success with_reducible apply Kept.eta); first | with_reducible apply Kept.upd))

theorem execQuerySubmit_kept (sq cid : Nat) (s : State) {t' : State} (eqn : execQuerySubmit sq cid s = .next t') :
    Kept s t' := by
  unfold execQuerySubmit at eqn
  injection eqn with eqn
  subst eqn
  repeat' (first
    | with_reducible exact Kept.rfl _
    | with_reducible assumption
    | with_reducible apply State.clearTx_kept
    | with_reducible apply State.accept_kept
    | with_reducible apply State.dmaIn_kept
    | with_reducible apply State.syncBelt_kept
    | with_reducible apply State.takeQuery_kept
    | with_reducible apply State.fedSubmit_kept
    | with_reducible apply State.beltDone_kept
    | intro _
    | extract_lets
    | split
    | ((with_reducible conv => arg 2; whnf); split)
    | ((fail_if_success with_reducible apply Kept.eta); first | with_reducible apply Kept.upd))

theorem State.cancelPlaced_kept {s0 : State} (s : State) (p : Placed) (hk : Kept s0 s) :
    Kept s0 (State.cancelPlaced s p) := by
  unfold State.cancelPlaced
  repeat' (first
    | with_reducible exact Kept.rfl _
    | with_reducible assumption
    | with_reducible apply State.sendControl_kept
    | with_reducible apply State.dropPlaced_kept
    | with_reducible apply State.endQuery_kept
    | with_reducible apply State.fedResult_kept
    | with_reducible apply State.sendReturn_kept
    | with_reducible apply Kept.ite
    | intro _
    | extract_lets
    | split)

end Sys2Proof.Machine
end

