-- ==== Sys2Proof/Laws/Keep7.lean ====
section
/-! SUPPORT. One lemma for each operation and each command: it leaves what `Kept` (`Shed`) names (Belt to Regulation). -/

namespace Sys2Proof.Machine

theorem State.cancelByHost_kept {s0 : State} (s : State) (n : W64) (hk : Kept s0 s) :
    Kept s0 (State.cancelByHost s n) := by
  unfold State.cancelByHost
  repeat' (first
    | with_reducible exact Kept.rfl _
    | with_reducible assumption
    | with_reducible apply State.cancelQuery_kept
    | with_reducible apply State.cancelPlaced_kept
    | with_reducible apply State.sendControl_kept
    | with_reducible apply Kept.fold
    | intro _)

theorem execQueryCancel_kept (sq cid : Nat) (s : State) {t' : State} (eqn : execQueryCancel sq cid s = .next t') :
    Kept s t' := by
  unfold execQueryCancel at eqn
  injection eqn with eqn
  subst eqn
  repeat' (first
    | with_reducible exact Kept.rfl _
    | with_reducible assumption
    | with_reducible apply State.clearTx_kept
    | with_reducible apply State.accept_kept
    | with_reducible apply State.cancelByHost_kept
    | with_reducible apply State.beltDone_kept
    | with_reducible apply Kept.getD
    | intro _)

theorem execQueryPlacementTimeout_kept (sq cid : Nat) (s : State) {t' : State} (eqn : execQueryPlacementTimeout sq cid s = .next t') :
    Kept s t' := by
  unfold execQueryPlacementTimeout at eqn
  injection eqn with eqn
  subst eqn
  repeat' (first
    | with_reducible exact Kept.rfl _
    | with_reducible assumption
    | with_reducible apply State.clearTx_kept
    | with_reducible apply State.dropPlaced_kept
    | with_reducible apply State.completeU_kept
    | with_reducible apply State.settleCancels_kept
    | intro _
    | extract_lets
    | split)

theorem State.stageShard_kept {s0 : State} (s : State) (c : Cmd) (hk : Kept s0 s) :
    Kept s0 (State.stageShard s c) := by
  unfold State.stageShard
  repeat' (first
    | with_reducible exact Kept.rfl _
    | with_reducible assumption
    | with_reducible apply State.dmaIn_kept
    | with_reducible apply State.completeU_kept
    | with_reducible apply State.tellManager_kept
    | intro _
    | extract_lets
    | split
    | ((with_reducible conv => arg 2; whnf); split)
    | ((fail_if_success with_reducible apply Kept.eta); first | with_reducible apply Kept.upd))

theorem execShardLoad_kept (sq cid : Nat) (s : State) {t' : State} (eqn : execShardLoad sq cid s = .next t') :
    Kept s t' := by
  unfold execShardLoad at eqn
  injection eqn with eqn
  subst eqn
  repeat' (first
    | with_reducible exact Kept.rfl _
    | with_reducible assumption
    | with_reducible apply State.clearTx_kept
    | with_reducible apply State.accept_kept
    | with_reducible apply State.stageShard_kept
    | with_reducible apply State.beltDone_kept
    | with_reducible apply Kept.ite
    | intro _
    | extract_lets
    | ((fail_if_success with_reducible apply Kept.eta); first | with_reducible apply Kept.upd))

theorem State.storeShard_kept {s0 : State} (s : State) (f : Frame) (hk : Kept s0 s) :
    Kept s0 (State.storeShard s f) := by
  unfold State.storeShard
  repeat' (first
    | with_reducible exact Kept.rfl _
    | with_reducible assumption
    | with_reducible apply State.tellManager_kept
    | with_reducible apply State.sendReturn_kept
    | with_reducible apply Kept.ite
    | intro _
    | extract_lets
    | split
    | ((with_reducible conv => arg 2; whnf); split)
    | ((fail_if_success with_reducible apply Kept.eta); first | with_reducible apply Kept.upd))

theorem State.shardAct_kept {s0 : State} (s : State) (x : Nat) (f : Frame) (hk : Kept s0 s) :
    Kept s0 (State.shardAct s x f) := by
  unfold State.shardAct
  repeat' (first
    | with_reducible exact Kept.rfl _
    | with_reducible assumption
    | with_reducible apply State.onward_kept
    | with_reducible apply State.ownSlot_kept
    | with_reducible apply State.storeShard_kept
    | with_reducible apply State.sendEmpty_kept
    | with_reducible apply Kept.ite)

theorem State.badAct_kept {s0 : State} (s : State) (x : Nat) (f : Frame) (hk : Kept s0 s) :
    Kept s0 (State.badAct s x f) := by
  unfold State.badAct
  repeat' (first
    | with_reducible exact Kept.rfl _
    | with_reducible assumption
    | with_reducible apply State.ownFrame_kept
    | (with_reducible apply State.ownFrame_kept_eq; assumption)
    | with_reducible apply State.putBack_kept
    | with_reducible apply State.sendFwd_kept
    | with_reducible apply State.emptyFrame_kept
    | (with_reducible apply State.emptyFrame_kept_eq; assumption)
    | with_reducible apply State.forwardStomped_kept
    | with_reducible apply Kept.iteFst
    | with_reducible apply Kept.foldFst
    | with_reducible apply Kept.ite
    | intro _
    | extract_lets)

theorem State.receiveAs_kept {s0 : State} (s : State) (rx : Rx) (kind : Nat) (f : Frame) (act : State → Frame → State) (hact : ∀ s0 v1, Kept s0 (act s0 v1)) (hk : Kept s0 s) :
    Kept s0 (State.receiveAs s rx kind f act) := by
  unfold State.receiveAs
  repeat' (first
    | with_reducible exact Kept.rfl _
    | with_reducible assumption
    | with_reducible apply State.clearTx_kept
    | with_reducible apply State.rxCheck_kept
    | (with_reducible apply State.rxCheck_kept_eq; assumption)
    | with_reducible apply State.noteAudit_kept
    | with_reducible apply State.forwardStomped_kept
    | with_reducible apply State.badAct_kept
    | with_reducible apply Kept.step (hact ..)
    | intro _
    | extract_lets
    | split
    | ((with_reducible conv => arg 2; whnf); split)
    | ((fail_if_success with_reducible apply Kept.eta); first | with_reducible apply Kept.upd))

theorem State.receive_kept {s0 : State} (s : State) (rx : Rx) (f : Frame) (act : State → Frame → State) (hact : ∀ s0 v1, Kept s0 (act s0 v1)) (hk : Kept s0 s) :
    Kept s0 (State.receive s rx f act) := by
  unfold State.receive
  repeat' (first
    | with_reducible exact Kept.rfl _
    | with_reducible assumption
    | with_reducible apply State.receiveAs_kept
    | with_reducible apply Kept.step (hact ..)
    | intro _
    | extract_lets)

theorem execEmptyFrame_kept (rx : Rx) (f : Frame) (s : State) {t' : State} (eqn : execEmptyFrame rx f s = .next t') :
    Kept s t' := by
  unfold execEmptyFrame at eqn
  injection eqn with eqn
  subst eqn
  repeat' (first
    | with_reducible exact Kept.rfl _
    | with_reducible assumption
    | with_reducible apply State.receive_kept
    | with_reducible apply State.emptyAct_kept
    | with_reducible apply State.beltDone_kept
    | with_reducible apply Kept.ite
    | intro _)

theorem execCorpusFrame_kept (rx : Rx) (f : Frame) (s : State) {t' : State} (eqn : execCorpusFrame rx f s = .next t') :
    Kept s t' := by
  unfold execCorpusFrame at eqn
  injection eqn with eqn
  subst eqn
  repeat' (first
    | with_reducible exact Kept.rfl _
    | with_reducible assumption
    | with_reducible apply State.receive_kept
    | with_reducible apply State.corpusAct_kept
    | with_reducible apply State.beltDone_kept
    | with_reducible apply Kept.ite
    | intro _)

theorem execTopNote_kept (rx : Rx) (f : Frame) (s : State) {t' : State} (eqn : execTopNote rx f s = .next t') :
    Kept s t' := by
  unfold execTopNote at eqn
  injection eqn with eqn
  subst eqn
  repeat' (first
    | with_reducible exact Kept.rfl _
    | with_reducible assumption
    | with_reducible apply State.receive_kept
    | with_reducible apply State.markerAct_kept
    | with_reducible apply State.beltDone_kept
    | with_reducible apply Kept.ite
    | intro _)

theorem execSegment_kept (rx : Rx) (f : Frame) (s : State) {t' : State} (eqn : execSegment rx f s = .next t') :
    Kept s t' := by
  unfold execSegment at eqn
  injection eqn with eqn
  subst eqn
  repeat' (first
    | with_reducible exact Kept.rfl _
    | with_reducible assumption
    | with_reducible apply State.receive_kept
    | with_reducible apply State.markerAct_kept
    | with_reducible apply State.beltDone_kept
    | with_reducible apply Kept.ite
    | intro _)

theorem execQueryFrame_kept (rx : Rx) (f : Frame) (s : State) {t' : State} (eqn : execQueryFrame rx f s = .next t') :
    Kept s t' := by
  unfold execQueryFrame at eqn
  injection eqn with eqn
  subst eqn
  repeat' (first
    | with_reducible exact Kept.rfl _
    | with_reducible assumption
    | with_reducible apply State.receive_kept
    | with_reducible apply State.queryAct_kept
    | with_reducible apply State.beltDone_kept
    | with_reducible apply Kept.ite
    | intro _)

theorem execShardFrame_kept (rx : Rx) (f : Frame) (s : State) {t' : State} (eqn : execShardFrame rx f s = .next t') :
    Kept s t' := by
  unfold execShardFrame at eqn
  injection eqn with eqn
  subst eqn
  repeat' (first
    | with_reducible exact Kept.rfl _
    | with_reducible assumption
    | with_reducible apply State.receive_kept
    | with_reducible apply State.shardAct_kept
    | with_reducible apply State.beltDone_kept
    | with_reducible apply Kept.ite
    | intro _)

theorem execMarkerIntervalExpiry_kept (s : State) {t' : State} (eqn : execMarkerIntervalExpiry s = .next t') :
    Kept s t' := by
  unfold execMarkerIntervalExpiry at eqn
  injection eqn with eqn
  subst eqn
  repeat' (first
    | with_reducible exact Kept.rfl _
    | with_reducible assumption
    | with_reducible apply State.clearTx_kept
    | with_reducible apply State.markNow_kept
    | with_reducible apply State.beltDone_kept
    | with_reducible apply Kept.ite)

theorem execScoreRoundEnd_kept (c : Nat) (fault : Option (Nat × Bool)) (s : State) {t' : State} (eqn : execScoreRoundEnd c fault s = .next t') :
    Kept s t' := by
  unfold execScoreRoundEnd at eqn
  injection eqn with eqn
  subst eqn
  repeat' (first
    | with_reducible exact Kept.rfl _
    | with_reducible assumption
    | with_reducible apply State.clearTx_kept
    | with_reducible apply State.retireTile_kept
    | with_reducible apply State.transient_kept
    | with_reducible apply State.roundEnd_kept
    | with_reducible apply State.roundIdle_kept
    | with_reducible apply State.beltDone_kept
    | with_reducible apply Kept.ite
    | intro _
    | extract_lets
    | split)

theorem execShedCheck_kept (c : Nat) (s : State) {t' : State} (eqn : execShedCheck c s = .next t') :
    Kept s t' := by
  unfold execShedCheck at eqn
  injection eqn with eqn
  subst eqn
  repeat' (first
    | with_reducible exact Kept.rfl _
    | with_reducible assumption
    | with_reducible apply State.setScore_kept
    | with_reducible apply State.raise_kept
    | with_reducible apply State.event_kept
    | with_reducible apply State.letPassTap_kept
    | with_reducible apply State.settleScore_kept
    | with_reducible apply State.syncBelt_kept
    | with_reducible apply State.beltDone_kept
    | with_reducible apply Kept.ite
    | intro _
    | extract_lets
    | split)

theorem execFillInTimeout_kept (home rev seg seq : Nat) (s : State) {t' : State} (eqn : execFillInTimeout home rev seg seq s = .next t') :
    Kept s t' := by
  unfold execFillInTimeout at eqn
  injection eqn with eqn
  subst eqn
  repeat' (first
    | with_reducible exact Kept.rfl _
    | with_reducible assumption
    | with_reducible apply State.effectDone_kept
    | with_reducible apply State.event_kept
    | with_reducible apply Kept.ite
    | intro _
    | extract_lets
    | ((fail_if_success with_reducible apply Kept.eta); first | with_reducible apply Kept.upd))

theorem State.startBrake_kept {s0 : State} (s : State) (uid : Nat) (release : Bool) (hk : Kept s0 s) :
    Kept s0 (State.startBrake s uid release) := by
  unfold State.startBrake
  repeat' (first
    | with_reducible exact Kept.rfl _
    | with_reducible assumption
    | with_reducible apply State.dropBrake_kept
    | with_reducible apply State.placeAll_kept
    | with_reducible apply State.addBrake_kept
    | with_reducible apply State.sendLop_kept
    | with_reducible apply Kept.ite
    | intro _
    | extract_lets
    | ((fail_if_success with_reducible apply Kept.eta); first | with_reducible apply Kept.upd))

theorem execRingBrake_kept (sq cid : Nat) (s : State) {t' : State} (eqn : execRingBrake sq cid s = .next t') :
    Kept s t' := by
  unfold execRingBrake at eqn
  injection eqn with eqn
  subst eqn
  repeat' (first
    | with_reducible exact Kept.rfl _
    | with_reducible assumption
    | with_reducible apply State.clearTx_kept
    | with_reducible apply State.accept_kept
    | with_reducible apply State.startBrake_kept
    | intro _)

theorem execRingRelease_kept (sq cid : Nat) (s : State) {t' : State} (eqn : execRingRelease sq cid s = .next t') :
    Kept s t' := by
  unfold execRingRelease at eqn
  injection eqn with eqn
  subst eqn
  repeat' (first
    | with_reducible exact Kept.rfl _
    | with_reducible assumption
    | with_reducible apply State.clearTx_kept
    | with_reducible apply State.accept_kept
    | with_reducible apply State.startBrake_kept
    | with_reducible apply State.beltDone_kept
    | intro _)

theorem execLopBrake_kept (origin : Nat) (s : State) {t' : State} (eqn : execLopBrake origin s = .next t') :
    Kept s t' := by
  unfold execLopBrake at eqn
  injection eqn with eqn
  subst eqn
  repeat' (first
    | with_reducible exact Kept.rfl _
    | with_reducible assumption
    | with_reducible apply State.clearTx_kept
    | with_reducible apply State.setFld_kept
    | with_reducible apply State.addBrake_kept
    | with_reducible apply State.sendLop_kept
    | with_reducible apply Kept.ite
    | intro _
    | extract_lets
    | ((fail_if_success with_reducible apply Kept.eta); first | with_reducible apply Kept.upd))

theorem execLopRelease_kept (origin : Nat) (s : State) {t' : State} (eqn : execLopRelease origin s = .next t') :
    Kept s t' := by
  unfold execLopRelease at eqn
  injection eqn with eqn
  subst eqn
  repeat' (first
    | with_reducible exact Kept.rfl _
    | with_reducible assumption
    | with_reducible apply State.clearTx_kept
    | with_reducible apply State.completeU_kept
    | with_reducible apply State.dropBrake_kept
    | with_reducible apply State.sendLop_kept
    | with_reducible apply State.placeAll_kept
    | with_reducible apply State.beltDone_kept
    | with_reducible apply Kept.fold
    | with_reducible apply Kept.ite
    | intro _
    | extract_lets
    | ((fail_if_success with_reducible apply Kept.eta); first | with_reducible apply Kept.upd))

theorem execBrakeResendTimeout_kept (s : State) {t' : State} (eqn : execBrakeResendTimeout s = .next t') :
    Kept s t' := by
  unfold execBrakeResendTimeout at eqn
  injection eqn with eqn
  subst eqn
  repeat' (first
    | with_reducible exact Kept.rfl _
    | with_reducible assumption
    | with_reducible apply State.sendLop_kept
    | with_reducible apply State.clearTx_kept
    | with_reducible apply Kept.fold
    | with_reducible apply Kept.ite
    | intro _)

theorem execBrakeStoppingDistanceElapsed_kept (s : State) {t' : State} (eqn : execBrakeStoppingDistanceElapsed s = .next t') :
    Kept s t' := by
  unfold execBrakeStoppingDistanceElapsed at eqn
  injection eqn with eqn
  subst eqn
  repeat' (first
    | with_reducible exact Kept.rfl _
    | with_reducible assumption
    | with_reducible apply State.completeU_kept
    | with_reducible apply Kept.fold
    | intro _
    | extract_lets
    | ((fail_if_success with_reducible apply Kept.eta); first | with_reducible apply Kept.upd))

theorem State.setPhase_kept {s0 : State} (s : State) (net : Nat) (p : FormPhase) (hk : Kept s0 s) :
    Kept s0 (State.setPhase s net p) := by
  unfold State.setPhase
  repeat' (first
    | with_reducible exact Kept.rfl _
    | with_reducible assumption
    | with_reducible apply Kept.ite
    | intro _
    | extract_lets
    | ((fail_if_success with_reducible apply Kept.eta); first | with_reducible apply Kept.upd))

theorem State.setNetPos_kept {s0 : State} (s : State) (net p : Nat) (hk : Kept s0 s) :
    Kept s0 (State.setNetPos s net p) := by
  unfold State.setNetPos
  repeat' (first
    | with_reducible exact Kept.rfl _
    | with_reducible assumption
    | with_reducible apply State.setFld_kept
    | with_reducible apply Kept.ite)

theorem State.discoverBack_kept {s0 : State} (s : State) (net : Nat) (f : Frame) (hk : Kept s0 s) :
    Kept s0 (State.discoverBack s net f) := by
  unfold State.discoverBack
  repeat' (first
    | with_reducible exact Kept.rfl _
    | with_reducible assumption
    | with_reducible apply State.failFormation_kept
    | with_reducible apply State.rollCall_kept
    | (with_reducible apply State.rollCall_kept_eq; assumption)
    | with_reducible apply State.setPhase_kept
    | with_reducible apply State.inject_kept
    | with_reducible apply Kept.iteFst
    | with_reducible apply Kept.foldFst
    | with_reducible apply Kept.ite)

theorem State.roleConflict_kept {s0 : State} (s : State) (net : Nat) (hk : Kept s0 s) :
    Kept s0 (State.roleConflict s net) := by
  unfold State.roleConflict
  repeat' (first
    | with_reducible exact Kept.rfl _
    | with_reducible assumption
    | with_reducible apply State.setRole_kept
    | with_reducible apply State.setFld_kept
    | with_reducible apply State.setPhase_kept
    | with_reducible apply State.raise_kept
    | with_reducible apply State.event_kept
    | with_reducible apply Kept.ite
    | intro _
    | extract_lets
    | ((fail_if_success with_reducible apply Kept.eta); first | with_reducible apply Kept.upd))

theorem State.discoverAct_kept {s0 : State} (s : State) (x : Nat) (f : Frame) (hk : Kept s0 s) :
    Kept s0 (State.discoverAct s x f) := by
  unfold State.discoverAct
  repeat' (first
    | with_reducible exact Kept.rfl _
    | with_reducible assumption
    | with_reducible apply State.breakHere_kept
    | with_reducible apply State.setNetPos_kept
    | with_reducible apply State.onward_kept
    | with_reducible apply State.discoverBack_kept
    | with_reducible apply State.setFld_kept
    | with_reducible apply State.roleConflict_kept
    | with_reducible apply Kept.ite
    | intro _
    | extract_lets
    | ((fail_if_success with_reducible apply Kept.eta); first | with_reducible apply Kept.upd))

theorem State.freshRing_kept {s0 : State} (s : State) (hk : Kept s0 s) :
    Kept s0 (State.freshRing s) := by
  unfold State.freshRing
  repeat' (first
    | with_reducible exact Kept.rfl _
    | with_reducible assumption
    | with_reducible apply State.stopRing_kept
    | with_reducible apply Kept.ite
    | intro _
    | extract_lets
    | ((fail_if_success with_reducible apply Kept.eta); first | with_reducible apply Kept.upd | with_reducible apply Kept.updH))

theorem State.confirmRegs_kept {s0 : State} (s : State) (f : Frame) (hk : Kept s0 s) :
    Kept s0 (State.confirmRegs s f) := by
  unfold State.confirmRegs
  repeat' (first
    | with_reducible exact Kept.rfl _
    | with_reducible assumption
    | with_reducible apply State.setFld_kept
    | with_reducible apply State.raise_kept)

theorem State.heartbeats_kept {s0 : State} (s : State) (hk : Kept s0 s) :
    Kept s0 (State.heartbeats s) := by
  unfold State.heartbeats
  repeat' (first
    | with_reducible exact Kept.rfl _
    | with_reducible assumption
    | with_reducible apply State.heartbeat_kept
    | with_reducible apply Kept.fold
    | intro _
    | extract_lets)

theorem State.confirmed_kept {s0 : State} (s : State) (net : Nat) (f : Frame) (hk : Kept s0 s) :
    Kept s0 (State.confirmed s net f) := by
  unfold State.confirmed
  repeat' (first
    | with_reducible exact Kept.rfl _
    | with_reducible assumption
    | with_reducible apply State.freshRing_kept
    | with_reducible apply State.confirmRegs_kept
    | with_reducible apply State.setRole_kept
    | with_reducible apply State.raise_kept
    | with_reducible apply State.syncBrake_kept
    | with_reducible apply State.syncAllowed_kept
    | with_reducible apply State.heartbeats_kept
    | with_reducible apply Kept.ite
    | intro _
    | extract_lets
    | ((fail_if_success with_reducible apply Kept.eta); first | with_reducible apply Kept.upd))

theorem State.tellSkipped_kept {s0 : State} (s : State) (net : Nat) (hk : Kept s0 s) :
    Kept s0 (State.tellSkipped s net) := by
  unfold State.tellSkipped
  repeat' (first
    | with_reducible exact Kept.rfl _
    | with_reducible assumption
    | with_reducible apply State.seeBypassed_kept
    | with_reducible apply State.tellBypass_kept
    | with_reducible apply Kept.ite)

theorem State.confirmAct_kept {s0 : State} (s : State) (x : Nat) (f : Frame) (hk : Kept s0 s) :
    Kept s0 (State.confirmAct s x f) := by
  unfold State.confirmAct
  repeat' (first
    | with_reducible exact Kept.rfl _
    | with_reducible assumption
    | with_reducible apply State.confirmed_kept
    | with_reducible apply State.setPhase_kept
    | with_reducible apply State.setFld_kept
    | with_reducible apply State.tellSkipped_kept
    | with_reducible apply State.sendIdentity_kept
    | with_reducible apply State.raise_kept
    | with_reducible apply State.onward_kept
    | with_reducible apply Kept.ite)

theorem State.joinHere_kept {s0 : State} (s : State) (net : Nat) (f : Frame) (hk : Kept s0 s) :
    Kept s0 (State.joinHere s net f) := by
  unfold State.joinHere
  repeat' (first
    | with_reducible exact Kept.rfl _
    | with_reducible assumption
    | with_reducible apply State.setNetPos_kept
    | with_reducible apply State.setRole_kept
    | with_reducible apply State.confirmed_kept
    | with_reducible apply State.sendIdentity_kept
    | with_reducible apply Kept.getD
    | with_reducible apply Kept.ite
    | intro _
    | extract_lets
    | ((fail_if_success with_reducible apply Kept.eta); first | with_reducible apply Kept.upd))

theorem State.parentBack_kept {s0 : State} (s : State) (p : Nat) (hk : Kept s0 s) :
    Kept s0 (State.parentBack s p) := by
  unfold State.parentBack
  repeat' (first
    | with_reducible exact Kept.rfl _
    | with_reducible assumption
    | with_reducible apply State.sendLast_kept
    | with_reducible apply State.setDown_kept
    | with_reducible apply State.settlePorts_kept
    | with_reducible apply Kept.ite)

theorem State.joinAct_kept {s0 : State} (s : State) (x : Nat) (f : Frame) (hk : Kept s0 s) :
    Kept s0 (State.joinAct s x f) := by
  unfold State.joinAct
  repeat' (first
    | with_reducible exact Kept.rfl _
    | with_reducible assumption
    | with_reducible apply State.joinHere_kept
    | with_reducible apply State.sendControl_kept
    | with_reducible apply State.effectDone_kept
    | with_reducible apply State.sendOn_kept
    | with_reducible apply State.onward_kept
    | with_reducible apply State.parentBack_kept
    | with_reducible apply Kept.ite
    | intro _
    | extract_lets
    | ((fail_if_success with_reducible apply Kept.eta); first | with_reducible apply Kept.upd))

theorem execDiscover_kept (rx : Rx) (f : Frame) (s : State) {t' : State} (eqn : execDiscover rx f s = .next t') :
    Kept s t' := by
  unfold execDiscover at eqn
  injection eqn with eqn
  subst eqn
  repeat' (first
    | with_reducible exact Kept.rfl _
    | with_reducible assumption
    | with_reducible apply State.receive_kept
    | with_reducible apply State.discoverAct_kept
    | with_reducible apply State.beltDone_kept
    | with_reducible apply Kept.ite
    | intro _)

theorem execConfirm_kept (rx : Rx) (f : Frame) (s : State) {t' : State} (eqn : execConfirm rx f s = .next t') :
    Kept s t' := by
  unfold execConfirm at eqn
  injection eqn with eqn
  subst eqn
  repeat' (first
    | with_reducible exact Kept.rfl _
    | with_reducible assumption
    | with_reducible apply State.receive_kept
    | with_reducible apply State.confirmAct_kept
    | with_reducible apply State.beltDone_kept
    | with_reducible apply Kept.ite
    | intro _)

theorem execJoin_kept (rx : Rx) (f : Frame) (s : State) {t' : State} (eqn : execJoin rx f s = .next t') :
    Kept s t' := by
  unfold execJoin at eqn
  injection eqn with eqn
  subst eqn
  repeat' (first
    | with_reducible exact Kept.rfl _
    | with_reducible assumption
    | with_reducible apply State.receive_kept
    | with_reducible apply State.joinAct_kept
    | with_reducible apply State.beltDone_kept
    | with_reducible apply Kept.ite
    | intro _)

theorem State.directoryAct_kept {s0 : State} (s : State) (x : Nat) (f : Frame) (hk : Kept s0 s) :
    Kept s0 (State.directoryAct s x f) := by
  unfold State.directoryAct
  repeat' (first
    | with_reducible exact Kept.rfl _
    | with_reducible assumption
    | with_reducible apply State.forwardAct_kept
    | with_reducible apply State.assemble_kept
    | (with_reducible apply State.assemble_kept_eq; assumption)
    | with_reducible apply State.takeDir_kept
    | intro _
    | extract_lets
    | split)

theorem State.takeoverAct_kept {s0 : State} (s : State) (x : Nat) (f : Frame) (hk : Kept s0 s) :
    Kept s0 (State.takeoverAct s x f) := by
  unfold State.takeoverAct
  repeat' (first
    | with_reducible exact Kept.rfl _
    | with_reducible assumption
    | with_reducible apply State.forwardAct_kept
    | with_reducible apply State.takeTakeover_kept
    | intro _)

theorem State.abandonAct_kept {s0 : State} (s : State) (x : Nat) (f : Frame) (hk : Kept s0 s) :
    Kept s0 (State.abandonAct s x f) := by
  unfold State.abandonAct
  repeat' (first
    | with_reducible exact Kept.rfl _
    | with_reducible assumption
    | with_reducible apply State.forwardAct_kept
    | with_reducible apply State.abandonThree_kept
    | intro _)

theorem State.bypassedAct_kept {s0 : State} (s : State) (x : Nat) (f : Frame) (hk : Kept s0 s) :
    Kept s0 (State.bypassedAct s x f) := by
  unfold State.bypassedAct
  repeat' (first
    | with_reducible exact Kept.rfl _
    | with_reducible assumption
    | with_reducible apply State.forwardAct_kept
    | with_reducible apply State.seeBypassed_kept
    | with_reducible apply State.placeAll_kept
    | with_reducible apply State.seeJoined_kept
    | with_reducible apply State.memberLost_kept
    | with_reducible apply State.fedLost_kept
    | with_reducible apply Kept.ite
    | intro _
    | extract_lets
    | ((fail_if_success with_reducible apply Kept.eta); first | with_reducible apply Kept.upd))

theorem State.startLeave_kept {s0 : State} (s : State) (force : Bool) (hk : Kept s0 s) :
    Kept s0 (State.startLeave s force) := by
  unfold State.startLeave
  repeat' (first
    | with_reducible exact Kept.rfl _
    | with_reducible assumption
    | with_reducible apply State.endSlot_kept
    | with_reducible apply State.syncBelt_kept
    | with_reducible apply Kept.fold
    | with_reducible apply Kept.getD
    | with_reducible apply Kept.ite
    | intro _
    | extract_lets
    | ((fail_if_success with_reducible apply Kept.eta); first | with_reducible apply Kept.upd))

theorem State.leaveAct_kept {s0 : State} (s : State) (x : Nat) (f : Frame) (hk : Kept s0 s) :
    Kept s0 (State.leaveAct s x f) := by
  unfold State.leaveAct
  repeat' (first
    | with_reducible exact Kept.rfl _
    | with_reducible assumption
    | with_reducible apply State.forwardAct_kept
    | with_reducible apply State.startLeave_kept
    | intro _)

theorem State.demoted_kept {s0 : State} (s : State) (hk : Kept s0 s) :
    Kept s0 (State.demoted s) := by
  unfold State.demoted
  split
  · exact hk
  · extract_lets s1 store r1 s2 s3 lost s4 mine r2 s5
    have h1 : Kept s0 s1 := by with_reducible exact State.event_kept _ _ _ _ _ (State.raise_kept _ _ (State.setRole_kept _ _ hk))
    have h2 : Kept s0 s2 := by with_reducible exact State.setFld_kept _ _ _ (Kept.upd h1)
    have h3 : Kept s0 s3 := by with_reducible exact State.syncStore_kept _ (Kept.fold h2 (fun s f => State.sendOn_kept _ _ _ (Kept.rfl s)))
    have h4 : Kept s0 s4 := Kept.fold h3 (fun s p => by
      split
      · exact State.endQuery_kept _ _ _ _ _ (Kept.rfl s)
      · exact Kept.rfl s)
    have h5 : Kept s0 s5 := Kept.upd h4
    clear_value mine s5
    split
    · with_reducible apply State.completeU_kept; exact h5
    · exact h5

theorem State.demoteAct_kept {s0 : State} (s : State) (x : Nat) (f : Frame) (hk : Kept s0 s) :
    Kept s0 (State.demoteAct s x f) := by
  unfold State.demoteAct
  repeat' (first
    | with_reducible exact Kept.rfl _
    | with_reducible assumption
    | with_reducible apply State.forwardAct_kept
    | with_reducible apply State.demoted_kept
    | intro _)

theorem State.tolAct_kept {s0 : State} (s : State) (x : Nat) (f : Frame) (hk : Kept s0 s) :
    Kept s0 (State.tolAct s x f) := by
  unfold State.tolAct
  repeat' (first
    | with_reducible exact Kept.rfl _
    | with_reducible assumption
    | with_reducible apply State.forwardAct_kept
    | with_reducible apply State.syncAllowed_kept
    | intro _
    | extract_lets
    | ((fail_if_success with_reducible apply Kept.eta); first | with_reducible apply Kept.upd | with_reducible apply Kept.updH))

theorem State.resumeAct_kept {s0 : State} (s : State) (x : Nat) (f : Frame) (hk : Kept s0 s) :
    Kept s0 (State.resumeAct s x f) := by
  unfold State.resumeAct
  repeat' (first
    | with_reducible exact Kept.rfl _
    | with_reducible assumption
    | with_reducible apply State.reportGap_kept
    | with_reducible apply State.sendOn_kept
    | with_reducible apply Kept.fold
    | with_reducible apply Kept.ite
    | intro _
    | extract_lets
    | split)

theorem State.qcancelAct_kept {s0 : State} (s : State) (x : Nat) (f : Frame) (hk : Kept s0 s) :
    Kept s0 (State.qcancelAct s x f) := by
  unfold State.qcancelAct
  repeat' (first
    | with_reducible exact Kept.rfl _
    | with_reducible assumption
    | with_reducible apply State.forwardAct_kept
    | with_reducible apply State.cancelQuery_kept
    | with_reducible apply State.cancelPlaced_kept
    | with_reducible apply Kept.fold
    | with_reducible apply Kept.getD
    | with_reducible apply Kept.ite
    | intro _)

theorem State.fedgenAct_kept {s0 : State} (s : State) (x : Nat) (f : Frame) (hk : Kept s0 s) :
    Kept s0 (State.fedgenAct s x f) := by
  unfold State.fedgenAct
  repeat' (first
    | with_reducible exact Kept.rfl _
    | with_reducible assumption
    | with_reducible apply State.forwardAct_kept
    | with_reducible apply State.assemble_kept
    | (with_reducible apply State.assemble_kept_eq; assumption)
    | with_reducible apply State.setFld_kept
    | with_reducible apply State.journalPairs_kept
    | with_reducible apply Kept.ite
    | intro _
    | extract_lets
    | split
    | ((with_reducible conv => arg 2; whnf); split)
    | ((fail_if_success with_reducible apply Kept.eta); first | with_reducible apply Kept.upd))

theorem State.resultHere_kept {s0 : State} (s : State) (net sender : Nat) (ws : List W64) (hk : Kept s0 s) :
    Kept s0 (State.resultHere s net sender ws) := by
  unfold State.resultHere
  repeat' (first
    | with_reducible exact Kept.rfl _
    | with_reducible assumption
    | with_reducible apply State.fedResult_kept
    | with_reducible apply State.dropPlaced_kept
    | with_reducible apply State.modFree_kept
    | with_reducible apply State.endQuery_kept
    | with_reducible apply State.sendReturn_kept
    | with_reducible apply Kept.getD
    | with_reducible apply Kept.ite
    | intro _
    | extract_lets
    | split)

theorem State.resultAct_kept {s0 : State} (s : State) (x : Nat) (f : Frame) (hk : Kept s0 s) :
    Kept s0 (State.resultAct s x f) := by
  unfold State.resultAct
  repeat' (first
    | with_reducible exact Kept.rfl _
    | with_reducible assumption
    | with_reducible apply State.returnAct_kept
    | with_reducible apply State.assemble_kept
    | (with_reducible apply State.assemble_kept_eq; assumption)
    | with_reducible apply State.resultHere_kept
    | intro _
    | extract_lets
    | split)

theorem State.refuseAct_kept {s0 : State} (s : State) (x : Nat) (f : Frame) (hk : Kept s0 s) :
    Kept s0 (State.refuseAct s x f) := by
  unfold State.refuseAct
  repeat' (first
    | with_reducible exact Kept.rfl _
    | with_reducible assumption
    | with_reducible apply State.returnAct_kept
    | with_reducible apply State.refused_kept
    | with_reducible apply Kept.getD
    | intro _)

theorem State.noteFrame_kept {s0 : State} (s : State) (f : Frame) (hk : Kept s0 s) :
    Kept s0 (State.noteFrame s f) := by
  unfold State.noteFrame
  repeat' (first
    | with_reducible exact Kept.rfl _
    | with_reducible assumption
    | with_reducible apply State.mgrNote_kept)

theorem State.homeBehindAct_kept {s0 : State} (s : State) (x : Nat) (f : Frame) (hk : Kept s0 s) :
    Kept s0 (State.homeBehindAct s x f) := by
  unfold State.homeBehindAct
  repeat' (first
    | with_reducible exact Kept.rfl _
    | with_reducible assumption
    | with_reducible apply State.returnAct_kept
    | with_reducible apply State.noteFrame_kept
    | intro _)

theorem State.fillInHere_kept {s0 : State} (s : State) (f : Frame) (hk : Kept s0 s) :
    Kept s0 (State.fillInHere s f) := by
  unfold State.fillInHere
  repeat' (first
    | with_reducible exact Kept.rfl _
    | with_reducible assumption
    | with_reducible apply Kept.ite
    | intro _
    | extract_lets
    | split
    | ((with_reducible conv => arg 2; whnf); split)
    | ((fail_if_success with_reducible apply Kept.eta); first | with_reducible apply Kept.upd))

theorem State.fillInAct_kept {s0 : State} (s : State) (x : Nat) (f : Frame) (hk : Kept s0 s) :
    Kept s0 (State.fillInAct s x f) := by
  unfold State.fillInAct
  repeat' (first
    | with_reducible exact Kept.rfl _
    | with_reducible assumption
    | with_reducible apply State.returnAct_kept
    | with_reducible apply State.fillInHere_kept
    | intro _)

theorem State.reportHere_kept {s0 : State} (s : State) (net : Nat) (f : Frame) (hk : Kept s0 s) :
    Kept s0 (State.reportHere s net f) := by
  unfold State.reportHere
  repeat' (first
    | with_reducible exact Kept.rfl _
    | with_reducible assumption
    | with_reducible apply State.jrnPeer_kept
    | with_reducible apply State.breakHere_kept
    | with_reducible apply State.bypass_kept
    | with_reducible apply State.memberLost_kept
    | with_reducible apply State.noteFrame_kept
    | with_reducible apply State.placeAll_kept
    | with_reducible apply State.sendDir_kept
    | with_reducible apply State.dutyBypass_kept
    | with_reducible apply Kept.getD
    | with_reducible apply Kept.ite)

theorem State.reportAct_kept {s0 : State} (s : State) (x : Nat) (f : Frame) (hk : Kept s0 s) :
    Kept s0 (State.reportAct s x f) := by
  unfold State.reportAct
  repeat' (first
    | with_reducible exact Kept.rfl _
    | with_reducible assumption
    | with_reducible apply State.returnAct_kept
    | with_reducible apply State.reportHere_kept
    | intro _)

theorem State.gapAct_kept {s0 : State} (s : State) (x : Nat) (f : Frame) (hk : Kept s0 s) :
    Kept s0 (State.gapAct s x f) := by
  unfold State.gapAct
  repeat' (first
    | with_reducible exact Kept.rfl _
    | with_reducible assumption
    | with_reducible apply State.returnAct_kept
    | with_reducible apply State.sendAbandon_kept
    | intro _)

theorem State.stagedHere_kept {s0 : State} (s : State) (f : Frame) (hk : Kept s0 s) :
    Kept s0 (State.stagedHere s f) := by
  unfold State.stagedHere
  repeat' (first
    | with_reducible exact Kept.rfl _
    | with_reducible assumption
    | with_reducible apply State.completeU_kept
    | with_reducible apply State.noteFrame_kept
    | with_reducible apply Kept.ite
    | intro _
    | extract_lets
    | split
    | ((with_reducible conv => arg 2; whnf); split)
    | ((fail_if_success with_reducible apply Kept.eta); first | with_reducible apply Kept.upd))

theorem State.stagedAct_kept {s0 : State} (s : State) (x : Nat) (f : Frame) (hk : Kept s0 s) :
    Kept s0 (State.stagedAct s x f) := by
  unfold State.stagedAct
  repeat' (first
    | with_reducible exact Kept.rfl _
    | with_reducible assumption
    | with_reducible apply State.returnAct_kept
    | with_reducible apply State.stagedHere_kept
    | intro _)

theorem State.quietAct_kept {s0 : State} (s : State) (x : Nat) (f : Frame) (hk : Kept s0 s) :
    Kept s0 (State.quietAct s x f) := by
  unfold State.quietAct
  repeat' (first
    | with_reducible exact Kept.rfl _
    | with_reducible assumption
    | with_reducible apply State.returnAct_kept
    | with_reducible apply State.noteFrame_kept
    | with_reducible apply State.trySwitch_kept
    | intro _)

theorem State.tryJoin_kept {s0 : State} (s : State) (net p : Nat) (hk : Kept s0 s) :
    Kept s0 (State.tryJoin s net p) := by
  unfold State.tryJoin
  repeat' (first
    | with_reducible exact Kept.rfl _
    | with_reducible assumption
    | with_reducible apply State.rollCall_kept
    | (with_reducible apply State.rollCall_kept_eq; assumption)
    | with_reducible apply State.sendOn_kept
    | with_reducible apply State.inject_kept
    | with_reducible apply Kept.iteFst
    | with_reducible apply Kept.foldFst
    | with_reducible apply Kept.ite
    | intro _
    | extract_lets
    | ((fail_if_success with_reducible apply Kept.eta); first | with_reducible apply Kept.upd))

theorem State.noteLink_kept {s0 : State} (s : State) (net p q : Nat) (hk : Kept s0 s) :
    Kept s0 (State.noteLink s net p q) := by
  unfold State.noteLink
  repeat' (first
    | with_reducible exact Kept.rfl _
    | with_reducible assumption
    | with_reducible apply State.tryJoin_kept
    | with_reducible apply Kept.ite
    | intro _
    | extract_lets
    | ((fail_if_success with_reducible apply Kept.eta); first | with_reducible apply Kept.upd))

theorem State.linkReadyAct_kept {s0 : State} (s : State) (x : Nat) (f : Frame) (hk : Kept s0 s) :
    Kept s0 (State.linkReadyAct s x f) := by
  unfold State.linkReadyAct
  repeat' (first
    | with_reducible exact Kept.rfl _
    | with_reducible assumption
    | with_reducible apply State.returnAct_kept
    | with_reducible apply State.noteLink_kept
    | intro _)

theorem State.controlAct_kept {s0 : State} (s : State) (x : Nat) (f : Frame) (hk : Kept s0 s) :
    Kept s0 (State.controlAct s x f) := by
  unfold State.controlAct
  repeat' (first
    | with_reducible exact Kept.rfl _
    | with_reducible assumption
    | with_reducible apply State.directoryAct_kept
    | with_reducible apply State.takeoverAct_kept
    | with_reducible apply State.abandonAct_kept
    | with_reducible apply State.bypassedAct_kept
    | with_reducible apply State.leaveAct_kept
    | with_reducible apply State.demoteAct_kept
    | with_reducible apply State.tolAct_kept
    | with_reducible apply State.resumeAct_kept
    | with_reducible apply State.qcancelAct_kept
    | with_reducible apply State.fedgenAct_kept
    | with_reducible apply State.resultAct_kept
    | with_reducible apply State.refuseAct_kept
    | with_reducible apply State.homeBehindAct_kept
    | with_reducible apply State.fillInAct_kept
    | with_reducible apply State.reportAct_kept
    | with_reducible apply State.gapAct_kept
    | with_reducible apply State.stagedAct_kept
    | with_reducible apply State.quietAct_kept
    | with_reducible apply State.linkReadyAct_kept
    | intro _
    | extract_lets
    | split)

theorem State.frameAct_kept {s0 : State} (s : State) (x : Nat) (f : Frame) (hk : Kept s0 s) :
    Kept s0 (State.frameAct s x f) := by
  unfold State.frameAct
  repeat' (first
    | with_reducible exact Kept.rfl _
    | with_reducible assumption
    | with_reducible apply State.emptyAct_kept
    | with_reducible apply State.corpusAct_kept
    | with_reducible apply State.markerAct_kept
    | with_reducible apply State.queryAct_kept
    | with_reducible apply State.shardAct_kept
    | with_reducible apply State.discoverAct_kept
    | with_reducible apply State.confirmAct_kept
    | with_reducible apply State.joinAct_kept
    | with_reducible apply State.controlAct_kept
    | with_reducible apply Kept.ite
    | intro _
    | extract_lets
    | split)

theorem State.onControl_kept {s0 : State} (s : State) (rx : Rx) (f : Frame) (sub : Nat) (act : State → Nat → Frame → State) (hact : ∀ s0 v1 v2, Kept s0 (act s0 v1 v2)) (hk : Kept s0 s) :
    Kept s0 (State.onControl s rx f sub act) := by
  unfold State.onControl
  repeat' (first
    | with_reducible exact Kept.rfl _
    | with_reducible assumption
    | with_reducible apply State.receive_kept
    | with_reducible apply State.beltDone_kept
    | with_reducible apply Kept.step (hact ..)
    | with_reducible apply Kept.ite
    | intro _)

theorem execDirectory_kept (rx : Rx) (f : Frame) (s : State) {t' : State} (eqn : execDirectory rx f s = .next t') :
    Kept s t' := by
  unfold execDirectory at eqn
  injection eqn with eqn
  subst eqn
  repeat' (first
    | with_reducible exact Kept.rfl _
    | with_reducible assumption
    | with_reducible apply State.onControl_kept
    | with_reducible apply State.directoryAct_kept
    | intro _)

theorem execTakeover_kept (rx : Rx) (f : Frame) (s : State) {t' : State} (eqn : execTakeover rx f s = .next t') :
    Kept s t' := by
  unfold execTakeover at eqn
  injection eqn with eqn
  subst eqn
  repeat' (first
    | with_reducible exact Kept.rfl _
    | with_reducible assumption
    | with_reducible apply State.onControl_kept
    | with_reducible apply State.takeoverAct_kept
    | intro _)

theorem execAbandon_kept (rx : Rx) (f : Frame) (s : State) {t' : State} (eqn : execAbandon rx f s = .next t') :
    Kept s t' := by
  unfold execAbandon at eqn
  injection eqn with eqn
  subst eqn
  repeat' (first
    | with_reducible exact Kept.rfl _
    | with_reducible assumption
    | with_reducible apply State.onControl_kept
    | with_reducible apply State.abandonAct_kept
    | intro _)

theorem execBypassed_kept (rx : Rx) (f : Frame) (s : State) {t' : State} (eqn : execBypassed rx f s = .next t') :
    Kept s t' := by
  unfold execBypassed at eqn
  injection eqn with eqn
  subst eqn
  repeat' (first
    | with_reducible exact Kept.rfl _
    | with_reducible assumption
    | with_reducible apply State.onControl_kept
    | with_reducible apply State.bypassedAct_kept
    | intro _)

theorem execLeave_kept (src : LeaveSrc) (s : State) {t' : State} (eqn : execLeave src s = .next t') :
    Kept s t' := by
  unfold execLeave at eqn
  injection eqn with eqn
  subst eqn
  repeat' (first
    | with_reducible exact Kept.rfl _
    | with_reducible assumption
    | with_reducible apply State.onControl_kept
    | with_reducible apply State.leaveAct_kept
    | with_reducible apply State.clearTx_kept
    | with_reducible apply State.startLeave_kept
    | with_reducible apply State.beltDone_kept
    | with_reducible apply Kept.ite
    | intro _
    | extract_lets
    | split)

theorem execDemote_kept (rx : Rx) (f : Frame) (s : State) {t' : State} (eqn : execDemote rx f s = .next t') :
    Kept s t' := by
  unfold execDemote at eqn
  injection eqn with eqn
  subst eqn
  repeat' (first
    | with_reducible exact Kept.rfl _
    | with_reducible assumption
    | with_reducible apply State.onControl_kept
    | with_reducible apply State.demoteAct_kept
    | intro _)

theorem execTol_kept (rx : Rx) (f : Frame) (s : State) {t' : State} (eqn : execTol rx f s = .next t') :
    Kept s t' := by
  unfold execTol at eqn
  injection eqn with eqn
  subst eqn
  repeat' (first
    | with_reducible exact Kept.rfl _
    | with_reducible assumption
    | with_reducible apply State.onControl_kept
    | with_reducible apply State.tolAct_kept
    | intro _)

theorem execResume_kept (rx : Rx) (f : Frame) (s : State) {t' : State} (eqn : execResume rx f s = .next t') :
    Kept s t' := by
  unfold execResume at eqn
  injection eqn with eqn
  subst eqn
  repeat' (first
    | with_reducible exact Kept.rfl _
    | with_reducible assumption
    | with_reducible apply State.onControl_kept
    | with_reducible apply State.resumeAct_kept
    | intro _)

theorem execQcancel_kept (rx : Rx) (f : Frame) (s : State) {t' : State} (eqn : execQcancel rx f s = .next t') :
    Kept s t' := by
  unfold execQcancel at eqn
  injection eqn with eqn
  subst eqn
  repeat' (first
    | with_reducible exact Kept.rfl _
    | with_reducible assumption
    | with_reducible apply State.onControl_kept
    | with_reducible apply State.qcancelAct_kept
    | intro _)

theorem execFedgen_kept (rx : Rx) (f : Frame) (s : State) {t' : State} (eqn : execFedgen rx f s = .next t') :
    Kept s t' := by
  unfold execFedgen at eqn
  injection eqn with eqn
  subst eqn
  repeat' (first
    | with_reducible exact Kept.rfl _
    | with_reducible assumption
    | with_reducible apply State.onControl_kept
    | with_reducible apply State.fedgenAct_kept
    | intro _)

theorem execResult_kept (rx : Rx) (f : Frame) (s : State) {t' : State} (eqn : execResult rx f s = .next t') :
    Kept s t' := by
  unfold execResult at eqn
  injection eqn with eqn
  subst eqn
  repeat' (first
    | with_reducible exact Kept.rfl _
    | with_reducible assumption
    | with_reducible apply State.onControl_kept
    | with_reducible apply State.resultAct_kept
    | intro _)

theorem execRefuse_kept (rx : Rx) (f : Frame) (s : State) {t' : State} (eqn : execRefuse rx f s = .next t') :
    Kept s t' := by
  unfold execRefuse at eqn
  injection eqn with eqn
  subst eqn
  repeat' (first
    | with_reducible exact Kept.rfl _
    | with_reducible assumption
    | with_reducible apply State.onControl_kept
    | with_reducible apply State.refuseAct_kept
    | intro _)

theorem execHomeBehind_kept (rx : Rx) (f : Frame) (s : State) {t' : State} (eqn : execHomeBehind rx f s = .next t') :
    Kept s t' := by
  unfold execHomeBehind at eqn
  injection eqn with eqn
  subst eqn
  repeat' (first
    | with_reducible exact Kept.rfl _
    | with_reducible assumption
    | with_reducible apply State.onControl_kept
    | with_reducible apply State.homeBehindAct_kept
    | intro _)

theorem execFillIn_kept (rx : Rx) (f : Frame) (s : State) {t' : State} (eqn : execFillIn rx f s = .next t') :
    Kept s t' := by
  unfold execFillIn at eqn
  injection eqn with eqn
  subst eqn
  repeat' (first
    | with_reducible exact Kept.rfl _
    | with_reducible assumption
    | with_reducible apply State.onControl_kept
    | with_reducible apply State.fillInAct_kept
    | intro _)

theorem execReport_kept (rx : Rx) (f : Frame) (s : State) {t' : State} (eqn : execReport rx f s = .next t') :
    Kept s t' := by
  unfold execReport at eqn
  injection eqn with eqn
  subst eqn
  repeat' (first
    | with_reducible exact Kept.rfl _
    | with_reducible assumption
    | with_reducible apply State.onControl_kept
    | with_reducible apply State.reportAct_kept
    | intro _)

theorem execGap_kept (rx : Rx) (f : Frame) (s : State) {t' : State} (eqn : execGap rx f s = .next t') :
    Kept s t' := by
  unfold execGap at eqn
  injection eqn with eqn
  subst eqn
  repeat' (first
    | with_reducible exact Kept.rfl _
    | with_reducible assumption
    | with_reducible apply State.onControl_kept
    | with_reducible apply State.gapAct_kept
    | intro _)

theorem execStaged_kept (rx : Rx) (f : Frame) (s : State) {t' : State} (eqn : execStaged rx f s = .next t') :
    Kept s t' := by
  unfold execStaged at eqn
  injection eqn with eqn
  subst eqn
  repeat' (first
    | with_reducible exact Kept.rfl _
    | with_reducible assumption
    | with_reducible apply State.onControl_kept
    | with_reducible apply State.stagedAct_kept
    | intro _)

theorem execQuiet_kept (rx : Rx) (f : Frame) (s : State) {t' : State} (eqn : execQuiet rx f s = .next t') :
    Kept s t' := by
  unfold execQuiet at eqn
  injection eqn with eqn
  subst eqn
  repeat' (first
    | with_reducible exact Kept.rfl _
    | with_reducible assumption
    | with_reducible apply State.onControl_kept
    | with_reducible apply State.quietAct_kept
    | intro _)

theorem execLinkReady_kept (rx : Rx) (f : Frame) (s : State) {t' : State} (eqn : execLinkReady rx f s = .next t') :
    Kept s t' := by
  unfold execLinkReady at eqn
  injection eqn with eqn
  subst eqn
  repeat' (first
    | with_reducible exact Kept.rfl _
    | with_reducible assumption
    | with_reducible apply State.onControl_kept
    | with_reducible apply State.linkReadyAct_kept
    | intro _)

theorem execReturnResendTimeout_kept (id : Nat) (s : State) {t' : State} (eqn : execReturnResendTimeout id s = .next t') :
    Kept s t' := by
  unfold execReturnResendTimeout at eqn
  injection eqn with eqn
  subst eqn
  repeat' (first
    | with_reducible exact Kept.rfl _
    | with_reducible assumption
    | with_reducible apply State.sendRet_kept
    | with_reducible apply State.clearTx_kept
    | with_reducible apply Kept.fold
    | with_reducible apply Kept.ite
    | intro _
    | extract_lets
    | ((fail_if_success with_reducible apply Kept.eta); first | with_reducible apply Kept.upd))

theorem execControlPieceTimeout_kept (sender sub seq : Nat) (s : State) {t' : State} (eqn : execControlPieceTimeout sender sub seq s = .next t') :
    Kept s t' := by
  unfold execControlPieceTimeout at eqn
  injection eqn with eqn
  subst eqn
  repeat' (first
    | with_reducible exact Kept.rfl _
    | with_reducible assumption
    | intro _
    | extract_lets
    | ((fail_if_success with_reducible apply Kept.eta); first | with_reducible apply Kept.upd))

theorem execLopRetry_kept (port hseq : Nat) (s : State) {t' : State} (eqn : execLopRetry port hseq s = .next t') :
    Kept s t' := by
  unfold execLopRetry at eqn
  injection eqn with eqn
  subst eqn
  repeat' (first
    | with_reducible exact Kept.rfl _
    | with_reducible assumption
    | with_reducible apply State.clearTx_kept
    | with_reducible apply State.setPort_kept
    | with_reducible apply State.linkLasting_kept
    | with_reducible apply State.beltDone_kept
    | with_reducible apply Kept.ite
    | intro _
    | extract_lets
    | split)

theorem execRetryTimeout_kept (port hseq : Nat) (s : State) {t' : State} (eqn : execRetryTimeout port hseq s = .next t') :
    Kept s t' := by
  unfold execRetryTimeout at eqn
  injection eqn with eqn
  subst eqn
  repeat' (first
    | with_reducible exact Kept.rfl _
    | with_reducible assumption
    | with_reducible apply State.clearTx_kept
    | with_reducible apply State.setPort_kept
    | with_reducible apply State.sendLop_kept
    | with_reducible apply State.linkLasting_kept
    | with_reducible apply State.beltDone_kept
    | with_reducible apply Kept.ite
    | intro _
    | extract_lets
    | split)

theorem State.mended_kept {s0 : State} (s : State) (x : Nat) (f : Frame) (hk : Kept s0 s) :
    Kept s0 (State.mended s x f) := by
  unfold State.mended
  repeat' (first
    | with_reducible exact Kept.rfl _
    | with_reducible assumption
    | with_reducible apply State.setPort_kept
    | with_reducible apply State.incFld_kept
    | with_reducible apply State.raise_kept)

theorem State.replayed_kept {s0 : State} (s : State) (x : Nat) (f : Frame) (hk : Kept s0 s) :
    Kept s0 (State.replayed s x f) := by
  unfold State.replayed
  repeat' (first
    | with_reducible exact Kept.rfl _
    | with_reducible assumption
    | with_reducible apply State.mended_kept
    | with_reducible apply State.noteAudit_kept
    | with_reducible apply State.frameAct_kept
    | with_reducible apply State.linkLasting_kept
    | with_reducible apply Kept.ite
    | intro _
    | extract_lets)

theorem execReplaySlot_kept (rx : Rx) (f : Frame) (s : State) {t' : State} (eqn : execReplaySlot rx f s = .next t') :
    Kept s t' := by
  unfold execReplaySlot at eqn
  injection eqn with eqn
  subst eqn
  repeat' (first
    | with_reducible exact Kept.rfl _
    | with_reducible assumption
    | with_reducible apply State.clearTx_kept
    | with_reducible apply State.setPort_kept
    | with_reducible apply State.replayed_kept
    | with_reducible apply State.forwardStomped_kept
    | with_reducible apply State.badAct_kept
    | with_reducible apply State.linkLasting_kept
    | with_reducible apply State.beltDone_kept
    | with_reducible apply Kept.ite)

theorem execLopBypass_kept (port pos : Nat) (s : State) {t' : State} (eqn : execLopBypass port pos s = .next t') :
    Kept s t' := by
  unfold execLopBypass at eqn
  injection eqn with eqn
  subst eqn
  repeat' (first
    | with_reducible exact Kept.rfl _
    | with_reducible assumption
    | with_reducible apply State.clearTx_kept
    | with_reducible apply State.bypass_kept
    | with_reducible apply State.beltDone_kept
    | with_reducible apply Kept.ite)

theorem execHeartbeat_kept (port pos : Nat) (s : State) {t' : State} (eqn : execHeartbeat port pos s = .next t') :
    Kept s t' := by
  unfold execHeartbeat at eqn
  injection eqn with eqn
  subst eqn
  repeat' (first
    | with_reducible exact Kept.rfl _
    | with_reducible assumption
    | with_reducible apply State.clearTx_kept
    | with_reducible apply State.setFld_kept
    | with_reducible apply State.heartbeat_kept
    | with_reducible apply Kept.ite)

theorem State.leftBy_kept {s0 : State} (s : State) (x : Nat) (hk : Kept s0 s) :
    Kept s0 (State.leftBy s x) := by
  unfold State.leftBy
  repeat' (first
    | with_reducible exact Kept.rfl _
    | with_reducible assumption
    | with_reducible apply State.sendLast_kept
    | with_reducible apply State.setUp_kept
    | with_reducible apply State.setDown_kept
    | with_reducible apply State.settlePorts_kept
    | with_reducible apply State.incFld_kept
    | with_reducible apply State.seeBypassed_kept
    | with_reducible apply State.raise_kept
    | with_reducible apply State.event_kept
    | with_reducible apply Kept.ite)

theorem State.lastPath_kept {s0 : State} (s : State) (x : Nat) (hk : Kept s0 s) :
    Kept s0 (State.lastPath s x) := by
  unfold State.lastPath
  repeat' (first
    | with_reducible exact Kept.rfl _
    | with_reducible assumption
    | with_reducible apply State.sendLast_kept
    | with_reducible apply State.setUp_kept
    | with_reducible apply State.settlePorts_kept
    | with_reducible apply State.leftBy_kept
    | with_reducible apply Kept.ite
    | intro _
    | extract_lets)

theorem execLastSlot_kept (rx : Rx) (f : Option Frame) (s : State) {t' : State} (eqn : execLastSlot rx f s = .next t') :
    Kept s t' := by
  unfold execLastSlot at eqn
  injection eqn with eqn
  subst eqn
  repeat' (first
    | with_reducible exact Kept.rfl _
    | with_reducible assumption
    | with_reducible apply State.lastPath_kept
    | with_reducible apply State.receiveAs_kept
    | with_reducible apply State.frameAct_kept
    | with_reducible apply State.clearTx_kept
    | with_reducible apply State.beltDone_kept
    | with_reducible apply Kept.ite
    | intro _
    | extract_lets
    | split)

theorem execSdLossTimeout_kept (port : Nat) (s : State) {t' : State} (eqn : execSdLossTimeout port s = .next t') :
    Kept s t' := by
  unfold execSdLossTimeout at eqn
  injection eqn with eqn
  subst eqn
  repeat' (first
    | with_reducible exact Kept.rfl _
    | with_reducible assumption
    | with_reducible apply State.clearTx_kept
    | with_reducible apply State.portDown_kept
    | with_reducible apply State.bypass_kept
    | with_reducible apply State.breakRing_kept
    | with_reducible apply State.beltDone_kept
    | with_reducible apply Kept.ite)

theorem execLaneBerWindow_kept (port berExp corrected uncorr : Nat) (aboveLimit : Bool) (s : State) {t' : State} (eqn : execLaneBerWindow port berExp corrected uncorr aboveLimit s = .next t') :
    Kept s t' := by
  unfold execLaneBerWindow at eqn
  injection eqn with eqn
  subst eqn
  repeat' (first
    | with_reducible exact Kept.rfl _
    | with_reducible assumption
    | with_reducible apply State.clearTx_kept
    | with_reducible apply State.setFld_kept
    | with_reducible apply State.addFld_kept
    | with_reducible apply State.linkLasting_kept
    | with_reducible apply State.beltDone_kept
    | with_reducible apply Kept.ite)

theorem execPortQualified_kept (port partner : Nat) (s : State) {t' : State} (eqn : execPortQualified port partner s = .next t') :
    Kept s t' := by
  unfold execPortQualified at eqn
  injection eqn with eqn
  subst eqn
  repeat' (first
    | with_reducible exact Kept.rfl _
    | with_reducible assumption
    | with_reducible apply State.clearTx_kept
    | with_reducible apply State.setFld_kept
    | with_reducible apply State.setPort_kept
    | with_reducible apply State.heartbeat_kept
    | with_reducible apply State.noteLink_kept
    | with_reducible apply State.beltDone_kept
    | with_reducible apply State.sendReturn_kept
    | with_reducible apply Kept.ite)

theorem execAlignSlot_kept (port : Nat) (s : State) {t' : State} (eqn : execAlignSlot port s = .next t') :
    Kept s t' := by
  unfold execAlignSlot at eqn
  injection eqn with eqn
  subst eqn
  repeat' (first
    | with_reducible exact Kept.rfl _
    | with_reducible assumption
    | with_reducible apply State.clearTx_kept
    | with_reducible apply State.setFld_kept
    | with_reducible apply State.slotTime_kept
    | with_reducible apply Kept.ite)

theorem execAlignmentLockLost_kept (port : Nat) (s : State) {t' : State} (eqn : execAlignmentLockLost port s = .next t') :
    Kept s t' := by
  unfold execAlignmentLockLost at eqn
  injection eqn with eqn
  subst eqn
  repeat' (first
    | with_reducible exact Kept.rfl _
    | with_reducible assumption
    | with_reducible apply State.setFld_kept
    | with_reducible apply Kept.ite)

theorem execFormationStart_kept (s : State) {t' : State} (eqn : execFormationStart s = .next t') :
    Kept s t' := by
  unfold execFormationStart at eqn
  injection eqn with eqn
  subst eqn
  repeat' (first
    | with_reducible exact Kept.rfl _
    | with_reducible assumption
    | with_reducible apply State.clearTx_kept
    | with_reducible apply State.setNetPos_kept
    | with_reducible apply State.setPhase_kept
    | with_reducible apply State.sendDiscover_kept
    | with_reducible apply Kept.ite
    | intro _
    | extract_lets
    | ((fail_if_success with_reducible apply Kept.eta); first | with_reducible apply Kept.upd))

theorem execDiscoverRetry_kept (s : State) {t' : State} (eqn : execDiscoverRetry s = .next t') :
    Kept s t' := by
  unfold execDiscoverRetry at eqn
  injection eqn with eqn
  subst eqn
  repeat' (first
    | with_reducible exact Kept.rfl _
    | with_reducible assumption
    | with_reducible apply State.clearTx_kept
    | with_reducible apply State.sendDiscover_kept
    | with_reducible apply Kept.ite)

theorem execFormationTimeout_kept (s : State) {t' : State} (eqn : execFormationTimeout s = .next t') :
    Kept s t' := by
  unfold execFormationTimeout at eqn
  injection eqn with eqn
  subst eqn
  repeat' (first
    | with_reducible exact Kept.rfl _
    | with_reducible assumption
    | with_reducible apply State.clearTx_kept
    | with_reducible apply State.failFormation_kept
    | with_reducible apply State.setPhase_kept
    | with_reducible apply State.sendDiscover_kept
    | with_reducible apply Kept.ite)

theorem State.issueSlots_kept {s0 : State} (s : State) (hk : Kept s0 s) :
    Kept s0 (State.issueSlots s) := by
  unfold State.issueSlots
  repeat' (first
    | with_reducible exact Kept.rfl _
    | with_reducible assumption
    | with_reducible apply State.emptyFrame_kept
    | (with_reducible apply State.emptyFrame_kept_eq; assumption)
    | with_reducible apply State.sendOn_kept
    | with_reducible apply State.syncStore_kept
    | with_reducible apply Kept.fold
    | with_reducible apply Kept.iteFst
    | with_reducible apply Kept.foldFst
    | with_reducible apply Kept.ite
    | intro _
    | extract_lets
    | ((fail_if_success with_reducible apply Kept.eta); first | with_reducible apply Kept.upd))

theorem execReportCollectionComplete_kept (s : State) {t' : State} (eqn : execReportCollectionComplete s = .next t') :
    Kept s t' := by
  unfold execReportCollectionComplete at eqn
  injection eqn with eqn
  subst eqn
  repeat' (first
    | with_reducible exact Kept.rfl _
    | with_reducible assumption
    | with_reducible apply State.clearTx_kept
    | with_reducible apply State.setFld_kept
    | with_reducible apply State.sendDir_kept
    | with_reducible apply State.installDir_kept
    | with_reducible apply State.issueSlots_kept
    | with_reducible apply State.setPhase_kept
    | with_reducible apply State.markNow_kept
    | with_reducible apply State.placeAll_kept
    | with_reducible apply State.beltDone_kept
    | with_reducible apply Kept.iteFst
    | with_reducible apply Kept.foldFst
    | with_reducible apply Kept.ite)

theorem State.reissue_kept {s0 : State} (s : State) (o : Nat) (hk : Kept s0 s) :
    Kept s0 (State.reissue s o) := by
  unfold State.reissue
  repeat' (first
    | with_reducible exact Kept.rfl _
    | with_reducible assumption
    | with_reducible apply State.sendEmpty_kept
    | intro _
    | extract_lets
    | ((fail_if_success with_reducible apply Kept.eta); first | with_reducible apply Kept.upd))

theorem State.auditOwner_kept {s0 : State} (s : State) (o n k : Nat) (hk : Kept s0 s) :
    Kept s0 (State.auditOwner s o n k) := by
  unfold State.auditOwner
  repeat' (first
    | with_reducible exact Kept.rfl _
    | with_reducible assumption
    | with_reducible apply State.raise_kept
    | with_reducible apply State.event_kept
    | with_reducible apply State.reissue_kept
    | with_reducible apply State.syncStore_kept
    | with_reducible apply Kept.fold
    | with_reducible apply Kept.ite
    | intro _
    | extract_lets
    | ((fail_if_success with_reducible apply Kept.eta); first | with_reducible apply Kept.upd))

theorem execSlotAudit_kept (u : Unit) (s : State) {t' : State} (eqn : execSlotAudit u s = .next t') :
    Kept s t' := by
  unfold execSlotAudit at eqn
  injection eqn with eqn
  subst eqn
  repeat' (first
    | with_reducible exact Kept.rfl _
    | with_reducible assumption
    | with_reducible apply State.clearTx_kept
    | with_reducible apply State.auditOwner_kept
    | with_reducible apply Kept.fold
    | with_reducible apply Kept.ite
    | intro _
    | extract_lets
    | split
    | ((with_reducible conv => arg 2; whnf); split)
    | ((fail_if_success with_reducible apply Kept.eta); first | with_reducible apply Kept.upd))

theorem execStandbyTakeoverTimeout_kept (s : State) {t' : State} (eqn : execStandbyTakeoverTimeout s = .next t') :
    Kept s t' := by
  unfold execStandbyTakeoverTimeout at eqn
  injection eqn with eqn
  subst eqn
  repeat' (first
    | with_reducible exact Kept.rfl _
    | with_reducible assumption
    | with_reducible apply State.clearTx_kept
    | with_reducible apply State.setRole_kept
    | with_reducible apply State.raise_kept
    | with_reducible apply State.event_kept
    | with_reducible apply State.sendControl_kept
    | with_reducible apply State.setFld_kept
    | with_reducible apply State.tryJoin_kept
    | with_reducible apply State.markNow_kept
    | with_reducible apply State.beltDone_kept
    | with_reducible apply Kept.fold
    | with_reducible apply Kept.ite
    | intro _
    | extract_lets
    | ((fail_if_success with_reducible apply Kept.eta); first | with_reducible apply Kept.upd))

theorem execFedTimeout_kept (qnum : W64) (s : State) {t' : State} (eqn : execFedTimeout qnum s = .next t') :
    Kept s t' := by
  unfold execFedTimeout at eqn
  injection eqn with eqn
  subst eqn
  repeat' (first
    | with_reducible exact Kept.rfl _
    | with_reducible assumption
    | with_reducible apply State.mergeFed_kept
    | with_reducible apply State.settleCancels_kept
    | intro _
    | extract_lets
    | split)

theorem State.rglReject_kept {s0 : State} (s : State) (hk : Kept s0 s) :
    Kept s0 (State.rglReject s) := by
  unfold State.rglReject
  repeat' (first
    | with_reducible exact Kept.rfl _
    | with_reducible assumption
    | with_reducible apply State.raise_kept)

theorem State.writeGrt_kept {s0 : State} (s : State) (m r : Nat) (v : W32) (hk : Kept s0 s) :
    Kept s0 (State.writeGrt s m r v) := by
  unfold State.writeGrt
  repeat' (first
    | with_reducible exact Kept.rfl _
    | with_reducible assumption
    | with_reducible apply State.rglReject_kept
    | with_reducible apply State.hostWrite_kept
    | with_reducible apply Kept.ite
    | intro _
    | extract_lets
    | ((fail_if_success with_reducible apply Kept.eta); first | with_reducible apply Kept.upd))

theorem execGuaranteeWrite_kept (m r : Nat) (v : W32) (s : State) {t' : State} (eqn : execGuaranteeWrite m r v s = .next t') :
    Kept s t' := by
  unfold execGuaranteeWrite at eqn
  injection eqn with eqn
  subst eqn
  repeat' (first
    | with_reducible exact Kept.rfl _
    | with_reducible assumption
    | with_reducible apply State.writeGrt_kept
    | with_reducible apply Kept.ite)

theorem State.writeRglClass_kept {s0 : State} (s : State) (k : Nat) (v : W32) (hk : Kept s0 s) :
    Kept s0 (State.writeRglClass s k v) := by
  unfold State.writeRglClass
  repeat' (first
    | with_reducible exact Kept.rfl _
    | with_reducible assumption
    | with_reducible apply State.rglReject_kept
    | with_reducible apply State.hostWrite_kept
    | with_reducible apply Kept.ite)

theorem execClassReservationWrite_kept (k : Nat) (v : W32) (s : State) {t' : State} (eqn : execClassReservationWrite k v s = .next t') :
    Kept s t' := by
  unfold execClassReservationWrite at eqn
  injection eqn with eqn
  subst eqn
  repeat' (first
    | with_reducible exact Kept.rfl _
    | with_reducible assumption
    | with_reducible apply State.writeRglClass_kept
    | with_reducible apply Kept.ite)

theorem State.reportMiss_kept {s0 : State} (s : State) (m r cls served cap : Nat) (hk : Kept s0 s) :
    Kept s0 (State.reportMiss s m r cls served cap) := by
  unfold State.reportMiss
  repeat' (first
    | with_reducible exact Kept.rfl _
    | with_reducible assumption
    | with_reducible apply State.jrnPeer_kept
    | with_reducible apply State.sendReturn_kept
    | with_reducible apply Kept.ite)

theorem State.missEvent_kept {s0 : State} (s : State) (m r cls served cap : Nat) (hk : Kept s0 s) :
    Kept s0 (State.missEvent s m r cls served cap) := by
  unfold State.missEvent
  repeat' (first
    | with_reducible exact Kept.rfl _
    | with_reducible assumption
    | with_reducible apply State.raise_kept
    | with_reducible apply State.msi_kept
    | with_reducible apply State.event_kept
    | with_reducible apply State.reportMiss_kept
    | with_reducible apply Kept.ite
    | intro _
    | extract_lets
    | split
    | ((with_reducible conv => arg 2; whnf); split)
    | ((fail_if_success with_reducible apply Kept.eta); first | with_reducible apply Kept.upd))

end Sys2Proof.Machine
end

