-- ==== Sys2Proof/Laws/Keep8.lean ====
section
/-! SUPPORT. One lemma for each operation and each command: it leaves what `Kept` (`Shed`) names (Regulation to Safety). -/

namespace Sys2Proof.Machine

theorem State.guaranteeMiss_kept {s0 : State} (s : State) (m r cls served cap : Nat) (hk : Kept s0 s) :
    Kept s0 (State.guaranteeMiss s m r cls served cap) := by
  unfold State.guaranteeMiss
  repeat' (first
    | with_reducible exact Kept.rfl _
    | with_reducible assumption
    | with_reducible apply State.incFld_kept
    | with_reducible apply State.setBit_kept
    | with_reducible apply State.setFld_kept
    | with_reducible apply State.raise_kept
    | with_reducible apply State.missEvent_kept)

theorem State.measurePair_kept {s0 : State} (s : State) (pcie : List (Nat × Nat)) (g cap m r : Nat) (hk : Kept s0 s) :
    Kept s0 (State.measurePair s pcie g cap m r) := by
  unfold State.measurePair
  repeat' (first
    | with_reducible exact Kept.rfl _
    | with_reducible assumption
    | with_reducible apply State.setFld_kept
    | with_reducible apply State.guaranteeMiss_kept
    | with_reducible apply Kept.ite
    | intro _
    | extract_lets
    | ((fail_if_success with_reducible apply Kept.eta); first | with_reducible apply Kept.upd))

theorem State.nextWindow_kept {s0 : State} (s : State) (hk : Kept s0 s) :
    Kept s0 (State.nextWindow s) := by
  unfold State.nextWindow
  repeat' (first
    | with_reducible exact Kept.rfl _
    | with_reducible assumption
    | intro _
    | extract_lets
    | ((fail_if_success with_reducible apply Kept.eta); first | with_reducible apply Kept.upd))

theorem State.showCap_kept {s0 : State} (s : State) (cap r : Nat) (hk : Kept s0 s) :
    Kept s0 (State.showCap s cap r) := by
  unfold State.showCap
  repeat' (first
    | with_reducible exact Kept.rfl _
    | with_reducible assumption
    | with_reducible apply State.setFld_kept
    | with_reducible apply Kept.ite
    | intro _
    | extract_lets)

theorem execRegulationWindowEnd_kept (steps : WindowSteps) (pcie : List (Nat × Nat)) (s : State) {t' : State} (eqn : execRegulationWindowEnd steps pcie s = .next t') :
    Kept s t' := by
  unfold execRegulationWindowEnd at eqn
  injection eqn with eqn
  subst eqn
  repeat' (first
    | with_reducible exact Kept.rfl _
    | with_reducible assumption
    | with_reducible apply State.clearTx_kept
    | with_reducible apply State.noteDark_kept
    | with_reducible apply State.showCap_kept
    | with_reducible apply State.measurePair_kept
    | with_reducible apply State.nextWindow_kept
    | with_reducible apply Kept.fold
    | intro _
    | extract_lets)

theorem State.countStart_kept {s0 : State} (s : State) (hk : Kept s0 s) :
    Kept s0 (State.countStart s) := by
  unfold State.countStart
  repeat' (first
    | with_reducible exact Kept.rfl _
    | with_reducible assumption
    | with_reducible apply State.nextSeq_kept
    | (with_reducible apply State.nextSeq_kept_eq; assumption)
    | with_reducible apply State.setFld_kept
    | intro _
    | extract_lets
    | ((fail_if_success with_reducible apply Kept.eta); first | with_reducible apply Kept.upd))

theorem State.readJournal_kept {s0 : State} (s : State) (hk : Kept s0 s) :
    Kept s0 (State.readJournal s) := by
  unfold State.readJournal
  repeat' (first
    | with_reducible exact Kept.rfl _
    | with_reducible assumption
    | with_reducible apply State.setFld_kept
    | with_reducible apply State.syncFill_kept
    | with_reducible apply State.raise_kept
    | with_reducible apply State.event_kept
    | with_reducible apply Kept.getD
    | with_reducible apply Kept.ite
    | intro _
    | extract_lets
    | ((fail_if_success with_reducible apply Kept.eta); first | with_reducible apply Kept.upd))

theorem State.resetRegs_kept {s0 : State} (s : State) (hk : Kept s0 s) :
    Kept s0 (State.resetRegs s) := by
  unfold State.resetRegs
  exact ⟨hk.1, hk.2, hk.3, hk.4, hk.5, fun c => canon_filter (s := s) _ (hk.6 c) (Eq.refl _) (canon_mem (s := s) (hk.6 c))⟩

theorem State.resetHost_kept {s0 : State} (s : State) (hk : Kept s0 s) :
    Kept s0 (State.resetHost s) := by
  unfold State.resetHost
  exact ⟨hk.1, hk.2, hk.3, hk.4, hk.5, hk.6⟩

theorem State.stopFlash_shed {s0 : State} (s : State) (hk : Shed s0 s) :
    Shed s0 (State.stopFlash s) := by
  unfold State.stopFlash
  repeat' (first
    | with_reducible exact Shed.rfl _
    | with_reducible assumption
    | intro _
    | extract_lets
    | ((fail_if_success with_reducible apply Shed.eta); first | with_reducible apply Shed.upd | with_reducible apply Shed.updF | with_reducible apply Shed.dropF))

theorem State.loseAll_shed {s0 : State} (s : State) (hk : Shed s0 s) :
    Shed s0 (State.loseAll s) := by
  unfold State.loseAll
  extract_lets z s1
  have h1 : Shed s0 s1 := State.stopFlash_shed _ (hk.trans (State.resetHost_kept _ (State.resetRegs_kept _ (Kept.rfl s))).shed)
  refine ⟨h1.1, h1.2, h1.3, h1.4, h1.5, fun c => ?_⟩
  have k := h1.6 c
  simp only [State.canon, State.memWf, State.regsWf, Bool.and_eq_true] at k ⊢
  exact ⟨⟨⟨⟨by decide, by decide⟩, k.1.1.2⟩, Eq.refl _⟩, k.2⟩

theorem State.startNotice_kept {s0 : State} (s : State) (hk : Kept s0 s) :
    Kept s0 (State.startNotice s) := by
  unfold State.startNotice
  repeat' (first
    | with_reducible exact Kept.rfl _
    | with_reducible assumption
    | with_reducible apply State.setFld_kept
    | intro _
    | extract_lets
    | ((fail_if_success with_reducible apply Kept.eta); first | with_reducible apply Kept.upd))

theorem State.clearLatch_kept {s0 : State} (s : State) (hk : Kept s0 s) :
    Kept s0 (State.clearLatch s) := by
  unfold State.clearLatch
  repeat' (first
    | with_reducible exact Kept.rfl _
    | with_reducible assumption
    | with_reducible apply State.raise_kept
    | with_reducible apply State.syncAlert_kept
    | with_reducible apply Kept.ite
    | intro _
    | extract_lets
    | ((fail_if_success with_reducible apply Kept.eta); first | with_reducible apply Kept.upd))

theorem State.beginCold_shed {s0 : State} (s : State) (hk : Shed s0 s) :
    Shed s0 (State.beginCold s) := by
  unfold State.beginCold
  repeat' (first
    | with_reducible exact Shed.rfl _
    | with_reducible assumption
    | with_reducible apply State.loseAll_shed
    | (with_reducible apply Shed.step; with_reducible apply State.countStart_kept; with_reducible exact Kept.rfl _)
    | with_reducible apply State.countStart_kept
    | (with_reducible apply Shed.step; with_reducible apply State.clearLatch_kept; with_reducible exact Kept.rfl _)
    | with_reducible apply State.clearLatch_kept
    | (with_reducible apply Shed.step; with_reducible apply State.startNotice_kept; with_reducible exact Kept.rfl _)
    | with_reducible apply State.startNotice_kept
    | (with_reducible apply Shed.step; with_reducible apply State.setDstate_kept; with_reducible exact Kept.rfl _)
    | with_reducible apply State.setDstate_kept
    | (with_reducible apply Shed.step; with_reducible apply State.setFld_kept; with_reducible exact Kept.rfl _)
    | with_reducible apply State.setFld_kept
    | with_reducible apply Shed.ite)

theorem State.railsUp_kept {s0 : State} (s : State) (hk : Kept s0 s) :
    Kept s0 (State.railsUp s) := by
  unfold State.railsUp
  repeat' (first
    | with_reducible exact Kept.rfl _
    | with_reducible assumption
    | intro _
    | extract_lets
    | ((fail_if_success with_reducible apply Kept.eta); first | with_reducible apply Kept.upd))

theorem State.findRow_kept {s0 : State} (s : State) (u : Nat) (hk : Kept s0 s) :
    Kept s0 (State.findRow s u) := by
  unfold State.findRow
  repeat' (first
    | with_reducible exact Kept.rfl _
    | with_reducible assumption
    | with_reducible apply State.addDefect_kept
    | with_reducible apply Kept.ite)

theorem State.findEvent_kept {s0 : State} (s : State) (k u : Nat) (hk : Kept s0 s) :
    Kept s0 (State.findEvent s k u) := by
  unfold State.findEvent
  repeat' (first
    | with_reducible exact Kept.rfl _
    | with_reducible assumption
    | with_reducible apply State.event_kept
    | with_reducible apply Kept.ite)

theorem State.finding_kept {s0 : State} (s : State) (f : Finding) (hk : Kept s0 s) :
    Kept s0 (State.finding s f) := by
  unfold State.finding
  repeat' (first
    | with_reducible exact Kept.rfl _
    | with_reducible assumption
    | with_reducible apply State.event_kept
    | with_reducible apply State.findRow_kept
    | with_reducible apply State.addDefect_kept
    | with_reducible apply State.findEvent_kept
    | with_reducible apply Kept.ite)

theorem State.findings_kept {s0 : State} (s : State) (fs : List Finding) (kinds : List Nat) (hk : Kept s0 s) :
    Kept s0 (State.findings s fs kinds) := by
  unfold State.findings
  repeat' (first
    | with_reducible exact Kept.rfl _
    | with_reducible assumption
    | with_reducible apply State.finding_kept
    | with_reducible apply Kept.fold
    | intro _)

theorem State.showStraps_kept {s0 : State} (s : State) (l : List (BitVec 3)) (hk : Kept s0 s) :
    Kept s0 (State.showStraps s l) := by
  unfold State.showStraps
  repeat' (first
    | with_reducible exact Kept.rfl _
    | with_reducible assumption
    | with_reducible apply State.setFld_kept)

theorem State.takeLicence_kept {s0 : State} (s : State) (hk : Kept s0 s) :
    Kept s0 (State.takeLicence s) := by
  unfold State.takeLicence
  repeat' (first
    | with_reducible exact Kept.rfl _
    | with_reducible assumption
    | with_reducible apply State.raise_kept
    | with_reducible apply State.event_kept
    | with_reducible apply State.setReg_kept
    | with_reducible apply State.setFld_kept
    | with_reducible apply State.jrnConfig_kept
    | with_reducible apply Kept.ite
    | intro _
    | extract_lets
    | split)

theorem State.tryBanks_kept {s0 : State} (s : State) (hbm : Nat) (y0 : List Nat) (hk : Kept s0 s) :
    Kept s0 (State.tryBanks s hbm y0).1 := by
  induction y0 generalizing s hbm with
  | nil =>
    unfold State.tryBanks
    exact hk
  | cons o l ih =>
    unfold State.tryBanks
    repeat' (first
      | with_reducible apply ih
      | with_reducible exact Kept.rfl _
      | with_reducible assumption
      | with_reducible apply State.setBankResult_kept
      | with_reducible apply Kept.iteFst)

theorem State.tryBanks_kept_eq {s0 t' : State} {x' : Option Nat} (s : State) (hbm : Nat) (y0 : List Nat) (eqn : State.tryBanks s hbm y0 = (t', x')) (hk : Kept s0 s) : Kept s0 t' := by
  have k := State.tryBanks_kept (s0 := s0) s hbm y0 hk
  rw [eqn] at k
  exact k

theorem State.readBanks_kept {s0 : State} (s : State) (hk : Kept s0 s) :
    Kept s0 (State.readBanks s).1 := by
  unfold State.readBanks
  repeat' (first
    | with_reducible exact Kept.rfl _
    | with_reducible assumption
    | with_reducible apply State.setBankResult_kept
    | with_reducible apply State.tryBanks_kept)

theorem State.readBanks_kept_eq {s0 t' : State} {x' : Option Nat} (s : State) (eqn : State.readBanks s = (t', x')) (hk : Kept s0 s) : Kept s0 t' := by
  have k := State.readBanks_kept (s0 := s0) s hk
  rw [eqn] at k
  exact k

theorem State.setting_kept {s0 : State} (s : State) (e : Nat × W32) (hk : Kept s0 s) :
    Kept s0 (State.setting s e) := by
  unfold State.setting
  repeat' (first
    | with_reducible exact Kept.rfl _
    | with_reducible assumption
    | with_reducible apply State.setReg_kept
    | intro _
    | extract_lets
    | split)

theorem State.putWindow_kept {s0 : State} (s : State) (w : WinRec) (hk : Kept s0 s) :
    Kept s0 (State.putWindow s w) := by
  unfold State.putWindow
  repeat' (first
    | with_reducible exact Kept.rfl _
    | with_reducible assumption
    | with_reducible apply State.setReg_kept
    | with_reducible apply State.setFld_kept)

theorem State.putThermal_kept {s0 : State} (s : State) (i : Image) (hk : Kept s0 s) :
    Kept s0 (State.putThermal s i) := by
  unfold State.putThermal
  repeat' (first
    | with_reducible exact Kept.rfl _
    | with_reducible assumption
    | with_reducible apply State.setFld_kept
    | intro _
    | extract_lets
    | split)

theorem State.putDevice_kept {s0 : State} (s : State) (hk : Kept s0 s) :
    Kept s0 (State.putDevice s) := by
  unfold State.putDevice
  repeat' (first
    | with_reducible exact Kept.rfl _
    | with_reducible assumption
    | with_reducible apply State.setFld_kept
    | intro _
    | extract_lets
    | ((fail_if_success with_reducible apply Kept.eta); first | with_reducible apply Kept.upd))

theorem State.showBank_kept {s0 : State} (s : State) (k : Nat) (i : Image) (hk : Kept s0 s) :
    Kept s0 (State.showBank s k i) := by
  unfold State.showBank
  repeat' (first
    | with_reducible exact Kept.rfl _
    | with_reducible assumption
    | with_reducible apply State.setFld_kept)

theorem State.takeBank_kept {s0 : State} (s : State) (k : Nat) (hk : Kept s0 s) :
    Kept s0 (State.takeBank s k) := by
  unfold State.takeBank
  repeat' (first
    | with_reducible exact Kept.rfl _
    | with_reducible assumption
    | with_reducible apply State.showBank_kept
    | with_reducible apply State.putDevice_kept
    | with_reducible apply State.putWindow_kept
    | with_reducible apply State.putThermal_kept
    | with_reducible apply State.setting_kept
    | with_reducible apply State.jrnConfig_kept
    | with_reducible apply Kept.fold
    | with_reducible apply Kept.ite
    | intro _
    | extract_lets
    | split
    | ((with_reducible conv => arg 2; whnf); split)
    | ((fail_if_success with_reducible apply Kept.eta); first | with_reducible apply Kept.upd | with_reducible apply Kept.updF))

theorem State.markRecovery_kept {s0 : State} (s : State) (hk : Kept s0 s) :
    Kept s0 (State.markRecovery s) := by
  unfold State.markRecovery
  repeat' (first
    | with_reducible exact Kept.rfl _
    | with_reducible assumption
    | with_reducible apply State.raise_kept
    | with_reducible apply State.event_kept)

theorem State.journalBoot_kept {s0 : State} (s : State) (kind : Nat) (hk : Kept s0 s) :
    Kept s0 (State.journalBoot s kind) := by
  unfold State.journalBoot
  repeat' (first
    | with_reducible exact Kept.rfl _
    | with_reducible assumption
    | with_reducible apply State.journal_kept)

theorem State.configure_kept {s0 : State} (s : State) (hk : Kept s0 s) :
    Kept s0 (State.configure s) := by
  unfold State.configure
  repeat' (first
    | with_reducible exact Kept.rfl _
    | with_reducible assumption
    | with_reducible apply State.readBanks_kept
    | (with_reducible apply State.readBanks_kept_eq; assumption)
    | with_reducible apply State.takeBank_kept
    | with_reducible apply State.markRecovery_kept
    | intro _
    | extract_lets
    | split)

theorem State.brass_kept {s0 : State} (s : State) (env : StartEnv) (hk : Kept s0 s) :
    Kept s0 (State.brass s env) := by
  unfold State.brass
  repeat' (first
    | with_reducible exact Kept.rfl _
    | with_reducible assumption
    | with_reducible apply State.setFld_kept
    | with_reducible apply State.showStraps_kept
    | with_reducible apply State.setRole_kept
    | with_reducible apply State.event_kept
    | with_reducible apply State.failDevice_kept
    | with_reducible apply State.readJournal_kept
    | with_reducible apply State.takeLicence_kept
    | with_reducible apply State.configure_kept
    | with_reducible apply State.journalBoot_kept
    | with_reducible apply Kept.ite
    | intro _
    | extract_lets
    | ((fail_if_success with_reducible apply Kept.eta); first | with_reducible apply Kept.upd))

theorem State.checkPaths_kept {s0 : State} (s : State) (lost : List (Bool × Bool)) (hk : Kept s0 s) :
    Kept s0 (State.checkPaths s lost) := by
  unfold State.checkPaths
  repeat' (first
    | with_reducible exact Kept.rfl _
    | with_reducible assumption
    | with_reducible apply State.pathGone_kept
    | with_reducible apply State.raise_kept
    | with_reducible apply Kept.fold
    | with_reducible apply Kept.ite
    | intro _)

theorem State.checkSideband_kept {s0 : State} (s : State) (lost : List Bool) (hk : Kept s0 s) :
    Kept s0 (State.checkSideband s lost) := by
  unfold State.checkSideband
  repeat' (first
    | with_reducible exact Kept.rfl _
    | with_reducible assumption
    | with_reducible apply State.copyGone_kept
    | with_reducible apply Kept.fold
    | with_reducible apply Kept.ite
    | intro _)

theorem State.alignTimebase_kept {s0 : State} (s : State) (clear : Bool) (hk : Kept s0 s) :
    Kept s0 (State.alignTimebase s clear) := by
  unfold State.alignTimebase
  repeat' (first
    | with_reducible exact Kept.rfl _
    | with_reducible assumption
    | with_reducible apply Kept.ite
    | intro _
    | extract_lets
    | ((fail_if_success with_reducible apply Kept.eta); first | with_reducible apply Kept.upd))

theorem State.meshStart_kept {s0 : State} (s : State) (env : StartEnv) (hk : Kept s0 s) :
    Kept s0 (State.meshStart s env) := by
  unfold State.meshStart
  repeat' (first
    | with_reducible exact Kept.rfl _
    | with_reducible assumption
    | with_reducible apply State.findings_kept
    | with_reducible apply State.setFld_kept
    | with_reducible apply State.event_kept
    | with_reducible apply State.addDefect_kept
    | with_reducible apply Kept.fold
    | intro _)

theorem State.clockStep_kept {s0 : State} (s : State) (env : StartEnv) (clear : Bool) (hk : Kept s0 s) :
    Kept s0 (State.clockStep s env clear).1 := by
  unfold State.clockStep
  repeat' (first
    | with_reducible exact Kept.rfl _
    | with_reducible assumption
    | with_reducible apply State.alignTimebase_kept
    | with_reducible apply State.setFld_kept
    | with_reducible apply State.checkPaths_kept
    | with_reducible apply State.checkSideband_kept
    | with_reducible apply State.meshStart_kept
    | with_reducible apply Kept.iteFst
    | with_reducible apply Kept.foldFst
    | with_reducible apply Kept.ite)

theorem State.clockStep_kept_eq {s0 t' : State} {x' : Bool} (s : State) (env : StartEnv) (clear : Bool) (eqn : State.clockStep s env clear = (t', x')) (hk : Kept s0 s) : Kept s0 t' := by
  have k := State.clockStep_kept (s0 := s0) s env clear hk
  rw [eqn] at k
  exact k

theorem State.listSlice_kept {s0 : State} (s : State) (x cause : Nat) (hk : Kept s0 s) :
    Kept s0 (State.listSlice s x cause) := by
  unfold State.listSlice
  repeat' (first
    | with_reducible exact Kept.rfl _
    | with_reducible assumption
    | with_reducible apply State.addDefect_kept
    | with_reducible apply Kept.ite)

theorem State.showVif_kept {s0 : State} (s : State) (i : Nat) (hk : Kept s0 s) :
    Kept s0 (State.showVif s i) := by
  unfold State.showVif
  repeat' (first
    | with_reducible exact Kept.rfl _
    | with_reducible assumption
    | with_reducible apply State.showSpares_kept
    | with_reducible apply State.setFld_kept)

theorem State.vifStart_kept {s0 : State} (s : State) (env : StartEnv) (hk : Kept s0 s) :
    Kept s0 (State.vifStart s env) := by
  unfold State.vifStart
  repeat' (first
    | with_reducible exact Kept.rfl _
    | with_reducible assumption
    | with_reducible apply State.findings_kept
    | with_reducible apply State.showVif_kept
    | with_reducible apply State.raise_kept
    | with_reducible apply State.eventReg_kept
    | with_reducible apply State.listSlice_kept
    | with_reducible apply Kept.fold
    | with_reducible apply Kept.ite
    | intro _
    | extract_lets
    | ((fail_if_success with_reducible apply Kept.eta); first | with_reducible apply Kept.upd))

theorem State.senseStart_kept {s0 : State} (s : State) (env : StartEnv) (hk : Kept s0 s) :
    Kept s0 (State.senseStart s env) := by
  unfold State.senseStart
  repeat' (first
    | with_reducible exact Kept.rfl _
    | with_reducible assumption
    | with_reducible apply State.findings_kept
    | with_reducible apply State.setFld_kept
    | with_reducible apply Kept.fold
    | intro _
    | extract_lets
    | ((fail_if_success with_reducible apply Kept.eta); first | with_reducible apply Kept.upd))

theorem State.rowStart_kept {s0 : State} (s : State) (env : StartEnv) (hk : Kept s0 s) :
    Kept s0 (State.rowStart s env) := by
  unfold State.rowStart
  repeat' (first
    | with_reducible exact Kept.rfl _
    | with_reducible assumption
    | with_reducible apply State.findings_kept
    | with_reducible apply State.setFld_kept
    | with_reducible apply State.listSlice_kept
    | with_reducible apply Kept.fold
    | intro _
    | extract_lets
    | ((fail_if_success with_reducible apply Kept.eta); first | with_reducible apply Kept.upd | with_reducible apply Kept.updU))

theorem State.startSlice_kept {s0 : State} (s : State) (x : Nat) (hk : Kept s0 s) :
    Kept s0 (State.startSlice s x) := by
  unfold State.startSlice
  repeat' (first
    | with_reducible exact Kept.rfl _
    | with_reducible assumption
    | with_reducible apply State.setFld_kept
    | with_reducible apply State.setBuckets_kept
    | with_reducible apply State.putBit_kept)

theorem State.defaultBuckets_kept {s0 : State} (s : State) (hk : Kept s0 s) :
    Kept s0 (State.defaultBuckets s) := by
  unfold State.defaultBuckets
  repeat' (first
    | with_reducible exact Kept.rfl _
    | with_reducible assumption
    | with_reducible apply State.setBkt_kept
    | with_reducible apply Kept.fold
    | intro _)

theorem State.moveRetired_kept {s0 : State} (s : State) (hk : Kept s0 s) :
    Kept s0 (State.moveRetired s) := by
  unfold State.moveRetired
  repeat' (first
    | with_reducible exact Kept.rfl _
    | with_reducible assumption
    | with_reducible apply State.moveBucket_kept
    | with_reducible apply Kept.fold
    | intro _)

theorem State.mapStart_kept {s0 : State} (s : State) (env : StartEnv) (hk : Kept s0 s) :
    Kept s0 (State.mapStart s env) := by
  unfold State.mapStart
  repeat' (first
    | with_reducible exact Kept.rfl _
    | with_reducible assumption
    | with_reducible apply State.findings_kept
    | with_reducible apply State.putBit_kept
    | with_reducible apply State.startSlice_kept
    | with_reducible apply State.defaultBuckets_kept
    | with_reducible apply State.moveRetired_kept
    | with_reducible apply State.setFld_kept
    | with_reducible apply Kept.fold
    | intro _
    | extract_lets
    | ((fail_if_success with_reducible apply Kept.eta); first | with_reducible apply Kept.upd | with_reducible apply Kept.updU))

theorem State.dropImage_kept {s0 : State} (s : State) (hk : Kept s0 s) :
    Kept s0 (State.dropImage s) := by
  unfold State.dropImage
  exact ⟨hk.1, hk.2, hk.3, hk.4, hk.5, fun c => canon_filter (s := s) _ (hk.6 c) (Eq.refl _) (canon_mem (s := s) (hk.6 c))⟩

theorem State.checkRegions_kept {s0 : State} (s : State) (hk : Kept s0 s) :
    Kept s0 (State.checkRegions s) := by
  unfold State.checkRegions
  repeat' (first
    | with_reducible exact Kept.rfl _
    | with_reducible assumption
    | with_reducible apply State.setBankResult_kept
    | with_reducible apply State.dropImage_kept
    | with_reducible apply State.takeBank_kept
    | with_reducible apply State.markRecovery_kept
    | with_reducible apply Kept.ite
    | intro _
    | extract_lets
    | split)

theorem State.memories_kept {s0 : State} (s : State) (env : StartEnv) (hk : Kept s0 s) :
    Kept s0 (State.memories s env) := by
  unfold State.memories
  repeat' (first
    | with_reducible exact Kept.rfl _
    | with_reducible assumption
    | with_reducible apply State.setFld_kept
    | with_reducible apply State.vifStart_kept
    | with_reducible apply State.senseStart_kept
    | with_reducible apply State.rowStart_kept
    | with_reducible apply State.mapStart_kept
    | with_reducible apply State.checkSlices_kept
    | with_reducible apply State.checkRegions_kept
    | with_reducible apply State.pinRecompute_kept
    | with_reducible apply Kept.ite)

theorem State.bridgeStart_kept {s0 : State} (s : State) (env : StartEnv) (hk : Kept s0 s) :
    Kept s0 (State.bridgeStart s env) := by
  unfold State.bridgeStart
  repeat' (first
    | with_reducible exact Kept.rfl _
    | with_reducible assumption
    | with_reducible apply State.findings_kept
    | with_reducible apply State.setFld_kept
    | with_reducible apply State.steerAway_kept
    | with_reducible apply State.failDevice_kept
    | with_reducible apply Kept.fold
    | with_reducible apply Kept.ite
    | intro _
    | ((fail_if_success with_reducible apply Kept.eta); first | with_reducible apply Kept.upd))

theorem State.pcieStart_kept {s0 : State} (s : State) (ok : Bool) (hk : Kept s0 s) :
    Kept s0 (State.pcieStart s ok) := by
  unfold State.pcieStart
  repeat' (first
    | with_reducible exact Kept.rfl _
    | with_reducible assumption
    | with_reducible apply State.event_kept
    | with_reducible apply Kept.ite
    | intro _
    | extract_lets
    | ((fail_if_success with_reducible apply Kept.eta); first | with_reducible apply Kept.upd | with_reducible apply Kept.updH))

theorem State.portStart_kept {s0 : State} (s : State) (partners : List (Nat × Nat)) (x : Nat) (hk : Kept s0 s) :
    Kept s0 (State.portStart s partners x) := by
  unfold State.portStart
  repeat' (first
    | with_reducible exact Kept.rfl _
    | with_reducible assumption
    | with_reducible apply State.setPort_kept
    | with_reducible apply State.setFld_kept
    | with_reducible apply State.raise_kept
    | with_reducible apply Kept.ite
    | intro _
    | extract_lets
    | split)

theorem State.portsStart_kept {s0 : State} (s : State) (env : StartEnv) (hk : Kept s0 s) :
    Kept s0 (State.portsStart s env) := by
  unfold State.portsStart
  repeat' (first
    | with_reducible exact Kept.rfl _
    | with_reducible assumption
    | with_reducible apply State.findings_kept
    | with_reducible apply State.portStart_kept
    | with_reducible apply Kept.fold
    | intro _)

theorem State.links_kept {s0 : State} (s : State) (env : StartEnv) (hk : Kept s0 s) :
    Kept s0 (State.links s env) := by
  unfold State.links
  repeat' (first
    | with_reducible exact Kept.rfl _
    | with_reducible assumption
    | with_reducible apply State.setFld_kept
    | with_reducible apply State.pcieStart_kept
    | with_reducible apply State.bridgeStart_kept
    | with_reducible apply State.portsStart_kept
    | with_reducible apply Kept.ite)

theorem State.judge_kept {s0 : State} (s : State) (c : Nat) (hk : Kept s0 s) :
    Kept s0 (State.judge s c) := by
  unfold State.judge
  repeat' (first
    | with_reducible exact Kept.rfl _
    | with_reducible assumption
    | with_reducible apply State.event_kept
    | with_reducible apply State.addDefect_kept
    | with_reducible apply Kept.ite
    | intro _
    | extract_lets
    | split)

theorem State.testClusters_kept {s0 : State} (finds : List Finding) (y0 : Nat) (s : State) (y2 : List Nat) (hk : Kept s0 s) :
    Kept s0 (State.testClusters finds y0 s y2) := by
  induction y0 generalizing s y2 with
  | zero =>
    unfold State.testClusters
    exact hk
  | succ n ih =>
    unfold State.testClusters
    extract_lets new s1
    clear_value new
    split
    · exact hk
    · apply ih
      apply Kept.fold
      · exact State.findings_kept _ _ _ hk
      · exact fun s c => State.judge_kept _ _ (Kept.rfl s)

theorem State.phaseStart_kept {s0 : State} (s : State) (finds : List Finding) (hk : Kept s0 s) :
    Kept s0 (State.phaseStart s finds) := by
  unfold State.phaseStart
  repeat' (first
    | with_reducible exact Kept.rfl _
    | with_reducible assumption
    | with_reducible apply State.findings_kept
    | with_reducible apply State.event_kept
    | with_reducible apply State.addDefect_kept
    | with_reducible apply Kept.fold
    | with_reducible apply Kept.ite
    | intro _)

theorem State.mapTiles_kept {s0 : State} (s : State) (c : Nat) (hk : Kept s0 s) :
    Kept s0 (State.mapTiles s c) := by
  unfold State.mapTiles
  repeat' (first
    | with_reducible exact Kept.rfl _
    | with_reducible assumption
    | with_reducible apply State.setLmap_kept
    | with_reducible apply State.setFld_kept
    | with_reducible apply Kept.fold
    | with_reducible apply Kept.getD
    | intro _)

theorem State.regionParts_kept {s0 : State} (s : State) (r : Nat) (hk : Kept s0 s) :
    Kept s0 (State.regionParts s r) := by
  unfold State.regionParts
  repeat' (first
    | with_reducible exact Kept.rfl _
    | with_reducible assumption
    | with_reducible apply State.setFld_kept)

theorem State.regionStart_kept {s0 : State} (s : State) (r : Nat) (hk : Kept s0 s) :
    Kept s0 (State.regionStart s r) := by
  unfold State.regionStart
  repeat' (first
    | with_reducible exact Kept.rfl _
    | with_reducible assumption
    | with_reducible apply State.regionParts_kept
    | with_reducible apply State.setFld_kept
    | with_reducible apply Kept.ite)

theorem State.clusterStart_kept {s0 : State} (s : State) (c : Nat) (hk : Kept s0 s) :
    Kept s0 (State.clusterStart s c) := by
  unfold State.clusterStart
  repeat' (first
    | with_reducible exact Kept.rfl _
    | with_reducible assumption
    | with_reducible apply State.mapTiles_kept
    | with_reducible apply State.setCluster_kept)

theorem State.reserveStart_kept {s0 : State} (s : State) (p : Nat) (g : PartCfg) (hk : Kept s0 s) :
    Kept s0 (State.reserveStart s p g) := by
  unfold State.reserveStart
  repeat' (first
    | with_reducible exact Kept.rfl _
    | with_reducible assumption
    | with_reducible apply Kept.ite
    | intro _
    | extract_lets
    | split
    | ((with_reducible conv => arg 2; whnf); split)
    | ((fail_if_success with_reducible apply Kept.eta); first | with_reducible apply Kept.upd))

theorem State.loadPart_kept {s0 : State} (s : State) (g : PartCfg) (hk : Kept s0 s) :
    Kept s0 (State.loadPart s g) := by
  unfold State.loadPart
  repeat' (first
    | with_reducible exact Kept.rfl _
    | with_reducible assumption
    | with_reducible apply State.setCluster_kept
    | with_reducible apply Kept.fold
    | intro _
    | extract_lets
    | split)

theorem State.showPart_kept {s0 : State} (s : State) (p : Nat) (g : PartCfg) (hk : Kept s0 s) :
    Kept s0 (State.showPart s p g) := by
  unfold State.showPart
  repeat' (first
    | with_reducible exact Kept.rfl _
    | with_reducible assumption
    | with_reducible apply State.setFld_kept
    | with_reducible apply Kept.fold
    | intro _)

theorem State.partStart_kept {s0 : State} (s : State) (g : PartCfg) (hk : Kept s0 s) :
    Kept s0 (State.partStart s g) := by
  unfold State.partStart
  repeat' (first
    | with_reducible exact Kept.rfl _
    | with_reducible assumption
    | with_reducible apply State.showPart_kept
    | with_reducible apply State.reserveStart_kept
    | with_reducible apply State.installPart_kept
    | with_reducible apply State.loadPart_kept
    | with_reducible apply State.eventReg_kept
    | with_reducible apply Kept.fold
    | with_reducible apply Kept.ite
    | intro _
    | extract_lets
    | ((fail_if_success with_reducible apply Kept.eta); first | with_reducible apply Kept.upd))

theorem State.compute_kept {s0 : State} (s : State) (env : StartEnv) (hk : Kept s0 s) :
    Kept s0 (State.compute s env) := by
  unfold State.compute
  repeat' (first
    | with_reducible exact Kept.rfl _
    | with_reducible assumption
    | with_reducible apply State.setFld_kept
    | with_reducible apply State.phaseStart_kept
    | with_reducible apply State.testClusters_kept
    | with_reducible apply State.failDevice_kept
    | with_reducible apply State.clusterStart_kept
    | with_reducible apply State.partStart_kept
    | with_reducible apply State.regionStart_kept
    | with_reducible apply State.clearLedger_kept
    | with_reducible apply State.checkDegraded_kept
    | with_reducible apply State.refillPins_kept
    | with_reducible apply State.syncBelt_kept
    | with_reducible apply Kept.fold
    | with_reducible apply Kept.ite
    | intro _)

theorem State.repairJournal_kept {s0 : State} (s : State) (hk : Kept s0 s) :
    Kept s0 (State.repairJournal s) := by
  unfold State.repairJournal
  repeat' (first
    | with_reducible exact Kept.rfl _
    | with_reducible assumption
    | with_reducible apply State.pushOp_kept
    | with_reducible apply State.startCompaction_kept
    | with_reducible apply Kept.ite)

theorem State.endStart_kept {s0 : State} (s : State) (hk : Kept s0 s) :
    Kept s0 (State.endStart s) := by
  unfold State.endStart
  repeat' (first
    | with_reducible exact Kept.rfl _
    | with_reducible assumption
    | intro _
    | extract_lets
    | ((fail_if_success with_reducible apply Kept.eta); first | with_reducible apply Kept.upd))

theorem State.showStart_kept {s0 : State} (s : State) (totalMs : Nat) (hk : Kept s0 s) :
    Kept s0 (State.showStart s totalMs) := by
  unfold State.showStart
  repeat' (first
    | with_reducible exact Kept.rfl _
    | with_reducible assumption
    | with_reducible apply State.setFld_kept)

theorem State.becomeReady_kept {s0 : State} (s : State) (totalMs : Nat) (hk : Kept s0 s) :
    Kept s0 (State.becomeReady s totalMs) := by
  unfold State.becomeReady
  repeat' (first
    | with_reducible exact Kept.rfl _
    | with_reducible assumption
    | with_reducible apply State.setFld_kept
    | with_reducible apply State.showStart_kept
    | with_reducible apply State.setDstate_kept
    | with_reducible apply State.endStart_kept
    | with_reducible apply State.repairJournal_kept
    | with_reducible apply State.syncAllowed_kept)

theorem State.attemptFail_kept {s0 : State} (s : State) (step : Nat) (hk : Kept s0 s) :
    Kept s0 (State.attemptFail s step) := by
  unfold State.attemptFail
  repeat' (first
    | with_reducible exact Kept.rfl _
    | with_reducible assumption
    | with_reducible apply State.event_kept
    | with_reducible apply State.setFld_kept
    | with_reducible apply State.failDevice_kept
    | with_reducible apply State.endStart_kept
    | with_reducible apply Kept.ite
    | intro _
    | extract_lets
    | ((fail_if_success with_reducible apply Kept.eta); first | with_reducible apply Kept.upd))

theorem State.finishStart_kept {s0 : State} (s : State) (env : StartEnv) (hk : Kept s0 s) :
    Kept s0 (State.finishStart s env) := by
  unfold State.finishStart
  repeat' (first
    | with_reducible exact Kept.rfl _
    | with_reducible assumption
    | with_reducible apply State.memories_kept
    | with_reducible apply State.endStart_kept
    | with_reducible apply State.links_kept
    | with_reducible apply State.showStart_kept
    | with_reducible apply State.setDstate_kept
    | with_reducible apply State.compute_kept
    | with_reducible apply State.becomeReady_kept
    | with_reducible apply Kept.ite)

theorem State.waitRun_kept {s0 : State} (s : State) (r : StartRun) (hk : Kept s0 s) :
    Kept s0 (State.waitRun s r) := by
  unfold State.waitRun
  repeat' (first
    | with_reducible exact Kept.rfl _
    | with_reducible assumption
    | intro _
    | extract_lets
    | ((fail_if_success with_reducible apply Kept.eta); first | with_reducible apply Kept.upd))

theorem State.fromClock_kept {s0 : State} (s : State) (env : StartEnv) (clear : Bool) (hk : Kept s0 s) :
    Kept s0 (State.fromClock s env clear) := by
  unfold State.fromClock
  repeat' (first
    | with_reducible exact Kept.rfl _
    | with_reducible assumption
    | with_reducible apply State.clockStep_kept
    | (with_reducible apply State.clockStep_kept_eq; assumption)
    | with_reducible apply State.finishStart_kept
    | with_reducible apply State.attemptFail_kept
    | intro _
    | extract_lets
    | split)

theorem State.fromVin_kept {s0 : State} (s : State) (env : StartEnv) (hk : Kept s0 s) :
    Kept s0 (State.fromVin s env) := by
  unfold State.fromVin
  repeat' (first
    | with_reducible exact Kept.rfl _
    | with_reducible assumption
    | with_reducible apply State.railsUp_kept
    | with_reducible apply State.brass_kept
    | with_reducible apply State.endStart_kept
    | with_reducible apply State.fromClock_kept
    | with_reducible apply State.setFld_kept
    | with_reducible apply State.waitRun_kept
    | with_reducible apply Kept.ite)

theorem State.runStart_shed {s0 : State} (s : State) (env : StartEnv) (hk : Shed s0 s) :
    Shed s0 (State.runStart s env) := by
  unfold State.runStart
  repeat' (first
    | with_reducible exact Shed.rfl _
    | with_reducible assumption
    | with_reducible apply State.beginCold_shed
    | (with_reducible apply Shed.step; with_reducible apply State.fromVin_kept; with_reducible exact Kept.rfl _)
    | with_reducible apply State.fromVin_kept
    | (with_reducible apply Shed.step; with_reducible apply State.waitRun_kept; with_reducible exact Kept.rfl _)
    | with_reducible apply State.waitRun_kept
    | with_reducible apply Shed.ite)

theorem State.dropRails_shed {s0 : State} (s : State) (hk : Shed s0 s) :
    Shed s0 (State.dropRails s) := by
  unfold State.dropRails
  repeat' (first
    | with_reducible exact Shed.rfl _
    | with_reducible assumption
    | with_reducible apply State.dropHost_shed
    | (with_reducible apply Shed.step; with_reducible apply State.portsDown_kept; with_reducible exact Kept.rfl _)
    | with_reducible apply State.portsDown_kept
    | (with_reducible apply Shed.step; with_reducible apply State.stackLost_kept; with_reducible exact Kept.rfl _)
    | with_reducible apply State.stackLost_kept
    | (with_reducible apply Shed.step; with_reducible apply State.resetHost_kept; with_reducible exact Kept.rfl _)
    | with_reducible apply State.resetHost_kept
    | with_reducible apply State.stopFlash_shed)

theorem State.askStart_kept {s0 : State} (s : State) (hk : Kept s0 s) :
    Kept s0 (State.askStart s) := by
  unfold State.askStart
  repeat' (first
    | with_reducible exact Kept.rfl _
    | with_reducible assumption
    | intro _
    | extract_lets
    | ((fail_if_success with_reducible apply Kept.eta); first | with_reducible apply Kept.upd))

theorem State.powerOff_shed {s0 : State} (s : State) (hk : Shed s0 s) :
    Shed s0 (State.powerOff s) := by
  unfold State.powerOff
  extract_lets z
  refine ⟨hk.1, hk.2, hk.3, fun r m => (nomatch m), hk.5, fun c => ?_⟩
  have k := hk.6 c
  refine canon_filter _ k (Eq.refl _) ?_
  simp only [State.canon, State.memWf, State.regsWf, Bool.and_eq_true] at k ⊢
  exact ⟨⟨⟨by decide, by decide⟩, k.1.1.2⟩, Eq.refl _⟩

theorem execVauxRise_kept (s : State) {t' : State} (eqn : execVauxRise s = .next t') :
    Kept s t' := by
  unfold execVauxRise at eqn
  injection eqn with eqn
  subst eqn
  repeat' (first
    | with_reducible exact Kept.rfl _
    | with_reducible assumption
    | with_reducible apply State.askStart_kept
    | with_reducible apply Kept.ite
    | intro _
    | extract_lets
    | ((fail_if_success with_reducible apply Kept.eta); first | with_reducible apply Kept.upd))

theorem execVauxFall_shed (s : State) {t' : State} (eqn : execVauxFall s = .next t') :
    Shed s t' := by
  unfold execVauxFall at eqn
  injection eqn with eqn
  subst eqn
  repeat' (first
    | with_reducible exact Shed.rfl _
    | with_reducible assumption
    | with_reducible apply State.powerOff_shed
    | with_reducible apply Shed.ite)

theorem execVinIbLow_shed (s : State) {t' : State} (eqn : execVinIbLow s = .next t') :
    Shed s t' := by
  unfold execVinIbLow at eqn
  injection eqn with eqn
  subst eqn
  repeat' (first
    | with_reducible exact Shed.rfl _
    | with_reducible assumption
    | with_reducible apply State.dropRails_shed
    | (with_reducible apply Shed.step; with_reducible apply State.setDstate_kept; with_reducible exact Kept.rfl _)
    | with_reducible apply State.setDstate_kept
    | (with_reducible apply Shed.step; with_reducible apply State.askStart_kept; with_reducible exact Kept.rfl _)
    | with_reducible apply State.askStart_kept
    | with_reducible apply Shed.ite
    | intro _
    | extract_lets
    | ((fail_if_success with_reducible apply Shed.eta); first | with_reducible apply Shed.upd))

theorem execVinIbInRange_kept (s : State) {t' : State} (eqn : execVinIbInRange s = .next t') :
    Kept s t' := by
  unfold execVinIbInRange at eqn
  injection eqn with eqn
  subst eqn
  repeat' (first
    | with_reducible exact Kept.rfl _
    | with_reducible assumption
    | with_reducible apply State.waitRun_kept
    | with_reducible apply State.fromVin_kept
    | intro _
    | extract_lets
    | split
    | ((with_reducible conv => arg 2; whnf); split)
    | ((fail_if_success with_reducible apply Kept.eta); first | with_reducible apply Kept.upd))

theorem execDeviceResetAssert_shed (s : State) {t' : State} (eqn : execDeviceResetAssert s = .next t') :
    Shed s t' := by
  unfold execDeviceResetAssert at eqn
  injection eqn with eqn
  subst eqn
  repeat' (first
    | with_reducible exact Shed.rfl _
    | with_reducible assumption
    | (with_reducible apply Shed.step; with_reducible apply State.syncLands_kept; with_reducible exact Kept.rfl _)
    | with_reducible apply State.syncLands_kept
    | with_reducible apply State.dropRails_shed
    | (with_reducible apply Shed.step; with_reducible apply State.waitRun_kept; with_reducible exact Kept.rfl _)
    | with_reducible apply State.waitRun_kept
    | (with_reducible apply Shed.step; with_reducible apply State.setFld_kept; with_reducible exact Kept.rfl _)
    | with_reducible apply State.setFld_kept
    | (with_reducible apply Shed.step; with_reducible apply State.updFault_kept; with_reducible exact Kept.rfl _)
    | with_reducible apply State.updFault_kept
    | (with_reducible apply Shed.step; with_reducible apply State.setDstate_kept; with_reducible exact Kept.rfl _)
    | with_reducible apply State.setDstate_kept
    | with_reducible apply Shed.ite
    | intro _
    | extract_lets
    | ((fail_if_success with_reducible apply Shed.eta); first | with_reducible apply Shed.upd))

theorem execDeviceResetRelease_kept (s : State) {t' : State} (eqn : execDeviceResetRelease s = .next t') :
    Kept s t' := by
  unfold execDeviceResetRelease at eqn
  injection eqn with eqn
  subst eqn
  repeat' (first
    | with_reducible exact Kept.rfl _
    | with_reducible assumption
    | with_reducible apply State.askStart_kept
    | with_reducible apply State.updFault_kept
    | with_reducible apply Kept.ite
    | intro _
    | extract_lets
    | ((fail_if_success with_reducible apply Kept.eta); first | with_reducible apply Kept.upd))

theorem execRefclkLost_kept (s : State) {t' : State} (eqn : execRefclkLost s = .next t') :
    Kept s t' := by
  unfold execRefclkLost at eqn
  injection eqn with eqn
  subst eqn
  repeat' (first
    | with_reducible exact Kept.rfl _
    | with_reducible assumption
    | with_reducible apply State.event_kept
    | with_reducible apply State.portsDown_kept
    | with_reducible apply State.updFault_kept
    | with_reducible apply State.setDstate_kept
    | with_reducible apply Kept.ite
    | intro _
    | extract_lets
    | ((fail_if_success with_reducible apply Kept.eta); first | with_reducible apply Kept.upd))

theorem State.clockBack_kept {s0 : State} (s : State) (hk : Kept s0 s) :
    Kept s0 (State.clockBack s) := by
  unfold State.clockBack
  repeat' (first
    | with_reducible exact Kept.rfl _
    | with_reducible assumption
    | with_reducible apply State.waitRun_kept
    | with_reducible apply State.fromClock_kept
    | intro _
    | extract_lets
    | split
    | ((with_reducible conv => arg 2; whnf); split)
    | ((fail_if_success with_reducible apply Kept.eta); first | with_reducible apply Kept.upd))

theorem execRefclkReturn_kept (s : State) {t' : State} (eqn : execRefclkReturn s = .next t') :
    Kept s t' := by
  unfold execRefclkReturn at eqn
  injection eqn with eqn
  subst eqn
  repeat' (first
    | with_reducible exact Kept.rfl _
    | with_reducible assumption
    | with_reducible apply State.clockBack_kept
    | with_reducible apply State.askStart_kept
    | with_reducible apply Kept.ite
    | intro _
    | extract_lets
    | split)

theorem execRefclkPresent_kept (s : State) {t' : State} (eqn : execRefclkPresent s = .next t') :
    Kept s t' := by
  unfold execRefclkPresent at eqn
  injection eqn with eqn
  subst eqn
  repeat' (first
    | with_reducible exact Kept.rfl _
    | with_reducible assumption
    | with_reducible apply State.clockBack_kept
    | with_reducible apply Kept.ite)

theorem execRoleStrapChange_kept (v : BitVec 2) (s : State) {t' : State} (eqn : execRoleStrapChange v s = .next t') :
    Kept s t' := by
  unfold execRoleStrapChange at eqn
  injection eqn with eqn
  subst eqn
  repeat' (first
    | with_reducible exact Kept.rfl _
    | with_reducible assumption
    | intro _
    | extract_lets
    | ((fail_if_success with_reducible apply Kept.eta); first | with_reducible apply Kept.upd))

theorem execColdStart_shed (env : StartEnv) (s : State) {t' : State} (eqn : execColdStart env s = .next t') :
    Shed s t' := by
  unfold execColdStart at eqn
  injection eqn with eqn
  subst eqn
  repeat' (first
    | with_reducible exact Shed.rfl _
    | with_reducible assumption
    | with_reducible apply State.runStart_shed
    | with_reducible apply Shed.ite)

theorem execStartStepTimeout_shed (step : Nat) (s : State) {t' : State} (eqn : execStartStepTimeout step s = .next t') :
    Shed s t' := by
  unfold execStartStepTimeout at eqn
  injection eqn with eqn
  subst eqn
  repeat' (first
    | with_reducible exact Shed.rfl _
    | with_reducible assumption
    | with_reducible apply State.beginCold_shed
    | (with_reducible apply Shed.step; with_reducible apply State.attemptFail_kept; with_reducible exact Kept.rfl _)
    | with_reducible apply State.attemptFail_kept
    | with_reducible apply Shed.ite)

theorem State.clearTiles_kept {s0 : State} (s : State) (c : Nat) (hk : Kept s0 s) :
    Kept s0 (State.clearTiles s c) := by
  unfold State.clearTiles
  repeat' (first
    | with_reducible exact Kept.rfl _
    | with_reducible assumption
    | (with_reducible refine Kept.group ?_ (by assumption))
    | (with_reducible refine Tile.launch_wf (by assumption) ?_)
    | with_reducible apply Kept.tile
    | ((fail_if_success with_reducible apply Group.wf_eta); with_reducible apply Group.wf_upd)
    | ((fail_if_success with_reducible apply Tile.wf_eta); with_reducible apply Tile.wf_upd)
    | with_reducible exact fun _ => emptyTile_wf
    | with_reducible apply State.setTile_kept
    | with_reducible apply State.syncOcc_kept
    | with_reducible apply Kept.fold
    | intro _)

theorem State.regionIdle_kept {s0 : State} (s : State) (c : Nat) (hk : Kept s0 s) :
    Kept s0 (State.regionIdle s c) := by
  unfold State.regionIdle
  repeat' (first
    | with_reducible exact Kept.rfl _
    | with_reducible assumption
    | with_reducible apply State.modCluster_kept
    | with_reducible apply State.setLevel_kept
    | with_reducible apply State.setRegion_kept
    | with_reducible apply Kept.ite)

theorem State.resetCluster_kept {s0 : State} (s : State) (c cause : Nat) (hk : Kept s0 s) :
    Kept s0 (State.resetCluster s c cause) := by
  unfold State.resetCluster
  repeat' (first
    | with_reducible exact Kept.rfl _
    | with_reducible assumption
    | with_reducible apply State.incFld_kept
    | with_reducible apply State.abortFor_kept
    | with_reducible apply State.dropTaken_kept
    | with_reducible apply State.haltCluster_kept
    | with_reducible apply State.clearTiles_kept
    | with_reducible apply State.modCluster_kept
    | with_reducible apply State.regionIdle_kept
    | with_reducible apply State.requestWake_kept
    | with_reducible apply State.event_kept
    | with_reducible apply State.kickAll_kept
    | with_reducible apply Kept.ite)

theorem execClusterReset_kept (c : Nat) (s : State) {t' : State} (eqn : execClusterReset c s = .next t') :
    Kept s t' := by
  unfold execClusterReset at eqn
  injection eqn with eqn
  subst eqn
  repeat' (first
    | with_reducible exact Kept.rfl _
    | with_reducible assumption
    | with_reducible apply State.resetCluster_kept
    | with_reducible apply Kept.ite
    | intro _
    | extract_lets
    | split
    | ((with_reducible conv => arg 2; whnf); split)
    | ((fail_if_success with_reducible apply Kept.eta); first | with_reducible apply Kept.upd))

theorem State.warmChange_kept {s0 : State} (s : State) (hk : Kept s0 s) :
    Kept s0 (State.warmChange s) := by
  unfold State.warmChange
  repeat' (first
    | with_reducible exact Kept.rfl _
    | with_reducible assumption
    | with_reducible apply State.abortChange_kept
    | with_reducible apply State.restoreCluster_kept
    | with_reducible apply State.endChange_kept
    | with_reducible apply Kept.fold
    | intro _
    | extract_lets
    | split)

theorem State.warmCommands_shed {s0 : State} (s : State) (hk : Shed s0 s) :
    Shed s0 (State.warmCommands s) := by
  unfold State.warmCommands
  repeat' (first
    | with_reducible exact Shed.rfl _
    | with_reducible assumption
    | (with_reducible apply Shed.step; with_reducible apply State.failTrain_kept; with_reducible exact Kept.rfl _)
    | with_reducible apply State.failTrain_kept
    | (with_reducible apply Shed.step; with_reducible apply State.warmChange_kept; with_reducible exact Kept.rfl _)
    | with_reducible apply State.warmChange_kept
    | with_reducible apply State.nvmAbort_shed
    | (with_reducible apply Shed.step; with_reducible apply State.completeAll_kept; with_reducible exact Kept.rfl _)
    | with_reducible apply State.completeAll_kept
    | (with_reducible apply Shed.step; with_reducible apply Kept.fold; with_reducible exact Kept.rfl _)
    | with_reducible exact Kept.rfl _
    | with_reducible apply Kept.fold
    | intro _)

theorem State.warmBelt_kept {s0 : State} (s : State) (hk : Kept s0 s) :
    Kept s0 (State.warmBelt s) := by
  unfold State.warmBelt
  repeat' (first
    | with_reducible exact Kept.rfl _
    | with_reducible assumption
    | with_reducible apply State.syncBelt_kept
    | intro _
    | extract_lets
    | split
    | ((with_reducible conv => arg 2; whnf); split)
    | ((fail_if_success with_reducible apply Kept.eta); first | with_reducible apply Kept.upd | with_reducible apply Kept.updH))

theorem State.managerOut_kept {s0 : State} (s : State) (hk : Kept s0 s) :
    Kept s0 (State.managerOut s) := by
  unfold State.managerOut
  repeat' (first
    | with_reducible exact Kept.rfl _
    | with_reducible assumption
    | with_reducible apply State.stopRing_kept
    | with_reducible apply State.portsDown_kept
    | with_reducible apply State.setFld_kept
    | with_reducible apply State.syncStore_kept
    | intro _
    | extract_lets
    | ((fail_if_success with_reducible apply Kept.eta); first | with_reducible apply Kept.upd))

theorem State.warmStages_kept {s0 : State} (s : State) (hk : Kept s0 s) :
    Kept s0 (State.warmStages s) := by
  unfold State.warmStages
  repeat' (first
    | with_reducible exact Kept.rfl _
    | with_reducible assumption
    | with_reducible apply State.clearTiles_kept
    | with_reducible apply State.modCluster_kept
    | with_reducible apply Kept.fold
    | with_reducible apply Kept.ite
    | intro _
    | extract_lets
    | ((fail_if_success with_reducible apply Kept.eta); first | with_reducible apply Kept.upd))

theorem State.warmUl_kept {s0 : State} (s : State) (hk : Kept s0 s) :
    Kept s0 (State.warmUl s) := by
  unfold State.warmUl
  repeat' (first
    | with_reducible exact Kept.rfl _
    | with_reducible assumption
    | with_reducible apply State.ulOff_kept
    | with_reducible apply State.endRetire_kept
    | with_reducible apply State.pinRecompute_kept
    | with_reducible apply State.journalRetirements_kept
    | with_reducible apply Kept.fold
    | with_reducible apply Kept.ite
    | intro _
    | extract_lets
    | ((fail_if_success with_reducible apply Kept.eta); first | with_reducible apply Kept.upd | with_reducible apply Kept.updU))

theorem State.portsByRole_kept {s0 : State} (s : State) (hk : Kept s0 s) :
    Kept s0 (State.portsByRole s) := by
  unfold State.portsByRole
  repeat' (first
    | with_reducible exact Kept.rfl _
    | with_reducible assumption
    | with_reducible apply State.setPort_kept
    | with_reducible apply State.setFld_kept
    | with_reducible apply Kept.fold
    | with_reducible apply Kept.ite
    | intro _)

theorem State.warmRole_kept {s0 : State} (s : State) (hk : Kept s0 s) :
    Kept s0 (State.warmRole s) := by
  unfold State.warmRole
  repeat' (first
    | with_reducible exact Kept.rfl _
    | with_reducible assumption
    | with_reducible apply State.raise_kept
    | with_reducible apply State.event_kept
    | with_reducible apply State.setRole_kept
    | with_reducible apply State.portsByRole_kept
    | with_reducible apply Kept.ite
    | intro _
    | extract_lets
    | ((fail_if_success with_reducible apply Kept.eta); first | with_reducible apply Kept.upd))

theorem State.warmClock_kept {s0 : State} (s : State) (env : StartEnv) (hk : Kept s0 s) :
    Kept s0 (State.warmClock s env) := by
  unfold State.warmClock
  repeat' (first
    | with_reducible exact Kept.rfl _
    | with_reducible assumption
    | with_reducible apply State.checkPaths_kept
    | with_reducible apply State.deviceScope_kept
    | with_reducible apply Kept.ite
    | intro _
    | extract_lets
    | ((fail_if_success with_reducible apply Kept.eta); first | with_reducible apply Kept.upd))

theorem State.warmTiles_kept {s0 : State} (s : State) (finds : List Finding) (hk : Kept s0 s) :
    Kept s0 (State.warmTiles s finds) := by
  unfold State.warmTiles
  repeat' (first
    | with_reducible exact Kept.rfl _
    | with_reducible assumption
    | with_reducible apply State.findings_kept
    | with_reducible apply State.setFld_kept
    | with_reducible apply State.mapTiles_kept
    | with_reducible apply State.retireCluster_kept
    | with_reducible apply Kept.fold
    | with_reducible apply Kept.ite
    | intro _)

theorem State.warmRegions_kept {s0 : State} (s : State) (hk : Kept s0 s) :
    Kept s0 (State.warmRegions s) := by
  unfold State.warmRegions
  repeat' (first
    | with_reducible exact Kept.rfl _
    | with_reducible assumption
    | with_reducible apply State.setFld_kept
    | with_reducible apply State.raiseRegions_kept
    | with_reducible apply State.syncDstate_kept
    | with_reducible apply State.requestWake_kept
    | with_reducible apply Kept.fold
    | with_reducible apply Kept.ite
    | intro _
    | extract_lets
    | ((fail_if_success with_reducible apply Kept.eta); first | with_reducible apply Kept.upd))

theorem State.warmBegin_shed {s0 : State} (s : State) (hk : Shed s0 s) :
    Shed s0 (State.warmBegin s) := by
  unfold State.warmBegin
  repeat' (first
    | with_reducible exact Shed.rfl _
    | with_reducible assumption
    | (with_reducible apply Shed.step; with_reducible apply State.setDstate_kept; with_reducible exact Kept.rfl _)
    | with_reducible apply State.setDstate_kept
    | (with_reducible apply Shed.step; with_reducible apply State.incFld_kept; with_reducible exact Kept.rfl _)
    | with_reducible apply State.incFld_kept
    | (with_reducible apply Shed.step; with_reducible apply State.raise_kept; with_reducible exact Kept.rfl _)
    | with_reducible apply State.raise_kept
    | with_reducible apply State.warmCommands_shed
    | (with_reducible apply Shed.step; with_reducible apply State.clearTx_kept; with_reducible exact Kept.rfl _)
    | with_reducible apply State.clearTx_kept
    | (with_reducible apply Shed.step; with_reducible apply State.warmBelt_kept; with_reducible exact Kept.rfl _)
    | with_reducible apply State.warmBelt_kept
    | (with_reducible apply Shed.step; with_reducible apply State.managerOut_kept; with_reducible exact Kept.rfl _)
    | with_reducible apply State.managerOut_kept
    | with_reducible apply Shed.ite
    | intro _
    | extract_lets
    | ((fail_if_success with_reducible apply Shed.eta); first | with_reducible apply Shed.upd))

theorem State.warmBody_kept {s0 : State} (s : State) (env : StartEnv) (hk : Kept s0 s) :
    Kept s0 (State.warmBody s env) := by
  unfold State.warmBody
  repeat' (first
    | with_reducible exact Kept.rfl _
    | with_reducible assumption
    | with_reducible apply State.warmStages_kept
    | with_reducible apply State.warmUl_kept
    | with_reducible apply State.warmClock_kept
    | with_reducible apply State.warmRole_kept
    | with_reducible apply State.warmTiles_kept
    | with_reducible apply State.warmRegions_kept
    | with_reducible apply State.refillPins_kept
    | with_reducible apply State.clearLedger_kept
    | intro _
    | extract_lets
    | ((fail_if_success with_reducible apply Kept.eta); first | with_reducible apply Kept.upd))

theorem State.warmEnd_kept {s0 : State} (s : State) (cause totalMs : Nat) (hk : Kept s0 s) :
    Kept s0 (State.warmEnd s cause totalMs) := by
  unfold State.warmEnd
  repeat' (first
    | with_reducible exact Kept.rfl _
    | with_reducible assumption
    | with_reducible apply State.setFld_kept
    | with_reducible apply State.setDstate_kept
    | with_reducible apply State.event_kept
    | with_reducible apply State.journalBoot_kept
    | with_reducible apply State.sendAbandon_kept
    | with_reducible apply State.syncBelt_kept
    | with_reducible apply State.syncAllowed_kept
    | with_reducible apply Kept.ite)

theorem State.warmReady_shed {s0 : State} (s : State) (cause : Nat) (env : WarmEnv) (hk : Shed s0 s) :
    Shed s0 (State.warmReady s cause env) := by
  unfold State.warmReady
  repeat' (first
    | with_reducible exact Shed.rfl _
    | with_reducible assumption
    | with_reducible apply State.warmBegin_shed
    | (with_reducible apply Shed.step; with_reducible apply State.warmBody_kept; with_reducible exact Kept.rfl _)
    | with_reducible apply State.warmBody_kept
    | (with_reducible apply Shed.step; with_reducible apply State.event_kept; with_reducible exact Kept.rfl _)
    | with_reducible apply State.event_kept
    | (with_reducible apply Shed.step; with_reducible apply State.deviceScope_kept; with_reducible exact Kept.rfl _)
    | with_reducible apply State.deviceScope_kept
    | (with_reducible apply Shed.step; with_reducible apply State.warmEnd_kept; with_reducible exact Kept.rfl _)
    | with_reducible apply State.warmEnd_kept
    | with_reducible apply Shed.ite
    | intro _
    | extract_lets
    | split)

theorem State.warmRecovery_shed {s0 : State} (s : State) (env : StartEnv) (hk : Shed s0 s) :
    Shed s0 (State.warmRecovery s env) := by
  unfold State.warmRecovery
  repeat' (first
    | with_reducible exact Shed.rfl _
    | with_reducible assumption
    | (with_reducible apply Shed.step; with_reducible apply State.setDstate_kept; with_reducible exact Kept.rfl _)
    | with_reducible apply State.setDstate_kept
    | (with_reducible apply Shed.step; with_reducible apply State.incFld_kept; with_reducible exact Kept.rfl _)
    | with_reducible apply State.incFld_kept
    | (with_reducible apply Shed.step; with_reducible apply State.raise_kept; with_reducible exact Kept.rfl _)
    | with_reducible apply State.raise_kept
    | with_reducible apply State.warmCommands_shed
    | (with_reducible apply Shed.step; with_reducible apply State.setFld_kept; with_reducible exact Kept.rfl _)
    | with_reducible apply State.setFld_kept
    | (with_reducible apply Shed.step; with_reducible apply State.setRole_kept; with_reducible exact Kept.rfl _)
    | with_reducible apply State.setRole_kept
    | (with_reducible apply Shed.step; with_reducible apply State.takeLicence_kept; with_reducible exact Kept.rfl _)
    | with_reducible apply State.takeLicence_kept
    | (with_reducible apply Shed.step; with_reducible apply State.configure_kept; with_reducible exact Kept.rfl _)
    | with_reducible apply State.configure_kept
    | (with_reducible apply Shed.step; with_reducible apply State.journalBoot_kept; with_reducible exact Kept.rfl _)
    | with_reducible apply State.journalBoot_kept
    | (with_reducible apply Shed.step; with_reducible apply State.showStart_kept; with_reducible exact Kept.rfl _)
    | with_reducible apply State.showStart_kept
    | (with_reducible apply Shed.step; with_reducible apply State.fromClock_kept; with_reducible exact Kept.rfl _)
    | with_reducible apply State.fromClock_kept
    | with_reducible apply Shed.ite
    | intro _
    | extract_lets
    | ((fail_if_success with_reducible apply Shed.eta); first | with_reducible apply Shed.upd))

theorem execWarmDeviceReset_shed (env : WarmEnv) (s : State) {t' : State} (eqn : execWarmDeviceReset env s = .next t') :
    Shed s t' := by
  unfold execWarmDeviceReset at eqn
  injection eqn with eqn
  subst eqn
  repeat' (first
    | with_reducible exact Shed.rfl _
    | with_reducible assumption
    | with_reducible apply State.warmReady_shed
    | with_reducible apply State.warmRecovery_shed
    | with_reducible apply Shed.ite
    | intro _
    | extract_lets
    | split)

theorem State.writeResetCtl_kept {s0 : State} (s : State) (v : W32) (hk : Kept s0 s) :
    Kept s0 (State.writeResetCtl s v) := by
  unfold State.writeResetCtl
  repeat' (first
    | with_reducible exact Kept.rfl _
    | with_reducible assumption
    | with_reducible apply State.raise_kept
    | with_reducible apply State.askClusterResets_kept
    | with_reducible apply Kept.ite
    | intro _
    | extract_lets
    | ((fail_if_success with_reducible apply Kept.eta); first | with_reducible apply Kept.upd))

theorem execWarmResetRequest_kept (v : W32) (s : State) {t' : State} (eqn : execWarmResetRequest v s = .next t') :
    Kept s t' := by
  unfold execWarmResetRequest at eqn
  injection eqn with eqn
  subst eqn
  repeat' (first
    | with_reducible exact Kept.rfl _
    | with_reducible assumption
    | with_reducible apply State.writeResetCtl_kept
    | with_reducible apply Kept.ite)

theorem execClusterResetRequest_kept (v : W32) (s : State) {t' : State} (eqn : execClusterResetRequest v s = .next t') :
    Kept s t' := by
  unfold execClusterResetRequest at eqn
  injection eqn with eqn
  subst eqn
  repeat' (first
    | with_reducible exact Kept.rfl _
    | with_reducible assumption
    | with_reducible apply State.writeResetCtl_kept
    | with_reducible apply Kept.ite)

theorem State.hostRead32_kept {s0 : State} (s : State) (off : Nat) (hk : Kept s0 s) :
    Kept s0 (State.hostRead32 s off) := by
  unfold State.hostRead32
  repeat' (first
    | with_reducible exact Kept.rfl _
    | with_reducible assumption
    | with_reducible apply State.readReg_kept
    | (with_reducible apply State.readReg_kept_eq; assumption)
    | intro _
    | extract_lets
    | ((fail_if_success with_reducible apply Kept.eta); first | with_reducible apply Kept.upd | with_reducible apply Kept.updH))

theorem execPairLoRead_kept (off : Nat) (s : State) {t' : State} (eqn : execPairLoRead off s = .next t') :
    Kept s t' := by
  unfold execPairLoRead at eqn
  injection eqn with eqn
  subst eqn
  repeat' (first
    | with_reducible exact Kept.rfl _
    | with_reducible assumption
    | with_reducible apply State.hostRead32_kept
    | with_reducible apply Kept.ite
    | intro _
    | extract_lets)

theorem State.writePairHi_kept {s0 : State} (s : State) (off : Nat) (v : W32) (hk : Kept s0 s) :
    Kept s0 (State.writePairHi s off v) := by
  unfold State.writePairHi
  repeat' (first
    | with_reducible exact Kept.rfl _
    | with_reducible assumption
    | with_reducible apply State.writeSwapArea_kept
    | with_reducible apply State.commitPair_kept
    | with_reducible apply State.reject_kept
    | with_reducible apply Kept.ite
    | intro _
    | extract_lets
    | ((fail_if_success with_reducible apply Kept.eta); first | with_reducible apply Kept.upd))

theorem execPairHiWrite_kept (off : Nat) (v : W32) (s : State) {t' : State} (eqn : execPairHiWrite off v s = .next t') :
    Kept s t' := by
  unfold execPairHiWrite at eqn
  injection eqn with eqn
  subst eqn
  repeat' (first
    | with_reducible exact Kept.rfl _
    | with_reducible assumption
    | with_reducible apply State.writePairHi_kept
    | with_reducible apply Kept.ite)

theorem State.msiRelease_kept {s0 : State} (s : State) (v : Nat) (hk : Kept s0 s) :
    Kept s0 (State.msiRelease s v) := by
  unfold State.msiRelease
  repeat' (first
    | with_reducible exact Kept.rfl _
    | with_reducible assumption
    | with_reducible apply State.setFld_kept
    | with_reducible apply State.msi_kept
    | with_reducible apply Kept.ite
    | intro _
    | extract_lets)

theorem State.afterWrite_kept {s0 : State} (s : State) (off : Nat) (hk : Kept s0 s) :
    Kept s0 (State.afterWrite s off) := by
  unfold State.afterWrite
  repeat' (first
    | with_reducible exact Kept.rfl _
    | with_reducible assumption
    | with_reducible apply State.syncAllowed_kept
    | with_reducible apply State.updFault_kept
    | with_reducible apply State.syncAlert_kept
    | with_reducible apply State.msiRelease_kept
    | with_reducible apply Kept.ite)

theorem State.writeQueueReg_kept {s0 : State} (s : State) (off : Nat) (v : W32) {t' : State} (eqn : State.writeQueueReg s off v = some t') (hk : Kept s0 s) :
    Kept s0 t' := by
  unfold State.writeQueueReg at eqn
  repeat' (first
    | (injection eqn with eqn; subst eqn)
    | (injection eqn with eqn; injection eqn with eqm eqn; subst eqn)
    | (exact absurd eqn (fun e => by injection e))
    | split at eqn
    | dsimp only at eqn)
  all_goals
    repeat' (first
      | with_reducible exact Kept.rfl _
      | with_reducible assumption
      | with_reducible apply State.writeSqCfg_kept
      | with_reducible apply State.writeCqCfg_kept)

theorem State.writeOwnReg_kept {s0 : State} (s : State) (off : Nat) (v : W32) {t' : State} (eqn : State.writeOwnReg s off v = some t') (hk : Kept s0 s) :
    Kept s0 t' := by
  unfold State.writeOwnReg at eqn
  repeat' (first
    | (injection eqn with eqn; subst eqn)
    | (injection eqn with eqn; injection eqn with eqm eqn; subst eqn)
    | (exact absurd eqn (fun e => by injection e))
    | split at eqn
    | dsimp only at eqn)
  all_goals
    repeat' (first
      | with_reducible exact Kept.rfl _
      | with_reducible assumption
      | with_reducible apply State.writeSwapArea_kept
      | with_reducible apply State.writeSeqSel_kept
      | with_reducible apply State.writeResetCtl_kept
      | with_reducible apply State.hostWrite_kept
      | with_reducible apply State.clearMin_kept
      | with_reducible apply State.clearTx_kept
      | with_reducible apply State.startLeave_kept
      | with_reducible apply State.beltDone_kept
      | with_reducible apply State.writeGrt_kept
      | with_reducible apply State.writeRglClass_kept
      | (with_reducible apply State.writeQueueReg_kept; assumption))

theorem State.writeReg_kept {s0 : State} (s : State) (off : Nat) (v : W32) (hk : Kept s0 s) :
    Kept s0 (State.writeReg s off v) := by
  unfold State.writeReg
  repeat' (first
    | with_reducible exact Kept.rfl _
    | with_reducible assumption
    | with_reducible apply State.writeSwapArea_kept
    | with_reducible apply State.writePairHi_kept
    | (with_reducible apply State.writeOwnReg_kept; assumption)
    | with_reducible apply State.hostWrite_kept
    | with_reducible apply State.afterWrite_kept
    | with_reducible apply Kept.ite
    | intro _
    | extract_lets
    | split
    | ((with_reducible conv => arg 2; whnf); split)
    | ((fail_if_success with_reducible apply Kept.eta); first | with_reducible apply Kept.upd))

theorem execRegisterWrite_kept (off : Nat) (v : W32) (s : State) {t' : State} (eqn : execRegisterWrite off v s = .next t') :
    Kept s t' := by
  unfold execRegisterWrite at eqn
  injection eqn with eqn
  subst eqn
  repeat' (first
    | with_reducible exact Kept.rfl _
    | with_reducible assumption
    | with_reducible apply State.writeReg_kept
    | with_reducible apply Kept.ite)

theorem State.taken_kept {s0 : State} (s : State) (rx : Rx) (f : Frame) (hk : Kept s0 s) :
    Kept s0 (State.taken s rx f) := by
  unfold State.taken
  repeat' (first
    | with_reducible exact Kept.rfl _
    | with_reducible assumption
    | with_reducible apply State.clearTx_kept
    | with_reducible apply State.rxCheck_kept
    | (with_reducible apply State.rxCheck_kept_eq; assumption)
    | with_reducible apply State.noteAudit_kept
    | intro _
    | extract_lets)

end Sys2Proof.Machine
end

