-- ==== Sys2Proof/Laws/FlashContent.lean ====
section
/-! SUPPORT. The flash holds verified content only: the operations of NVM_WRITE, which alone change it. -/

namespace Sys2Proof.Machine

/-- What every command keeps: the queue, the canonical form, and verified content on the flash. -/
structure Good (s t : State) : Prop where
  pending : t.pending = s.pending
  flash : s.flashGood → t.flashGood
  canon : s.canon = true → t.canon = true

theorem Shed.good {s t : State} (h : Shed s t) : Good s t :=
  ⟨h.5, fun g => ⟨h.1 ▸ g.1, h.2 ▸ g.2.1, h.3 ▸ g.2.2.1, fun r m => g.2.2.2 r (h.4 r m)⟩, h.6⟩

theorem Kept.good {s t : State} (h : Kept s t) : Good s t := h.shed.good

theorem Good.rfl (s : State) : Good s s := (Kept.rfl s).good

theorem Good.trans {s t u : State} (h : Good s t) (k : Good t u) : Good s u :=
  ⟨k.1.trans h.1, fun g => k.2 (h.2 g), fun c => k.3 (h.3 c)⟩

theorem Good.step {s t u : State} (k : Kept t u) (h : Good s t) : Good s u := h.trans k.good

theorem tornBank_good : bankGood (some tornBank) := fun _ h => .inl (Option.some.inj h).symm

theorem licencesGood_nil : licencesGood [] := ⟨Nat.zero_le _, fun _ m => (nomatch m)⟩

theorem State.setBank_good (s : State) (k : Nat) (b : Option Image) (h : s.flashGood → bankGood b) :
    Good s (s.setBank k b) := by
  unfold State.setBank
  by_cases hk : k = 0
  · rw [if_pos hk]
    exact ⟨Eq.refl _, fun g => ⟨h g, g.2.1, g.2.2.1, g.2.2.2⟩, id⟩
  · rw [if_neg hk]
    exact ⟨Eq.refl _, fun g => ⟨g.1, h g, g.2.2.1, g.2.2.2⟩, id⟩

theorem licences_good (s : State) (l : List LicenceRec) (h : s.flashGood → licencesGood l) :
    Good s { s with flash := { s.flash with licences := l } } :=
  ⟨Eq.refl _, fun g => ⟨g.1, g.2.1, h g, g.2.2.2⟩, id⟩

theorem State.clearTarget_good (s : State) (r : NvmRun) : Good s (s.clearTarget r) := by
  unfold State.clearTarget
  cases r.content with
  | image i =>
    have h : Good s ((s.setBank r.target (some tornBank)).setBankResult r.target BR.WRITING) :=
      (State.setBank_good _ _ _ (fun _ => tornBank_good)).trans (State.setBankResult_kept _ _ _ (Kept.rfl _)).good
    dsimp only
    generalize (s.setBank r.target (some tornBank)).setBankResult r.target BR.WRITING = s1 at *
    split
    · exact h.trans (State.setReloadBank_kept _ _ _ (Kept.rfl _)).good
    · exact h
  | licences l => exact licences_good _ _ (fun _ => licencesGood_nil)

theorem State.nvmBegin_good (s : State) (r : NvmRun) : Good s (s.nvmBegin r) :=
  ((State.setFld_kept _ _ _ (Kept.rfl s)).good.trans (State.clearTarget_good _ r)).trans
    (State.pushOp_kept _ _ _ (Kept.rfl _)).good

theorem State.nvmEnd_good (s : State) (r : NvmRun) (st : Nat) : Good s (s.nvmEnd r st) := by
  unfold State.nvmEnd
  extract_lets src s1 s2 s3
  have h1 : Good s s1 :=
    ⟨Eq.refl _, fun g => ⟨g.1, g.2.1, g.2.2.1, fun x m => g.2.2.2 x (List.mem_of_mem_drop m)⟩, id⟩
  have h2 : Good s1 s2 := by
    clear_value s1
    exact (Kept.ite (State.raise_kept _ _ (Kept.rfl s1)) (State.raise_kept _ _ (Kept.rfl s1))).good
  have h3 : Good s2 s3 := by
    clear_value s2
    simp only [s3]
    with_reducible apply Good.step
    · with_reducible apply State.jrnConfig_kept
      with_reducible exact Kept.rfl _
    · with_reducible apply Good.step
      · with_reducible apply State.complete_kept
        with_reducible exact Kept.rfl _
      · exact Good.rfl _
  have h := (h1.trans h2).trans h3
  clear_value s3
  refine h.trans ?_
  split
  · exact (State.setFld_kept _ _ _ (Kept.rfl _)).good
  · exact State.nvmBegin_good _ _

theorem State.fillTarget_good (s : State) (r : NvmRun) (h : s.flashGood → r.good) : Good s (s.fillTarget r) := by
  unfold NvmRun.good at h
  unfold State.fillTarget
  cases hc : r.content with
  | licences l =>
    rw [hc] at h
    exact licences_good _ _ h
  | image i =>
    rw [hc] at h
    have hb : s.flashGood → bankGood (some i) := fun g j e => .inr (Option.some.inj e ▸ h g)
    have h1 : Good s ((s.setBank r.target (some i)).setBankResult r.target BR.VERIFIED) :=
      (State.setBank_good _ _ _ hb).trans (State.setBankResult_kept _ _ _ (Kept.rfl _)).good
    dsimp only
    generalize (s.setBank r.target (some i)).setBankResult r.target BR.VERIFIED = s2 at *
    refine h1.trans ?_
    split
    · exact Good.rfl _
    · split
      · exact (State.setFld_kept _ _ _ (State.setReloadBank_kept _ _ _ (Kept.rfl _))).good
      · exact (State.raise_kept _ _ (Kept.rfl _)).good

theorem State.nvmDone_good (s : State) (r : NvmRun) (h : s.flashGood → r.good) : Good s (s.nvmDone r) :=
  (State.fillTarget_good s r h).trans (State.nvmEnd_good _ _ _)

theorem State.opLost_good (s : State) (o : FlashOp) : Good s (s.opLost o) := by
  unfold State.opLost
  have h0 : Good s (s.dropOp o).flashFail := (State.flashFail_kept _ (State.dropOp_kept _ _ (Kept.rfl s))).good
  generalize (s.dropOp o).flashFail = s1 at *
  refine h0.trans ?_
  dsimp only
  split
  · exact Good.rfl _
  · exact (State.compactFail_kept _ (Kept.rfl _)).good
  · exact (State.eraseEnds_kept _ (Kept.rfl _)).good
  · split
    · exact (State.nvmTorn_kept _ _ (Kept.rfl _)).good.trans (State.nvmEnd_good _ _ _)
    · exact Good.rfl _

theorem State.opDone_good (s : State) (o : FlashOp) : Good s (s.opDone o) := by
  unfold State.opDone
  split
  · exact (State.dropOp_kept _ _ (Kept.rfl s)).good
  · exact (State.swapOp_kept _ _ _ (Kept.rfl s)).good
  · exact (State.swapOp_kept _ _ _ (Kept.rfl s)).good
  · have h0 : Kept s (s.dropOp o) := State.dropOp_kept _ _ (Kept.rfl s)
    generalize s.dropOp o = s1 at *
    dsimp only
    split
    · rename_i r l hr
      exact h0.good.trans (State.nvmDone_good _ r (fun g => g.2.2.2 r (hr ▸ List.mem_cons_self ..)))
    · exact h0.good
  · exact (State.eraseEnds_kept _ (State.setSeg_kept _ _ _ (State.dropOp_kept _ _ (Kept.rfl s)))).good
  · split
    · exact (State.compactDone_kept _ _ _ (Kept.rfl _)).good
    · exact (State.dropOp_kept _ _ (Kept.rfl s)).good

theorem State.opFails_good (s : State) (o : FlashOp) : Good s (s.opFails o) := by
  unfold State.opFails
  split
  · exact State.opLost_good _ _
  · split
    · exact (State.dropOp_kept _ _ (Kept.rfl s)).good
    · exact (State.swapOp_kept _ _ _ (Kept.rfl s)).good
    · exact (State.swapOp_kept _ _ _ (Kept.rfl s)).good

/-! ## The two commands -/

/-- Where NVM_WRITE is not refused, its content was verified. -/
theorem verdict_nvm {s : State} {c : Cmd} {content : NvmContent} (h : ∀ st code, s.verdict c (nvmCheck content) ≠ .refuse st code) :
    s.nvmContentOk (c.f 2 1 0) content = true := by
  by_cases k : s.nvmContentOk (c.f 2 1 0) content = true
  · exact k
  · exfalso
    have hk : ∃ st code, nvmCheck content s c = .refuse st code := by
      unfold nvmCheck
      dsimp only
      split
      · exact ⟨_, _, rfl⟩
      · exact ⟨_, _, rfl⟩
    obtain ⟨st, code, hk⟩ := hk
    revert h
    unfold State.verdict
    rw [hk]
    dsimp only
    intro h
    split at h
    · exact h _ _ rfl
    · split at h
      · exact h _ _ rfl
      · split at h
        · exact h _ _ rfl
        · split at h
          · exact h _ _ rfl
          · exact h _ _ rfl

theorem nvmContentOk_good {s : State} {sq cid t : Nat} {content : NvmContent} (h : s.nvmContentOk t content = true) :
    (⟨sq, cid, t, content⟩ : NvmRun).good := by
  unfold State.nvmContentOk at h
  unfold NvmRun.good
  cases content with
  | image i =>
    simp only [Bool.and_eq_true, decide_eq_true_eq] at h
    exact ⟨_, _, _, _, h.2⟩
  | licences l =>
    simp only [Bool.and_eq_true, decide_eq_true_eq, List.all_eq_true] at h
    exact ⟨h.1.2, h.2⟩

theorem execNvmWrite_good (sq cid : Nat) (content : NvmContent) (s : State) {t : State}
    (e : execNvmWrite sq cid content s = .next t) : Good s t := by
  unfold execNvmWrite at e
  injection e with e
  subst e
  split
  · exact Good.rfl _
  · rename_i c hc
    split
    · exact (State.raise_kept _ _ (State.refuse_kept _ _ _ _ (Kept.rfl _))).good
    · rename_i hv
      have ok := verdict_nvm hv
      unfold State.accept
      rw [hc]
      dsimp only
      split
      · exact (State.refuse_kept _ _ _ _ (Kept.rfl _)).good
      · exact (State.deferCmd_kept _ _ _ _ (Kept.rfl _)).good
      · have h0 : Kept s (s.started c (noRows c)) := State.started_kept _ _ _ (Kept.rfl _)
        generalize s.started c (noRows c) = s1 at *
        have h1 : Good s1 { s1 with flash := { s1.flash with nvm := s1.flash.nvm ++ [⟨c.sq, c.cid, c.f 2 1 0, content⟩] } } :=
          ⟨rfl, fun g => ⟨g.1, g.2.1, g.2.2.1, fun r m => by
            rcases List.mem_append.1 m with m | m
            · exact g.2.2.2 r m
            · rw [List.mem_singleton.1 m]
              exact nvmContentOk_good ok⟩, id⟩
        split
        · exact h0.good.trans (h1.trans (State.nvmBegin_good _ _))
        · exact h0.good.trans h1

theorem execFlashOperationComplete_good (ok : Bool) (s : State) {t : State}
    (e : execFlashOperationComplete ok s = .next t) : Good s t := by
  unfold execFlashOperationComplete at e
  injection e with e
  subst e
  split
  · exact Good.rfl _
  · split
    · exact State.opDone_good _ _
    · exact State.opFails_good _ _

end Sys2Proof.Machine
end

