-- ==== Sys2Proof/Laws/Frames.lean ====
section
/-! SUPPORT. A received frame: what its checks answer, and what becomes of it; tiles, groups and bytes of a canonical state. -/

namespace Sys2Proof.Machine

/-- What the checks of a FRAME slot answer, on a port that is up and on the ring's path: by the SD word first, then by the
frame's own check. -/
theorem State.rxCheck_verdict {s : State} {rx : Rx} (h1 : s.portUp rx.port = true) (h2 : s.onPath rx.port = true) (f : Frame) :
    (s.clearTx.rxCheck rx 0 f).2 = if rxIs rx 0 = true then
      (match rxFrame rx f with
        | .good => .take
        | .inverted => .stomped
        | .bad => .bad) else .bad := by
  have p1 : s.clearTx.portUp rx.port = true := h1
  have p2 : s.clearTx.onPath rx.port = true := h2
  unfold State.rxCheck
  simp only [p1, p2, Bool.and_self, Bool.not_true, Bool.false_eq_true, ↓reduceIte]
  cases h : rxIs rx 0
  · rfl
  · simp only [Bool.not_true, Bool.false_eq_true, ↓reduceIte]
    cases rxFrame rx f <;> rfl

/-- Four ways on from a pair, by its second part. -/
theorem verdict_split (r : State × RxVerdict) (a b c d : State → State) :
    (match r with
      | (s, .take) => a s
      | (s, .stomped) => b s
      | (s, .bad) => c s
      | (s, .dropped) => d s) =
      match r.2 with
      | .take => a r.1
      | .stomped => b r.1
      | .bad => c r.1
      | .dropped => d r.1 := by
  obtain ⟨t, u⟩ := r
  cases u <;> rfl

/-- What becomes of a slot, by the answer of its checks. -/
theorem State.receive_of (s : State) (rx : Rx) (f : Frame) (act : State → Frame → State) :
    s.receive rx f act =
      match (s.clearTx.rxCheck rx 0 f).2 with
      | .take => act (s.taken rx f) f
      | .stomped => (s.clearTx.rxCheck rx 0 f).1.forwardStomped rx.port f
      | .bad => (s.clearTx.rxCheck rx 0 f).1.badAct rx.port f
      | .dropped => (s.clearTx.rxCheck rx 0 f).1 :=
  verdict_split (s.clearTx.rxCheck rx 0 f) (fun t => act (t.noteAudit rx.port f) f) (fun t => t.forwardStomped rx.port f)
    (fun t => t.badAct rx.port f) (fun t => t)

/-- An intact frame is acted on. -/
theorem State.receive_takes {s : State} {rx : Rx} {f : Frame} (h : s.Takes rx f) (act : State → Frame → State) :
    s.receive rx f act = act (s.taken rx f) f := by
  have v := State.rxCheck_verdict h.1 h.2.1 f
  rw [if_pos h.2.2.1, h.2.2.2] at v
  rw [State.receive_of, v]

/-- A slot on a port that is not up, or not on the ring's path, is dropped. -/
theorem State.receive_down {s : State} {rx : Rx} (h : (s.portUp rx.port && s.onPath rx.port) = false) (f : Frame)
    (act : State → Frame → State) : s.receive rx f act = s.clearTx := by
  have hp : (s.clearTx.portUp rx.port && s.clearTx.onPath rx.port) = false := h
  unfold State.receive State.receiveAs State.rxCheck
  simp only [hp, Bool.not_false, ↓reduceIte]

/-- A frame stomped upstream is sent on stomped. -/
theorem State.receive_stomped {s : State} {rx : Rx} {f : Frame} (h1 : s.portUp rx.port = true) (h2 : s.onPath rx.port = true)
    (h3 : rxIs rx 0 = true) (h4 : rxFrame rx f = .inverted) (act : State → Frame → State) :
    s.receive rx f act = (s.clearTx.rxCheck rx 0 f).1.forwardStomped rx.port f := by
  have v := State.rxCheck_verdict h1 h2 f
  rw [if_pos h3, h4] at v
  rw [State.receive_of, v]

/-- A slot that fails a check here is handled as R306 says. -/
theorem State.receive_bad {s : State} {rx : Rx} {f : Frame} (h1 : s.portUp rx.port = true) (h2 : s.onPath rx.port = true)
    (h3 : rxIs rx 0 = false ∨ rxFrame rx f = .bad) (act : State → Frame → State) :
    s.receive rx f act = (s.clearTx.rxCheck rx 0 f).1.badAct rx.port f := by
  have v := State.rxCheck_verdict h1 h2 f
  rcases h3 with h3 | h3
  · rw [if_neg (by rw [h3]; exact Bool.false_ne_true)] at v
    rw [State.receive_of, v]
  · rw [h3, ite_self] at v
    rw [State.receive_of, v]

/-! ## Tiles and groups of a canonical state -/

theorem State.phys_lt (s : State) (c t p : Nat) (h : s.phys? c t = some p) : p < 16 := by
  unfold State.phys? at h
  split at h
  · injection h with h
    rw [← h]
    unfold State.lmap
    split <;> exact Nat.mod_lt _ (by decide)
  · exact nomatch h

/-- What a named group is: resident on a physical tile below 16, in its slot. -/
theorem State.groupAt_facts {s : State} {g : GroupRef} {p : Nat} {gr : Group} (h : s.groupAt g = some (p, gr)) :
    p < 16 ∧ tabFind (s.tile g.cluster p).groups g.slot = some gr := by
  unfold State.groupAt at h
  split at h
  · exact nomatch h
  · rename_i p' hp
    split at h
    · rename_i gr' hg
      injection h with h
      injection h with h1 h2
      rw [← h1, ← h2]
      exact ⟨State.phys_lt _ _ _ _ hp, hg⟩
    · exact nomatch h

/-- A tile reads as last set; every other tile as before. -/
theorem State.tile_setTile {s : State} (h : s.canon = true) (c p c' p' : Nat) (t : Tile) :
    (s.setTile c p t).tile c' p' = if c' * 16 + p' = c * 16 + p then t else s.tile c' p' := by
  simp only [State.canon, State.memWf, State.tilesWf, Bool.and_eq_true] at h
  unfold State.tile State.setTile
  rw [tabGet_put h.1.2.1]

/-- A vector register reads as last written; every other one as before. -/
theorem Group.vreg_setV (x : Group) (t r i q : Nat) (v : W32) (h : tabWf 0#32 x.vregs = true) (hr : r < 256) (hq : q < 256) :
    (x.setV t r v).vreg i q = if i = t ∧ q = r then v else x.vreg i q := by
  unfold Group.vreg Group.setV
  rw [tabGet_put h]
  by_cases e : i = t ∧ q = r
  · rw [if_pos e, if_pos (by rw [e.1, e.2])]
  · rw [if_neg e, if_neg (by omega)]

/-- Going on at the next instruction touches no register. -/
theorem Group.reconverge_same (n : Nat) (x : Group) : (Group.reconverge n x).vregs = x.vregs ∧ (Group.reconverge n x).sregs = x.sregs ∧
    (Group.reconverge n x).preds = x.preds ∧ (Group.reconverge n x).live = x.live := by
  induction n generalizing x with
  | zero => exact ⟨Eq.refl _, Eq.refl _, Eq.refl _, Eq.refl _⟩
  | succ n ih =>
    unfold Group.reconverge
    split
    · split
      · exact ⟨Eq.refl _, Eq.refl _, Eq.refl _, Eq.refl _⟩
      · split <;> exact ih _
    · exact ⟨Eq.refl _, Eq.refl _, Eq.refl _, Eq.refl _⟩

theorem Group.next_same (x : Group) : x.next.vregs = x.vregs ∧ x.next.sregs = x.sregs ∧ x.next.preds = x.preds ∧ x.next.live = x.live := by
  unfold Group.next Group.fetch
  exact Group.reconverge_same _ _

/-- A byte reads as last written; every other byte as before. -/
theorem get_putBytes {m : Tab Byte} (h : tabWf 0#8 m = true) (a x : Nat) (bs : List Byte) :
    tabGet 0#8 (putBytes m a bs) x = if a ≤ x ∧ x < a + bs.length then bs.getD (x - a) 0#8 else tabGet 0#8 m x := by
  induction bs generalizing m a with
  | nil =>
    rw [if_neg (by simp only [List.length_nil]; omega)]
    rfl
  | cons b bs ih =>
    unfold putBytes
    rw [ih (tabPut_wf _ _ h), tabGet_put h, List.length_cons]
    by_cases e : x = a
    · subst e
      rw [if_neg (by omega), if_pos rfl, if_pos (by omega)]
      simp
    · by_cases c : a + 1 ≤ x ∧ x < a + 1 + bs.length
      · rw [if_pos c, if_pos (by omega)]
        have : x - a = (x - (a + 1)) + 1 := by omega
        rw [this, List.getD_cons_succ]
      · rw [if_neg c, if_neg e, if_neg (by omega)]

theorem leBytes_len (n v : Nat) : (leBytes n v).length = n := by simp [leBytes]

end Sys2Proof.Machine
end

