-- ==== Sys2Proof/Laws/State.lean ====
section
/-! SUPPORT. The register file: what a field reads after a write of it, of another, and that writes of registers leave the rest
of the state. The frame lemmas are stated by `congrArg`, so that a proof that uses many of them stays small in the kernel. -/

namespace Sys2Proof.Machine

/-! ## Fields -/

/-- The part of a word below, in and above a field. -/
theorem word_split (w lo k : Nat) : w = w / 2 ^ (lo + k) * 2 ^ (lo + k) + (w >>> lo) % 2 ^ k * 2 ^ lo + w % 2 ^ lo := by
  rw [Nat.shiftRight_eq_div_pow, Nat.pow_add]
  have h1 := Nat.div_add_mod w (2 ^ lo)
  have h2 := Nat.div_add_mod (w / 2 ^ lo) (2 ^ k)
  rw [Nat.div_div_eq_div_mul] at h2
  generalize w / (2 ^ lo * 2 ^ k) = x at *
  generalize w / 2 ^ lo % 2 ^ k = y at *
  rw [← h2] at h1
  have e : x * (2 ^ lo * 2 ^ k) = 2 ^ lo * (2 ^ k * x) := by rw [Nat.mul_comm x, Nat.mul_assoc]
  rw [Nat.mul_add] at h1
  rw [e, Nat.mul_comm y]
  exact h1.symm

/-- A field of a word that was put together reads back, and so does whatever lies below or above it. -/
theorem put_parts {x y z lo k : Nat} (hy : y < 2 ^ k) (hz : z < 2 ^ lo) :
    ((x * 2 ^ (lo + k) + y * 2 ^ lo + z) >>> lo) % 2 ^ k = y ∧ (x * 2 ^ (lo + k) + y * 2 ^ lo + z) % 2 ^ lo = z ∧
      (x * 2 ^ (lo + k) + y * 2 ^ lo + z) / 2 ^ (lo + k) = x := by
  have e : x * 2 ^ (lo + k) + y * 2 ^ lo + z = 2 ^ lo * (2 ^ k * x + y) + z := by
    rw [Nat.pow_add, Nat.mul_add, Nat.mul_comm x, Nat.mul_assoc, Nat.mul_comm y]
  have h1 : (2 ^ lo * (2 ^ k * x + y) + z) / 2 ^ lo = 2 ^ k * x + y := by
    rw [Nat.mul_add_div (Nat.two_pow_pos lo), Nat.div_eq_of_lt hz, Nat.add_zero]
  refine ⟨?_, ?_, ?_⟩
  · rw [e, Nat.shiftRight_eq_div_pow, h1, Nat.mul_add_mod, Nat.mod_eq_of_lt hy]
  · rw [e, Nat.mul_add_mod, Nat.mod_eq_of_lt hz]
  · rw [e, Nat.pow_add, ← Nat.div_div_eq_div_mul, h1, Nat.mul_add_div (Nat.two_pow_pos k), Nat.div_eq_of_lt hy, Nat.add_zero]

/-- A replaced field as the parts of the new word. -/
theorem Fld.put_eq (f : Fld) (w : W32) (v : Nat) (h : f.lo + f.width ≤ 32) :
    (f.put w v).toNat = w.toNat / 2 ^ (f.lo + f.width) * 2 ^ (f.lo + f.width) + (v % 2 ^ f.width) * 2 ^ f.lo + w.toNat % 2 ^ f.lo := by
  have s := word_split w.toNat f.lo f.width
  have hw := w.isLt
  unfold Fld.put
  dsimp only
  generalize w.toNat / 2 ^ (f.lo + f.width) = x at *
  generalize (w.toNat >>> f.lo) % 2 ^ f.width = y at *
  have hv : v % 2 ^ f.width < 2 ^ f.width := Nat.mod_lt _ (Nat.two_pow_pos _)
  have hz : w.toNat % 2 ^ f.lo < 2 ^ f.lo := Nat.mod_lt _ (Nat.two_pow_pos _)
  generalize v % 2 ^ f.width = u at *
  generalize w.toNat % 2 ^ f.lo = z at *
  have hx : x * 2 ^ (f.lo + f.width) < 2 ^ 32 := by omega
  have hx2 : (x + 1) * 2 ^ (f.lo + f.width) ≤ 2 ^ 32 := by
    obtain ⟨d, hd⟩ := Nat.exists_eq_add_of_le h
    rw [hd, Nat.pow_add _ (f.lo + f.width) d] at hx ⊢
    generalize 2 ^ (f.lo + f.width) = y at hx ⊢
    rw [Nat.mul_comm] at hx ⊢
    exact Nat.mul_le_mul_left _ (Nat.lt_of_mul_lt_mul_left hx)
  have hu : u * 2 ^ f.lo + z < 2 ^ (f.lo + f.width) := by
    rw [Nat.pow_add]
    have : (u + 1) * 2 ^ f.lo ≤ 2 ^ f.width * 2 ^ f.lo := Nat.mul_le_mul_right _ hv
    rw [Nat.mul_comm (2 ^ f.lo)]
    rw [Nat.add_mul, Nat.one_mul] at this
    omega
  rw [BitVec.toNat_ofNat, Nat.mod_eq_of_lt]
  · omega
  · rw [Nat.add_mul, Nat.one_mul] at hx2
    omega

/-- A field that was put reads back; every field below or above it reads as before. -/
theorem Fld.get_put (f g : Fld) (w : W32) (v : Nat) (h : f.lo + f.width ≤ 32) :
    ((f.put w v).toNat >>> f.lo) % 2 ^ f.width = v % 2 ^ f.width ∧
      (g.lo + g.width ≤ f.lo ∨ f.lo + f.width ≤ g.lo →
        ((f.put w v).toNat >>> g.lo) % 2 ^ g.width = (w.toNat >>> g.lo) % 2 ^ g.width) := by
  have hv : v % 2 ^ f.width < 2 ^ f.width := Nat.mod_lt _ (Nat.two_pow_pos _)
  have hz : w.toNat % 2 ^ f.lo < 2 ^ f.lo := Nat.mod_lt _ (Nat.two_pow_pos _)
  have p := put_parts (x := w.toNat / 2 ^ (f.lo + f.width)) hv hz
  rw [← Fld.put_eq f w v h] at p
  refine ⟨p.1, fun hg => ?_⟩
  rcases hg with hg | hg
  · obtain ⟨d, hd⟩ := Nat.exists_eq_add_of_le hg
    have low : ∀ a b : Nat, a % 2 ^ f.lo = b % 2 ^ f.lo → (a >>> g.lo) % 2 ^ g.width = (b >>> g.lo) % 2 ^ g.width := by
      intro a b e
      have k : ∀ n : Nat, (n >>> g.lo) % 2 ^ g.width = (n % 2 ^ f.lo / 2 ^ g.lo) % 2 ^ g.width := by
        intro n
        rw [Nat.shiftRight_eq_div_pow, hd, Nat.add_assoc, Nat.pow_add, Nat.mod_mul_right_div_self, Nat.pow_add, Nat.mod_mul_right_mod]
      rw [k a, k b, e]
    exact low _ _ p.2.1
  · obtain ⟨d, hd⟩ := Nat.exists_eq_add_of_le hg
    have up : ∀ a b : Nat, a / 2 ^ (f.lo + f.width) = b / 2 ^ (f.lo + f.width) →
        (a >>> g.lo) % 2 ^ g.width = (b >>> g.lo) % 2 ^ g.width := by
      intro a b e
      rw [Nat.shiftRight_eq_div_pow, Nat.shiftRight_eq_div_pow, hd, Nat.pow_add, ← Nat.div_div_eq_div_mul,
        ← Nat.div_div_eq_div_mul, e]
    exact up _ _ p.2.2

/-- A field reads as last written. -/
theorem State.fld_setFld (s : State) (f : Fld) (v : Nat) (h : s.regsWf = true) (hf : f.lo + f.width ≤ 32) :
    (s.setFld f v).fld f = v % 2 ^ f.width := by
  unfold State.fld State.setFld
  rw [regAt_setReg _ _ _ _ h, if_pos (Eq.refl _)]
  exact (Fld.get_put f f _ _ hf).1

/-- A field of another register, or of other bits, reads as before. -/
theorem State.fld_setFld_of_ne (s : State) (f g : Fld) (v : Nat) (h : s.regsWf = true) (hf : f.lo + f.width ≤ 32)
    (hg : g.off ≠ f.off ∨ g.lo + g.width ≤ f.lo ∨ f.lo + f.width ≤ g.lo) : (s.setFld f v).fld g = s.fld g := by
  unfold State.fld State.setFld
  rw [regAt_setReg _ _ _ _ h]
  split
  · rename_i e
    rw [(Fld.get_put f g _ _ hf).2 (hg.resolve_left (fun k => k e)), e]
  · exact Eq.refl _

theorem State.setFld_regsWf (s : State) (f : Fld) (v : Nat) (h : s.regsWf = true) : (s.setFld f v).regsWf = true :=
  setReg_regsWf s f.off _ h

/-! ## Frames of register writes -/

@[simp] theorem State.setReg_pairCap (s : State) (off : Nat) (v : W32) : (s.setReg off v).pairCap = s.pairCap :=
  (congrArg State.pairCap (Eq.refl (s.setReg off v))).trans (Eq.refl _)

@[simp] theorem State.setReg_pairLo (s : State) (off : Nat) (v : W32) : (s.setReg off v).pairLo = s.pairLo :=
  (congrArg State.pairLo (Eq.refl (s.setReg off v))).trans (Eq.refl _)

@[simp] theorem State.setReg_pins (s : State) (off : Nat) (v : W32) : (s.setReg off v).pins = s.pins :=
  (congrArg State.pins (Eq.refl (s.setReg off v))).trans (Eq.refl _)

@[simp] theorem State.setReg_boot (s : State) (off : Nat) (v : W32) : (s.setReg off v).boot = s.boot :=
  (congrArg State.boot (Eq.refl (s.setReg off v))).trans (Eq.refl _)

@[simp] theorem State.setReg_stack (s : State) (off : Nat) (v : W32) : (s.setReg off v).stack = s.stack :=
  (congrArg State.stack (Eq.refl (s.setReg off v))).trans (Eq.refl _)

@[simp] theorem State.setReg_jrn (s : State) (off : Nat) (v : W32) : (s.setReg off v).jrn = s.jrn :=
  (congrArg State.jrn (Eq.refl (s.setReg off v))).trans (Eq.refl _)

@[simp] theorem State.setReg_flash (s : State) (off : Nat) (v : W32) : (s.setReg off v).flash = s.flash :=
  (congrArg State.flash (Eq.refl (s.setReg off v))).trans (Eq.refl _)

@[simp] theorem State.setReg_host (s : State) (off : Nat) (v : W32) : (s.setReg off v).host = s.host :=
  (congrArg State.host (Eq.refl (s.setReg off v))).trans (Eq.refl _)

@[simp] theorem State.setReg_power (s : State) (off : Nat) (v : W32) : (s.setReg off v).power = s.power :=
  (congrArg State.power (Eq.refl (s.setReg off v))).trans (Eq.refl _)

@[simp] theorem State.setReg_i3c (s : State) (off : Nat) (v : W32) : (s.setReg off v).i3c = s.i3c :=
  (congrArg State.i3c (Eq.refl (s.setReg off v))).trans (Eq.refl _)

@[simp] theorem State.setReg_tap (s : State) (off : Nat) (v : W32) : (s.setReg off v).tap = s.tap :=
  (congrArg State.tap (Eq.refl (s.setReg off v))).trans (Eq.refl _)

@[simp] theorem State.setReg_ul (s : State) (off : Nat) (v : W32) : (s.setReg off v).ul = s.ul :=
  (congrArg State.ul (Eq.refl (s.setReg off v))).trans (Eq.refl _)

@[simp] theorem State.setReg_rgl (s : State) (off : Nat) (v : W32) : (s.setReg off v).rgl = s.rgl :=
  (congrArg State.rgl (Eq.refl (s.setReg off v))).trans (Eq.refl _)

@[simp] theorem State.setReg_tiles (s : State) (off : Nat) (v : W32) : (s.setReg off v).tiles = s.tiles :=
  (congrArg State.tiles (Eq.refl (s.setReg off v))).trans (Eq.refl _)

@[simp] theorem State.setReg_ppl (s : State) (off : Nat) (v : W32) : (s.setReg off v).ppl = s.ppl :=
  (congrArg State.ppl (Eq.refl (s.setReg off v))).trans (Eq.refl _)

@[simp] theorem State.setReg_kvl (s : State) (off : Nat) (v : W32) : (s.setReg off v).kvl = s.kvl :=
  (congrArg State.kvl (Eq.refl (s.setReg off v))).trans (Eq.refl _)

@[simp] theorem State.setReg_belt (s : State) (off : Nat) (v : W32) : (s.setReg off v).belt = s.belt :=
  (congrArg State.belt (Eq.refl (s.setReg off v))).trans (Eq.refl _)

@[simp] theorem State.setReg_ring (s : State) (off : Nat) (v : W32) : (s.setReg off v).ring = s.ring :=
  (congrArg State.ring (Eq.refl (s.setReg off v))).trans (Eq.refl _)

@[simp] theorem State.setReg_free (s : State) (off : Nat) (v : W32) : (s.setReg off v).free = s.free :=
  (congrArg State.free (Eq.refl (s.setReg off v))).trans (Eq.refl _)

@[simp] theorem State.setReg_pending (s : State) (off : Nat) (v : W32) : (s.setReg off v).pending = s.pending :=
  (congrArg State.pending (Eq.refl (s.setReg off v))).trans (Eq.refl _)

@[simp] theorem State.setFld_pairCap (s : State) (f : Fld) (v : Nat) : (s.setFld f v).pairCap = s.pairCap :=
  (congrArg State.pairCap (Eq.refl (s.setFld f v))).trans (Eq.refl _)

@[simp] theorem State.setFld_pairLo (s : State) (f : Fld) (v : Nat) : (s.setFld f v).pairLo = s.pairLo :=
  (congrArg State.pairLo (Eq.refl (s.setFld f v))).trans (Eq.refl _)

@[simp] theorem State.setFld_pins (s : State) (f : Fld) (v : Nat) : (s.setFld f v).pins = s.pins :=
  (congrArg State.pins (Eq.refl (s.setFld f v))).trans (Eq.refl _)

@[simp] theorem State.setFld_boot (s : State) (f : Fld) (v : Nat) : (s.setFld f v).boot = s.boot :=
  (congrArg State.boot (Eq.refl (s.setFld f v))).trans (Eq.refl _)

@[simp] theorem State.setFld_stack (s : State) (f : Fld) (v : Nat) : (s.setFld f v).stack = s.stack :=
  (congrArg State.stack (Eq.refl (s.setFld f v))).trans (Eq.refl _)

@[simp] theorem State.setFld_jrn (s : State) (f : Fld) (v : Nat) : (s.setFld f v).jrn = s.jrn :=
  (congrArg State.jrn (Eq.refl (s.setFld f v))).trans (Eq.refl _)

@[simp] theorem State.setFld_flash (s : State) (f : Fld) (v : Nat) : (s.setFld f v).flash = s.flash :=
  (congrArg State.flash (Eq.refl (s.setFld f v))).trans (Eq.refl _)

@[simp] theorem State.setFld_host (s : State) (f : Fld) (v : Nat) : (s.setFld f v).host = s.host :=
  (congrArg State.host (Eq.refl (s.setFld f v))).trans (Eq.refl _)

@[simp] theorem State.setFld_power (s : State) (f : Fld) (v : Nat) : (s.setFld f v).power = s.power :=
  (congrArg State.power (Eq.refl (s.setFld f v))).trans (Eq.refl _)

@[simp] theorem State.setFld_i3c (s : State) (f : Fld) (v : Nat) : (s.setFld f v).i3c = s.i3c :=
  (congrArg State.i3c (Eq.refl (s.setFld f v))).trans (Eq.refl _)

@[simp] theorem State.setFld_tap (s : State) (f : Fld) (v : Nat) : (s.setFld f v).tap = s.tap :=
  (congrArg State.tap (Eq.refl (s.setFld f v))).trans (Eq.refl _)

@[simp] theorem State.setFld_ul (s : State) (f : Fld) (v : Nat) : (s.setFld f v).ul = s.ul :=
  (congrArg State.ul (Eq.refl (s.setFld f v))).trans (Eq.refl _)

@[simp] theorem State.setFld_rgl (s : State) (f : Fld) (v : Nat) : (s.setFld f v).rgl = s.rgl :=
  (congrArg State.rgl (Eq.refl (s.setFld f v))).trans (Eq.refl _)

@[simp] theorem State.setFld_tiles (s : State) (f : Fld) (v : Nat) : (s.setFld f v).tiles = s.tiles :=
  (congrArg State.tiles (Eq.refl (s.setFld f v))).trans (Eq.refl _)

@[simp] theorem State.setFld_ppl (s : State) (f : Fld) (v : Nat) : (s.setFld f v).ppl = s.ppl :=
  (congrArg State.ppl (Eq.refl (s.setFld f v))).trans (Eq.refl _)

@[simp] theorem State.setFld_kvl (s : State) (f : Fld) (v : Nat) : (s.setFld f v).kvl = s.kvl :=
  (congrArg State.kvl (Eq.refl (s.setFld f v))).trans (Eq.refl _)

@[simp] theorem State.setFld_belt (s : State) (f : Fld) (v : Nat) : (s.setFld f v).belt = s.belt :=
  (congrArg State.belt (Eq.refl (s.setFld f v))).trans (Eq.refl _)

@[simp] theorem State.setFld_ring (s : State) (f : Fld) (v : Nat) : (s.setFld f v).ring = s.ring :=
  (congrArg State.ring (Eq.refl (s.setFld f v))).trans (Eq.refl _)

@[simp] theorem State.setFld_free (s : State) (f : Fld) (v : Nat) : (s.setFld f v).free = s.free :=
  (congrArg State.free (Eq.refl (s.setFld f v))).trans (Eq.refl _)

@[simp] theorem State.setFld_pending (s : State) (f : Fld) (v : Nat) : (s.setFld f v).pending = s.pending :=
  (congrArg State.pending (Eq.refl (s.setFld f v))).trans (Eq.refl _)

@[simp] theorem State.raise_pairCap (s : State) (f : Fld) : (s.raise f).pairCap = s.pairCap :=
  (congrArg State.pairCap (Eq.refl (s.raise f))).trans (Eq.refl _)

@[simp] theorem State.raise_pairLo (s : State) (f : Fld) : (s.raise f).pairLo = s.pairLo :=
  (congrArg State.pairLo (Eq.refl (s.raise f))).trans (Eq.refl _)

@[simp] theorem State.raise_pins (s : State) (f : Fld) : (s.raise f).pins = s.pins :=
  (congrArg State.pins (Eq.refl (s.raise f))).trans (Eq.refl _)

@[simp] theorem State.raise_boot (s : State) (f : Fld) : (s.raise f).boot = s.boot :=
  (congrArg State.boot (Eq.refl (s.raise f))).trans (Eq.refl _)

@[simp] theorem State.raise_stack (s : State) (f : Fld) : (s.raise f).stack = s.stack :=
  (congrArg State.stack (Eq.refl (s.raise f))).trans (Eq.refl _)

@[simp] theorem State.raise_jrn (s : State) (f : Fld) : (s.raise f).jrn = s.jrn :=
  (congrArg State.jrn (Eq.refl (s.raise f))).trans (Eq.refl _)

@[simp] theorem State.raise_flash (s : State) (f : Fld) : (s.raise f).flash = s.flash :=
  (congrArg State.flash (Eq.refl (s.raise f))).trans (Eq.refl _)

@[simp] theorem State.raise_host (s : State) (f : Fld) : (s.raise f).host = s.host :=
  (congrArg State.host (Eq.refl (s.raise f))).trans (Eq.refl _)

@[simp] theorem State.raise_power (s : State) (f : Fld) : (s.raise f).power = s.power :=
  (congrArg State.power (Eq.refl (s.raise f))).trans (Eq.refl _)

@[simp] theorem State.raise_i3c (s : State) (f : Fld) : (s.raise f).i3c = s.i3c :=
  (congrArg State.i3c (Eq.refl (s.raise f))).trans (Eq.refl _)

@[simp] theorem State.raise_tap (s : State) (f : Fld) : (s.raise f).tap = s.tap :=
  (congrArg State.tap (Eq.refl (s.raise f))).trans (Eq.refl _)

@[simp] theorem State.raise_ul (s : State) (f : Fld) : (s.raise f).ul = s.ul :=
  (congrArg State.ul (Eq.refl (s.raise f))).trans (Eq.refl _)

@[simp] theorem State.raise_rgl (s : State) (f : Fld) : (s.raise f).rgl = s.rgl :=
  (congrArg State.rgl (Eq.refl (s.raise f))).trans (Eq.refl _)

@[simp] theorem State.raise_tiles (s : State) (f : Fld) : (s.raise f).tiles = s.tiles :=
  (congrArg State.tiles (Eq.refl (s.raise f))).trans (Eq.refl _)

@[simp] theorem State.raise_ppl (s : State) (f : Fld) : (s.raise f).ppl = s.ppl :=
  (congrArg State.ppl (Eq.refl (s.raise f))).trans (Eq.refl _)

@[simp] theorem State.raise_kvl (s : State) (f : Fld) : (s.raise f).kvl = s.kvl :=
  (congrArg State.kvl (Eq.refl (s.raise f))).trans (Eq.refl _)

@[simp] theorem State.raise_belt (s : State) (f : Fld) : (s.raise f).belt = s.belt :=
  (congrArg State.belt (Eq.refl (s.raise f))).trans (Eq.refl _)

@[simp] theorem State.raise_ring (s : State) (f : Fld) : (s.raise f).ring = s.ring :=
  (congrArg State.ring (Eq.refl (s.raise f))).trans (Eq.refl _)

@[simp] theorem State.raise_free (s : State) (f : Fld) : (s.raise f).free = s.free :=
  (congrArg State.free (Eq.refl (s.raise f))).trans (Eq.refl _)

@[simp] theorem State.raise_pending (s : State) (f : Fld) : (s.raise f).pending = s.pending :=
  (congrArg State.pending (Eq.refl (s.raise f))).trans (Eq.refl _)

@[simp] theorem State.setBit_pairCap (s : State) (f : Fld) (i : Nat) : (s.setBit f i).pairCap = s.pairCap :=
  (congrArg State.pairCap (Eq.refl (s.setBit f i))).trans (Eq.refl _)

@[simp] theorem State.setBit_pairLo (s : State) (f : Fld) (i : Nat) : (s.setBit f i).pairLo = s.pairLo :=
  (congrArg State.pairLo (Eq.refl (s.setBit f i))).trans (Eq.refl _)

@[simp] theorem State.setBit_pins (s : State) (f : Fld) (i : Nat) : (s.setBit f i).pins = s.pins :=
  (congrArg State.pins (Eq.refl (s.setBit f i))).trans (Eq.refl _)

@[simp] theorem State.setBit_boot (s : State) (f : Fld) (i : Nat) : (s.setBit f i).boot = s.boot :=
  (congrArg State.boot (Eq.refl (s.setBit f i))).trans (Eq.refl _)

@[simp] theorem State.setBit_stack (s : State) (f : Fld) (i : Nat) : (s.setBit f i).stack = s.stack :=
  (congrArg State.stack (Eq.refl (s.setBit f i))).trans (Eq.refl _)

@[simp] theorem State.setBit_jrn (s : State) (f : Fld) (i : Nat) : (s.setBit f i).jrn = s.jrn :=
  (congrArg State.jrn (Eq.refl (s.setBit f i))).trans (Eq.refl _)

@[simp] theorem State.setBit_flash (s : State) (f : Fld) (i : Nat) : (s.setBit f i).flash = s.flash :=
  (congrArg State.flash (Eq.refl (s.setBit f i))).trans (Eq.refl _)

@[simp] theorem State.setBit_host (s : State) (f : Fld) (i : Nat) : (s.setBit f i).host = s.host :=
  (congrArg State.host (Eq.refl (s.setBit f i))).trans (Eq.refl _)

@[simp] theorem State.setBit_power (s : State) (f : Fld) (i : Nat) : (s.setBit f i).power = s.power :=
  (congrArg State.power (Eq.refl (s.setBit f i))).trans (Eq.refl _)

@[simp] theorem State.setBit_i3c (s : State) (f : Fld) (i : Nat) : (s.setBit f i).i3c = s.i3c :=
  (congrArg State.i3c (Eq.refl (s.setBit f i))).trans (Eq.refl _)

@[simp] theorem State.setBit_tap (s : State) (f : Fld) (i : Nat) : (s.setBit f i).tap = s.tap :=
  (congrArg State.tap (Eq.refl (s.setBit f i))).trans (Eq.refl _)

@[simp] theorem State.setBit_ul (s : State) (f : Fld) (i : Nat) : (s.setBit f i).ul = s.ul :=
  (congrArg State.ul (Eq.refl (s.setBit f i))).trans (Eq.refl _)

@[simp] theorem State.setBit_rgl (s : State) (f : Fld) (i : Nat) : (s.setBit f i).rgl = s.rgl :=
  (congrArg State.rgl (Eq.refl (s.setBit f i))).trans (Eq.refl _)

@[simp] theorem State.setBit_tiles (s : State) (f : Fld) (i : Nat) : (s.setBit f i).tiles = s.tiles :=
  (congrArg State.tiles (Eq.refl (s.setBit f i))).trans (Eq.refl _)

@[simp] theorem State.setBit_ppl (s : State) (f : Fld) (i : Nat) : (s.setBit f i).ppl = s.ppl :=
  (congrArg State.ppl (Eq.refl (s.setBit f i))).trans (Eq.refl _)

@[simp] theorem State.setBit_kvl (s : State) (f : Fld) (i : Nat) : (s.setBit f i).kvl = s.kvl :=
  (congrArg State.kvl (Eq.refl (s.setBit f i))).trans (Eq.refl _)

@[simp] theorem State.setBit_belt (s : State) (f : Fld) (i : Nat) : (s.setBit f i).belt = s.belt :=
  (congrArg State.belt (Eq.refl (s.setBit f i))).trans (Eq.refl _)

@[simp] theorem State.setBit_ring (s : State) (f : Fld) (i : Nat) : (s.setBit f i).ring = s.ring :=
  (congrArg State.ring (Eq.refl (s.setBit f i))).trans (Eq.refl _)

@[simp] theorem State.setBit_free (s : State) (f : Fld) (i : Nat) : (s.setBit f i).free = s.free :=
  (congrArg State.free (Eq.refl (s.setBit f i))).trans (Eq.refl _)

@[simp] theorem State.setBit_pending (s : State) (f : Fld) (i : Nat) : (s.setBit f i).pending = s.pending :=
  (congrArg State.pending (Eq.refl (s.setBit f i))).trans (Eq.refl _)

@[simp] theorem State.addFld_pairCap (s : State) (f : Fld) (n : Nat) : (s.addFld f n).pairCap = s.pairCap :=
  (congrArg State.pairCap (Eq.refl (s.addFld f n))).trans (Eq.refl _)

@[simp] theorem State.addFld_pairLo (s : State) (f : Fld) (n : Nat) : (s.addFld f n).pairLo = s.pairLo :=
  (congrArg State.pairLo (Eq.refl (s.addFld f n))).trans (Eq.refl _)

@[simp] theorem State.addFld_pins (s : State) (f : Fld) (n : Nat) : (s.addFld f n).pins = s.pins :=
  (congrArg State.pins (Eq.refl (s.addFld f n))).trans (Eq.refl _)

@[simp] theorem State.addFld_boot (s : State) (f : Fld) (n : Nat) : (s.addFld f n).boot = s.boot :=
  (congrArg State.boot (Eq.refl (s.addFld f n))).trans (Eq.refl _)

@[simp] theorem State.addFld_stack (s : State) (f : Fld) (n : Nat) : (s.addFld f n).stack = s.stack :=
  (congrArg State.stack (Eq.refl (s.addFld f n))).trans (Eq.refl _)

@[simp] theorem State.addFld_jrn (s : State) (f : Fld) (n : Nat) : (s.addFld f n).jrn = s.jrn :=
  (congrArg State.jrn (Eq.refl (s.addFld f n))).trans (Eq.refl _)

@[simp] theorem State.addFld_flash (s : State) (f : Fld) (n : Nat) : (s.addFld f n).flash = s.flash :=
  (congrArg State.flash (Eq.refl (s.addFld f n))).trans (Eq.refl _)

@[simp] theorem State.addFld_host (s : State) (f : Fld) (n : Nat) : (s.addFld f n).host = s.host :=
  (congrArg State.host (Eq.refl (s.addFld f n))).trans (Eq.refl _)

@[simp] theorem State.addFld_power (s : State) (f : Fld) (n : Nat) : (s.addFld f n).power = s.power :=
  (congrArg State.power (Eq.refl (s.addFld f n))).trans (Eq.refl _)

@[simp] theorem State.addFld_i3c (s : State) (f : Fld) (n : Nat) : (s.addFld f n).i3c = s.i3c :=
  (congrArg State.i3c (Eq.refl (s.addFld f n))).trans (Eq.refl _)

@[simp] theorem State.addFld_tap (s : State) (f : Fld) (n : Nat) : (s.addFld f n).tap = s.tap :=
  (congrArg State.tap (Eq.refl (s.addFld f n))).trans (Eq.refl _)

@[simp] theorem State.addFld_ul (s : State) (f : Fld) (n : Nat) : (s.addFld f n).ul = s.ul :=
  (congrArg State.ul (Eq.refl (s.addFld f n))).trans (Eq.refl _)

@[simp] theorem State.addFld_rgl (s : State) (f : Fld) (n : Nat) : (s.addFld f n).rgl = s.rgl :=
  (congrArg State.rgl (Eq.refl (s.addFld f n))).trans (Eq.refl _)

@[simp] theorem State.addFld_tiles (s : State) (f : Fld) (n : Nat) : (s.addFld f n).tiles = s.tiles :=
  (congrArg State.tiles (Eq.refl (s.addFld f n))).trans (Eq.refl _)

@[simp] theorem State.addFld_ppl (s : State) (f : Fld) (n : Nat) : (s.addFld f n).ppl = s.ppl :=
  (congrArg State.ppl (Eq.refl (s.addFld f n))).trans (Eq.refl _)

@[simp] theorem State.addFld_kvl (s : State) (f : Fld) (n : Nat) : (s.addFld f n).kvl = s.kvl :=
  (congrArg State.kvl (Eq.refl (s.addFld f n))).trans (Eq.refl _)

@[simp] theorem State.addFld_belt (s : State) (f : Fld) (n : Nat) : (s.addFld f n).belt = s.belt :=
  (congrArg State.belt (Eq.refl (s.addFld f n))).trans (Eq.refl _)

@[simp] theorem State.addFld_ring (s : State) (f : Fld) (n : Nat) : (s.addFld f n).ring = s.ring :=
  (congrArg State.ring (Eq.refl (s.addFld f n))).trans (Eq.refl _)

@[simp] theorem State.addFld_free (s : State) (f : Fld) (n : Nat) : (s.addFld f n).free = s.free :=
  (congrArg State.free (Eq.refl (s.addFld f n))).trans (Eq.refl _)

@[simp] theorem State.addFld_pending (s : State) (f : Fld) (n : Nat) : (s.addFld f n).pending = s.pending :=
  (congrArg State.pending (Eq.refl (s.addFld f n))).trans (Eq.refl _)

@[simp] theorem State.incFld_pairCap (s : State) (f : Fld) : (s.incFld f).pairCap = s.pairCap :=
  (congrArg State.pairCap (Eq.refl (s.incFld f))).trans (Eq.refl _)

@[simp] theorem State.incFld_pairLo (s : State) (f : Fld) : (s.incFld f).pairLo = s.pairLo :=
  (congrArg State.pairLo (Eq.refl (s.incFld f))).trans (Eq.refl _)

@[simp] theorem State.incFld_pins (s : State) (f : Fld) : (s.incFld f).pins = s.pins :=
  (congrArg State.pins (Eq.refl (s.incFld f))).trans (Eq.refl _)

@[simp] theorem State.incFld_boot (s : State) (f : Fld) : (s.incFld f).boot = s.boot :=
  (congrArg State.boot (Eq.refl (s.incFld f))).trans (Eq.refl _)

@[simp] theorem State.incFld_stack (s : State) (f : Fld) : (s.incFld f).stack = s.stack :=
  (congrArg State.stack (Eq.refl (s.incFld f))).trans (Eq.refl _)

@[simp] theorem State.incFld_jrn (s : State) (f : Fld) : (s.incFld f).jrn = s.jrn :=
  (congrArg State.jrn (Eq.refl (s.incFld f))).trans (Eq.refl _)

@[simp] theorem State.incFld_flash (s : State) (f : Fld) : (s.incFld f).flash = s.flash :=
  (congrArg State.flash (Eq.refl (s.incFld f))).trans (Eq.refl _)

@[simp] theorem State.incFld_host (s : State) (f : Fld) : (s.incFld f).host = s.host :=
  (congrArg State.host (Eq.refl (s.incFld f))).trans (Eq.refl _)

@[simp] theorem State.incFld_power (s : State) (f : Fld) : (s.incFld f).power = s.power :=
  (congrArg State.power (Eq.refl (s.incFld f))).trans (Eq.refl _)

@[simp] theorem State.incFld_i3c (s : State) (f : Fld) : (s.incFld f).i3c = s.i3c :=
  (congrArg State.i3c (Eq.refl (s.incFld f))).trans (Eq.refl _)

@[simp] theorem State.incFld_tap (s : State) (f : Fld) : (s.incFld f).tap = s.tap :=
  (congrArg State.tap (Eq.refl (s.incFld f))).trans (Eq.refl _)

@[simp] theorem State.incFld_ul (s : State) (f : Fld) : (s.incFld f).ul = s.ul :=
  (congrArg State.ul (Eq.refl (s.incFld f))).trans (Eq.refl _)

@[simp] theorem State.incFld_rgl (s : State) (f : Fld) : (s.incFld f).rgl = s.rgl :=
  (congrArg State.rgl (Eq.refl (s.incFld f))).trans (Eq.refl _)

@[simp] theorem State.incFld_tiles (s : State) (f : Fld) : (s.incFld f).tiles = s.tiles :=
  (congrArg State.tiles (Eq.refl (s.incFld f))).trans (Eq.refl _)

@[simp] theorem State.incFld_ppl (s : State) (f : Fld) : (s.incFld f).ppl = s.ppl :=
  (congrArg State.ppl (Eq.refl (s.incFld f))).trans (Eq.refl _)

@[simp] theorem State.incFld_kvl (s : State) (f : Fld) : (s.incFld f).kvl = s.kvl :=
  (congrArg State.kvl (Eq.refl (s.incFld f))).trans (Eq.refl _)

@[simp] theorem State.incFld_belt (s : State) (f : Fld) : (s.incFld f).belt = s.belt :=
  (congrArg State.belt (Eq.refl (s.incFld f))).trans (Eq.refl _)

@[simp] theorem State.incFld_ring (s : State) (f : Fld) : (s.incFld f).ring = s.ring :=
  (congrArg State.ring (Eq.refl (s.incFld f))).trans (Eq.refl _)

@[simp] theorem State.incFld_free (s : State) (f : Fld) : (s.incFld f).free = s.free :=
  (congrArg State.free (Eq.refl (s.incFld f))).trans (Eq.refl _)

@[simp] theorem State.incFld_pending (s : State) (f : Fld) : (s.incFld f).pending = s.pending :=
  (congrArg State.pending (Eq.refl (s.incFld f))).trans (Eq.refl _)

@[simp] theorem State.clrBit_pairCap (s : State) (f : Fld) (i : Nat) : (s.clrBit f i).pairCap = s.pairCap := by
  unfold State.clrBit
  split
  · exact State.setFld_pairCap _ _ _
  · exact Eq.refl _

@[simp] theorem State.clrBit_pairLo (s : State) (f : Fld) (i : Nat) : (s.clrBit f i).pairLo = s.pairLo := by
  unfold State.clrBit
  split
  · exact State.setFld_pairLo _ _ _
  · exact Eq.refl _

@[simp] theorem State.clrBit_pins (s : State) (f : Fld) (i : Nat) : (s.clrBit f i).pins = s.pins := by
  unfold State.clrBit
  split
  · exact State.setFld_pins _ _ _
  · exact Eq.refl _

@[simp] theorem State.clrBit_boot (s : State) (f : Fld) (i : Nat) : (s.clrBit f i).boot = s.boot := by
  unfold State.clrBit
  split
  · exact State.setFld_boot _ _ _
  · exact Eq.refl _

@[simp] theorem State.clrBit_stack (s : State) (f : Fld) (i : Nat) : (s.clrBit f i).stack = s.stack := by
  unfold State.clrBit
  split
  · exact State.setFld_stack _ _ _
  · exact Eq.refl _

@[simp] theorem State.clrBit_jrn (s : State) (f : Fld) (i : Nat) : (s.clrBit f i).jrn = s.jrn := by
  unfold State.clrBit
  split
  · exact State.setFld_jrn _ _ _
  · exact Eq.refl _

@[simp] theorem State.clrBit_flash (s : State) (f : Fld) (i : Nat) : (s.clrBit f i).flash = s.flash := by
  unfold State.clrBit
  split
  · exact State.setFld_flash _ _ _
  · exact Eq.refl _

@[simp] theorem State.clrBit_host (s : State) (f : Fld) (i : Nat) : (s.clrBit f i).host = s.host := by
  unfold State.clrBit
  split
  · exact State.setFld_host _ _ _
  · exact Eq.refl _

@[simp] theorem State.clrBit_power (s : State) (f : Fld) (i : Nat) : (s.clrBit f i).power = s.power := by
  unfold State.clrBit
  split
  · exact State.setFld_power _ _ _
  · exact Eq.refl _

@[simp] theorem State.clrBit_i3c (s : State) (f : Fld) (i : Nat) : (s.clrBit f i).i3c = s.i3c := by
  unfold State.clrBit
  split
  · exact State.setFld_i3c _ _ _
  · exact Eq.refl _

@[simp] theorem State.clrBit_tap (s : State) (f : Fld) (i : Nat) : (s.clrBit f i).tap = s.tap := by
  unfold State.clrBit
  split
  · exact State.setFld_tap _ _ _
  · exact Eq.refl _

@[simp] theorem State.clrBit_ul (s : State) (f : Fld) (i : Nat) : (s.clrBit f i).ul = s.ul := by
  unfold State.clrBit
  split
  · exact State.setFld_ul _ _ _
  · exact Eq.refl _

@[simp] theorem State.clrBit_rgl (s : State) (f : Fld) (i : Nat) : (s.clrBit f i).rgl = s.rgl := by
  unfold State.clrBit
  split
  · exact State.setFld_rgl _ _ _
  · exact Eq.refl _

@[simp] theorem State.clrBit_tiles (s : State) (f : Fld) (i : Nat) : (s.clrBit f i).tiles = s.tiles := by
  unfold State.clrBit
  split
  · exact State.setFld_tiles _ _ _
  · exact Eq.refl _

@[simp] theorem State.clrBit_ppl (s : State) (f : Fld) (i : Nat) : (s.clrBit f i).ppl = s.ppl := by
  unfold State.clrBit
  split
  · exact State.setFld_ppl _ _ _
  · exact Eq.refl _

@[simp] theorem State.clrBit_kvl (s : State) (f : Fld) (i : Nat) : (s.clrBit f i).kvl = s.kvl := by
  unfold State.clrBit
  split
  · exact State.setFld_kvl _ _ _
  · exact Eq.refl _

@[simp] theorem State.clrBit_belt (s : State) (f : Fld) (i : Nat) : (s.clrBit f i).belt = s.belt := by
  unfold State.clrBit
  split
  · exact State.setFld_belt _ _ _
  · exact Eq.refl _

@[simp] theorem State.clrBit_ring (s : State) (f : Fld) (i : Nat) : (s.clrBit f i).ring = s.ring := by
  unfold State.clrBit
  split
  · exact State.setFld_ring _ _ _
  · exact Eq.refl _

@[simp] theorem State.clrBit_free (s : State) (f : Fld) (i : Nat) : (s.clrBit f i).free = s.free := by
  unfold State.clrBit
  split
  · exact State.setFld_free _ _ _
  · exact Eq.refl _

@[simp] theorem State.clrBit_pending (s : State) (f : Fld) (i : Nat) : (s.clrBit f i).pending = s.pending := by
  unfold State.clrBit
  split
  · exact State.setFld_pending _ _ _
  · exact Eq.refl _

@[simp] theorem State.putBit_pairCap (s : State) (f : Fld) (i : Nat) (b : Bool) : (s.putBit f i b).pairCap = s.pairCap := by
  unfold State.putBit
  split
  · exact State.setBit_pairCap _ _ _
  · exact State.clrBit_pairCap _ _ _

@[simp] theorem State.putBit_pairLo (s : State) (f : Fld) (i : Nat) (b : Bool) : (s.putBit f i b).pairLo = s.pairLo := by
  unfold State.putBit
  split
  · exact State.setBit_pairLo _ _ _
  · exact State.clrBit_pairLo _ _ _

@[simp] theorem State.putBit_pins (s : State) (f : Fld) (i : Nat) (b : Bool) : (s.putBit f i b).pins = s.pins := by
  unfold State.putBit
  split
  · exact State.setBit_pins _ _ _
  · exact State.clrBit_pins _ _ _

@[simp] theorem State.putBit_boot (s : State) (f : Fld) (i : Nat) (b : Bool) : (s.putBit f i b).boot = s.boot := by
  unfold State.putBit
  split
  · exact State.setBit_boot _ _ _
  · exact State.clrBit_boot _ _ _

@[simp] theorem State.putBit_stack (s : State) (f : Fld) (i : Nat) (b : Bool) : (s.putBit f i b).stack = s.stack := by
  unfold State.putBit
  split
  · exact State.setBit_stack _ _ _
  · exact State.clrBit_stack _ _ _

@[simp] theorem State.putBit_jrn (s : State) (f : Fld) (i : Nat) (b : Bool) : (s.putBit f i b).jrn = s.jrn := by
  unfold State.putBit
  split
  · exact State.setBit_jrn _ _ _
  · exact State.clrBit_jrn _ _ _

@[simp] theorem State.putBit_flash (s : State) (f : Fld) (i : Nat) (b : Bool) : (s.putBit f i b).flash = s.flash := by
  unfold State.putBit
  split
  · exact State.setBit_flash _ _ _
  · exact State.clrBit_flash _ _ _

@[simp] theorem State.putBit_host (s : State) (f : Fld) (i : Nat) (b : Bool) : (s.putBit f i b).host = s.host := by
  unfold State.putBit
  split
  · exact State.setBit_host _ _ _
  · exact State.clrBit_host _ _ _

@[simp] theorem State.putBit_power (s : State) (f : Fld) (i : Nat) (b : Bool) : (s.putBit f i b).power = s.power := by
  unfold State.putBit
  split
  · exact State.setBit_power _ _ _
  · exact State.clrBit_power _ _ _

@[simp] theorem State.putBit_i3c (s : State) (f : Fld) (i : Nat) (b : Bool) : (s.putBit f i b).i3c = s.i3c := by
  unfold State.putBit
  split
  · exact State.setBit_i3c _ _ _
  · exact State.clrBit_i3c _ _ _

@[simp] theorem State.putBit_tap (s : State) (f : Fld) (i : Nat) (b : Bool) : (s.putBit f i b).tap = s.tap := by
  unfold State.putBit
  split
  · exact State.setBit_tap _ _ _
  · exact State.clrBit_tap _ _ _

@[simp] theorem State.putBit_ul (s : State) (f : Fld) (i : Nat) (b : Bool) : (s.putBit f i b).ul = s.ul := by
  unfold State.putBit
  split
  · exact State.setBit_ul _ _ _
  · exact State.clrBit_ul _ _ _

@[simp] theorem State.putBit_rgl (s : State) (f : Fld) (i : Nat) (b : Bool) : (s.putBit f i b).rgl = s.rgl := by
  unfold State.putBit
  split
  · exact State.setBit_rgl _ _ _
  · exact State.clrBit_rgl _ _ _

@[simp] theorem State.putBit_tiles (s : State) (f : Fld) (i : Nat) (b : Bool) : (s.putBit f i b).tiles = s.tiles := by
  unfold State.putBit
  split
  · exact State.setBit_tiles _ _ _
  · exact State.clrBit_tiles _ _ _

@[simp] theorem State.putBit_ppl (s : State) (f : Fld) (i : Nat) (b : Bool) : (s.putBit f i b).ppl = s.ppl := by
  unfold State.putBit
  split
  · exact State.setBit_ppl _ _ _
  · exact State.clrBit_ppl _ _ _

@[simp] theorem State.putBit_kvl (s : State) (f : Fld) (i : Nat) (b : Bool) : (s.putBit f i b).kvl = s.kvl := by
  unfold State.putBit
  split
  · exact State.setBit_kvl _ _ _
  · exact State.clrBit_kvl _ _ _

@[simp] theorem State.putBit_belt (s : State) (f : Fld) (i : Nat) (b : Bool) : (s.putBit f i b).belt = s.belt := by
  unfold State.putBit
  split
  · exact State.setBit_belt _ _ _
  · exact State.clrBit_belt _ _ _

@[simp] theorem State.putBit_ring (s : State) (f : Fld) (i : Nat) (b : Bool) : (s.putBit f i b).ring = s.ring := by
  unfold State.putBit
  split
  · exact State.setBit_ring _ _ _
  · exact State.clrBit_ring _ _ _

@[simp] theorem State.putBit_free (s : State) (f : Fld) (i : Nat) (b : Bool) : (s.putBit f i b).free = s.free := by
  unfold State.putBit
  split
  · exact State.setBit_free _ _ _
  · exact State.clrBit_free _ _ _

@[simp] theorem State.putBit_pending (s : State) (f : Fld) (i : Nat) (b : Bool) : (s.putBit f i b).pending = s.pending := by
  unfold State.putBit
  split
  · exact State.setBit_pending _ _ _
  · exact State.clrBit_pending _ _ _

/-! ## Frames of journal records and events: they touch the registers, the journal, and the interrupts sent -/

theorem State.jrnPush_pairCap (s : State) (r : JRec) : (s.jrnPush r).pairCap = s.pairCap :=
  (congrArg State.pairCap (Eq.refl (s.jrnPush r))).trans (Eq.refl _)

theorem State.jrnDrop_pairCap (s : State) (n : Nat) : (s.jrnDrop n).pairCap = s.pairCap := by
  unfold State.jrnDrop
  rw [State.raise_pairCap, State.addFld_pairCap]

theorem State.jrnReportDropped_pairCap (s : State) : s.jrnReportDropped.pairCap = s.pairCap := by
  unfold State.jrnReportDropped
  split
  · exact Eq.refl _
  · exact State.jrnPush_pairCap _ _

@[simp] theorem State.journal_pairCap (s : State) (type source : Nat) (payload : BitVec 288) :
    (s.journal type source payload).pairCap = s.pairCap := by
  unfold State.journal
  dsimp only
  split
  · split
    · exact State.jrnPush_pairCap _ _
    · split
      · exact State.raise_pairCap _ _
      · split
        · exact (State.jrnPush_pairCap _ _).trans (State.jrnDrop_pairCap _ _)
        · exact State.jrnDrop_pairCap _ _
  · split
    · exact (State.jrnDrop_pairCap _ _).trans (State.jrnReportDropped_pairCap _)
    · exact (State.jrnPush_pairCap _ _).trans (State.jrnReportDropped_pairCap _)

theorem State.jrnEvent_pairCap (s : State) (code unit cause args : Nat) : (s.jrnEvent code unit cause args).pairCap = s.pairCap := by
  unfold State.jrnEvent
  dsimp only
  split
  · exact Eq.refl _
  · exact State.journal_pairCap _ _ _ _

theorem State.msi_pairCap (s : State) (n : Nat) : (s.msi n).pairCap = s.pairCap := by
  unfold State.msi
  split
  · exact Eq.refl _
  · split
    · exact State.raise_pairCap _ _
    · exact Eq.refl _

@[simp] theorem State.event_pairCap (s : State) (code unit cause args : Nat) : (s.event code unit cause args).pairCap = s.pairCap := by
  unfold State.event
  extract_lets sev s1 s2 s3
  have h : s3.pairCap = s.pairCap := by
    simp only [s3]
    split
    · exact (State.msi_pairCap _ _).trans ((State.setReg_pairCap _ _ _).trans (State.jrnEvent_pairCap _ _ _ _ _))
    · exact (State.setReg_pairCap _ _ _).trans (State.jrnEvent_pairCap _ _ _ _ _)
  clear_value s3
  split
  · rw [State.raise_pairCap, State.setFld_pairCap, State.setFld_pairCap, State.setFld_pairCap, h]
  · exact h

theorem State.jrnPush_pairLo (s : State) (r : JRec) : (s.jrnPush r).pairLo = s.pairLo :=
  (congrArg State.pairLo (Eq.refl (s.jrnPush r))).trans (Eq.refl _)

theorem State.jrnDrop_pairLo (s : State) (n : Nat) : (s.jrnDrop n).pairLo = s.pairLo := by
  unfold State.jrnDrop
  rw [State.raise_pairLo, State.addFld_pairLo]

theorem State.jrnReportDropped_pairLo (s : State) : s.jrnReportDropped.pairLo = s.pairLo := by
  unfold State.jrnReportDropped
  split
  · exact Eq.refl _
  · exact State.jrnPush_pairLo _ _

@[simp] theorem State.journal_pairLo (s : State) (type source : Nat) (payload : BitVec 288) :
    (s.journal type source payload).pairLo = s.pairLo := by
  unfold State.journal
  dsimp only
  split
  · split
    · exact State.jrnPush_pairLo _ _
    · split
      · exact State.raise_pairLo _ _
      · split
        · exact (State.jrnPush_pairLo _ _).trans (State.jrnDrop_pairLo _ _)
        · exact State.jrnDrop_pairLo _ _
  · split
    · exact (State.jrnDrop_pairLo _ _).trans (State.jrnReportDropped_pairLo _)
    · exact (State.jrnPush_pairLo _ _).trans (State.jrnReportDropped_pairLo _)

theorem State.jrnEvent_pairLo (s : State) (code unit cause args : Nat) : (s.jrnEvent code unit cause args).pairLo = s.pairLo := by
  unfold State.jrnEvent
  dsimp only
  split
  · exact Eq.refl _
  · exact State.journal_pairLo _ _ _ _

theorem State.msi_pairLo (s : State) (n : Nat) : (s.msi n).pairLo = s.pairLo := by
  unfold State.msi
  split
  · exact Eq.refl _
  · split
    · exact State.raise_pairLo _ _
    · exact Eq.refl _

@[simp] theorem State.event_pairLo (s : State) (code unit cause args : Nat) : (s.event code unit cause args).pairLo = s.pairLo := by
  unfold State.event
  extract_lets sev s1 s2 s3
  have h : s3.pairLo = s.pairLo := by
    simp only [s3]
    split
    · exact (State.msi_pairLo _ _).trans ((State.setReg_pairLo _ _ _).trans (State.jrnEvent_pairLo _ _ _ _ _))
    · exact (State.setReg_pairLo _ _ _).trans (State.jrnEvent_pairLo _ _ _ _ _)
  clear_value s3
  split
  · rw [State.raise_pairLo, State.setFld_pairLo, State.setFld_pairLo, State.setFld_pairLo, h]
  · exact h

theorem State.jrnPush_pins (s : State) (r : JRec) : (s.jrnPush r).pins = s.pins :=
  (congrArg State.pins (Eq.refl (s.jrnPush r))).trans (Eq.refl _)

theorem State.jrnDrop_pins (s : State) (n : Nat) : (s.jrnDrop n).pins = s.pins := by
  unfold State.jrnDrop
  rw [State.raise_pins, State.addFld_pins]

theorem State.jrnReportDropped_pins (s : State) : s.jrnReportDropped.pins = s.pins := by
  unfold State.jrnReportDropped
  split
  · exact Eq.refl _
  · exact State.jrnPush_pins _ _

@[simp] theorem State.journal_pins (s : State) (type source : Nat) (payload : BitVec 288) :
    (s.journal type source payload).pins = s.pins := by
  unfold State.journal
  dsimp only
  split
  · split
    · exact State.jrnPush_pins _ _
    · split
      · exact State.raise_pins _ _
      · split
        · exact (State.jrnPush_pins _ _).trans (State.jrnDrop_pins _ _)
        · exact State.jrnDrop_pins _ _
  · split
    · exact (State.jrnDrop_pins _ _).trans (State.jrnReportDropped_pins _)
    · exact (State.jrnPush_pins _ _).trans (State.jrnReportDropped_pins _)

theorem State.jrnEvent_pins (s : State) (code unit cause args : Nat) : (s.jrnEvent code unit cause args).pins = s.pins := by
  unfold State.jrnEvent
  dsimp only
  split
  · exact Eq.refl _
  · exact State.journal_pins _ _ _ _

theorem State.msi_pins (s : State) (n : Nat) : (s.msi n).pins = s.pins := by
  unfold State.msi
  split
  · exact Eq.refl _
  · split
    · exact State.raise_pins _ _
    · exact Eq.refl _

@[simp] theorem State.event_pins (s : State) (code unit cause args : Nat) : (s.event code unit cause args).pins = s.pins := by
  unfold State.event
  extract_lets sev s1 s2 s3
  have h : s3.pins = s.pins := by
    simp only [s3]
    split
    · exact (State.msi_pins _ _).trans ((State.setReg_pins _ _ _).trans (State.jrnEvent_pins _ _ _ _ _))
    · exact (State.setReg_pins _ _ _).trans (State.jrnEvent_pins _ _ _ _ _)
  clear_value s3
  split
  · rw [State.raise_pins, State.setFld_pins, State.setFld_pins, State.setFld_pins, h]
  · exact h

theorem State.jrnPush_boot (s : State) (r : JRec) : (s.jrnPush r).boot = s.boot :=
  (congrArg State.boot (Eq.refl (s.jrnPush r))).trans (Eq.refl _)

theorem State.jrnDrop_boot (s : State) (n : Nat) : (s.jrnDrop n).boot = s.boot := by
  unfold State.jrnDrop
  rw [State.raise_boot, State.addFld_boot]

theorem State.jrnReportDropped_boot (s : State) : s.jrnReportDropped.boot = s.boot := by
  unfold State.jrnReportDropped
  split
  · exact Eq.refl _
  · exact State.jrnPush_boot _ _

@[simp] theorem State.journal_boot (s : State) (type source : Nat) (payload : BitVec 288) :
    (s.journal type source payload).boot = s.boot := by
  unfold State.journal
  dsimp only
  split
  · split
    · exact State.jrnPush_boot _ _
    · split
      · exact State.raise_boot _ _
      · split
        · exact (State.jrnPush_boot _ _).trans (State.jrnDrop_boot _ _)
        · exact State.jrnDrop_boot _ _
  · split
    · exact (State.jrnDrop_boot _ _).trans (State.jrnReportDropped_boot _)
    · exact (State.jrnPush_boot _ _).trans (State.jrnReportDropped_boot _)

theorem State.jrnEvent_boot (s : State) (code unit cause args : Nat) : (s.jrnEvent code unit cause args).boot = s.boot := by
  unfold State.jrnEvent
  dsimp only
  split
  · exact Eq.refl _
  · exact State.journal_boot _ _ _ _

theorem State.msi_boot (s : State) (n : Nat) : (s.msi n).boot = s.boot := by
  unfold State.msi
  split
  · exact Eq.refl _
  · split
    · exact State.raise_boot _ _
    · exact Eq.refl _

@[simp] theorem State.event_boot (s : State) (code unit cause args : Nat) : (s.event code unit cause args).boot = s.boot := by
  unfold State.event
  extract_lets sev s1 s2 s3
  have h : s3.boot = s.boot := by
    simp only [s3]
    split
    · exact (State.msi_boot _ _).trans ((State.setReg_boot _ _ _).trans (State.jrnEvent_boot _ _ _ _ _))
    · exact (State.setReg_boot _ _ _).trans (State.jrnEvent_boot _ _ _ _ _)
  clear_value s3
  split
  · rw [State.raise_boot, State.setFld_boot, State.setFld_boot, State.setFld_boot, h]
  · exact h

theorem State.jrnPush_stack (s : State) (r : JRec) : (s.jrnPush r).stack = s.stack :=
  (congrArg State.stack (Eq.refl (s.jrnPush r))).trans (Eq.refl _)

theorem State.jrnDrop_stack (s : State) (n : Nat) : (s.jrnDrop n).stack = s.stack := by
  unfold State.jrnDrop
  rw [State.raise_stack, State.addFld_stack]

theorem State.jrnReportDropped_stack (s : State) : s.jrnReportDropped.stack = s.stack := by
  unfold State.jrnReportDropped
  split
  · exact Eq.refl _
  · exact State.jrnPush_stack _ _

@[simp] theorem State.journal_stack (s : State) (type source : Nat) (payload : BitVec 288) :
    (s.journal type source payload).stack = s.stack := by
  unfold State.journal
  dsimp only
  split
  · split
    · exact State.jrnPush_stack _ _
    · split
      · exact State.raise_stack _ _
      · split
        · exact (State.jrnPush_stack _ _).trans (State.jrnDrop_stack _ _)
        · exact State.jrnDrop_stack _ _
  · split
    · exact (State.jrnDrop_stack _ _).trans (State.jrnReportDropped_stack _)
    · exact (State.jrnPush_stack _ _).trans (State.jrnReportDropped_stack _)

theorem State.jrnEvent_stack (s : State) (code unit cause args : Nat) : (s.jrnEvent code unit cause args).stack = s.stack := by
  unfold State.jrnEvent
  dsimp only
  split
  · exact Eq.refl _
  · exact State.journal_stack _ _ _ _

theorem State.msi_stack (s : State) (n : Nat) : (s.msi n).stack = s.stack := by
  unfold State.msi
  split
  · exact Eq.refl _
  · split
    · exact State.raise_stack _ _
    · exact Eq.refl _

@[simp] theorem State.event_stack (s : State) (code unit cause args : Nat) : (s.event code unit cause args).stack = s.stack := by
  unfold State.event
  extract_lets sev s1 s2 s3
  have h : s3.stack = s.stack := by
    simp only [s3]
    split
    · exact (State.msi_stack _ _).trans ((State.setReg_stack _ _ _).trans (State.jrnEvent_stack _ _ _ _ _))
    · exact (State.setReg_stack _ _ _).trans (State.jrnEvent_stack _ _ _ _ _)
  clear_value s3
  split
  · rw [State.raise_stack, State.setFld_stack, State.setFld_stack, State.setFld_stack, h]
  · exact h

theorem State.jrnPush_flash (s : State) (r : JRec) : (s.jrnPush r).flash = s.flash :=
  (congrArg State.flash (Eq.refl (s.jrnPush r))).trans (Eq.refl _)

theorem State.jrnDrop_flash (s : State) (n : Nat) : (s.jrnDrop n).flash = s.flash := by
  unfold State.jrnDrop
  rw [State.raise_flash, State.addFld_flash]

theorem State.jrnReportDropped_flash (s : State) : s.jrnReportDropped.flash = s.flash := by
  unfold State.jrnReportDropped
  split
  · exact Eq.refl _
  · exact State.jrnPush_flash _ _

@[simp] theorem State.journal_flash (s : State) (type source : Nat) (payload : BitVec 288) :
    (s.journal type source payload).flash = s.flash := by
  unfold State.journal
  dsimp only
  split
  · split
    · exact State.jrnPush_flash _ _
    · split
      · exact State.raise_flash _ _
      · split
        · exact (State.jrnPush_flash _ _).trans (State.jrnDrop_flash _ _)
        · exact State.jrnDrop_flash _ _
  · split
    · exact (State.jrnDrop_flash _ _).trans (State.jrnReportDropped_flash _)
    · exact (State.jrnPush_flash _ _).trans (State.jrnReportDropped_flash _)

theorem State.jrnEvent_flash (s : State) (code unit cause args : Nat) : (s.jrnEvent code unit cause args).flash = s.flash := by
  unfold State.jrnEvent
  dsimp only
  split
  · exact Eq.refl _
  · exact State.journal_flash _ _ _ _

theorem State.msi_flash (s : State) (n : Nat) : (s.msi n).flash = s.flash := by
  unfold State.msi
  split
  · exact Eq.refl _
  · split
    · exact State.raise_flash _ _
    · exact Eq.refl _

@[simp] theorem State.event_flash (s : State) (code unit cause args : Nat) : (s.event code unit cause args).flash = s.flash := by
  unfold State.event
  extract_lets sev s1 s2 s3
  have h : s3.flash = s.flash := by
    simp only [s3]
    split
    · exact (State.msi_flash _ _).trans ((State.setReg_flash _ _ _).trans (State.jrnEvent_flash _ _ _ _ _))
    · exact (State.setReg_flash _ _ _).trans (State.jrnEvent_flash _ _ _ _ _)
  clear_value s3
  split
  · rw [State.raise_flash, State.setFld_flash, State.setFld_flash, State.setFld_flash, h]
  · exact h

theorem State.jrnPush_power (s : State) (r : JRec) : (s.jrnPush r).power = s.power :=
  (congrArg State.power (Eq.refl (s.jrnPush r))).trans (Eq.refl _)

theorem State.jrnDrop_power (s : State) (n : Nat) : (s.jrnDrop n).power = s.power := by
  unfold State.jrnDrop
  rw [State.raise_power, State.addFld_power]

theorem State.jrnReportDropped_power (s : State) : s.jrnReportDropped.power = s.power := by
  unfold State.jrnReportDropped
  split
  · exact Eq.refl _
  · exact State.jrnPush_power _ _

@[simp] theorem State.journal_power (s : State) (type source : Nat) (payload : BitVec 288) :
    (s.journal type source payload).power = s.power := by
  unfold State.journal
  dsimp only
  split
  · split
    · exact State.jrnPush_power _ _
    · split
      · exact State.raise_power _ _
      · split
        · exact (State.jrnPush_power _ _).trans (State.jrnDrop_power _ _)
        · exact State.jrnDrop_power _ _
  · split
    · exact (State.jrnDrop_power _ _).trans (State.jrnReportDropped_power _)
    · exact (State.jrnPush_power _ _).trans (State.jrnReportDropped_power _)

theorem State.jrnEvent_power (s : State) (code unit cause args : Nat) : (s.jrnEvent code unit cause args).power = s.power := by
  unfold State.jrnEvent
  dsimp only
  split
  · exact Eq.refl _
  · exact State.journal_power _ _ _ _

theorem State.msi_power (s : State) (n : Nat) : (s.msi n).power = s.power := by
  unfold State.msi
  split
  · exact Eq.refl _
  · split
    · exact State.raise_power _ _
    · exact Eq.refl _

@[simp] theorem State.event_power (s : State) (code unit cause args : Nat) : (s.event code unit cause args).power = s.power := by
  unfold State.event
  extract_lets sev s1 s2 s3
  have h : s3.power = s.power := by
    simp only [s3]
    split
    · exact (State.msi_power _ _).trans ((State.setReg_power _ _ _).trans (State.jrnEvent_power _ _ _ _ _))
    · exact (State.setReg_power _ _ _).trans (State.jrnEvent_power _ _ _ _ _)
  clear_value s3
  split
  · rw [State.raise_power, State.setFld_power, State.setFld_power, State.setFld_power, h]
  · exact h

theorem State.jrnPush_i3c (s : State) (r : JRec) : (s.jrnPush r).i3c = s.i3c :=
  (congrArg State.i3c (Eq.refl (s.jrnPush r))).trans (Eq.refl _)

theorem State.jrnDrop_i3c (s : State) (n : Nat) : (s.jrnDrop n).i3c = s.i3c := by
  unfold State.jrnDrop
  rw [State.raise_i3c, State.addFld_i3c]

theorem State.jrnReportDropped_i3c (s : State) : s.jrnReportDropped.i3c = s.i3c := by
  unfold State.jrnReportDropped
  split
  · exact Eq.refl _
  · exact State.jrnPush_i3c _ _

@[simp] theorem State.journal_i3c (s : State) (type source : Nat) (payload : BitVec 288) :
    (s.journal type source payload).i3c = s.i3c := by
  unfold State.journal
  dsimp only
  split
  · split
    · exact State.jrnPush_i3c _ _
    · split
      · exact State.raise_i3c _ _
      · split
        · exact (State.jrnPush_i3c _ _).trans (State.jrnDrop_i3c _ _)
        · exact State.jrnDrop_i3c _ _
  · split
    · exact (State.jrnDrop_i3c _ _).trans (State.jrnReportDropped_i3c _)
    · exact (State.jrnPush_i3c _ _).trans (State.jrnReportDropped_i3c _)

theorem State.jrnEvent_i3c (s : State) (code unit cause args : Nat) : (s.jrnEvent code unit cause args).i3c = s.i3c := by
  unfold State.jrnEvent
  dsimp only
  split
  · exact Eq.refl _
  · exact State.journal_i3c _ _ _ _

theorem State.msi_i3c (s : State) (n : Nat) : (s.msi n).i3c = s.i3c := by
  unfold State.msi
  split
  · exact Eq.refl _
  · split
    · exact State.raise_i3c _ _
    · exact Eq.refl _

@[simp] theorem State.event_i3c (s : State) (code unit cause args : Nat) : (s.event code unit cause args).i3c = s.i3c := by
  unfold State.event
  extract_lets sev s1 s2 s3
  have h : s3.i3c = s.i3c := by
    simp only [s3]
    split
    · exact (State.msi_i3c _ _).trans ((State.setReg_i3c _ _ _).trans (State.jrnEvent_i3c _ _ _ _ _))
    · exact (State.setReg_i3c _ _ _).trans (State.jrnEvent_i3c _ _ _ _ _)
  clear_value s3
  split
  · rw [State.raise_i3c, State.setFld_i3c, State.setFld_i3c, State.setFld_i3c, h]
  · exact h

theorem State.jrnPush_tap (s : State) (r : JRec) : (s.jrnPush r).tap = s.tap :=
  (congrArg State.tap (Eq.refl (s.jrnPush r))).trans (Eq.refl _)

theorem State.jrnDrop_tap (s : State) (n : Nat) : (s.jrnDrop n).tap = s.tap := by
  unfold State.jrnDrop
  rw [State.raise_tap, State.addFld_tap]

theorem State.jrnReportDropped_tap (s : State) : s.jrnReportDropped.tap = s.tap := by
  unfold State.jrnReportDropped
  split
  · exact Eq.refl _
  · exact State.jrnPush_tap _ _

@[simp] theorem State.journal_tap (s : State) (type source : Nat) (payload : BitVec 288) :
    (s.journal type source payload).tap = s.tap := by
  unfold State.journal
  dsimp only
  split
  · split
    · exact State.jrnPush_tap _ _
    · split
      · exact State.raise_tap _ _
      · split
        · exact (State.jrnPush_tap _ _).trans (State.jrnDrop_tap _ _)
        · exact State.jrnDrop_tap _ _
  · split
    · exact (State.jrnDrop_tap _ _).trans (State.jrnReportDropped_tap _)
    · exact (State.jrnPush_tap _ _).trans (State.jrnReportDropped_tap _)

theorem State.jrnEvent_tap (s : State) (code unit cause args : Nat) : (s.jrnEvent code unit cause args).tap = s.tap := by
  unfold State.jrnEvent
  dsimp only
  split
  · exact Eq.refl _
  · exact State.journal_tap _ _ _ _

theorem State.msi_tap (s : State) (n : Nat) : (s.msi n).tap = s.tap := by
  unfold State.msi
  split
  · exact Eq.refl _
  · split
    · exact State.raise_tap _ _
    · exact Eq.refl _

@[simp] theorem State.event_tap (s : State) (code unit cause args : Nat) : (s.event code unit cause args).tap = s.tap := by
  unfold State.event
  extract_lets sev s1 s2 s3
  have h : s3.tap = s.tap := by
    simp only [s3]
    split
    · exact (State.msi_tap _ _).trans ((State.setReg_tap _ _ _).trans (State.jrnEvent_tap _ _ _ _ _))
    · exact (State.setReg_tap _ _ _).trans (State.jrnEvent_tap _ _ _ _ _)
  clear_value s3
  split
  · rw [State.raise_tap, State.setFld_tap, State.setFld_tap, State.setFld_tap, h]
  · exact h

theorem State.jrnPush_ul (s : State) (r : JRec) : (s.jrnPush r).ul = s.ul :=
  (congrArg State.ul (Eq.refl (s.jrnPush r))).trans (Eq.refl _)

theorem State.jrnDrop_ul (s : State) (n : Nat) : (s.jrnDrop n).ul = s.ul := by
  unfold State.jrnDrop
  rw [State.raise_ul, State.addFld_ul]

theorem State.jrnReportDropped_ul (s : State) : s.jrnReportDropped.ul = s.ul := by
  unfold State.jrnReportDropped
  split
  · exact Eq.refl _
  · exact State.jrnPush_ul _ _

@[simp] theorem State.journal_ul (s : State) (type source : Nat) (payload : BitVec 288) :
    (s.journal type source payload).ul = s.ul := by
  unfold State.journal
  dsimp only
  split
  · split
    · exact State.jrnPush_ul _ _
    · split
      · exact State.raise_ul _ _
      · split
        · exact (State.jrnPush_ul _ _).trans (State.jrnDrop_ul _ _)
        · exact State.jrnDrop_ul _ _
  · split
    · exact (State.jrnDrop_ul _ _).trans (State.jrnReportDropped_ul _)
    · exact (State.jrnPush_ul _ _).trans (State.jrnReportDropped_ul _)

theorem State.jrnEvent_ul (s : State) (code unit cause args : Nat) : (s.jrnEvent code unit cause args).ul = s.ul := by
  unfold State.jrnEvent
  dsimp only
  split
  · exact Eq.refl _
  · exact State.journal_ul _ _ _ _

theorem State.msi_ul (s : State) (n : Nat) : (s.msi n).ul = s.ul := by
  unfold State.msi
  split
  · exact Eq.refl _
  · split
    · exact State.raise_ul _ _
    · exact Eq.refl _

@[simp] theorem State.event_ul (s : State) (code unit cause args : Nat) : (s.event code unit cause args).ul = s.ul := by
  unfold State.event
  extract_lets sev s1 s2 s3
  have h : s3.ul = s.ul := by
    simp only [s3]
    split
    · exact (State.msi_ul _ _).trans ((State.setReg_ul _ _ _).trans (State.jrnEvent_ul _ _ _ _ _))
    · exact (State.setReg_ul _ _ _).trans (State.jrnEvent_ul _ _ _ _ _)
  clear_value s3
  split
  · rw [State.raise_ul, State.setFld_ul, State.setFld_ul, State.setFld_ul, h]
  · exact h

theorem State.jrnPush_rgl (s : State) (r : JRec) : (s.jrnPush r).rgl = s.rgl :=
  (congrArg State.rgl (Eq.refl (s.jrnPush r))).trans (Eq.refl _)

theorem State.jrnDrop_rgl (s : State) (n : Nat) : (s.jrnDrop n).rgl = s.rgl := by
  unfold State.jrnDrop
  rw [State.raise_rgl, State.addFld_rgl]

theorem State.jrnReportDropped_rgl (s : State) : s.jrnReportDropped.rgl = s.rgl := by
  unfold State.jrnReportDropped
  split
  · exact Eq.refl _
  · exact State.jrnPush_rgl _ _

@[simp] theorem State.journal_rgl (s : State) (type source : Nat) (payload : BitVec 288) :
    (s.journal type source payload).rgl = s.rgl := by
  unfold State.journal
  dsimp only
  split
  · split
    · exact State.jrnPush_rgl _ _
    · split
      · exact State.raise_rgl _ _
      · split
        · exact (State.jrnPush_rgl _ _).trans (State.jrnDrop_rgl _ _)
        · exact State.jrnDrop_rgl _ _
  · split
    · exact (State.jrnDrop_rgl _ _).trans (State.jrnReportDropped_rgl _)
    · exact (State.jrnPush_rgl _ _).trans (State.jrnReportDropped_rgl _)

theorem State.jrnEvent_rgl (s : State) (code unit cause args : Nat) : (s.jrnEvent code unit cause args).rgl = s.rgl := by
  unfold State.jrnEvent
  dsimp only
  split
  · exact Eq.refl _
  · exact State.journal_rgl _ _ _ _

theorem State.msi_rgl (s : State) (n : Nat) : (s.msi n).rgl = s.rgl := by
  unfold State.msi
  split
  · exact Eq.refl _
  · split
    · exact State.raise_rgl _ _
    · exact Eq.refl _

@[simp] theorem State.event_rgl (s : State) (code unit cause args : Nat) : (s.event code unit cause args).rgl = s.rgl := by
  unfold State.event
  extract_lets sev s1 s2 s3
  have h : s3.rgl = s.rgl := by
    simp only [s3]
    split
    · exact (State.msi_rgl _ _).trans ((State.setReg_rgl _ _ _).trans (State.jrnEvent_rgl _ _ _ _ _))
    · exact (State.setReg_rgl _ _ _).trans (State.jrnEvent_rgl _ _ _ _ _)
  clear_value s3
  split
  · rw [State.raise_rgl, State.setFld_rgl, State.setFld_rgl, State.setFld_rgl, h]
  · exact h

theorem State.jrnPush_tiles (s : State) (r : JRec) : (s.jrnPush r).tiles = s.tiles :=
  (congrArg State.tiles (Eq.refl (s.jrnPush r))).trans (Eq.refl _)

theorem State.jrnDrop_tiles (s : State) (n : Nat) : (s.jrnDrop n).tiles = s.tiles := by
  unfold State.jrnDrop
  rw [State.raise_tiles, State.addFld_tiles]

theorem State.jrnReportDropped_tiles (s : State) : s.jrnReportDropped.tiles = s.tiles := by
  unfold State.jrnReportDropped
  split
  · exact Eq.refl _
  · exact State.jrnPush_tiles _ _

@[simp] theorem State.journal_tiles (s : State) (type source : Nat) (payload : BitVec 288) :
    (s.journal type source payload).tiles = s.tiles := by
  unfold State.journal
  dsimp only
  split
  · split
    · exact State.jrnPush_tiles _ _
    · split
      · exact State.raise_tiles _ _
      · split
        · exact (State.jrnPush_tiles _ _).trans (State.jrnDrop_tiles _ _)
        · exact State.jrnDrop_tiles _ _
  · split
    · exact (State.jrnDrop_tiles _ _).trans (State.jrnReportDropped_tiles _)
    · exact (State.jrnPush_tiles _ _).trans (State.jrnReportDropped_tiles _)

theorem State.jrnEvent_tiles (s : State) (code unit cause args : Nat) : (s.jrnEvent code unit cause args).tiles = s.tiles := by
  unfold State.jrnEvent
  dsimp only
  split
  · exact Eq.refl _
  · exact State.journal_tiles _ _ _ _

theorem State.msi_tiles (s : State) (n : Nat) : (s.msi n).tiles = s.tiles := by
  unfold State.msi
  split
  · exact Eq.refl _
  · split
    · exact State.raise_tiles _ _
    · exact Eq.refl _

@[simp] theorem State.event_tiles (s : State) (code unit cause args : Nat) : (s.event code unit cause args).tiles = s.tiles := by
  unfold State.event
  extract_lets sev s1 s2 s3
  have h : s3.tiles = s.tiles := by
    simp only [s3]
    split
    · exact (State.msi_tiles _ _).trans ((State.setReg_tiles _ _ _).trans (State.jrnEvent_tiles _ _ _ _ _))
    · exact (State.setReg_tiles _ _ _).trans (State.jrnEvent_tiles _ _ _ _ _)
  clear_value s3
  split
  · rw [State.raise_tiles, State.setFld_tiles, State.setFld_tiles, State.setFld_tiles, h]
  · exact h

theorem State.jrnPush_ppl (s : State) (r : JRec) : (s.jrnPush r).ppl = s.ppl :=
  (congrArg State.ppl (Eq.refl (s.jrnPush r))).trans (Eq.refl _)

theorem State.jrnDrop_ppl (s : State) (n : Nat) : (s.jrnDrop n).ppl = s.ppl := by
  unfold State.jrnDrop
  rw [State.raise_ppl, State.addFld_ppl]

theorem State.jrnReportDropped_ppl (s : State) : s.jrnReportDropped.ppl = s.ppl := by
  unfold State.jrnReportDropped
  split
  · exact Eq.refl _
  · exact State.jrnPush_ppl _ _

@[simp] theorem State.journal_ppl (s : State) (type source : Nat) (payload : BitVec 288) :
    (s.journal type source payload).ppl = s.ppl := by
  unfold State.journal
  dsimp only
  split
  · split
    · exact State.jrnPush_ppl _ _
    · split
      · exact State.raise_ppl _ _
      · split
        · exact (State.jrnPush_ppl _ _).trans (State.jrnDrop_ppl _ _)
        · exact State.jrnDrop_ppl _ _
  · split
    · exact (State.jrnDrop_ppl _ _).trans (State.jrnReportDropped_ppl _)
    · exact (State.jrnPush_ppl _ _).trans (State.jrnReportDropped_ppl _)

theorem State.jrnEvent_ppl (s : State) (code unit cause args : Nat) : (s.jrnEvent code unit cause args).ppl = s.ppl := by
  unfold State.jrnEvent
  dsimp only
  split
  · exact Eq.refl _
  · exact State.journal_ppl _ _ _ _

theorem State.msi_ppl (s : State) (n : Nat) : (s.msi n).ppl = s.ppl := by
  unfold State.msi
  split
  · exact Eq.refl _
  · split
    · exact State.raise_ppl _ _
    · exact Eq.refl _

@[simp] theorem State.event_ppl (s : State) (code unit cause args : Nat) : (s.event code unit cause args).ppl = s.ppl := by
  unfold State.event
  extract_lets sev s1 s2 s3
  have h : s3.ppl = s.ppl := by
    simp only [s3]
    split
    · exact (State.msi_ppl _ _).trans ((State.setReg_ppl _ _ _).trans (State.jrnEvent_ppl _ _ _ _ _))
    · exact (State.setReg_ppl _ _ _).trans (State.jrnEvent_ppl _ _ _ _ _)
  clear_value s3
  split
  · rw [State.raise_ppl, State.setFld_ppl, State.setFld_ppl, State.setFld_ppl, h]
  · exact h

theorem State.jrnPush_kvl (s : State) (r : JRec) : (s.jrnPush r).kvl = s.kvl :=
  (congrArg State.kvl (Eq.refl (s.jrnPush r))).trans (Eq.refl _)

theorem State.jrnDrop_kvl (s : State) (n : Nat) : (s.jrnDrop n).kvl = s.kvl := by
  unfold State.jrnDrop
  rw [State.raise_kvl, State.addFld_kvl]

theorem State.jrnReportDropped_kvl (s : State) : s.jrnReportDropped.kvl = s.kvl := by
  unfold State.jrnReportDropped
  split
  · exact Eq.refl _
  · exact State.jrnPush_kvl _ _

@[simp] theorem State.journal_kvl (s : State) (type source : Nat) (payload : BitVec 288) :
    (s.journal type source payload).kvl = s.kvl := by
  unfold State.journal
  dsimp only
  split
  · split
    · exact State.jrnPush_kvl _ _
    · split
      · exact State.raise_kvl _ _
      · split
        · exact (State.jrnPush_kvl _ _).trans (State.jrnDrop_kvl _ _)
        · exact State.jrnDrop_kvl _ _
  · split
    · exact (State.jrnDrop_kvl _ _).trans (State.jrnReportDropped_kvl _)
    · exact (State.jrnPush_kvl _ _).trans (State.jrnReportDropped_kvl _)

theorem State.jrnEvent_kvl (s : State) (code unit cause args : Nat) : (s.jrnEvent code unit cause args).kvl = s.kvl := by
  unfold State.jrnEvent
  dsimp only
  split
  · exact Eq.refl _
  · exact State.journal_kvl _ _ _ _

theorem State.msi_kvl (s : State) (n : Nat) : (s.msi n).kvl = s.kvl := by
  unfold State.msi
  split
  · exact Eq.refl _
  · split
    · exact State.raise_kvl _ _
    · exact Eq.refl _

@[simp] theorem State.event_kvl (s : State) (code unit cause args : Nat) : (s.event code unit cause args).kvl = s.kvl := by
  unfold State.event
  extract_lets sev s1 s2 s3
  have h : s3.kvl = s.kvl := by
    simp only [s3]
    split
    · exact (State.msi_kvl _ _).trans ((State.setReg_kvl _ _ _).trans (State.jrnEvent_kvl _ _ _ _ _))
    · exact (State.setReg_kvl _ _ _).trans (State.jrnEvent_kvl _ _ _ _ _)
  clear_value s3
  split
  · rw [State.raise_kvl, State.setFld_kvl, State.setFld_kvl, State.setFld_kvl, h]
  · exact h

theorem State.jrnPush_belt (s : State) (r : JRec) : (s.jrnPush r).belt = s.belt :=
  (congrArg State.belt (Eq.refl (s.jrnPush r))).trans (Eq.refl _)

theorem State.jrnDrop_belt (s : State) (n : Nat) : (s.jrnDrop n).belt = s.belt := by
  unfold State.jrnDrop
  rw [State.raise_belt, State.addFld_belt]

theorem State.jrnReportDropped_belt (s : State) : s.jrnReportDropped.belt = s.belt := by
  unfold State.jrnReportDropped
  split
  · exact Eq.refl _
  · exact State.jrnPush_belt _ _

@[simp] theorem State.journal_belt (s : State) (type source : Nat) (payload : BitVec 288) :
    (s.journal type source payload).belt = s.belt := by
  unfold State.journal
  dsimp only
  split
  · split
    · exact State.jrnPush_belt _ _
    · split
      · exact State.raise_belt _ _
      · split
        · exact (State.jrnPush_belt _ _).trans (State.jrnDrop_belt _ _)
        · exact State.jrnDrop_belt _ _
  · split
    · exact (State.jrnDrop_belt _ _).trans (State.jrnReportDropped_belt _)
    · exact (State.jrnPush_belt _ _).trans (State.jrnReportDropped_belt _)

theorem State.jrnEvent_belt (s : State) (code unit cause args : Nat) : (s.jrnEvent code unit cause args).belt = s.belt := by
  unfold State.jrnEvent
  dsimp only
  split
  · exact Eq.refl _
  · exact State.journal_belt _ _ _ _

theorem State.msi_belt (s : State) (n : Nat) : (s.msi n).belt = s.belt := by
  unfold State.msi
  split
  · exact Eq.refl _
  · split
    · exact State.raise_belt _ _
    · exact Eq.refl _

@[simp] theorem State.event_belt (s : State) (code unit cause args : Nat) : (s.event code unit cause args).belt = s.belt := by
  unfold State.event
  extract_lets sev s1 s2 s3
  have h : s3.belt = s.belt := by
    simp only [s3]
    split
    · exact (State.msi_belt _ _).trans ((State.setReg_belt _ _ _).trans (State.jrnEvent_belt _ _ _ _ _))
    · exact (State.setReg_belt _ _ _).trans (State.jrnEvent_belt _ _ _ _ _)
  clear_value s3
  split
  · rw [State.raise_belt, State.setFld_belt, State.setFld_belt, State.setFld_belt, h]
  · exact h

theorem State.jrnPush_ring (s : State) (r : JRec) : (s.jrnPush r).ring = s.ring :=
  (congrArg State.ring (Eq.refl (s.jrnPush r))).trans (Eq.refl _)

theorem State.jrnDrop_ring (s : State) (n : Nat) : (s.jrnDrop n).ring = s.ring := by
  unfold State.jrnDrop
  rw [State.raise_ring, State.addFld_ring]

theorem State.jrnReportDropped_ring (s : State) : s.jrnReportDropped.ring = s.ring := by
  unfold State.jrnReportDropped
  split
  · exact Eq.refl _
  · exact State.jrnPush_ring _ _

@[simp] theorem State.journal_ring (s : State) (type source : Nat) (payload : BitVec 288) :
    (s.journal type source payload).ring = s.ring := by
  unfold State.journal
  dsimp only
  split
  · split
    · exact State.jrnPush_ring _ _
    · split
      · exact State.raise_ring _ _
      · split
        · exact (State.jrnPush_ring _ _).trans (State.jrnDrop_ring _ _)
        · exact State.jrnDrop_ring _ _
  · split
    · exact (State.jrnDrop_ring _ _).trans (State.jrnReportDropped_ring _)
    · exact (State.jrnPush_ring _ _).trans (State.jrnReportDropped_ring _)

theorem State.jrnEvent_ring (s : State) (code unit cause args : Nat) : (s.jrnEvent code unit cause args).ring = s.ring := by
  unfold State.jrnEvent
  dsimp only
  split
  · exact Eq.refl _
  · exact State.journal_ring _ _ _ _

theorem State.msi_ring (s : State) (n : Nat) : (s.msi n).ring = s.ring := by
  unfold State.msi
  split
  · exact Eq.refl _
  · split
    · exact State.raise_ring _ _
    · exact Eq.refl _

@[simp] theorem State.event_ring (s : State) (code unit cause args : Nat) : (s.event code unit cause args).ring = s.ring := by
  unfold State.event
  extract_lets sev s1 s2 s3
  have h : s3.ring = s.ring := by
    simp only [s3]
    split
    · exact (State.msi_ring _ _).trans ((State.setReg_ring _ _ _).trans (State.jrnEvent_ring _ _ _ _ _))
    · exact (State.setReg_ring _ _ _).trans (State.jrnEvent_ring _ _ _ _ _)
  clear_value s3
  split
  · rw [State.raise_ring, State.setFld_ring, State.setFld_ring, State.setFld_ring, h]
  · exact h

theorem State.jrnPush_free (s : State) (r : JRec) : (s.jrnPush r).free = s.free :=
  (congrArg State.free (Eq.refl (s.jrnPush r))).trans (Eq.refl _)

theorem State.jrnDrop_free (s : State) (n : Nat) : (s.jrnDrop n).free = s.free := by
  unfold State.jrnDrop
  rw [State.raise_free, State.addFld_free]

theorem State.jrnReportDropped_free (s : State) : s.jrnReportDropped.free = s.free := by
  unfold State.jrnReportDropped
  split
  · exact Eq.refl _
  · exact State.jrnPush_free _ _

@[simp] theorem State.journal_free (s : State) (type source : Nat) (payload : BitVec 288) :
    (s.journal type source payload).free = s.free := by
  unfold State.journal
  dsimp only
  split
  · split
    · exact State.jrnPush_free _ _
    · split
      · exact State.raise_free _ _
      · split
        · exact (State.jrnPush_free _ _).trans (State.jrnDrop_free _ _)
        · exact State.jrnDrop_free _ _
  · split
    · exact (State.jrnDrop_free _ _).trans (State.jrnReportDropped_free _)
    · exact (State.jrnPush_free _ _).trans (State.jrnReportDropped_free _)

theorem State.jrnEvent_free (s : State) (code unit cause args : Nat) : (s.jrnEvent code unit cause args).free = s.free := by
  unfold State.jrnEvent
  dsimp only
  split
  · exact Eq.refl _
  · exact State.journal_free _ _ _ _

theorem State.msi_free (s : State) (n : Nat) : (s.msi n).free = s.free := by
  unfold State.msi
  split
  · exact Eq.refl _
  · split
    · exact State.raise_free _ _
    · exact Eq.refl _

@[simp] theorem State.event_free (s : State) (code unit cause args : Nat) : (s.event code unit cause args).free = s.free := by
  unfold State.event
  extract_lets sev s1 s2 s3
  have h : s3.free = s.free := by
    simp only [s3]
    split
    · exact (State.msi_free _ _).trans ((State.setReg_free _ _ _).trans (State.jrnEvent_free _ _ _ _ _))
    · exact (State.setReg_free _ _ _).trans (State.jrnEvent_free _ _ _ _ _)
  clear_value s3
  split
  · rw [State.raise_free, State.setFld_free, State.setFld_free, State.setFld_free, h]
  · exact h

theorem State.jrnPush_pending (s : State) (r : JRec) : (s.jrnPush r).pending = s.pending :=
  (congrArg State.pending (Eq.refl (s.jrnPush r))).trans (Eq.refl _)

theorem State.jrnDrop_pending (s : State) (n : Nat) : (s.jrnDrop n).pending = s.pending := by
  unfold State.jrnDrop
  rw [State.raise_pending, State.addFld_pending]

theorem State.jrnReportDropped_pending (s : State) : s.jrnReportDropped.pending = s.pending := by
  unfold State.jrnReportDropped
  split
  · exact Eq.refl _
  · exact State.jrnPush_pending _ _

@[simp] theorem State.journal_pending (s : State) (type source : Nat) (payload : BitVec 288) :
    (s.journal type source payload).pending = s.pending := by
  unfold State.journal
  dsimp only
  split
  · split
    · exact State.jrnPush_pending _ _
    · split
      · exact State.raise_pending _ _
      · split
        · exact (State.jrnPush_pending _ _).trans (State.jrnDrop_pending _ _)
        · exact State.jrnDrop_pending _ _
  · split
    · exact (State.jrnDrop_pending _ _).trans (State.jrnReportDropped_pending _)
    · exact (State.jrnPush_pending _ _).trans (State.jrnReportDropped_pending _)

theorem State.jrnEvent_pending (s : State) (code unit cause args : Nat) : (s.jrnEvent code unit cause args).pending = s.pending := by
  unfold State.jrnEvent
  dsimp only
  split
  · exact Eq.refl _
  · exact State.journal_pending _ _ _ _

theorem State.msi_pending (s : State) (n : Nat) : (s.msi n).pending = s.pending := by
  unfold State.msi
  split
  · exact Eq.refl _
  · split
    · exact State.raise_pending _ _
    · exact Eq.refl _

@[simp] theorem State.event_pending (s : State) (code unit cause args : Nat) : (s.event code unit cause args).pending = s.pending := by
  unfold State.event
  extract_lets sev s1 s2 s3
  have h : s3.pending = s.pending := by
    simp only [s3]
    split
    · exact (State.msi_pending _ _).trans ((State.setReg_pending _ _ _).trans (State.jrnEvent_pending _ _ _ _ _))
    · exact (State.setReg_pending _ _ _).trans (State.jrnEvent_pending _ _ _ _ _)
  clear_value s3
  split
  · rw [State.raise_pending, State.setFld_pending, State.setFld_pending, State.setFld_pending, h]
  · exact h

/-! ## Updates of one part of the state: every other part is as it was -/

@[simp] theorem State.clearTx_regs (s : State) : (s.clearTx).regs = s.regs := Eq.refl _
@[simp] theorem State.clearTx_pairCap (s : State) : (s.clearTx).pairCap = s.pairCap := Eq.refl _
@[simp] theorem State.clearTx_pairLo (s : State) : (s.clearTx).pairLo = s.pairLo := Eq.refl _
@[simp] theorem State.clearTx_pins (s : State) : (s.clearTx).pins = s.pins := Eq.refl _
@[simp] theorem State.clearTx_boot (s : State) : (s.clearTx).boot = s.boot := Eq.refl _
@[simp] theorem State.clearTx_stack (s : State) : (s.clearTx).stack = s.stack := Eq.refl _
@[simp] theorem State.clearTx_jrn (s : State) : (s.clearTx).jrn = s.jrn := Eq.refl _
@[simp] theorem State.clearTx_flash (s : State) : (s.clearTx).flash = s.flash := Eq.refl _
@[simp] theorem State.clearTx_host (s : State) : (s.clearTx).host = s.host := Eq.refl _
@[simp] theorem State.clearTx_power (s : State) : (s.clearTx).power = s.power := Eq.refl _
@[simp] theorem State.clearTx_i3c (s : State) : (s.clearTx).i3c = s.i3c := Eq.refl _
@[simp] theorem State.clearTx_tap (s : State) : (s.clearTx).tap = s.tap := Eq.refl _
@[simp] theorem State.clearTx_ul (s : State) : (s.clearTx).ul = s.ul := Eq.refl _
@[simp] theorem State.clearTx_rgl (s : State) : (s.clearTx).rgl = s.rgl := Eq.refl _
@[simp] theorem State.clearTx_tiles (s : State) : (s.clearTx).tiles = s.tiles := Eq.refl _
@[simp] theorem State.clearTx_ppl (s : State) : (s.clearTx).ppl = s.ppl := Eq.refl _
@[simp] theorem State.clearTx_kvl (s : State) : (s.clearTx).kvl = s.kvl := Eq.refl _
@[simp] theorem State.clearTx_belt (s : State) : (s.clearTx).belt = s.belt := Eq.refl _
@[simp] theorem State.clearTx_free (s : State) : (s.clearTx).free = s.free := Eq.refl _
@[simp] theorem State.clearTx_pending (s : State) : (s.clearTx).pending = s.pending := Eq.refl _

@[simp] theorem State.setTile_regs (s : State) (c p : Nat) (t : Tile) : (s.setTile c p t).regs = s.regs := Eq.refl _
@[simp] theorem State.setTile_pairCap (s : State) (c p : Nat) (t : Tile) : (s.setTile c p t).pairCap = s.pairCap := Eq.refl _
@[simp] theorem State.setTile_pairLo (s : State) (c p : Nat) (t : Tile) : (s.setTile c p t).pairLo = s.pairLo := Eq.refl _
@[simp] theorem State.setTile_pins (s : State) (c p : Nat) (t : Tile) : (s.setTile c p t).pins = s.pins := Eq.refl _
@[simp] theorem State.setTile_boot (s : State) (c p : Nat) (t : Tile) : (s.setTile c p t).boot = s.boot := Eq.refl _
@[simp] theorem State.setTile_stack (s : State) (c p : Nat) (t : Tile) : (s.setTile c p t).stack = s.stack := Eq.refl _
@[simp] theorem State.setTile_jrn (s : State) (c p : Nat) (t : Tile) : (s.setTile c p t).jrn = s.jrn := Eq.refl _
@[simp] theorem State.setTile_flash (s : State) (c p : Nat) (t : Tile) : (s.setTile c p t).flash = s.flash := Eq.refl _
@[simp] theorem State.setTile_host (s : State) (c p : Nat) (t : Tile) : (s.setTile c p t).host = s.host := Eq.refl _
@[simp] theorem State.setTile_power (s : State) (c p : Nat) (t : Tile) : (s.setTile c p t).power = s.power := Eq.refl _
@[simp] theorem State.setTile_i3c (s : State) (c p : Nat) (t : Tile) : (s.setTile c p t).i3c = s.i3c := Eq.refl _
@[simp] theorem State.setTile_tap (s : State) (c p : Nat) (t : Tile) : (s.setTile c p t).tap = s.tap := Eq.refl _
@[simp] theorem State.setTile_ul (s : State) (c p : Nat) (t : Tile) : (s.setTile c p t).ul = s.ul := Eq.refl _
@[simp] theorem State.setTile_rgl (s : State) (c p : Nat) (t : Tile) : (s.setTile c p t).rgl = s.rgl := Eq.refl _
@[simp] theorem State.setTile_ppl (s : State) (c p : Nat) (t : Tile) : (s.setTile c p t).ppl = s.ppl := Eq.refl _
@[simp] theorem State.setTile_kvl (s : State) (c p : Nat) (t : Tile) : (s.setTile c p t).kvl = s.kvl := Eq.refl _
@[simp] theorem State.setTile_belt (s : State) (c p : Nat) (t : Tile) : (s.setTile c p t).belt = s.belt := Eq.refl _
@[simp] theorem State.setTile_ring (s : State) (c p : Nat) (t : Tile) : (s.setTile c p t).ring = s.ring := Eq.refl _
@[simp] theorem State.setTile_free (s : State) (c p : Nat) (t : Tile) : (s.setTile c p t).free = s.free := Eq.refl _
@[simp] theorem State.setTile_pending (s : State) (c p : Nat) (t : Tile) : (s.setTile c p t).pending = s.pending := Eq.refl _

@[simp] theorem State.setCluster_regs (s : State) (c : Nat) (k : Cluster) : (s.setCluster c k).regs = s.regs := Eq.refl _
@[simp] theorem State.setCluster_pairCap (s : State) (c : Nat) (k : Cluster) : (s.setCluster c k).pairCap = s.pairCap := Eq.refl _
@[simp] theorem State.setCluster_pairLo (s : State) (c : Nat) (k : Cluster) : (s.setCluster c k).pairLo = s.pairLo := Eq.refl _
@[simp] theorem State.setCluster_pins (s : State) (c : Nat) (k : Cluster) : (s.setCluster c k).pins = s.pins := Eq.refl _
@[simp] theorem State.setCluster_boot (s : State) (c : Nat) (k : Cluster) : (s.setCluster c k).boot = s.boot := Eq.refl _
@[simp] theorem State.setCluster_stack (s : State) (c : Nat) (k : Cluster) : (s.setCluster c k).stack = s.stack := Eq.refl _
@[simp] theorem State.setCluster_jrn (s : State) (c : Nat) (k : Cluster) : (s.setCluster c k).jrn = s.jrn := Eq.refl _
@[simp] theorem State.setCluster_flash (s : State) (c : Nat) (k : Cluster) : (s.setCluster c k).flash = s.flash := Eq.refl _
@[simp] theorem State.setCluster_host (s : State) (c : Nat) (k : Cluster) : (s.setCluster c k).host = s.host := Eq.refl _
@[simp] theorem State.setCluster_power (s : State) (c : Nat) (k : Cluster) : (s.setCluster c k).power = s.power := Eq.refl _
@[simp] theorem State.setCluster_i3c (s : State) (c : Nat) (k : Cluster) : (s.setCluster c k).i3c = s.i3c := Eq.refl _
@[simp] theorem State.setCluster_tap (s : State) (c : Nat) (k : Cluster) : (s.setCluster c k).tap = s.tap := Eq.refl _
@[simp] theorem State.setCluster_ul (s : State) (c : Nat) (k : Cluster) : (s.setCluster c k).ul = s.ul := Eq.refl _
@[simp] theorem State.setCluster_rgl (s : State) (c : Nat) (k : Cluster) : (s.setCluster c k).rgl = s.rgl := Eq.refl _
@[simp] theorem State.setCluster_tiles (s : State) (c : Nat) (k : Cluster) : (s.setCluster c k).tiles = s.tiles := Eq.refl _
@[simp] theorem State.setCluster_kvl (s : State) (c : Nat) (k : Cluster) : (s.setCluster c k).kvl = s.kvl := Eq.refl _
@[simp] theorem State.setCluster_belt (s : State) (c : Nat) (k : Cluster) : (s.setCluster c k).belt = s.belt := Eq.refl _
@[simp] theorem State.setCluster_ring (s : State) (c : Nat) (k : Cluster) : (s.setCluster c k).ring = s.ring := Eq.refl _
@[simp] theorem State.setCluster_free (s : State) (c : Nat) (k : Cluster) : (s.setCluster c k).free = s.free := Eq.refl _
@[simp] theorem State.setCluster_pending (s : State) (c : Nat) (k : Cluster) : (s.setCluster c k).pending = s.pending := Eq.refl _

@[simp] theorem State.setForm_regs (s : State) (pipe cls : Nat) (f : Forming) : (s.setForm pipe cls f).regs = s.regs := Eq.refl _
@[simp] theorem State.setForm_pairCap (s : State) (pipe cls : Nat) (f : Forming) : (s.setForm pipe cls f).pairCap = s.pairCap := Eq.refl _
@[simp] theorem State.setForm_pairLo (s : State) (pipe cls : Nat) (f : Forming) : (s.setForm pipe cls f).pairLo = s.pairLo := Eq.refl _
@[simp] theorem State.setForm_pins (s : State) (pipe cls : Nat) (f : Forming) : (s.setForm pipe cls f).pins = s.pins := Eq.refl _
@[simp] theorem State.setForm_boot (s : State) (pipe cls : Nat) (f : Forming) : (s.setForm pipe cls f).boot = s.boot := Eq.refl _
@[simp] theorem State.setForm_stack (s : State) (pipe cls : Nat) (f : Forming) : (s.setForm pipe cls f).stack = s.stack := Eq.refl _
@[simp] theorem State.setForm_jrn (s : State) (pipe cls : Nat) (f : Forming) : (s.setForm pipe cls f).jrn = s.jrn := Eq.refl _
@[simp] theorem State.setForm_flash (s : State) (pipe cls : Nat) (f : Forming) : (s.setForm pipe cls f).flash = s.flash := Eq.refl _
@[simp] theorem State.setForm_host (s : State) (pipe cls : Nat) (f : Forming) : (s.setForm pipe cls f).host = s.host := Eq.refl _
@[simp] theorem State.setForm_power (s : State) (pipe cls : Nat) (f : Forming) : (s.setForm pipe cls f).power = s.power := Eq.refl _
@[simp] theorem State.setForm_i3c (s : State) (pipe cls : Nat) (f : Forming) : (s.setForm pipe cls f).i3c = s.i3c := Eq.refl _
@[simp] theorem State.setForm_tap (s : State) (pipe cls : Nat) (f : Forming) : (s.setForm pipe cls f).tap = s.tap := Eq.refl _
@[simp] theorem State.setForm_ul (s : State) (pipe cls : Nat) (f : Forming) : (s.setForm pipe cls f).ul = s.ul := Eq.refl _
@[simp] theorem State.setForm_rgl (s : State) (pipe cls : Nat) (f : Forming) : (s.setForm pipe cls f).rgl = s.rgl := Eq.refl _
@[simp] theorem State.setForm_tiles (s : State) (pipe cls : Nat) (f : Forming) : (s.setForm pipe cls f).tiles = s.tiles := Eq.refl _
@[simp] theorem State.setForm_kvl (s : State) (pipe cls : Nat) (f : Forming) : (s.setForm pipe cls f).kvl = s.kvl := Eq.refl _
@[simp] theorem State.setForm_belt (s : State) (pipe cls : Nat) (f : Forming) : (s.setForm pipe cls f).belt = s.belt := Eq.refl _
@[simp] theorem State.setForm_ring (s : State) (pipe cls : Nat) (f : Forming) : (s.setForm pipe cls f).ring = s.ring := Eq.refl _
@[simp] theorem State.setForm_free (s : State) (pipe cls : Nat) (f : Forming) : (s.setForm pipe cls f).free = s.free := Eq.refl _
@[simp] theorem State.setForm_pending (s : State) (pipe cls : Nat) (f : Forming) : (s.setForm pipe cls f).pending = s.pending := Eq.refl _

@[simp] theorem State.setTrain_regs (s : State) (pipe : Nat) (t : Train) : (s.setTrain pipe t).regs = s.regs := Eq.refl _
@[simp] theorem State.setTrain_pairCap (s : State) (pipe : Nat) (t : Train) : (s.setTrain pipe t).pairCap = s.pairCap := Eq.refl _
@[simp] theorem State.setTrain_pairLo (s : State) (pipe : Nat) (t : Train) : (s.setTrain pipe t).pairLo = s.pairLo := Eq.refl _
@[simp] theorem State.setTrain_pins (s : State) (pipe : Nat) (t : Train) : (s.setTrain pipe t).pins = s.pins := Eq.refl _
@[simp] theorem State.setTrain_boot (s : State) (pipe : Nat) (t : Train) : (s.setTrain pipe t).boot = s.boot := Eq.refl _
@[simp] theorem State.setTrain_stack (s : State) (pipe : Nat) (t : Train) : (s.setTrain pipe t).stack = s.stack := Eq.refl _
@[simp] theorem State.setTrain_jrn (s : State) (pipe : Nat) (t : Train) : (s.setTrain pipe t).jrn = s.jrn := Eq.refl _
@[simp] theorem State.setTrain_flash (s : State) (pipe : Nat) (t : Train) : (s.setTrain pipe t).flash = s.flash := Eq.refl _
@[simp] theorem State.setTrain_host (s : State) (pipe : Nat) (t : Train) : (s.setTrain pipe t).host = s.host := Eq.refl _
@[simp] theorem State.setTrain_power (s : State) (pipe : Nat) (t : Train) : (s.setTrain pipe t).power = s.power := Eq.refl _
@[simp] theorem State.setTrain_i3c (s : State) (pipe : Nat) (t : Train) : (s.setTrain pipe t).i3c = s.i3c := Eq.refl _
@[simp] theorem State.setTrain_tap (s : State) (pipe : Nat) (t : Train) : (s.setTrain pipe t).tap = s.tap := Eq.refl _
@[simp] theorem State.setTrain_ul (s : State) (pipe : Nat) (t : Train) : (s.setTrain pipe t).ul = s.ul := Eq.refl _
@[simp] theorem State.setTrain_rgl (s : State) (pipe : Nat) (t : Train) : (s.setTrain pipe t).rgl = s.rgl := Eq.refl _
@[simp] theorem State.setTrain_tiles (s : State) (pipe : Nat) (t : Train) : (s.setTrain pipe t).tiles = s.tiles := Eq.refl _
@[simp] theorem State.setTrain_kvl (s : State) (pipe : Nat) (t : Train) : (s.setTrain pipe t).kvl = s.kvl := Eq.refl _
@[simp] theorem State.setTrain_belt (s : State) (pipe : Nat) (t : Train) : (s.setTrain pipe t).belt = s.belt := Eq.refl _
@[simp] theorem State.setTrain_ring (s : State) (pipe : Nat) (t : Train) : (s.setTrain pipe t).ring = s.ring := Eq.refl _
@[simp] theorem State.setTrain_free (s : State) (pipe : Nat) (t : Train) : (s.setTrain pipe t).free = s.free := Eq.refl _
@[simp] theorem State.setTrain_pending (s : State) (pipe : Nat) (t : Train) : (s.setTrain pipe t).pending = s.pending := Eq.refl _

@[simp] theorem State.setPort_regs (s : State) (x : Nat) (p : Port) : (s.setPort x p).regs = s.regs := Eq.refl _
@[simp] theorem State.setPort_pairCap (s : State) (x : Nat) (p : Port) : (s.setPort x p).pairCap = s.pairCap := Eq.refl _
@[simp] theorem State.setPort_pairLo (s : State) (x : Nat) (p : Port) : (s.setPort x p).pairLo = s.pairLo := Eq.refl _
@[simp] theorem State.setPort_pins (s : State) (x : Nat) (p : Port) : (s.setPort x p).pins = s.pins := Eq.refl _
@[simp] theorem State.setPort_boot (s : State) (x : Nat) (p : Port) : (s.setPort x p).boot = s.boot := Eq.refl _
@[simp] theorem State.setPort_stack (s : State) (x : Nat) (p : Port) : (s.setPort x p).stack = s.stack := Eq.refl _
@[simp] theorem State.setPort_jrn (s : State) (x : Nat) (p : Port) : (s.setPort x p).jrn = s.jrn := Eq.refl _
@[simp] theorem State.setPort_flash (s : State) (x : Nat) (p : Port) : (s.setPort x p).flash = s.flash := Eq.refl _
@[simp] theorem State.setPort_host (s : State) (x : Nat) (p : Port) : (s.setPort x p).host = s.host := Eq.refl _
@[simp] theorem State.setPort_power (s : State) (x : Nat) (p : Port) : (s.setPort x p).power = s.power := Eq.refl _
@[simp] theorem State.setPort_i3c (s : State) (x : Nat) (p : Port) : (s.setPort x p).i3c = s.i3c := Eq.refl _
@[simp] theorem State.setPort_tap (s : State) (x : Nat) (p : Port) : (s.setPort x p).tap = s.tap := Eq.refl _
@[simp] theorem State.setPort_ul (s : State) (x : Nat) (p : Port) : (s.setPort x p).ul = s.ul := Eq.refl _
@[simp] theorem State.setPort_rgl (s : State) (x : Nat) (p : Port) : (s.setPort x p).rgl = s.rgl := Eq.refl _
@[simp] theorem State.setPort_tiles (s : State) (x : Nat) (p : Port) : (s.setPort x p).tiles = s.tiles := Eq.refl _
@[simp] theorem State.setPort_ppl (s : State) (x : Nat) (p : Port) : (s.setPort x p).ppl = s.ppl := Eq.refl _
@[simp] theorem State.setPort_kvl (s : State) (x : Nat) (p : Port) : (s.setPort x p).kvl = s.kvl := Eq.refl _
@[simp] theorem State.setPort_belt (s : State) (x : Nat) (p : Port) : (s.setPort x p).belt = s.belt := Eq.refl _
@[simp] theorem State.setPort_free (s : State) (x : Nat) (p : Port) : (s.setPort x p).free = s.free := Eq.refl _
@[simp] theorem State.setPort_pending (s : State) (x : Nat) (p : Port) : (s.setPort x p).pending = s.pending := Eq.refl _

@[simp] theorem State.setLine_regs (s : State) (k : Nat) (l : Line) : (s.setLine k l).regs = s.regs := Eq.refl _
@[simp] theorem State.setLine_pairCap (s : State) (k : Nat) (l : Line) : (s.setLine k l).pairCap = s.pairCap := Eq.refl _
@[simp] theorem State.setLine_pairLo (s : State) (k : Nat) (l : Line) : (s.setLine k l).pairLo = s.pairLo := Eq.refl _
@[simp] theorem State.setLine_pins (s : State) (k : Nat) (l : Line) : (s.setLine k l).pins = s.pins := Eq.refl _
@[simp] theorem State.setLine_boot (s : State) (k : Nat) (l : Line) : (s.setLine k l).boot = s.boot := Eq.refl _
@[simp] theorem State.setLine_stack (s : State) (k : Nat) (l : Line) : (s.setLine k l).stack = s.stack := Eq.refl _
@[simp] theorem State.setLine_jrn (s : State) (k : Nat) (l : Line) : (s.setLine k l).jrn = s.jrn := Eq.refl _
@[simp] theorem State.setLine_flash (s : State) (k : Nat) (l : Line) : (s.setLine k l).flash = s.flash := Eq.refl _
@[simp] theorem State.setLine_host (s : State) (k : Nat) (l : Line) : (s.setLine k l).host = s.host := Eq.refl _
@[simp] theorem State.setLine_power (s : State) (k : Nat) (l : Line) : (s.setLine k l).power = s.power := Eq.refl _
@[simp] theorem State.setLine_i3c (s : State) (k : Nat) (l : Line) : (s.setLine k l).i3c = s.i3c := Eq.refl _
@[simp] theorem State.setLine_tap (s : State) (k : Nat) (l : Line) : (s.setLine k l).tap = s.tap := Eq.refl _
@[simp] theorem State.setLine_rgl (s : State) (k : Nat) (l : Line) : (s.setLine k l).rgl = s.rgl := Eq.refl _
@[simp] theorem State.setLine_tiles (s : State) (k : Nat) (l : Line) : (s.setLine k l).tiles = s.tiles := Eq.refl _
@[simp] theorem State.setLine_ppl (s : State) (k : Nat) (l : Line) : (s.setLine k l).ppl = s.ppl := Eq.refl _
@[simp] theorem State.setLine_kvl (s : State) (k : Nat) (l : Line) : (s.setLine k l).kvl = s.kvl := Eq.refl _
@[simp] theorem State.setLine_belt (s : State) (k : Nat) (l : Line) : (s.setLine k l).belt = s.belt := Eq.refl _
@[simp] theorem State.setLine_ring (s : State) (k : Nat) (l : Line) : (s.setLine k l).ring = s.ring := Eq.refl _
@[simp] theorem State.setLine_free (s : State) (k : Nat) (l : Line) : (s.setLine k l).free = s.free := Eq.refl _
@[simp] theorem State.setLine_pending (s : State) (k : Nat) (l : Line) : (s.setLine k l).pending = s.pending := Eq.refl _

@[simp] theorem State.setMshr_regs (s : State) (slice : Nat) (l : List Mshr) : (s.setMshr slice l).regs = s.regs := Eq.refl _
@[simp] theorem State.setMshr_pairCap (s : State) (slice : Nat) (l : List Mshr) : (s.setMshr slice l).pairCap = s.pairCap := Eq.refl _
@[simp] theorem State.setMshr_pairLo (s : State) (slice : Nat) (l : List Mshr) : (s.setMshr slice l).pairLo = s.pairLo := Eq.refl _
@[simp] theorem State.setMshr_pins (s : State) (slice : Nat) (l : List Mshr) : (s.setMshr slice l).pins = s.pins := Eq.refl _
@[simp] theorem State.setMshr_boot (s : State) (slice : Nat) (l : List Mshr) : (s.setMshr slice l).boot = s.boot := Eq.refl _
@[simp] theorem State.setMshr_stack (s : State) (slice : Nat) (l : List Mshr) : (s.setMshr slice l).stack = s.stack := Eq.refl _
@[simp] theorem State.setMshr_jrn (s : State) (slice : Nat) (l : List Mshr) : (s.setMshr slice l).jrn = s.jrn := Eq.refl _
@[simp] theorem State.setMshr_flash (s : State) (slice : Nat) (l : List Mshr) : (s.setMshr slice l).flash = s.flash := Eq.refl _
@[simp] theorem State.setMshr_host (s : State) (slice : Nat) (l : List Mshr) : (s.setMshr slice l).host = s.host := Eq.refl _
@[simp] theorem State.setMshr_power (s : State) (slice : Nat) (l : List Mshr) : (s.setMshr slice l).power = s.power := Eq.refl _
@[simp] theorem State.setMshr_i3c (s : State) (slice : Nat) (l : List Mshr) : (s.setMshr slice l).i3c = s.i3c := Eq.refl _
@[simp] theorem State.setMshr_tap (s : State) (slice : Nat) (l : List Mshr) : (s.setMshr slice l).tap = s.tap := Eq.refl _
@[simp] theorem State.setMshr_rgl (s : State) (slice : Nat) (l : List Mshr) : (s.setMshr slice l).rgl = s.rgl := Eq.refl _
@[simp] theorem State.setMshr_tiles (s : State) (slice : Nat) (l : List Mshr) : (s.setMshr slice l).tiles = s.tiles := Eq.refl _
@[simp] theorem State.setMshr_ppl (s : State) (slice : Nat) (l : List Mshr) : (s.setMshr slice l).ppl = s.ppl := Eq.refl _
@[simp] theorem State.setMshr_kvl (s : State) (slice : Nat) (l : List Mshr) : (s.setMshr slice l).kvl = s.kvl := Eq.refl _
@[simp] theorem State.setMshr_belt (s : State) (slice : Nat) (l : List Mshr) : (s.setMshr slice l).belt = s.belt := Eq.refl _
@[simp] theorem State.setMshr_ring (s : State) (slice : Nat) (l : List Mshr) : (s.setMshr slice l).ring = s.ring := Eq.refl _
@[simp] theorem State.setMshr_free (s : State) (slice : Nat) (l : List Mshr) : (s.setMshr slice l).free = s.free := Eq.refl _
@[simp] theorem State.setMshr_pending (s : State) (slice : Nat) (l : List Mshr) : (s.setMshr slice l).pending = s.pending := Eq.refl _

@[simp] theorem State.setInq_regs (s : State) (slice : Nat) (l : List UlOp) : (s.setInq slice l).regs = s.regs := Eq.refl _
@[simp] theorem State.setInq_pairCap (s : State) (slice : Nat) (l : List UlOp) : (s.setInq slice l).pairCap = s.pairCap := Eq.refl _
@[simp] theorem State.setInq_pairLo (s : State) (slice : Nat) (l : List UlOp) : (s.setInq slice l).pairLo = s.pairLo := Eq.refl _
@[simp] theorem State.setInq_pins (s : State) (slice : Nat) (l : List UlOp) : (s.setInq slice l).pins = s.pins := Eq.refl _
@[simp] theorem State.setInq_boot (s : State) (slice : Nat) (l : List UlOp) : (s.setInq slice l).boot = s.boot := Eq.refl _
@[simp] theorem State.setInq_stack (s : State) (slice : Nat) (l : List UlOp) : (s.setInq slice l).stack = s.stack := Eq.refl _
@[simp] theorem State.setInq_jrn (s : State) (slice : Nat) (l : List UlOp) : (s.setInq slice l).jrn = s.jrn := Eq.refl _
@[simp] theorem State.setInq_flash (s : State) (slice : Nat) (l : List UlOp) : (s.setInq slice l).flash = s.flash := Eq.refl _
@[simp] theorem State.setInq_host (s : State) (slice : Nat) (l : List UlOp) : (s.setInq slice l).host = s.host := Eq.refl _
@[simp] theorem State.setInq_power (s : State) (slice : Nat) (l : List UlOp) : (s.setInq slice l).power = s.power := Eq.refl _
@[simp] theorem State.setInq_i3c (s : State) (slice : Nat) (l : List UlOp) : (s.setInq slice l).i3c = s.i3c := Eq.refl _
@[simp] theorem State.setInq_tap (s : State) (slice : Nat) (l : List UlOp) : (s.setInq slice l).tap = s.tap := Eq.refl _
@[simp] theorem State.setInq_rgl (s : State) (slice : Nat) (l : List UlOp) : (s.setInq slice l).rgl = s.rgl := Eq.refl _
@[simp] theorem State.setInq_tiles (s : State) (slice : Nat) (l : List UlOp) : (s.setInq slice l).tiles = s.tiles := Eq.refl _
@[simp] theorem State.setInq_ppl (s : State) (slice : Nat) (l : List UlOp) : (s.setInq slice l).ppl = s.ppl := Eq.refl _
@[simp] theorem State.setInq_kvl (s : State) (slice : Nat) (l : List UlOp) : (s.setInq slice l).kvl = s.kvl := Eq.refl _
@[simp] theorem State.setInq_belt (s : State) (slice : Nat) (l : List UlOp) : (s.setInq slice l).belt = s.belt := Eq.refl _
@[simp] theorem State.setInq_ring (s : State) (slice : Nat) (l : List UlOp) : (s.setInq slice l).ring = s.ring := Eq.refl _
@[simp] theorem State.setInq_free (s : State) (slice : Nat) (l : List UlOp) : (s.setInq slice l).free = s.free := Eq.refl _
@[simp] theorem State.setInq_pending (s : State) (slice : Nat) (l : List UlOp) : (s.setInq slice l).pending = s.pending := Eq.refl _

@[simp] theorem State.setPoint_regs (s : State) (i : Nat) (p : UlPoint) : (s.setPoint i p).regs = s.regs := Eq.refl _
@[simp] theorem State.setPoint_pairCap (s : State) (i : Nat) (p : UlPoint) : (s.setPoint i p).pairCap = s.pairCap := Eq.refl _
@[simp] theorem State.setPoint_pairLo (s : State) (i : Nat) (p : UlPoint) : (s.setPoint i p).pairLo = s.pairLo := Eq.refl _
@[simp] theorem State.setPoint_pins (s : State) (i : Nat) (p : UlPoint) : (s.setPoint i p).pins = s.pins := Eq.refl _
@[simp] theorem State.setPoint_boot (s : State) (i : Nat) (p : UlPoint) : (s.setPoint i p).boot = s.boot := Eq.refl _
@[simp] theorem State.setPoint_stack (s : State) (i : Nat) (p : UlPoint) : (s.setPoint i p).stack = s.stack := Eq.refl _
@[simp] theorem State.setPoint_jrn (s : State) (i : Nat) (p : UlPoint) : (s.setPoint i p).jrn = s.jrn := Eq.refl _
@[simp] theorem State.setPoint_flash (s : State) (i : Nat) (p : UlPoint) : (s.setPoint i p).flash = s.flash := Eq.refl _
@[simp] theorem State.setPoint_host (s : State) (i : Nat) (p : UlPoint) : (s.setPoint i p).host = s.host := Eq.refl _
@[simp] theorem State.setPoint_power (s : State) (i : Nat) (p : UlPoint) : (s.setPoint i p).power = s.power := Eq.refl _
@[simp] theorem State.setPoint_i3c (s : State) (i : Nat) (p : UlPoint) : (s.setPoint i p).i3c = s.i3c := Eq.refl _
@[simp] theorem State.setPoint_tap (s : State) (i : Nat) (p : UlPoint) : (s.setPoint i p).tap = s.tap := Eq.refl _
@[simp] theorem State.setPoint_rgl (s : State) (i : Nat) (p : UlPoint) : (s.setPoint i p).rgl = s.rgl := Eq.refl _
@[simp] theorem State.setPoint_tiles (s : State) (i : Nat) (p : UlPoint) : (s.setPoint i p).tiles = s.tiles := Eq.refl _
@[simp] theorem State.setPoint_ppl (s : State) (i : Nat) (p : UlPoint) : (s.setPoint i p).ppl = s.ppl := Eq.refl _
@[simp] theorem State.setPoint_kvl (s : State) (i : Nat) (p : UlPoint) : (s.setPoint i p).kvl = s.kvl := Eq.refl _
@[simp] theorem State.setPoint_belt (s : State) (i : Nat) (p : UlPoint) : (s.setPoint i p).belt = s.belt := Eq.refl _
@[simp] theorem State.setPoint_ring (s : State) (i : Nat) (p : UlPoint) : (s.setPoint i p).ring = s.ring := Eq.refl _
@[simp] theorem State.setPoint_free (s : State) (i : Nat) (p : UlPoint) : (s.setPoint i p).free = s.free := Eq.refl _
@[simp] theorem State.setPoint_pending (s : State) (i : Nat) (p : UlPoint) : (s.setPoint i p).pending = s.pending := Eq.refl _

@[simp] theorem State.setRglPoint_regs (s : State) (i : Nat) (p : UlPoint) : (s.setRglPoint i p).regs = s.regs := Eq.refl _
@[simp] theorem State.setRglPoint_pairCap (s : State) (i : Nat) (p : UlPoint) : (s.setRglPoint i p).pairCap = s.pairCap := Eq.refl _
@[simp] theorem State.setRglPoint_pairLo (s : State) (i : Nat) (p : UlPoint) : (s.setRglPoint i p).pairLo = s.pairLo := Eq.refl _
@[simp] theorem State.setRglPoint_pins (s : State) (i : Nat) (p : UlPoint) : (s.setRglPoint i p).pins = s.pins := Eq.refl _
@[simp] theorem State.setRglPoint_boot (s : State) (i : Nat) (p : UlPoint) : (s.setRglPoint i p).boot = s.boot := Eq.refl _
@[simp] theorem State.setRglPoint_stack (s : State) (i : Nat) (p : UlPoint) : (s.setRglPoint i p).stack = s.stack := Eq.refl _
@[simp] theorem State.setRglPoint_jrn (s : State) (i : Nat) (p : UlPoint) : (s.setRglPoint i p).jrn = s.jrn := Eq.refl _
@[simp] theorem State.setRglPoint_flash (s : State) (i : Nat) (p : UlPoint) : (s.setRglPoint i p).flash = s.flash := Eq.refl _
@[simp] theorem State.setRglPoint_host (s : State) (i : Nat) (p : UlPoint) : (s.setRglPoint i p).host = s.host := Eq.refl _
@[simp] theorem State.setRglPoint_power (s : State) (i : Nat) (p : UlPoint) : (s.setRglPoint i p).power = s.power := Eq.refl _
@[simp] theorem State.setRglPoint_i3c (s : State) (i : Nat) (p : UlPoint) : (s.setRglPoint i p).i3c = s.i3c := Eq.refl _
@[simp] theorem State.setRglPoint_tap (s : State) (i : Nat) (p : UlPoint) : (s.setRglPoint i p).tap = s.tap := Eq.refl _
@[simp] theorem State.setRglPoint_ul (s : State) (i : Nat) (p : UlPoint) : (s.setRglPoint i p).ul = s.ul := Eq.refl _
@[simp] theorem State.setRglPoint_tiles (s : State) (i : Nat) (p : UlPoint) : (s.setRglPoint i p).tiles = s.tiles := Eq.refl _
@[simp] theorem State.setRglPoint_ppl (s : State) (i : Nat) (p : UlPoint) : (s.setRglPoint i p).ppl = s.ppl := Eq.refl _
@[simp] theorem State.setRglPoint_kvl (s : State) (i : Nat) (p : UlPoint) : (s.setRglPoint i p).kvl = s.kvl := Eq.refl _
@[simp] theorem State.setRglPoint_belt (s : State) (i : Nat) (p : UlPoint) : (s.setRglPoint i p).belt = s.belt := Eq.refl _
@[simp] theorem State.setRglPoint_ring (s : State) (i : Nat) (p : UlPoint) : (s.setRglPoint i p).ring = s.ring := Eq.refl _
@[simp] theorem State.setRglPoint_free (s : State) (i : Nat) (p : UlPoint) : (s.setRglPoint i p).free = s.free := Eq.refl _
@[simp] theorem State.setRglPoint_pending (s : State) (i : Nat) (p : UlPoint) : (s.setRglPoint i p).pending = s.pending := Eq.refl _

@[simp] theorem State.noteServed_regs (s : State) (m r n : Nat) : (s.noteServed m r n).regs = s.regs := Eq.refl _
@[simp] theorem State.noteServed_pairCap (s : State) (m r n : Nat) : (s.noteServed m r n).pairCap = s.pairCap := Eq.refl _
@[simp] theorem State.noteServed_pairLo (s : State) (m r n : Nat) : (s.noteServed m r n).pairLo = s.pairLo := Eq.refl _
@[simp] theorem State.noteServed_pins (s : State) (m r n : Nat) : (s.noteServed m r n).pins = s.pins := Eq.refl _
@[simp] theorem State.noteServed_boot (s : State) (m r n : Nat) : (s.noteServed m r n).boot = s.boot := Eq.refl _
@[simp] theorem State.noteServed_stack (s : State) (m r n : Nat) : (s.noteServed m r n).stack = s.stack := Eq.refl _
@[simp] theorem State.noteServed_jrn (s : State) (m r n : Nat) : (s.noteServed m r n).jrn = s.jrn := Eq.refl _
@[simp] theorem State.noteServed_flash (s : State) (m r n : Nat) : (s.noteServed m r n).flash = s.flash := Eq.refl _
@[simp] theorem State.noteServed_host (s : State) (m r n : Nat) : (s.noteServed m r n).host = s.host := Eq.refl _
@[simp] theorem State.noteServed_power (s : State) (m r n : Nat) : (s.noteServed m r n).power = s.power := Eq.refl _
@[simp] theorem State.noteServed_i3c (s : State) (m r n : Nat) : (s.noteServed m r n).i3c = s.i3c := Eq.refl _
@[simp] theorem State.noteServed_tap (s : State) (m r n : Nat) : (s.noteServed m r n).tap = s.tap := Eq.refl _
@[simp] theorem State.noteServed_ul (s : State) (m r n : Nat) : (s.noteServed m r n).ul = s.ul := Eq.refl _
@[simp] theorem State.noteServed_tiles (s : State) (m r n : Nat) : (s.noteServed m r n).tiles = s.tiles := Eq.refl _
@[simp] theorem State.noteServed_ppl (s : State) (m r n : Nat) : (s.noteServed m r n).ppl = s.ppl := Eq.refl _
@[simp] theorem State.noteServed_kvl (s : State) (m r n : Nat) : (s.noteServed m r n).kvl = s.kvl := Eq.refl _
@[simp] theorem State.noteServed_belt (s : State) (m r n : Nat) : (s.noteServed m r n).belt = s.belt := Eq.refl _
@[simp] theorem State.noteServed_ring (s : State) (m r n : Nat) : (s.noteServed m r n).ring = s.ring := Eq.refl _
@[simp] theorem State.noteServed_free (s : State) (m r n : Nat) : (s.noteServed m r n).free = s.free := Eq.refl _
@[simp] theorem State.noteServed_pending (s : State) (m r n : Nat) : (s.noteServed m r n).pending = s.pending := Eq.refl _

@[simp] theorem State.nextWindow_regs (s : State) : (s.nextWindow).regs = s.regs := Eq.refl _
@[simp] theorem State.nextWindow_pairCap (s : State) : (s.nextWindow).pairCap = s.pairCap := Eq.refl _
@[simp] theorem State.nextWindow_pairLo (s : State) : (s.nextWindow).pairLo = s.pairLo := Eq.refl _
@[simp] theorem State.nextWindow_pins (s : State) : (s.nextWindow).pins = s.pins := Eq.refl _
@[simp] theorem State.nextWindow_boot (s : State) : (s.nextWindow).boot = s.boot := Eq.refl _
@[simp] theorem State.nextWindow_stack (s : State) : (s.nextWindow).stack = s.stack := Eq.refl _
@[simp] theorem State.nextWindow_jrn (s : State) : (s.nextWindow).jrn = s.jrn := Eq.refl _
@[simp] theorem State.nextWindow_flash (s : State) : (s.nextWindow).flash = s.flash := Eq.refl _
@[simp] theorem State.nextWindow_host (s : State) : (s.nextWindow).host = s.host := Eq.refl _
@[simp] theorem State.nextWindow_power (s : State) : (s.nextWindow).power = s.power := Eq.refl _
@[simp] theorem State.nextWindow_i3c (s : State) : (s.nextWindow).i3c = s.i3c := Eq.refl _
@[simp] theorem State.nextWindow_tap (s : State) : (s.nextWindow).tap = s.tap := Eq.refl _
@[simp] theorem State.nextWindow_ul (s : State) : (s.nextWindow).ul = s.ul := Eq.refl _
@[simp] theorem State.nextWindow_tiles (s : State) : (s.nextWindow).tiles = s.tiles := Eq.refl _
@[simp] theorem State.nextWindow_ppl (s : State) : (s.nextWindow).ppl = s.ppl := Eq.refl _
@[simp] theorem State.nextWindow_kvl (s : State) : (s.nextWindow).kvl = s.kvl := Eq.refl _
@[simp] theorem State.nextWindow_belt (s : State) : (s.nextWindow).belt = s.belt := Eq.refl _
@[simp] theorem State.nextWindow_ring (s : State) : (s.nextWindow).ring = s.ring := Eq.refl _
@[simp] theorem State.nextWindow_free (s : State) : (s.nextWindow).free = s.free := Eq.refl _
@[simp] theorem State.nextWindow_pending (s : State) : (s.nextWindow).pending = s.pending := Eq.refl _

@[simp] theorem State.noteDark_regs (s : State) : (s.noteDark).regs = s.regs := Eq.refl _
@[simp] theorem State.noteDark_pairCap (s : State) : (s.noteDark).pairCap = s.pairCap := Eq.refl _
@[simp] theorem State.noteDark_pairLo (s : State) : (s.noteDark).pairLo = s.pairLo := Eq.refl _
@[simp] theorem State.noteDark_pins (s : State) : (s.noteDark).pins = s.pins := Eq.refl _
@[simp] theorem State.noteDark_boot (s : State) : (s.noteDark).boot = s.boot := Eq.refl _
@[simp] theorem State.noteDark_stack (s : State) : (s.noteDark).stack = s.stack := Eq.refl _
@[simp] theorem State.noteDark_jrn (s : State) : (s.noteDark).jrn = s.jrn := Eq.refl _
@[simp] theorem State.noteDark_flash (s : State) : (s.noteDark).flash = s.flash := Eq.refl _
@[simp] theorem State.noteDark_host (s : State) : (s.noteDark).host = s.host := Eq.refl _
@[simp] theorem State.noteDark_power (s : State) : (s.noteDark).power = s.power := Eq.refl _
@[simp] theorem State.noteDark_i3c (s : State) : (s.noteDark).i3c = s.i3c := Eq.refl _
@[simp] theorem State.noteDark_tap (s : State) : (s.noteDark).tap = s.tap := Eq.refl _
@[simp] theorem State.noteDark_ul (s : State) : (s.noteDark).ul = s.ul := Eq.refl _
@[simp] theorem State.noteDark_tiles (s : State) : (s.noteDark).tiles = s.tiles := Eq.refl _
@[simp] theorem State.noteDark_ppl (s : State) : (s.noteDark).ppl = s.ppl := Eq.refl _
@[simp] theorem State.noteDark_kvl (s : State) : (s.noteDark).kvl = s.kvl := Eq.refl _
@[simp] theorem State.noteDark_belt (s : State) : (s.noteDark).belt = s.belt := Eq.refl _
@[simp] theorem State.noteDark_ring (s : State) : (s.noteDark).ring = s.ring := Eq.refl _
@[simp] theorem State.noteDark_free (s : State) : (s.noteDark).free = s.free := Eq.refl _
@[simp] theorem State.noteDark_pending (s : State) : (s.noteDark).pending = s.pending := Eq.refl _

end Sys2Proof.Machine
end

