-- ==== Sys2Proof/WellFormed.lean ====
section
/-! DEFINITION. Commands whose operands lie in the ranges the specification gives them. An operand outside its range names
nothing of the block: such a command changes nothing, or what its own checks say. -/

namespace Sys2Proof

/-- Clusters and regions (00_scope.md R8). -/
def clusterOk (c : Nat) : Bool := decide (c < 16)

/-- Logical tiles (03_tiles.md R99). -/
def tileOk (t : Nat) : Bool := decide (t < 15)

/-- Group slots of a tile (04_thread_groups.md R104). -/
def groupOk (g : GroupRef) : Bool := clusterOk g.cluster && tileOk g.ltile && decide (g.slot < 32)

/-- Queues (12_host.md R348). -/
def queueOk (q : Nat) : Bool := decide (q < 64)

/-- Command identifiers and sequence numbers (12_host.md R354, 07_kv_ledger.md R205). -/
def cidOk (n : Nat) : Bool := decide (n < 2 ^ 16)

/-- Belt ports (10_rings.md R335). -/
def portOk (x : Nat) : Bool := decide (x < 8)

/-- Partitions and pipelines (06_pipeline.md R165). -/
def partOk (p : Nat) : Bool := decide (p < 8)

/-- Classes (11_regulation.md R340). -/
def classOk (k : Nat) : Bool := decide (k < 16)

/-- Ring positions (10_rings.md R312): twelve bits. -/
def posOk (p : Nat) : Bool := decide (p < 2 ^ 12)

/-- BAR0 offsets of registers (00_scope.md R17): multiples of four inside 16 MiB. -/
def offOk (off : Nat) : Bool := decide (off < 2 ^ 24) && off % 4 = 0

/-- A frame has eight header words, at most four records (09_belt_scoring.md Table 9-1). -/
def frameOk (f : Frame) : Bool := decide (f.w.length = 8) && decide (f.recs.length ≤ 4)

def lastOk (f : Option Frame) : Bool :=
  match f with
  | some f => frameOk f
  | none => true

def leaveOk (s : LeaveSrc) : Bool :=
  match s with
  | .message rx f => portOk rx.port && frameOk f
  | .register _ => true

/-- Masters of the underlayer (11_regulation.md Table 11-1). -/
def reqOk (r : UlReq) : Bool := decide (r.master < 22) && decide (r.master ≠ 20) && classOk r.cls

/-- Reduction codes (08_underlayer.md R249); AND and OR of 64-bit elements carry their size above the code. -/
def redOk (code : Nat) : Bool := decide (code ≤ 6) || code = 0x15 || code = 0x16

/-- Four strap readings; kinds of the defect list's units (13_configuration.md Table 13-11). -/
def startOk (e : StartEnv) : Bool :=
  decide (e.straps.length = 4) && e.finds.all (fun f => decide (1 ≤ f.kind) && decide (f.kind ≤ 0x0D))

def rowSourceOk (s : RowSource) : Bool :=
  match s with
  | .command sq cid => queueOk sq && cidOk cid
  | .fedBack n => cidOk n

def waitOk (w : WaitRef) : Bool :=
  match w with
  | .command sq cid => queueOk sq && cidOk cid
  | .fedBack n => cidOk n

/-- A message unit of the bridge (Table 1-8, R36). -/
def unitOk (u : BridgeUnit) : Bool := decide (u.slice < 128) && decide (u.vc < 4) && decide (u.data.length = 16)

/-- A sense group of Table 1-5 (01_stack.md R26). -/
def senseOk (g : SenseGroup) : Bool := decide (g.die < 2) && g.inTable

/-- A master whose TLPs wait at the endpoint, host DMA or KV swap, and a class (11_regulation.md Table 11-1, R342). -/
def pcieOk (e : Nat × Nat) : Bool := (e.1 = 16 || e.1 = 19) && classOk e.2

def faultTileOk (f : Option (Nat × Bool)) : Bool :=
  match f with
  | some e => tileOk e.1
  | none => true

/-- Every operand in its range. -/
def Instr.wf : Instr → Bool
  | .vauxRise => true
  | .vauxFall => true
  | .vinIbInRange => true
  | .vinIbLow => true
  | .deviceResetAssert => true
  | .deviceResetRelease => true
  | .refclkLost => true
  | .refclkReturn => true
  | .coldStart env => startOk env
  | .startStepTimeout step => decide (step ≤ 5)
  | .warmDeviceReset env => startOk env.start
  | .clusterReset c => clusterOk c
  | .tbValueCheck _ _ _ => true
  | .tbPathLost _ _ => true
  | .sidebandCopyLost _ => true
  | .vifParityMismatch iface group _ => decide (iface < 2) && decide (group < 9728)
  | .vifWireTestComplete iface group _ _ => decide (iface < 2) && decide (group < 9728)
  | .tsvSenseRead weak => weak.all senseOk
  | .bridgeFlitReceive pair rx => decide (pair < 16) && decide (rx.flit.length = 256) && rx.units.all unitOk
  | .hbmTransferError ch _ _ => decide (ch < 128)
  | .cadenceWindowEnd counts => decide (counts.length ≤ 16)
  | .minClear => true
  | .pairLoRead off => offOk off
  | .pairHiWrite off _ => offOk off
  | .registerWrite off _ => offOk off
  | .mma g _ _ _ => groupOk g
  | .mmap g _ _ _ _ => groupOk g
  | .mwait g _ => groupOk g
  | .matrixPassEnd c t _ _ => clusterOk c && tileOk t
  | .spareAttachComplete c t => clusterOk c && tileOk t
  | .matrixInstructionComplete c t => clusterOk c && tileOk t
  | .launchAdmit c t _ _ => clusterOk c && tileOk t
  | .vectorArith g _ _ _ _ _ => groupOk g
  | .scalarArith g _ _ _ _ => groupOk g
  | .lsLoad g log2Size _ _ => groupOk g && decide (log2Size ≤ 3)
  | .lsStore g log2Size _ _ => groupOk g && decide (log2Size ≤ 3)
  | .lsAtomic g _ _ _ _ _ _ => groupOk g
  | .globalLoad g log2Size _ _ _ => groupOk g && decide (log2Size ≤ 3)
  | .ldNc g log2Size _ _ => groupOk g && decide (log2Size ≤ 3)
  | .globalStore g log2Size _ _ => groupOk g && decide (log2Size ≤ 3)
  | .globalReduction g op _ _ => groupOk g && redOk op.code
  | .constantLoad g log2Size _ _ => groupOk g && decide (log2Size ≤ 3)
  | .invalL1 g => groupOk g
  | .fenceGl g => groupOk g
  | .fenceLs g => groupOk g
  | .brc g _ _ _ => groupOk g
  | .backwardBranch g _ => groupOk g
  | .exit g => groupOk g
  | .bar g n => groupOk g && decide (n < 16)
  | .lockAcq g _ _ => groupOk g
  | .lockRel g _ => groupOk g
  | .shready g => groupOk g
  | .stageWatchdogExpiry c => clusterOk c
  | .cacheParityError c _ _ _ => clusterOk c
  | .tileStoreEccError c t _ => clusterOk c && tileOk t
  | .rcp g _ _ _ => groupOk g
  | .rsqrt g _ _ _ => groupOk g
  | .sqrt g _ _ _ => groupOk g
  | .div g _ _ _ _ => groupOk g
  | .exp2 g _ _ _ => groupOk g
  | .exp g _ _ _ => groupOk g
  | .log2 g _ _ _ => groupOk g
  | .ln g _ _ _ => groupOk g
  | .sinpi g _ _ _ => groupOk g
  | .cospi g _ _ _ => groupOk g
  | .tanh g _ _ _ => groupOk g
  | .sigmoid g _ _ _ => groupOk g
  | .sfg g _ _ _ _ _ => groupOk g
  | .rowRstat g _ _ _ _ _ => groupOk g
  | .rowLnorm g _ _ _ _ _ => groupOk g
  | .rowRmsnorm g _ _ _ _ _ => groupOk g
  | .rowSmax g _ _ _ _ _ => groupOk g
  | .rowSmaxStep g _ _ _ _ _ => groupOk g
  | .rowSmaxFin g _ _ _ _ => groupOk g
  | .kvaddr g _ _ => groupOk g
  | .kvput g _ _ => groupOk g
  | .rngInstruction g _ _ _ => groupOk g
  | .rowPlace src => rowSourceOk src
  | .reservationRetry => true
  | .reservationStallTimeout w => waitOk w
  | .fillTimeoutExpiry pipe cls => partOk pipe && classOk cls
  | .blockClose pipe cls => partOk pipe && classOk cls
  | .blockLeaveEntry pipe => partOk pipe
  | .blockTransfer _ => true
  | .meshHandshakeParityError link _ => decide (link < 24)
  | .sweepStart c => clusterOk c
  | .loadNoticeElapsed c => clusterOk c
  | .stageOperationComplete c _ => clusterOk c
  | .rowExit _ _ _ => true
  | .roleMoveLoaded c => clusterOk c
  | .reloadPartition sq cid => queueOk sq && cidOk cid
  | .changeSectionsStaged => true
  | .clusterOldGenDrained c => clusterOk c
  | .partitionSwitched p => partOk p
  | .oldGenerationRelease c => clusterOk c
  | .entryHoldTimeout => true
  | .trainStep sq cid => queueOk sq && cidOk cid
  | .trainReadersDrained pipe => partOk pipe
  | .trainUpdate pipe => partOk pipe
  | .nop sq cid => queueOk sq && cidOk cid
  | .identify sq cid => queueOk sq && cidOk cid
  | .loadObject sq cid _ => queueOk sq && cidOk cid
  | .readObject sq cid => queueOk sq && cidOk cid
  | .rangeOp sq cid => queueOk sq && cidOk cid
  | .prefetch _ => true
  | .flush _ => true
  | .invalidate _ => true
  | .dead _ => true
  | .live _ => true
  | .rangeOpComplete _ => true
  | .runPipeline sq cid => queueOk sq && cidOk cid
  | .seqOpen sq cid => queueOk sq && cidOk cid
  | .seqAppend sq cid => queueOk sq && cidOk cid
  | .seqFork sq cid => queueOk sq && cidOk cid
  | .kvCopyComplete _ => true
  | .seqClose sq cid => queueOk sq && cidOk cid
  | .seqPreempt sq cid => queueOk sq && cidOk cid
  | .swapOutComplete seq => cidOk seq
  | .seqResume sq cid => queueOk sq && cidOk cid
  | .swapInComplete seq _ => cidOk seq
  | .swapAreaWrite off _ => offOk off
  | .seqSelWrite _ => true
  | .querySubmit sq cid => queueOk sq && cidOk cid
  | .queryCancel sq cid => queueOk sq && cidOk cid
  | .shardLoad sq cid => queueOk sq && cidOk cid
  | .ringBrake sq cid => queueOk sq && cidOk cid
  | .ringRelease sq cid => queueOk sq && cidOk cid
  | .nvmWrite sq cid _ => queueOk sq && cidOk cid
  | .journalRead sq cid => queueOk sq && cidOk cid
  | .sliceRead r _ => reqOk r
  | .sliceStore r => reqOk r
  | .sliceFillComplete _ => true
  | .reductionRequest r => reqOk r
  | .ulCorrectableError slice die row w => decide (slice < 128) && decide (die < 2) && decide (row < 16384) && decide (w.word < 128)
  | .correctionLogExpiry slice => decide (slice < 128)
  | .ulUncorrectableClean _ sector => decide (sector < 8)
  | .ulUncorrectableDirty _ sector _ _ => decide (sector < 8)
  | .tagError _ _ => true
  | .scrubUlVisit _ _ => true
  | .scrubHbmVisit _ _ => true
  | .hbmCorrectableError ch _ _ _ => decide (ch < 128)
  | .sliceDrainComplete slice _ => decide (slice < 128)
  | .pinRecomputeComplete => true
  | .emptyFrame rx f => portOk rx.port && frameOk f
  | .corpusFrame rx f => portOk rx.port && frameOk f
  | .topNote rx f => portOk rx.port && frameOk f
  | .segment rx f => portOk rx.port && frameOk f
  | .markerIntervalExpiry => true
  | .queryFrame rx f => portOk rx.port && frameOk f
  | .shardFrame rx f => portOk rx.port && frameOk f
  | .scoreRoundEnd c fault => clusterOk c && faultTileOk fault
  | .shedCheck c => clusterOk c
  | .fillInTimeout home _ seg _ => posOk home && decide (seg < 64)
  | .discover rx f => portOk rx.port && frameOk f
  | .confirm rx f => portOk rx.port && frameOk f
  | .join rx f => portOk rx.port && frameOk f
  | .directory rx f => portOk rx.port && frameOk f
  | .takeover rx f => portOk rx.port && frameOk f
  | .abandon rx f => portOk rx.port && frameOk f
  | .bypassed rx f => portOk rx.port && frameOk f
  | .leave src => leaveOk src
  | .demote rx f => portOk rx.port && frameOk f
  | .tol rx f => portOk rx.port && frameOk f
  | .resume rx f => portOk rx.port && frameOk f
  | .qcancel rx f => portOk rx.port && frameOk f
  | .fedgen rx f => portOk rx.port && frameOk f
  | .result rx f => portOk rx.port && frameOk f
  | .refuse rx f => portOk rx.port && frameOk f
  | .homeBehind rx f => portOk rx.port && frameOk f
  | .fillIn rx f => portOk rx.port && frameOk f
  | .report rx f => portOk rx.port && frameOk f
  | .gap rx f => portOk rx.port && frameOk f
  | .staged rx f => portOk rx.port && frameOk f
  | .quiet rx f => portOk rx.port && frameOk f
  | .linkReady rx f => portOk rx.port && frameOk f
  | .returnResendTimeout _ => true
  | .controlPieceTimeout sender _ _ => posOk sender
  | .lopRetry port hseq => portOk port && decide (hseq < 4096)
  | .retryTimeout port hseq => portOk port && decide (hseq < 4096)
  | .replaySlot rx f => portOk rx.port && frameOk f
  | .lopBrake origin => posOk origin
  | .lopRelease origin => posOk origin
  | .brakeResendTimeout => true
  | .lopBypass port pos => portOk port && posOk pos
  | .heartbeat port pos => portOk port && posOk pos
  | .lastSlot rx f => portOk rx.port && lastOk f
  | .sdLossTimeout port => portOk port
  | .laneBerWindow port _ _ _ _ => portOk port
  | .portQualified port partner => portOk port && posOk partner
  | .formationStart => true
  | .discoverRetry => true
  | .formationTimeout => true
  | .reportCollectionComplete => true
  | .slotAudit _ => true
  | .standbyTakeoverTimeout => true
  | .fedTimeout _ => true
  | .regulationWindowEnd _ pcie => pcie.all pcieOk
  | .guaranteeWrite m r _ => decide (m < 22) && decide (r < 4)
  | .classReservationWrite k _ => classOk k
  | .sqTailDoorbell q _ => queueOk q
  | .cqHeadDoorbell q _ => queueOk q
  | .sqEnable q _ => queueOk q
  | .sqDisable q _ => queueOk q
  | .cqEnable q _ => queueOk q
  | .cqDisable q _ => queueOk q
  | .commandFetch _ => true
  | .deferTimeout sq cid => queueOk sq && cidOk cid
  | .interruptCoalesceTimeout cq => queueOk cq
  | .slotRelease n => decide (n < 2 ^ 18)
  | .pcieHotReset => true
  | .pcieLinkFailure => true
  | .flashOperationComplete _ => true
  | .journalPageProgram _ => true
  | .journalCompaction => true
  | .warmResetRequest _ => true
  | .clusterResetRequest _ => true
  | .boardNoticeRaise _ => true
  | .boardHoldExpiry _ => true
  | .phaseShed r => clusterOk r
  | .phaseMismatch r ph => clusterOk r && decide (ph < 8)
  | .phaseRetry r ph => clusterOk r && decide (ph < 8)
  | .phaseTrackWindowEnd r ph => clusterOk r && decide (ph < 8)
  | .regionWakeRequest r => clusterOk r
  | .wakeSlotWaitTimeout r => clusterOk r
  | .regionWakeComplete r => clusterOk r
  | .regionVsetWrite r _ => clusterOk r
  | .q2DwellExpiry r => clusterOk r
  | .idleDwellExpiry state => (decide (state = 3) || decide (state = 4))
  | .deviceWake _ => true
  | .deviceWakeComplete => true
  | .hkChannelRead n _ => decide (n < 64)
  | .housekeepingRound => true
  | .guardSecond => true
  | .i3cEntdaa addr => decide (addr < 128)
  | .i3cCommonCommand _ _ _ => true
  | .i3cPrivateWrite _ _ => true
  | .i3cPrivateRead _ => true
  | .tapReset => true
  | .idcode => true
  | .samplePreload _ => true
  | .extest => true
  | .extestPulse => true
  | .extestTrain => true
  | .clamp => true
  | .highz => true
  | .bypass => true
  | .roleStrapChange _ => true
  | .refclkPresent => true
  | .pcieLinkDown => true
  | .queryPlacementTimeout sq cid => queueOk sq && cidOk cid
  | .brakeStoppingDistanceElapsed => true
  | .boardNoticeElapsed => true
  | .changeRestoreComplete => true
  | .rowReplacementComplete slice die row => decide (slice < 128) && decide (die < 2) && decide (row < 16384)
  | .fallThroughComplete _ => true
  | .alignSlot port => portOk port
  | .alignmentLockLost port => portOk port

end Sys2Proof
end

