-- ==== Sys2Proof/Tests/Slice0.lean ====
section
/-! SUPPORT. Own tests: the well-formedness of commands, one small theorem or two about commands' effects, and for each
hypothesis-bearing clause of a statement a state and operands that meet its hypotheses together. -/

namespace Sys2Proof.Tests

open Sys2Proof.Machine

section
set_option Elab.async false

/-! ## Helper states -/

/-- A device in service: rails up, READY. -/
def up : State := ({ State.reset with pins := { State.reset.pins with vddUp := true } }).setDstate DS.READY

/-- Nothing a start finds is amiss. -/
def startEnv : StartEnv := ⟨[0#3, 1#3, 2#3, 3#3], [], [], [], true, [], 100⟩

/-- A bridge flit of a type, without payload, with a CRC (01_stack.md R36, R37). -/
def flitOf (ftype crc : Nat) : List Byte :=
  ([BitVec.ofNat 8 (ftype * 16)] ++ List.replicate 253 0#8) ++ [BitVec.ofNat 8 (crc / 256), BitVec.ofNat 8 crc]

theorem crc16_zeros {c d e : Nat} (m n : Nat) (h : (List.replicate m 0#8).foldl crc16Byte c = d)
    (k : (List.replicate n 0#8).foldl crc16Byte d = e) : (List.replicate (m + n) 0#8).foldl crc16Byte c = e := by
  rw [← List.replicate_append_replicate, List.foldl_append, h, k]

theorem flit_crc {ftype crc x : Nat} (h : crc16Byte 0 (BitVec.ofNat 8 (ftype * 16)) = x)
    (k : (List.replicate 253 0#8).foldl crc16Byte x = crc) (n : crc < 2 ^ 16) : flitCrcOk (flitOf ftype crc) = true := by
  have e : (flitOf ftype crc).take 254 = [BitVec.ofNat 8 (ftype * 16)] ++ List.replicate 253 0#8 := by
    unfold flitOf; exact List.take_left' (by rw [List.length_append, List.length_replicate]; rfl)
  have a : (flitOf ftype crc).getD 254 0#8 = BitVec.ofNat 8 (crc / 256) := by rfl
  have b : (flitOf ftype crc).getD 255 0#8 = BitVec.ofNat 8 crc := by rfl
  have l : (flitOf ftype crc).length = 256 := by
    unfold flitOf; rw [List.length_append, List.length_append, List.length_replicate]; rfl
  unfold flitCrcOk crc16
  rw [e, a, b, l, List.foldl_append, List.foldl_cons, List.foldl_nil, h, k]
  simp only [BitVec.toNat_ofNat, decide_true, Bool.true_and, decide_eq_true_eq]
  omega

theorem flit_2 : flitCrcOk (flitOf 2 26293) = true :=
  flit_crc (x := 43418) (by decide +kernel)
    (crc16_zeros 128 125 (crc16_zeros 64 64 (crc16_zeros (d := 65493) 32 32 (by decide +kernel) (e := 49781) (by decide +kernel))
      (crc16_zeros (d := 59105) 32 32 (by decide +kernel) (e := 54390) (by decide +kernel)))
      (crc16_zeros 64 61 (crc16_zeros (d := 10295) 32 32 (by decide +kernel) (e := 41949) (by decide +kernel))
      (crc16_zeros (d := 5333) 32 29 (by decide +kernel) (by decide +kernel)))) (by decide)

theorem flit_3 : flitCrcOk (flitOf 3 36916) = true :=
  flit_crc (x := 64855) (by decide +kernel)
    (crc16_zeros 128 125 (crc16_zeros 64 64 (crc16_zeros (d := 17892) 32 32 (by decide +kernel) (e := 26260) (by decide +kernel))
      (crc16_zeros (d := 20554) 32 32 (by decide +kernel) (e := 48717) (by decide +kernel)))
      (crc16_zeros 64 61 (crc16_zeros (d := 63991) 32 32 (by decide +kernel) (e := 14312) (by decide +kernel))
      (crc16_zeros (d := 56164) 32 29 (by decide +kernel) (by decide +kernel)))) (by decide)

/-- A channel of HBM in service. -/
def hbmUp : State := { up with ul := { up.ul with chans := [127] } }

/-- A kernel of 16 threads with 8 vector registers and 4,096 shared bytes (Table 4-1). -/
def kWords : List W64 := [BitVec.ofNat 64 (2 ^ 35 + 2 ^ 24), 0#64, 0#64, 0#64]

/-- INT8 matrices of one element: A at 0, B at 32, C at 64, D at an address; MODE 0 or packed (Table 3-2). -/
def mWords (mode d : Nat) : List W64 :=
  [BitVec.ofNat 64 (mode * 2 ^ 50), 0#64, BitVec.ofNat 64 (32 * 2 ^ 44), BitVec.ofNat 64 (64 * 2 ^ 44 + d * 2 ^ 24)]

/-- A program: slot 0 a kernel, slots 1 to 3 matrix descriptors; 256 B of constants. -/
def prog : Program := ⟨0, 0, [kWords, mWords 0 96, mWords 1 96, mWords 1 128], [0], 0, none, 256, 8, [], true, false, [], 0#384⟩

/-- The last group slot of the last logical tile of the last cluster. -/
def g0 : GroupRef := ⟨15, 14, 31⟩

/-- A whole group: V[0] of thread t is 4 t, every other register zero. -/
def grp : Group := ⟨0, 0, 16, 0xFFFF#64, 0xFFFF#64, 0#24, (List.range 15).map (fun t => ((t + 1) * 256, BitVec.ofNat 32 (4 * (t + 1)))),
  [], [], 0#32, [], 0, none, false, []⟩

def launch0 : Launch := ⟨0, kWords, 7#64, 1, 1, false, false, false⟩

/-- A block of pipeline 0 with one row of sequence 5. -/
def blk : Block := ⟨7#64, 0, 0, 0, 0, 0, 0, [1], [], [⟨true, true, true, 0, 5, 0, 0, 0, 0⟩], [], none⟩

/-- A tile on which a launch of one group runs. -/
def tileOf (gr : Group) (q : List MatOp) : Tile :=
  { emptyTile with current := some (0, 0, 1), launches := [launch0], groups := [(31, gr)], queue := q }

/-- Logical tile 14 of cluster 15 is physical tile 15, in service, the cluster holding `prog` and a block. -/
def onTile (t : Tile) : State :=
  let s := { hbmUp with tiles := [(255, t)], ppl := { up.ppl with
    clusters := [(15, { emptyCluster with progs := [(1, prog)], queue := [⟨blk, false, true, false, [], false⟩] })] } }
  ((s.setLmap 15 14 15).setBit (Fld.PPL_TILE_MAP_LVALID 15) 14).setBit Fld.CFG_LICENCE_ENABLED 15

/-- The group at work; with one thread of two left; a group with scalar registers. -/
def work : State := onTile (tileOf grp [])
def half : Group := { grp with active := 1#64 }
def withS (r : Tab W64) : State := onTile (tileOf { grp with sregs := r } [])

/-- A queued matrix operation of the group. -/
def mop : MatOp := ⟨31, 0, [mWords 0 96], false, 0, 0#32, 0#32, [⟨0, 0, false, false⟩]⟩

/-- A row of one FP32 element at 0, its result at 64 (Table 5-8). -/
def rowS : Tab W64 := [(1, BitVec.ofNat 64 (2 ^ 5 * 0))]

/-- A command of submission queue 63, CID 9: words 0 and 1, words 2 to 6, word 7 (Tables 12-2, 12-8). -/
def cmdOf (op rdest : Nat) (w : List W64) (rlen : Nat) : Cmd :=
  ⟨0, 63, 9, [BitVec.ofNat 64 (op * 2 ^ 56 + rdest * 2 ^ 52), 0#64] ++ w ++ List.replicate (5 - w.length) 0#64
    ++ [BitVec.ofNat 64 (rlen * 2 ^ 32)], 0, .ready, 0, 0, 0, 0, 0, false, 0, [], false⟩

def holding (c : Cmd) (s : State) : State := { s with host := { s.host with cmds := [c] } }

/-- A word with bits from a place on. -/
def at? (v lo : Nat) : W64 := BitVec.ofNat 64 (v * 2 ^ lo)

/-- An open sequence of pipeline 0: one page, room for one position. -/
def seq0 : Seq := ⟨1, 0, 0, 0, 0, 16, 0, 1, 0, 0, some 100, [⟨0, 0, false, 0#32⟩], none, none, [], none, [], [], none⟩

/-- Pipeline 0 keeps KV state of one layer; sequence 5 is as given. -/
def withSeq (q : Seq) (s : State) : State :=
  { s.setReg (Off.KVL_SHAPE 0) 0x01000000#32 with kvl := { s.kvl with seqs := [(5, q)] } }

/-- A partition without clusters or pipeline, and one with a pipeline. -/
def section0 (gen : Nat) : ImgSection :=
  ⟨2, 7, gen, 8192, 4096, 0#384, true, [⟨0x0101, false, true, [at? (gen * 2 ^ 48 + 7 * 2 ^ 45) 0, 0#64], none⟩]⟩
def part0 : PartCfg := ⟨false, none, 0, 0, 0, 0, none, [], [], section0 1⟩
def pipe0 : PartCfg := { part0 with pipe := true }

/-- An image whose partition 7 is of generation 2. -/
def image0 : Image := ⟨0x4D49524D#32, 1, 1, 0, 1, 12288, 0#64, true, true, [⟨1, 0, 0, 4096, 4096, 0#384, true, []⟩, section0 2]⟩

/-- Partition 7 in force at generation 1, the image in bank A. -/
def imaged : State :=
  let s := up.setFld (Fld.PPL_PART_GEN 7) 1
  { s with ppl := { s.ppl with cfg := [(7, part0)] }, flash := { s.flash with bankA := some image0 } }

/-- Pipeline 7 in force at generation 1. -/
def piped : State :=
  let s := up.setFld (Fld.PPL_PART_GEN 7) 1
  { s with ppl := { s.ppl with cfg := [(7, pipe0)] } }

/-- The last cluster in service and its region powered, with a queue entry. -/
def staged (e : QEntry) : State :=
  let s := (up.setBit Fld.CFG_LICENCE_ENABLED 15).setFld (Fld.PWR_REGION_STAT_STATE 15) RS.Q1
  { s with ppl := { s.ppl with clusters := [(15, { emptyCluster with progs := [(1, prog)], queue := [e] })] } }

def change0 : ChangeSet := ⟨63, 9, [7], [(7, part0)], false, [], [], [], 0⟩
def changing (x : ChangeSet) (s : State) : State := { s with ppl := { s.ppl with change := some x } }

/-- A form that holds a row. -/
def form0 : Forming := ⟨[(⟨true, true, true, 2, 0, 0, 0, 0, 0⟩, [])], 0, 5, none, none⟩

/-- Pipeline 7 with an adapter at 4,096: one matrix of rank 1 and one column and row, of a PROJ step (Tables 6-22, 6-23). -/
def adapted : State :=
  let s := ((piped.setFld Fld.HIF_STATUS_TIER 2).setFld (Fld.PPL_STAGE_ROLE 15) 3)
  { s with
    ppl := { s.ppl with cfg := [(7, { pipe0 with train := some (0, 0x100000, 512) })], banks := [(7, [(1, [at? 0x8000 26])])] }
    ul := { s.ul with
      chans := [127]
      hbm := putBytes (putBytes [] 4096 (leBytes 8 (0x41444150 * 2 ^ 32 + 2 ^ 16 + 2 ^ 8))) 4368 (leBytes 8 512) } }

def train0 : Train := ⟨63, 9, 0, [1], 1, 1, false, false, 1⟩

/-- A query of dimension 128 in FP32 for one entry, and a device whose last cluster scores such. -/
def query0 : Query := ⟨3#64, at? 1 4, List.replicate 128 0#64, .host 0⟩
def scoring : State :=
  ((((up.setBit Fld.CFG_LICENCE_ENABLED 15).setFld (Fld.PPL_STAGE_ROLE 15) 8).setFld (Fld.BLT_PROF_DIM128 15) 1).raise
    Fld.BLT_RING_FORMED).setFld Fld.BLT_RING_ROLE 1

def range0 (op : Nat) : RangeRec := ⟨2, op, 0, 256, 0, none, none, [], false⟩
def ranged (r : RangeRec) : State := { hbmUp with ul := { hbmUp.ul with ranges := [r] } }

/-- A request of a master for the first line. -/
def ulOp (k : UlKind) (master : Nat) : UlOp := ⟨k, ⟨0, master, 15, 0, 1#8, 0#2048, 0#256, 0⟩⟩
def line0 (dirty : BitVec 8) : Line := ⟨0, 0x80#8, dirty, 0#8, 0#2048, none, 0, false⟩
def lined (dirty : BitVec 8) : State := { hbmUp with ul := { hbmUp.ul with lines := [(0, line0 dirty)] } }

/-- An intact frame of a type, with the top byte of word 4. -/
def frameOf (type sub : Nat) : Frame := ⟨[at? type 60, 0#64, 0#64, 0#64, at? sub 56, 0#64, 0#64, 0#64], [], [], 0, 0#16, 0#32⟩

/-- A slot of a kind on a port. -/
def rxOf (port kind hseq : Nat) : Rx := ⟨port, sdWord kind hseq 0 0, false⟩

/-- Port 7 trained and on the path; on a formed ring, port 2 and port 0. -/
def ported : State :=
  let s := up.setFld (Fld.BLT_PORT_STAT_STATE 7) 3
  { s with ring := { s.ring with parentDown := true } }
def ringed (port : Nat) : State := scoring.setFld (Fld.BLT_PORT_STAT_STATE port) 2
def asking (port hseq n : Nat) : State :=
  { ringed port with ring := { (ringed port).ring with ports := [(port, { emptyPort with asked := [(hseq, n)] })] } }
def ph (p : FormPhase) (s : State) : State := { s with ring := { s.ring with phase := p } }

/-- A tap entry that the last cluster's round has taken, a SCORE cluster's water marks, a home. -/
def tapped (hw lw : Nat) (tap : List TapFrame) (homes : List Home) : State :=
  let s := (scoring.setFld Fld.BLT_SCORE_CTL_HW hw).setFld Fld.BLT_SCORE_CTL_LW lw
  { s with belt := { s.belt with tap := tap, dir := ⟨0, homes⟩ } }
def tap0 : TapFrame := ⟨0, 0, 0, 0, false, [], [], [15], false⟩

/-- Queue 63 enabled, of 16 entries; the guard of the underlayer. -/
def queued : State :=
  ((up.raise (Fld.HIF_SQ_CFG_EN 63)).raise (Fld.HIF_CQ_CFG_EN 63)).setFld (Fld.HIF_SQ_CFG_CQ 63) 63
def guarding (rate n quiet flag : Nat) : State :=
  let s := (up.setFld Fld.THM_GUARD_GUARD_RATE rate).setFld Fld.THM_STATUS_GUARD flag
  { s with power := { s.power with u1Corrections := n, guardQuiet := quiet } }
def waking (ramping : Bool) : State := { up with power := { up.power with wakes := [⟨15, ramping, []⟩] } }

/-- A region in service, its phase under trial. -/
def regional (trials : List PhaseTrial) : State :=
  let s := ((up.setBit Fld.CFG_LICENCE_ENABLED 15).setFld (Fld.PWR_REGION_STAT_STATE 15) RS.Q1).setBit
    (Fld.PWR_REGION_STAT_PHASE_OK 15) 7
  { s with power := { s.power with trials := trials } }

/-- A miss-status entry of the first line, whose channel request waits for a master without weight or guarantee. -/
def starved (falling : Bool) : State :=
  let s := (hbmUp.setFld (Fld.RGL_GRT_WEIGHT 0 1) 0).setFld (Fld.RGL_GRT_GUAR 0 1) 0
  { s with ul := { s.ul with mshr := [(0, [⟨0, 0, 1#8, [], falling⟩])] }
           rgl := { s.rgl with points := [(383, ⟨[], [], [⟨.read, ⟨0, 0, 0, 0, 1#8, 0#2048, 0#256, 0⟩⟩]⟩)] } }

/-- The first line in a resident PIN window, every way of its set out of use. -/
def fullSet : State :=
  let s := (((((hbmUp.raise (Fld.ULC_WIN_ATTR_VALID 0)).setFld (Fld.ULC_WIN_ATTR_SIZE_LOG2 0) 21).setFld
    (Fld.ULC_WIN_ATTR_PERSIST 0) 3).setFld (Fld.ULC_WIN_ATTR_QUOTA 0) 16).setFld (Fld.ULC_WIN_STAT_PIN_STATE 0) 1).setBit
    (Fld.ULC_WIN_CLASS_CLASSES 0) 0
  { s with ul := { s.ul with mshr := [(0, [⟨0, 0, 1#8, [], false⟩])]
                             rowsOff := (List.range 16).map (fun w => (0, (rowOf 0 w).1, (rowOf 0 w).2)) } }

/-! ## Well-formed commands: an ill-formed one for each check -/

theorem wf_cluster : (Instr.clusterReset 16).wf = false := by decide
theorem wf_cluster_last : (Instr.clusterReset 15).wf = true := by decide
theorem wf_tile : (Instr.tileStoreEccError 0 15 true).wf = false := by decide
theorem wf_group : (Instr.exit ⟨0, 0, 32⟩).wf = false := by decide
theorem wf_group_tile : (Instr.exit ⟨0, 15, 0⟩).wf = false := by decide
theorem wf_group_last : (Instr.exit ⟨15, 14, 31⟩).wf = true := by decide
theorem wf_queue : (Instr.nop 64 0).wf = false := by decide
theorem wf_cid : (Instr.nop 0 65536).wf = false := by decide
theorem wf_port : (Instr.alignSlot 8).wf = false := by decide
theorem wf_part : (Instr.trainUpdate 8).wf = false := by decide
theorem wf_class : (Instr.blockClose 0 16).wf = false := by decide
theorem wf_pos : (Instr.lopBrake 4096).wf = false := by decide
theorem wf_off_odd : (Instr.registerWrite 2 0#32).wf = false := by decide
theorem wf_off_high : (Instr.registerWrite 0x1000000 0#32).wf = false := by decide
theorem wf_frame : (Instr.join (rxOf 0 0 0) ⟨[], [], [], 0, 0#16, 0#32⟩).wf = false := by decide
theorem wf_last : (Instr.lastSlot (rxOf 0 4 0) (some ⟨[], [], [], 0, 0#16, 0#32⟩)).wf = false := by decide
theorem wf_leave : (Instr.leave (.message (rxOf 8 0 0) (frameOf 7 5))).wf = false := by decide
theorem wf_leave_ok : (Instr.leave (.message (rxOf 7 0 0) (frameOf 7 5))).wf = true := by decide
theorem wf_req : (Instr.sliceStore { (ulOp .store 22).r with cls := 0 }).wf = false := by decide
theorem wf_red : (Instr.globalReduction g0 ⟨7⟩ 0 0).wf = false := by decide
theorem wf_start_straps : (Instr.coldStart { startEnv with straps := [] }).wf = false := by decide
theorem wf_start_find : (Instr.coldStart { startEnv with finds := [⟨0x0E, 0#48, true⟩] }).wf = false := by decide
theorem wf_row_source : (Instr.rowPlace (.fedBack 65536)).wf = false := by decide
theorem wf_wait : (Instr.reservationStallTimeout (.command 64 0)).wf = false := by decide
theorem wf_sense : (Instr.tsvSenseRead [⟨2, 0, 0, 0⟩]).wf = false := by decide
theorem wf_meas : (Instr.regulationWindowEnd ⟨0, 0⟩ [(20, 0)]).wf = false := by decide
theorem wf_fault_tile : (Instr.scoreRoundEnd 0 (some (15, false))).wf = false := by decide
theorem wf_step : (Instr.startStepTimeout 6).wf = false := by decide
theorem wf_vif : (Instr.vifParityMismatch 2 0 true).wf = false := by decide
theorem wf_load_size : (Instr.lsLoad g0 4 0 0).wf = false := by decide
theorem wf_slice : (Instr.correctionLogExpiry 128).wf = false := by decide
theorem wf_channel : (Instr.hkChannelRead 64 0#16).wf = false := by decide
theorem wf_state : (Instr.idleDwellExpiry 2).wf = false := by decide
theorem wf_slot : (Instr.slotRelease 262144).wf = false := by decide

/-! ## Effects: what a step of one command leaves in a field, worked out by hand from the rules -/

/-- A field of the state after a command. -/
def after {α : Type} (c : Instr) (s : State) (f : State → α) : Option α :=
  match exec c s with
  | .next t => some (f t)
  | _ => none

theorem test_reset_canon : State.reset.canon = true := by decide

/-- R33: the cold start asked for when VAUX rises. -/
theorem test_vaux_rise : after .vauxRise State.reset.powerOff (fun t => t.boot.coldReq) = some true := by decide +kernel

/-- R14: an offset without a register. -/
theorem test_reserved : after (.registerWrite 0xFFFFFC 1#32) up (fun t => decide (t = up)) = some true := by decide +kernel

/-- R13: a W1C bit written 1 clears, one written 0 stays. -/
theorem test_w1c : after (.registerWrite Off.PPL_TILE_EVENTS 1#32)
    ((up.raise Fld.PPL_TILE_EVENTS_TRANSIENT).raise Fld.PPL_TILE_EVENTS_STEERED)
    (fun t => (t.flag Fld.PPL_TILE_EVENTS_TRANSIENT, t.flag Fld.PPL_TILE_EVENTS_STEERED)) = some (false, true) := by decide +kernel

/-- A group of one active thread with registers 0 to 2. -/
def one (a b c : W32) : Group := { half with vregs := tabPut 0#32 (tabPut 0#32 (tabPut 0#32 [] 0 a) 1 b) 2 c }
def oneV (c : Instr) (gr : Group) (r : Nat) : Option W32 :=
  after c (onTile (tileOf gr [])) (fun t => match t.groupAt g0 with | some (_, x) => x.vreg 0 r | none => 0#32)

/-- 1.0 + 2.0 = 3.0. -/
theorem test_fadd : oneV (.vectorArith g0 .fadd 7 0 1 0) (one 0x3F800000#32 0x40000000#32 0#32) 7 = some 0x40400000#32 := by decide +kernel
/-- 1 + 2^-24 is a tie, to even. -/
theorem test_fadd_tie : oneV (.vectorArith g0 .fadd 7 0 1 0) (one 0x3F800000#32 0x33800000#32 0#32) 7 = some 0x3F800000#32 := by decide +kernel
/-- 3.0 x 3.0 + 1.0 = 10.0, the destination a source. -/
theorem test_ffma : oneV (.vectorArith g0 .ffma 0 0 1 2) (one 0x40400000#32 0x40400000#32 0x3F800000#32) 0 = some 0x41200000#32 := by decide +kernel
/-- Signed saturation of 0x7FFFFFFF + 1. -/
theorem test_sat_add : oneV (.vectorArith g0 (.int32 .satAdd) 7 0 1 0) (one 0x7FFFFFFF#32 1#32 0#32) 7 = some 0x7FFFFFFF#32 := by decide +kernel
/-- Wrapping addition. -/
theorem test_add_wraps : oneV (.vectorArith g0 (.int32 .add) 7 0 1 0) (one 0xFFFFFFFF#32 1#32 0#32) 7 = some 0#32 := by decide +kernel
/-- An arithmetic right shift of -8 by 1. -/
theorem test_shr_signed : oneV (.vectorArith g0 (.int32 .shrS) 7 0 1 0) (one 0xFFFFFFF8#32 1#32 0#32) 7 = some 0xFFFFFFFC#32 := by decide +kernel
/-- The reciprocal of −0 is −∞ (Table 5-2); the square root of 4, 2^3, 6/3. -/
theorem test_rcp : oneV (.rcp g0 ⟨none, false⟩ 7 0) (one 0x80000000#32 0#32 0#32) 7 = some 0xFF800000#32 := by decide +kernel
theorem test_sqrt : oneV (.sqrt g0 ⟨none, false⟩ 7 0) (one 0x40800000#32 0#32 0#32) 7 = some 0x40000000#32 := by decide +kernel
theorem test_exp2 : oneV (.exp2 g0 ⟨none, false⟩ 7 0) (one 0x40400000#32 0#32 0#32) 7 = some 0x41000000#32 := by decide +kernel
theorem test_div : oneV (.div g0 ⟨none, false⟩ 7 0 1) (one 0x40C00000#32 0x40400000#32 0#32) 7 = some 0x40000000#32 := by decide +kernel
/-- 1.0 as E4M3: exponent bias 7, code 0x38. -/
theorem test_cvt : oneV (.vectorArith g0 (.cvt .e4m3 .fp32 false) 7 0 0 0) (one 0x3F800000#32 0#32 0#32) 7 = some 0x38#32 := by decide +kernel

/-- R127: a free lock is taken, its tag written; the release writes zero. -/
theorem test_lock : after (.lockAcq g0 2 0) (onTile (tileOf half [])) (fun t => (t.tile 15 15).locks) = some [⟨0, 31, 0, 0⟩] := by decide +kernel
/-- R126: an addition answers the old value and stores the sum. -/
theorem test_atomic : after (.lsAtomic g0 .add false 7 0 1 0) (onTile { tileOf (one 8#32 5#32 0#32) [] with ls := putBytes [] 8 [7#8] })
    (fun t => (getBytes (t.tile 15 15).ls 8 4, match t.groupAt g0 with | some (_, x) => x.vreg 0 7 | none => 0#32))
      = some ([12#8, 0#8, 0#8, 0#8], 7#32) := by decide +kernel
/-- R119: a store of 16 threads, and its read. -/
theorem test_store : after (.lsStore g0 2 0 0) work (fun t => getBytes (t.tile 15 15).ls 56 8) = some [56#8, 0#8, 0#8, 0#8, 60#8, 0#8, 0#8, 0#8] := by decide +kernel
/-- R111: an address outside the areas ends the launch with BAD_ADDRESS. -/
theorem test_bad_address : after (.lsStore g0 2 0 1) (onTile (tileOf (one 4096#32 0#32 0#32) []))
    (fun t => (t.fld Fld.PPL_KFAULT_HI_CAUSE, t.fld Fld.PPL_KFAULT_COUNT_COUNT)) = some (3, 1) := by decide +kernel
/-- R121: the taken path is stacked, the others fall through. -/
theorem test_brc : after (.brc g0 7 9 5) (onTile (tileOf { grp with preds := [(7, 1#64)] } []))
    (fun t => match t.groupAt g0 with | some (_, x) => (x.active, x.pc, x.stack.length) | none => (0#64, 0#24, 0)) = some (0xFFFE#64, 1#24, 2) := by decide +kernel
/-- R128: the last group at a barrier releases it. -/
theorem test_bar : after (.bar g0 0) work (fun t => match t.groupAt g0 with | some (_, x) => x.atBar | none => some 9) = some none := by decide +kernel
/-- R115: every thread's exit ends the group. -/
theorem test_exit : after (.exit g0) work (fun t => ((t.tile 15 15).groups.length, (t.tile 15 15).launches.length)) = some (0, 0) := by decide +kernel

/-- R356, R358: a NOP completes with status OK; one whose CID is 0xFFFF, with INVALID. -/
theorem test_nop : after (.nop 63 9) (holding (cmdOf 0x01 0 [] 0) queued) (fun t => (t.host.cmds, t.fld (Fld.HIF_CQ_STAT_TAIL 63))) = some ([], 1) := by decide +kernel
/-- R206: SEQ_OPEN makes a sequence OPEN with its list page. -/
theorem test_open : after (.seqOpen 63 9) (holding (cmdOf 0x21 0 [BitVec.ofNat 64 (6 * 2 ^ 48 + 16 * 2 ^ 22)] 0)
    { withSeq seq0 up with kvl := { (withSeq seq0 up).kvl with free := [(0, 3)] } }) (fun t => t.seqState 6) = some 1 := by decide +kernel
/-- R349: a doorbell past the ring. -/
theorem test_doorbell : after (.sqTailDoorbell 63 0xFFF#32) queued (fun t => t.flag Fld.HIF_EVENTS_DB_ERR) = some true := by decide +kernel
/-- R371: a result is released, all its slots. -/
theorem test_release : after (.slotRelease 5) { up with host := { up.host with slots :=
    [(5, ⟨true, 0, 9, 63, 1, 0, 2, 4, []⟩), (6, ⟨true, 0, 9, 63, 1, 1, 2, 4, []⟩)] } } (fun t => t.host.slots) = some [] := by decide +kernel

/-- R237, R241: a store of one sector allocates its line, valid and dirty there. -/
theorem test_slice_store : after (.sliceStore { (ulOp .store 16).r with bytes := 0xFFFFFFFF#256, data := 0x5A#2048 }) hbmUp
    (fun t => t.ul.lines.map (fun e => (e.2.tag, e.2.valid, e.2.dirty))) = some [(0, 1#8, 1#8)] := by decide +kernel
/-- R258: a tag error that cannot be repaired loses the line. -/
theorem test_tag_lost : after (.tagError 0 true) (lined 0#8) (fun t => (t.ul.lines, t.flag Fld.ULC_EVENTS_TAG_REPAIRED)) = some ([], false) := by decide +kernel

/-- R317: a brake from another device is set and passed on. -/
theorem test_brake : after (.lopBrake 4094) scoring (fun t => t.ring.brakes) = some [4094] := by decide +kernel
/-- R312: formation starts with position 0 and DISCOVER. -/
theorem test_formation : after .formationStart (up.setFld Fld.BLT_RING_ROLE 1) (fun t => (t.pos, t.ring.phase)) = some (0, .discover) := by decide +kernel

/-- R460: a temperature above 150 degrees is a sensor fault. -/
theorem test_sensor : after .housekeepingRound (up.setFld (Fld.THM_HK_VALUE 0) 2401) (fun t => t.fld Fld.THM_TEMP_T_CD) = some 2401 := by decide +kernel
/-- R443: a demand of level 3 above a code of 0 raises the code to 4. -/
theorem test_notice : after (.boardNoticeRaise 3) (up.setFld Fld.PWR_STATUS_NOTICE 0) (fun t => t.fld Fld.PWR_STATUS_NOTICE) = some 4 := by decide +kernel

/-- R480: the dynamic address is taken. -/
theorem test_entdaa : after (.i3cEntdaa 8) up (fun t => t.i3c.addr) = some (some 8) := by decide +kernel
/-- R483: IDCODE is loaded by a reset. -/
theorem test_tap : after .tapReset (up) (fun t => (t.tap.ir, t.tap.lands)) = some (TapIr.IDCODE, .functional) := by decide +kernel
/-- R27: the second loss of a sideband copy takes the device down. -/
theorem test_sideband : after (.sidebandCopyLost true) { up with stack := { up.stack with sidebandA := false } }
    (fun t => t.sideband true) = some false := by decide +kernel

/-- R347 (log entry 101): the message of a masked vector waits, and goes out when the mask is cleared. -/
theorem test_msix_masked : after (.vauxRise) (up.msi 33) (fun t => (t.flag (Fld.MSIX_PENDING 33), tabGet 0 t.host.msix 33)) = some (true, 0) := by decide +kernel
theorem test_msix_release : after (.registerWrite 0x821C 0#32) (up.msi 33)
    (fun t => (t.flag (Fld.MSIX_PENDING 33), tabGet 0 t.host.msix 33)) = some (false, 1) := by decide +kernel

/-- R149 (Table 5-7): a row operation of a reserved code is an ILLEGAL_INSTRUCTION. -/
theorem test_row_reserved : after (.rowSmaxFin g0 0 0 1 .reserved) work (fun t => (t.fld Fld.PPL_KFAULT_HI_CAUSE, t.fld Fld.PPL_KFAULT_COUNT_COUNT))
    = some (KF.ILLEGAL_INSTRUCTION, 1) := by decide +kernel
/-- Table 1-5: a sense group past its region's last. -/
theorem wf_sense_last : (Instr.tsvSenseRead [⟨1, 0, 0, 96⟩]).wf = false ∧ (Instr.tsvSenseRead [⟨1, 0, 0, 95⟩]).wf = true := by decide
/-- Table 10-2: KIND 1, HSEQ 5 has two bits set above bit 15, HSEQ 4 one more than an even number. -/
theorem test_sd : sdWord 1 5 0 0 = 0x200A0002#32 ∧ sdWord 1 4 0 0 = 0x20080000#32 := by decide +kernel

/-! ## Witnesses: a state and operands that meet the hypotheses of each clause -/

/-! ### EmptyQueueTicks -/

theorem wit_EmptyQueueTicks_0 : ∃ (s : State), s.pending = [] :=
  ⟨State.reset, by decide +kernel⟩

/-! ### StepKeepsCanon -/

theorem wit_StepKeepsCanon_0 : ∃ (s t : State), s.canon = true ∧ step s = .next t :=
  ⟨State.reset, ((State.reset).tick), ⟨by decide, rfl⟩⟩

/-! ### StepKeepsFlashGood -/

theorem wit_StepKeepsFlashGood_0 : ∃ (s t : State), s.flashGood ∧ step s = .next t :=
  ⟨State.reset, State.reset.tick, ⟨⟨fun _ h => (nomatch h), fun _ h => (nomatch h), ⟨by decide, fun _ h => absurd h List.not_mem_nil⟩, fun _ h => absurd h List.not_mem_nil⟩, rfl⟩⟩

/-! ### OnlyFlashCommandsWriteBanks -/

theorem wit_OnlyFlashCommandsWriteBanks_0 : ∃ (c : Instr) (s t : State), (∀ q i x, c ≠ .nvmWrite q i x) ∧ (∀ b, c ≠ .flashOperationComplete b) ∧ exec c s = .next t :=
  ⟨.vauxFall, State.reset, State.reset.powerOff, ⟨by intros; exact Instr.noConfusion, by intros; exact Instr.noConfusion, rfl⟩⟩

/-! ### SuppliesAndPins -/

theorem wit_SuppliesAndPins_0 : ∃ (s : State), s.pins.vaux = false :=
  ⟨State.reset.powerOff, by decide +kernel⟩

theorem wit_SuppliesAndPins_1 : ∃ (s : State), s.pins.vaux = true :=
  ⟨State.reset, by decide +kernel⟩

theorem wit_SuppliesAndPins_2 : ∃ (s : State), (∀ env, s.boot.run ≠ .waitVin env) :=
  ⟨State.reset, by intro e h; cases h⟩

theorem wit_SuppliesAndPins_3 : ∃ (s : State) (env : StartEnv), s.boot.run = .waitVin env :=
  ⟨{ State.reset with boot := { State.reset.boot with run := .waitVin startEnv } }, startEnv, by decide +kernel⟩

theorem wit_SuppliesAndPins_4 : ∃ (s : State), s.pins.vinIb = true ∧ s.pins.vaux = true ∧ s.pins.resetLow = false ∧ s.boot.thermLatch = false :=
  ⟨State.reset, by decide +kernel⟩

theorem wit_SuppliesAndPins_5 : ∃ (s : State), s.pins.resetLow = false ∧ s.pins.vaux = true ∧ s.boot.thermLatch = false :=
  ⟨State.reset, by decide +kernel⟩

theorem wit_SuppliesAndPins_6 : ∃ (s : State), s.pins.resetLow = true ∧ s.pins.vaux = true :=
  ⟨{ State.reset with pins := { State.reset.pins with resetLow := true } }, by decide +kernel⟩

theorem wit_SuppliesAndPins_7 : ∃ (s : State), s.pins.refclk = true ∧ s.pins.vaux = true ∧ s.pins.resetLow = false ∧ s.boot.thermLatch = false ∧ s.dstate ≠ DS.STARTING ∧ s.dstate ≠ DS.FAILED :=
  ⟨up, by decide +kernel⟩

theorem wit_SuppliesAndPins_8 : ∃ (s : State), s.pins.refclk = false ∧ s.boot.run = .idle ∧ s.pins.vaux = true ∧ s.pins.resetLow = false ∧ s.boot.thermLatch = false :=
  ⟨{ State.reset with pins := { State.reset.pins with refclk := false } }, by decide +kernel⟩

theorem wit_SuppliesAndPins_9 : ∃ (s : State) (env : StartEnv), s.pins.refclk = false ∧ s.boot.run = .waitRefclk env :=
  ⟨{ State.reset with pins := { State.reset.pins with refclk := false }, boot := { State.reset.boot with run := .waitRefclk startEnv } }, startEnv, by decide +kernel⟩

theorem wit_SuppliesAndPins_10 : ∃ (s : State), s.pins.refclk = false ∧ (∀ env, s.boot.run ≠ .waitRefclk env) :=
  ⟨{ State.reset with pins := { State.reset.pins with refclk := false } }, ⟨by decide, by intro e h; cases h⟩⟩

/-! ### StartsAndResets -/

theorem wit_StartsAndResets_0 : ∃ (s : State), s.mayStart0 = true :=
  ⟨State.reset, by decide +kernel⟩

theorem wit_StartsAndResets_1 : ∃ (step : Nat) (s : State), s.mayStart0 = true ∧ step ≤ 5 :=
  ⟨5, State.reset, by decide +kernel⟩

theorem wit_StartsAndResets_2 : ∃ (cause : Nat) (s : State), s.boot.warmReq = some cause ∧ s.boot.coldReq = false ∧ s.pins.vddUp = true ∧ s.pins.resetLow = false ∧ s.dstate = DS.READY :=
  ⟨0, (({ up with boot := { up.boot with warmReq := some 0, coldReq := false } }).setDstate DS.READY), by decide +kernel⟩

theorem wit_StartsAndResets_3 : ∃ (cause : Nat) (s : State), s.boot.warmReq = some cause ∧ s.boot.coldReq = false ∧ s.pins.vddUp = true ∧ s.pins.resetLow = false ∧ s.dstate = DS.RECOVERY :=
  ⟨0, (({ up with boot := { up.boot with warmReq := some 0, coldReq := false } }).setDstate DS.RECOVERY), by decide +kernel⟩

theorem wit_StartsAndResets_4 : ∃ (c cause : Nat) (s : State), s.boot.clusterReq.find? (fun e => e.1 = c) = some (c, cause) ∧ s.ready = true ∧
    let t := { s with boot := { s.boot with clusterReq := s.boot.clusterReq.filter (fun x => x.1 ≠ c) } }
    t.clusterUp c = true :=
  ⟨15, 0, (({ up with boot := { up.boot with clusterReq := [(15, 0)] } }).setBit Fld.CFG_LICENCE_ENABLED 15), by decide +kernel⟩

theorem wit_StartsAndResets_5 : ∃ (v : W32) (s : State), s.linked = true ∧ bitsOf v 31 31 = 1 ∧ bitsOf v 23 16 = 0x5A ∧ bitsOf v 15 0 = 0 ∧ s.ready = true :=
  ⟨0x805A0000#32, up, by decide +kernel⟩

theorem wit_StartsAndResets_6 : ∃ (v : W32) (s : State), s.linked = true ∧ bitsOf v 31 31 = 0 ∧ bitsOf v 23 16 = 0x5A ∧ (∀ c ∈ maskList (bitsOf v 15 0), s.fbit Fld.CFG_LICENCE_ENABLED c = true) ∧ s.ready = true :=
  ⟨0x005A8001#32, ((up.setBit Fld.CFG_LICENCE_ENABLED 0).setBit Fld.CFG_LICENCE_ENABLED 15), by decide +kernel⟩

theorem wit_StartsAndResets_7 : ∃ (v : W32) (s : State), s.linked = true ∧ bitsOf v 23 16 ≠ 0x5A :=
  ⟨0x805B0000#32, up, by decide +kernel⟩

/-! ### BetweenDies -/

theorem wit_BetweenDies_0 : ∃ (die : TbDie) (s : State), s.dieUp die = true ∧ s.bothPaths die = true :=
  ⟨.iod, up, by decide +kernel⟩

theorem wit_BetweenDies_1 : ∃ (onCd pathB : Bool) (s : State), s.dieUp (if onCd then .cd else .u1) = true ∧ s.flag (pathFld onCd pathB) = true ∧ s.flag (pathFld onCd (!pathB)) = true :=
  ⟨true, true, ((up.setFld (pathFld true true) 1).setFld (pathFld true false) 1), by decide +kernel⟩

theorem wit_BetweenDies_2 : ∃ (onCd pathB : Bool) (s : State), s.dieUp (if onCd then .cd else .u1) = true ∧ s.flag (pathFld onCd pathB) = true ∧ s.flag (pathFld onCd (!pathB)) = false :=
  ⟨true, true, ((up.setFld (pathFld true true) 1).setFld (pathFld true false) 0), by decide +kernel⟩

theorem wit_BetweenDies_3 : ∃ (copyB : Bool) (s : State), s.sideband copyB = true ∧ s.sideband (!copyB) = true :=
  ⟨true, up, by decide +kernel⟩

theorem wit_BetweenDies_4 : ∃ (copyB : Bool) (s : State), s.sideband copyB = true ∧ s.sideband (!copyB) = false :=
  ⟨true, { up with stack := { up.stack with sidebandA := false } }, by decide +kernel⟩

theorem wit_BetweenDies_5 : ∃ (iface group : Nat) (s : State), iface < 2 ∧ group < 9728 ∧ s.sliceState (group / 76) = 0 ∧ s.underTest iface group = false ∧ s.vifUp iface = true :=
  ⟨1, 9727, up, by decide +kernel⟩

theorem wit_BetweenDies_6 : ∃ (iface group site : Nat) (s : State), s.underTest iface group = true ∧ siteTested group site = true :=
  ⟨1, 9727, 33, { up with stack := { up.stack with vifUnderTest := [(1, 9727)] } }, by decide +kernel⟩

theorem wit_BetweenDies_7 : ∃ (iface group : Nat) (s : State), s.underTest iface group = true :=
  ⟨1, 9727, { up with stack := { up.stack with vifUnderTest := [(1, 9727)] } }, by decide +kernel⟩

theorem wit_BetweenDies_8 : ∃ (s : State), s.running = true :=
  ⟨up, by decide +kernel⟩

theorem wit_BetweenDies_9 : ∃ (ch : Nat) (s : State), ch < 128 ∧ s.fbit (Fld.ULC_CHAN_RET_RETIRED (ch / 32)) (ch % 32) = false ∧ s.pins.vddUp = true :=
  ⟨127, up, by decide +kernel⟩

/-! ### BridgeFlits -/

theorem wit_BridgeFlits_0 : ∃ (pair : Nat) (flit : List Byte) (s : State), pair < 16 ∧ s.fbit Fld.CFG_BRIDGE_PAIR_RETIRED pair = false ∧ s.pins.vddUp = true ∧
    let ftype := bitsOf (flitHeader flit) 111 108
    flitCrcOk flit = true ∧ ftype < 3 :=
  ⟨15, (flitOf 2 26293), up, ⟨by decide, by decide +kernel, by decide, flit_2, by decide +kernel⟩⟩

theorem wit_BridgeFlits_1 : ∃ (pair : Nat) (flit : List Byte) (s : State), pair < 16 ∧ s.fbit Fld.CFG_BRIDGE_PAIR_RETIRED pair = false ∧ s.pins.vddUp = true ∧
    let ftype := bitsOf (flitHeader flit) 111 108
    flitCrcOk flit = true ∧ ftype = 3 :=
  ⟨15, (flitOf 3 36916), up, ⟨by decide, by decide +kernel, by decide, flit_3, by decide +kernel⟩⟩

theorem wit_BridgeFlits_2 : ∃ (pair : Nat) (flit : List Byte) (s : State), pair < 16 ∧ s.fbit Fld.CFG_BRIDGE_PAIR_RETIRED pair = false ∧ s.pins.vddUp = true ∧
    let ftype := bitsOf (flitHeader flit) 111 108
    (flitCrcOk flit = false ∨ 4 ≤ ftype) :=
  ⟨15, (flitOf 4 0), up, ⟨by decide, by decide +kernel, by decide, .inr (by decide +kernel)⟩⟩

/-! ### RegisterAccess -/

theorem wit_RegisterAccess_0 : ∃ (off : Nat) (s : State), s.linked = true ∧ isPairLow off = true :=
  ⟨Off.KVL_SWAP_BASE_LO, up, by decide +kernel⟩

theorem wit_RegisterAccess_1 : ∃ (off : Nat) (s : State), s.linked = true ∧ isHeldLow off = true ∧ off ≠ Off.KVL_SWAP_BASE_LO :=
  ⟨(Off.HIF_SQ_BASE_LO 63), up, by decide +kernel⟩

theorem wit_RegisterAccess_2 : ∃ (lo : Nat) (s : State), s.linked = true ∧ isHeldLow lo = true ∧ lo ≠ Off.KVL_SWAP_BASE_LO ∧ s.baseLocked lo = false :=
  ⟨(Off.HIF_SQ_BASE_LO 63), up, by decide +kernel⟩

theorem wit_RegisterAccess_3 : ∃ (off : Nat) (v : W32) (s : State), s.linked = true ∧ isHeldLow off = false ∧ (4 ≤ off → isHeldLow (off - 4) = false) ∧ s.writeOwnReg off v = none :=
  ⟨Off.BLT_RING_CTL, 0#32, up, by decide +kernel⟩

theorem wit_RegisterAccess_4 : ∃ (r : Nat) (s : State), r < 16 ∧ s.linked = true :=
  ⟨15, up, by decide +kernel⟩

theorem wit_RegisterAccess_5 : ∃ (s : State), s.linked = true :=
  ⟨up, by decide +kernel⟩

theorem wit_RegisterAccess_6 : ∃ (s : State), s.linked = true ∧ s.flag Fld.KVL_SWAP_SIZE_BUSY = false :=
  ⟨up, by decide +kernel⟩

theorem wit_RegisterAccess_7 : ∃ (s : State), s.linked = true :=
  ⟨up, by decide +kernel⟩

theorem wit_RegisterAccess_8 : ∃ (m r : Nat) (v : W32) (s : State), s.linked = true ∧ m < 22 ∧ r < 4 ∧ (bitsOf v 10 0 = 0 ∨ pairExists m r = true) ∧ s.grtSum m r (bitsOf v 10 0) ≤ 1024 :=
  ⟨0, 0, 240#32, up, by decide +kernel⟩

theorem wit_RegisterAccess_9 : ∃ (k : Nat) (v : W32) (s : State), s.linked = true ∧ k < 16 ∧ bitsOf v 5 0 ≤ 32 ∧ bitsOf v 12 8 ≤ 16 ∧ s.rsvSum Fld.RGL_CLASS_MSHR_RSV k (bitsOf v 5 0) ≤ 192 ∧ s.rsvSum Fld.RGL_CLASS_QSLOT_RSV k (bitsOf v 12 8) ≤ 96 :=
  ⟨15, 0x1020#32, up, by decide +kernel⟩

theorem wit_RegisterAccess_10 : ∃ (lo : Nat) (v : W32) (s : State), s.linked = true ∧ isPairLow lo = true ∧ isPairLow (lo + 4) = false ∧ tabFind s.pairCap lo = some v :=
  ⟨Off.CFG_TIMEBASE_LO, 1#32, { up with pairCap := [(Off.CFG_TIMEBASE_LO, 1#32)] }, by decide +kernel⟩

/-! ### RegulationRefusals -/

theorem wit_RegulationRefusals_0 : ∃ (m r : Nat) (v : W32) (s : State), s.linked = true ∧ m < 22 ∧ r < 4 ∧ 1024 < s.grtSum m r (bitsOf v 10 0) :=
  ⟨0, 0, 1025#32, up, by decide +kernel⟩

theorem wit_RegulationRefusals_1 : ∃ (m r : Nat) (v : W32) (s : State), s.linked = true ∧ m < 22 ∧ r < 4 ∧ bitsOf v 10 0 ≠ 0 ∧ pairExists m r = false :=
  ⟨21, 3, 1#32, up, by decide +kernel⟩

theorem wit_RegulationRefusals_2 : ∃ (k : Nat) (v : W32) (s : State), s.linked = true ∧ k < 16 ∧ (192 < s.rsvSum Fld.RGL_CLASS_MSHR_RSV k (bitsOf v 5 0) ∨ 96 < s.rsvSum Fld.RGL_CLASS_QSLOT_RSV k (bitsOf v 12 8)) :=
  ⟨15, 63#32, ((up.setFld (Fld.RGL_CLASS_MSHR_RSV 0) 63).setFld (Fld.RGL_CLASS_MSHR_RSV 1) 63).setFld (Fld.RGL_CLASS_MSHR_RSV 2) 63, by decide +kernel⟩

/-! ### MatrixOperations -/

theorem wit_MatrixOperations_0 : ∃ (g : GroupRef) (desc sOff sScale p : Nat) (gr : Group) (l : Launch) (ds : List (List W64)) (s : State), s.Issues g p gr ∧ s.launchOf g.cluster p gr = some l ∧ s.matSlots g.cluster l desc 1 = some ds ∧ gr.whole = true ∧ (s.tile g.cluster p).outstanding g.slot < 4 ∧ (s.tile g.cluster p).queue.length < 16 ∧
    let packed := ds.any (fun w => (matDesc w).mode = 1)

    let sa : W32 := (gr.sreg sScale).setWidth 32

    let sb : W32 := ((gr.sreg sScale) >>> 32).setWidth 32

    let off := (gr.sreg sOff).toNat
    (ds.map matDesc).all (fun d => scalesOk d sa sb) = true ∧ (packed = true → packAgrees (ds.map matDesc) = true) ∧ matRangesOk (s.kernelOf g.cluster p gr) gr.priv off (ds.map matDesc) = true :=
  ⟨g0, 1, 63, 63, 15, grp, launch0, [mWords 0 96], work, by decide +kernel⟩

theorem wit_MatrixOperations_1 : ∃ (g : GroupRef) (desc count sOff sScale p : Nat) (gr : Group) (l : Launch) (ds : List (List W64)) (s : State), s.Issues g p gr ∧ 1 ≤ count ∧ count ≤ 16 ∧ s.launchOf g.cluster p gr = some l ∧ s.matSlots g.cluster l desc count = some ds ∧ gr.whole = true ∧ (s.tile g.cluster p).outstanding g.slot < 4 ∧ (s.tile g.cluster p).queue.length < 16 ∧
    let sa : W32 := (gr.sreg sScale).setWidth 32

    let sb : W32 := ((gr.sreg sScale) >>> 32).setWidth 32

    let off := (gr.sreg sOff).toNat
    (ds.map matDesc).all (fun d => scalesOk d sa sb) = true ∧ packAgrees (ds.map matDesc) = true ∧ matRangesOk (s.kernelOf g.cluster p gr) gr.priv off (ds.map matDesc) = true :=
  ⟨g0, 2, 2, 63, 63, 15, grp, launch0, [mWords 1 96, mWords 1 128], work, by decide +kernel⟩

theorem wit_MatrixOperations_2 : ∃ (g : GroupRef) (n p : Nat) (gr : Group) (s : State), s.Issues g p gr ∧ n ≤ 3 ∧ gr.whole = true ∧ (s.tile g.cluster p).outstanding g.slot ≤ n :=
  ⟨g0, 1, 15, grp, onTile (tileOf grp [mop]), by decide +kernel⟩

theorem wit_MatrixOperations_3 : ∃ (c t sub p at' : Nat) (mismatch mergeDiffers : Bool) (m : MatOp) (r : SubRun) (d : MatDesc) (s : State), s.phys? c t = some p ∧ (s.tile c p).running? = some (at', m) ∧ m.subs[sub]? = some r ∧ m.mats[sub]? = some d ∧ r.done = false ∧
    let k := d.check m.packed ((s.tile c p).lsAt at') m.offset r.fold r.pass

    let bad := k.fails || (mergeDiffers && decide (accumOf d.fmtA d.fmtB ≠ some .sterling)) || (mismatch && decide (k.skipped < k.total))
    bad = false :=
  ⟨15, 14, 0, 15, 0, false, false, mop, ⟨0, 0, false, false⟩, matDesc (mWords 0 96), onTile (tileOf grp [mop]), by decide +kernel⟩

theorem wit_MatrixOperations_4 : ∃ (c t sub p at' : Nat) (mismatch mergeDiffers : Bool) (m : MatOp) (r : SubRun) (d : MatDesc) (s : State), s.phys? c t = some p ∧ (s.tile c p).running? = some (at', m) ∧ m.subs[sub]? = some r ∧ m.mats[sub]? = some d ∧ r.done = false ∧
    let k := d.check m.packed ((s.tile c p).lsAt at') m.offset r.fold r.pass

    let bad := k.fails || (mergeDiffers && decide (accumOf d.fmtA d.fmtB ≠ some .sterling)) || (mismatch && decide (k.skipped < k.total))
    bad = true :=
  ⟨15, 14, 0, 15, 0, true, false, mop, ⟨0, 0, false, false⟩, matDesc (mWords 0 96), onTile (tileOf grp [mop]), by decide +kernel⟩

theorem wit_MatrixOperations_5 : ∃ (c t p : Nat) (m : MatOp) (rest : List MatOp) (s : State), s.phys? c t = some p ∧ (s.tile c p).queue = m :: rest ∧ m.subs.all (fun r => r.done) = true :=
  ⟨15, 14, 15, { mop with subs := [⟨1, 0, false, true⟩] }, [], onTile (tileOf grp [{ mop with subs := [⟨1, 0, false, true⟩] }]), by decide +kernel⟩

theorem wit_MatrixOperations_6 : ∃ (c t : Nat) (s : State), (s.cluster c).attaching = some t ∧ s.clusterUp c = true :=
  ⟨15, 14, work.modCluster 15 (fun k => { k with attaching := some 14 }), by decide +kernel⟩

/-! ### GroupFaultsAndWaits -/

theorem wit_GroupFaultsAndWaits_0 : ∃ (g : GroupRef) (n p : Nat) (gr : Group) (s : State), s.Issues g p gr ∧ n ≤ 3 ∧ gr.whole = false :=
  ⟨g0, 3, 15, half, onTile (tileOf half []), by decide +kernel⟩

theorem wit_GroupFaultsAndWaits_1 : ∃ (g : GroupRef) (n p : Nat) (gr : Group) (s : State), s.Issues g p gr ∧ gr.whole = true ∧ n < (s.tile g.cluster p).outstanding g.slot :=
  ⟨g0, 0, 15, grp, onTile (tileOf grp [mop]), by decide +kernel⟩

theorem wit_GroupFaultsAndWaits_2 : ∃ (g : GroupRef) (desc count p : Nat) (gr : Group) (l : Launch) (ds : List (List W64)) (s : State), s.Issues g p gr ∧ 1 ≤ count ∧ count ≤ 16 ∧ s.launchOf g.cluster p gr = some l ∧ s.matSlots g.cluster l desc count = some ds ∧ gr.whole = false :=
  ⟨g0, 2, 2, 15, half, launch0, [mWords 1 96, mWords 1 128], onTile (tileOf half []), by decide +kernel⟩

theorem wit_GroupFaultsAndWaits_3 : ∃ (g : GroupRef) (desc count p : Nat) (gr : Group) (l : Launch) (ds : List (List W64)) (s : State), s.Issues g p gr ∧ 1 ≤ count ∧ count ≤ 16 ∧ s.launchOf g.cluster p gr = some l ∧ s.matSlots g.cluster l desc count = some ds ∧ gr.whole = true ∧ (4 ≤ (s.tile g.cluster p).outstanding g.slot ∨ 16 ≤ (s.tile g.cluster p).queue.length) :=
  ⟨g0, 2, 2, 15, grp, launch0, [mWords 1 96, mWords 1 128], onTile (tileOf grp [mop, mop, mop, mop]), by decide +kernel⟩

theorem wit_GroupFaultsAndWaits_4 : ∃ (g : GroupRef) (n d a p : Nat) (gr : Group) (s : State), s.Issues g p gr ∧ (s.kernelOf g.cluster p gr).elemOk n d = true ∧ (s.kernelOf g.cluster p gr).vOk a = true ∧ lsAddrsOk (s.kernelOf g.cluster p gr) gr n a = false :=
  ⟨g0, 3, 6, 0, 15, grp, work, by decide +kernel⟩

theorem wit_GroupFaultsAndWaits_5 : ∃ (g : GroupRef) (a p : Nat) (gr : Group) (s : State), s.Issues g p gr ∧ (s.kernelOf g.cluster p gr).vOk a = true ∧ lsAddrsOk (s.kernelOf g.cluster p gr) gr 2 a = true ∧ (s.tile g.cluster p).storeStalls (lsRanges gr 2 a) = false ∧ gr.threads.foldl (unlockStep g.slot a gr) (some ((s.tile g.cluster p).ls, (s.tile g.cluster p).locks)) = none :=
  ⟨g0, 0, 15, grp, work, by decide +kernel⟩

theorem wit_GroupFaultsAndWaits_6 : ∃ (g : GroupRef) (sd ss p : Nat) (gr : Group) (s : State), s.Issues g p gr ∧ sd < 64 ∧ ss < 64 ∧ sd % 2 = 1 :=
  ⟨g0, 63, 63, 15, grp, work, by decide +kernel⟩

theorem wit_GroupFaultsAndWaits_7 : ∃ (g : GroupRef) (sd ss p : Nat) (gr : Group) (s : State), s.Issues g p gr ∧ sd < 64 ∧ ss < 64 ∧ s.kvCheck (s.groupHandle g.cluster p gr) (gr.sreg ss) = none :=
  ⟨g0, 63, 63, 15, grp, work, by decide +kernel⟩

theorem wit_GroupFaultsAndWaits_8 : ∃ (g : GroupRef) (sd ss p : Nat) (gr : Group) (s : State), s.Issues g p gr ∧ sd < 64 ∧ ss < 64 ∧ s.kvCheck (s.groupHandle g.cluster p gr) (gr.sreg ss) = none ∧ sd % 2 = 0 :=
  ⟨g0, 62, 63, 15, grp, work, by decide +kernel⟩

theorem wit_GroupFaultsAndWaits_9 : ∃ (g : GroupRef) (op sa sb p : Nat) (gr : Group) (s : State), s.Issues g p gr ∧ op ≤ 4 ∧ sa < 64 ∧ sb < 64 ∧ s.rangeOk op (gr.sreg sa).toNat (gr.sreg sb).toNat = false :=
  ⟨g0, 4, 0, 1, 15, grp, work, by decide +kernel⟩

theorem wit_GroupFaultsAndWaits_10 : ∃ (g : GroupRef) (p : Nat) (gr : Group) (s : State), s.Issues g p gr :=
  ⟨g0, 15, grp, work, by decide +kernel⟩

/-! ### GroupArithmetic -/

theorem wit_GroupArithmetic_0 : ∃ (g : GroupRef) (op : VecOp) (d a b c p : Nat) (gr : Group) (s : State), s.Issues g p gr ∧ vecRegsOk op (s.kernelOf g.cluster p gr) d a b c = true :=
  ⟨g0, .ffma, 7, 7, 7, 7, 15, grp, work, by decide +kernel⟩

theorem wit_GroupArithmetic_1 : ∃ (g : GroupRef) (d a b p : Nat) (gr : Group) (s : State), s.Issues g p gr ∧ d < 64 ∧ a < 64 ∧ b < 64 :=
  ⟨g0, 63, 63, 63, 15, grp, work, by decide +kernel⟩

/-! ### LocalStore -/

theorem wit_LocalStore_0 : ∃ (g : GroupRef) (n d a p : Nat) (gr : Group) (s : State), s.Issues g p gr ∧ (s.kernelOf g.cluster p gr).elemOk n d = true ∧ (s.kernelOf g.cluster p gr).vOk a = true ∧ lsAddrsOk (s.kernelOf g.cluster p gr) gr n a = true ∧ (s.tile g.cluster p).loadStalls (lsRanges gr n a) = false :=
  ⟨g0, 2, 7, 0, 15, grp, work, by decide +kernel⟩

theorem wit_LocalStore_1 : ∃ (g : GroupRef) (n a src p : Nat) (gr : Group) (s : State), s.Issues g p gr ∧ (s.kernelOf g.cluster p gr).elemOk n src = true ∧ (s.kernelOf g.cluster p gr).vOk a = true ∧ lsAddrsOk (s.kernelOf g.cluster p gr) gr n a = true ∧ (s.tile g.cluster p).storeStalls (lsRanges gr n a) = false :=
  ⟨g0, 3, 2, 6, 15, grp, work, by decide +kernel⟩

theorem wit_LocalStore_2 : ∃ (g : GroupRef) (op : AtomicOp) (wide : Bool) (d a src cmp p : Nat) (gr : Group) (s : State), s.Issues g p gr ∧
    let e := if wide then 3 else 2
    (s.kernelOf g.cluster p gr).elemOk e d = true ∧ (s.kernelOf g.cluster p gr).vOk a = true ∧ (s.kernelOf g.cluster p gr).elemOk e src = true ∧ (op = .cas → (s.kernelOf g.cluster p gr).elemOk e cmp = true) ∧ lsAddrsOk (s.kernelOf g.cluster p gr) gr e a = true ∧ (s.tile g.cluster p).storeStalls (lsRanges gr e a) = false :=
  ⟨g0, .cas, true, 6, 2, 6, 4, 15, grp, work, by decide +kernel⟩

theorem wit_LocalStore_3 : ∃ (g : GroupRef) (a q p : Nat) (gr : Group) (s : State), s.Issues g p gr ∧ (s.kernelOf g.cluster p gr).vOk a = true ∧ q < 8 ∧ lsAddrsOk (s.kernelOf g.cluster p gr) gr 2 a = true ∧ (s.tile g.cluster p).storeStalls (lsRanges gr 2 a) = false :=
  ⟨g0, 0, 7, 15, grp, work, by decide +kernel⟩

theorem wit_LocalStore_4 : ∃ (g : GroupRef) (a p : Nat) (gr : Group) (r : Tab Byte × List Lock) (s : State), s.Issues g p gr ∧ (s.kernelOf g.cluster p gr).vOk a = true ∧ lsAddrsOk (s.kernelOf g.cluster p gr) gr 2 a = true ∧ (s.tile g.cluster p).storeStalls (lsRanges gr 2 a) = false ∧
    let t := s.tile g.cluster p
    gr.threads.foldl (unlockStep g.slot a gr) (some (t.ls, t.locks)) = some r :=
  ⟨g0, 1, 15, { half with vregs := [(1, 4092#32)] }, ([], []), onTile { tileOf { half with vregs := [(1, 4092#32)] } [] with ls := putBytes [] 4092 (leBytes 4 (lockTag 31 0)), locks := [⟨4092, 31, 0, 0⟩] }, by decide +kernel⟩

/-! ### GlobalMemory -/

theorem wit_GlobalMemory_0 : ∃ (g : GroupRef) (n d a p : Nat) (gr : Group) (s : State), s.Issues g p gr ∧ (s.kernelOf g.cluster p gr).elemOk n d = true ∧ (s.kernelOf g.cluster p gr).pairOk a = true ∧ s.gAddrsOk gr (2 ^ n) a false = true :=
  ⟨g0, 2, 7, 0, 15, grp, work, by decide +kernel⟩

theorem wit_GlobalMemory_1 : ∃ (g : GroupRef) (n a src p : Nat) (gr : Group) (l : Launch) (s : State), s.Issues g p gr ∧ (s.kernelOf g.cluster p gr).elemOk n src = true ∧ (s.kernelOf g.cluster p gr).pairOk a = true ∧ s.gAddrsOk gr (2 ^ n) a true = true ∧ s.launchOf g.cluster p gr = some l :=
  ⟨g0, 2, 0, 7, 15, grp, launch0, work, by decide +kernel⟩

theorem wit_GlobalMemory_2 : ∃ (g : GroupRef) (op : RedOp) (a src p : Nat) (gr : Group) (l : Launch) (s : State), s.Issues g p gr ∧
    let n := if redSize op.code = 8 then 3 else 2
    (s.kernelOf g.cluster p gr).elemOk n src = true ∧ (s.kernelOf g.cluster p gr).pairOk a = true ∧ op.code % 16 ≤ 6 ∧ s.gAddrsOk gr (2 ^ n) a true = true ∧ s.launchOf g.cluster p gr = some l ∧
    let ops := (reduceRounds (gr.storeEls n a src) []).flatMap (roundReds (g.ltile = 0) g.cluster (s.classAt g.cluster l.handle) op.code)
    ((s.entryOf l.handle).isSome = true ∨ s.beltStage g.cluster = true) ∧ (s.tile g.cluster p).commitOf l.handle + ops.length ≤ 1024 ∧ (s.tile g.cluster p).commit.length + ops.length ≤ 1024 :=
  ⟨g0, ⟨0x16⟩, 2, 6, 15, grp, launch0, work, by decide +kernel⟩

theorem wit_GlobalMemory_3 : ∃ (g : GroupRef) (n d a p : Nat) (gr : Group) (l : Launch) (pr : Program) (s : State), s.Issues g p gr ∧ (s.kernelOf g.cluster p gr).elemOk n d = true ∧ (s.kernelOf g.cluster p gr).vOk a = true ∧ (∀ t ∈ gr.threads, (gr.vreg t a).toNat % 2 ^ n = 0) ∧ s.launchOf g.cluster p gr = some l ∧ (s.cluster g.cluster).prog? l.gen = some pr ∧ (∀ t ∈ gr.threads, (s.kernelOf g.cluster p gr).constBase * 256 + (gr.vreg t a).toNat + 2 ^ n ≤ pr.constBytes) :=
  ⟨g0, 3, 6, 2, 15, grp, launch0, prog, work, by decide +kernel⟩

theorem wit_GlobalMemory_4 : ∃ (g : GroupRef) (p : Nat) (gr : Group) (s : State), s.Issues g p gr :=
  ⟨g0, 15, grp, work, by decide +kernel⟩

theorem wit_GlobalMemory_5 : ∃ (g : GroupRef) (p : Nat) (gr : Group) (s : State), s.Issues g p gr ∧ gr.stores = [] ∧ (∀ r ∈ s.ul.ranges, r.group ≠ some g) :=
  ⟨g0, 15, grp, work, by decide +kernel⟩

theorem wit_GlobalMemory_6 : ∃ (g : GroupRef) (p : Nat) (gr : Group) (s : State), s.Issues g p gr :=
  ⟨g0, 15, grp, work, by decide +kernel⟩

theorem wit_GlobalMemory_7 : ∃ (g : GroupRef) (op : RedOp) (a src p : Nat) (gr : Group) (l : Launch) (s : State), s.Issues g p gr ∧
    let n := if redSize op.code = 8 then 3 else 2
    (s.kernelOf g.cluster p gr).elemOk n src = true ∧ (s.kernelOf g.cluster p gr).pairOk a = true ∧ op.code % 16 ≤ 6 ∧ s.gAddrsOk gr (2 ^ n) a true = true ∧ s.launchOf g.cluster p gr = some l ∧ s.entryOf l.handle = none ∧ s.beltStage g.cluster = false :=
  ⟨g0, ⟨0x16⟩, 2, 6, 15, grp, launch0, work.modCluster 15 (fun k => { k with queue := [] }), by decide +kernel⟩

/-! ### GroupControl -/

theorem wit_GroupControl_0 : ∃ (g : GroupRef) (q p : Nat) (gr : Group) (s : State), s.Issues g p gr ∧ q < 8 ∧
    let taken := gr.active &&& gr.pred q
    taken = 0#64 :=
  ⟨g0, 7, 15, grp, work, by decide +kernel⟩

theorem wit_GroupControl_1 : ∃ (g : GroupRef) (q p : Nat) (gr : Group) (s : State), s.Issues g p gr ∧ q < 8 ∧
    let taken := gr.active &&& gr.pred q

    let fall := gr.active &&& ~~~(gr.pred q)
    taken ≠ 0#64 ∧ fall = 0#64 :=
  ⟨g0, 7, 15, { grp with preds := [(7, 0xFFFF#64)], stack := [] }, onTile (tileOf ({ grp with preds := [(7, 0xFFFF#64)], stack := [] }) []), by decide +kernel⟩

theorem wit_GroupControl_2 : ∃ (g : GroupRef) (q target reconv p : Nat) (gr : Group) (s : State), s.Issues g p gr ∧ q < 8 ∧
    let taken := gr.active &&& gr.pred q

    let fall := gr.active &&& ~~~(gr.pred q)

    let st := ⟨true, BitVec.ofNat 24 target, taken⟩ :: gr.reconvStack (BitVec.ofNat 24 reconv)
    taken ≠ 0#64 ∧ fall ≠ 0#64 ∧ st.length ≤ 32 :=
  ⟨g0, 7, 0, 0, 15, { grp with preds := [(7, 1#64)], stack := [] }, onTile (tileOf ({ grp with preds := [(7, 1#64)], stack := [] }) []), by decide +kernel⟩

theorem wit_GroupControl_3 : ∃ (g : GroupRef) (q target reconv p : Nat) (gr : Group) (s : State), s.Issues g p gr ∧ q < 8 ∧
    let taken := gr.active &&& gr.pred q

    let fall := gr.active &&& ~~~(gr.pred q)

    let st := ⟨true, BitVec.ofNat 24 target, taken⟩ :: gr.reconvStack (BitVec.ofNat 24 reconv)
    taken ≠ 0#64 ∧ fall ≠ 0#64 ∧ 32 < st.length :=
  ⟨g0, 7, 0, 0, 15, { grp with preds := [(7, 1#64)], stack := List.replicate 31 ⟨true, 1#24, 1#64⟩ }, onTile (tileOf ({ grp with preds := [(7, 1#64)], stack := List.replicate 31 ⟨true, 1#24, 1#64⟩ }) []), by decide +kernel⟩

theorem wit_GroupControl_4 : ∃ (g : GroupRef) (p : Nat) (gr : Group) (s : State), s.Issues g p gr :=
  ⟨g0, 15, grp, work, by decide +kernel⟩

theorem wit_GroupControl_5 : ∃ (g : GroupRef) (p : Nat) (gr : Group) (s : State), s.Issues g p gr :=
  ⟨g0, 15, grp, work, by decide +kernel⟩

theorem wit_GroupControl_6 : ∃ (g : GroupRef) (n p : Nat) (gr : Group) (s : State), s.Issues g p gr ∧ n ≤ 3 ∧ gr.whole = true :=
  ⟨g0, 3, 15, grp, work, by decide +kernel⟩

theorem wit_GroupControl_7 : ∃ (g : GroupRef) (n p : Nat) (gr : Group) (s : State), s.Issues g p gr ∧ n ≤ 3 ∧ gr.whole = false :=
  ⟨g0, 3, 15, half, onTile (tileOf half []), by decide +kernel⟩

theorem wit_GroupControl_8 : ∃ (g : GroupRef) (p : Nat) (gr : Group) (s : State), s.Issues g p gr :=
  ⟨g0, 15, grp, work, by decide +kernel⟩

/-! ### LaunchAdmission -/

theorem wit_LaunchAdmission_0 : ∃ (c t p desc gen : Nat) (handle : W64) (words : List W64) (s : State), ∃ x, s.phys? c t = some p ∧ s.launchGen c handle = some gen ∧ s.kernelSlot c gen desc = some words ∧ (kDesc words).placeOk t = true ∧ (s.tile c p).launch (kDesc words) words gen handle c t = some x :=
  ⟨15, 14, 15, 0, 1, 7#64, kWords, onTile emptyTile, (emptyTile.launch (kDesc kWords) kWords 1 7#64 15 14).getD emptyTile, by decide +kernel⟩

theorem wit_LaunchAdmission_1 : ∃ (c t p desc gen : Nat) (handle : W64) (words : List W64) (s : State), s.phys? c t = some p ∧ s.launchGen c handle = some gen ∧ s.kernelSlot c gen desc = some words ∧ (kDesc words).placeOk t = true ∧ (s.tile c p).launch (kDesc words) words gen handle c t = none :=
  ⟨15, 14, 15, 0, 1, 7#64, kWords, onTile { emptyTile with current := some (0, 0, 2), launches := [launch0], groups := [(31, grp)] }, by decide +kernel⟩

/-! ### TileErrors -/

theorem wit_TileErrors_0 : ∃ (c : Nat) (e : QEntry) (s : State), e ∈ (s.cluster c).queue ∧ e.sweep = true :=
  ⟨15, ⟨blk, false, true, false, [], false⟩, work, by decide +kernel⟩

theorem wit_TileErrors_1 : ∃ (c set way : Nat) (cache : CacheKind) (s : State), s.clusterUp c = true ∧ way < 1024 ∧ set < 2 ^ 16 ∧ (cacheCode cache = 2 → set = 0) ∧
    let key := (cacheCode cache, set, way)
    (s.cluster c).cacheOff.contains key = false :=
  ⟨15, 65535, 1023, .const, work, by decide +kernel⟩

theorem wit_TileErrors_2 : ∃ (c t p : Nat) (s : State), s.phys? c t = some p :=
  ⟨15, 14, 15, work, by decide +kernel⟩

/-! ### SpecialFunctions -/

theorem wit_SpecialFunctions_0 : ∃ (g : GroupRef) (o : SfuOpt) (d a p : Nat) (gr : Group) (s : State), s.Issues g p gr ∧ (s.kernelOf g.cluster p gr).vOk d = true ∧ (s.kernelOf g.cluster p gr).vOk a = true ∧ suffixOk o false = true :=
  ⟨g0, ⟨some .bf16, true⟩, 7, 0, 15, grp, work, by decide +kernel⟩

theorem wit_SpecialFunctions_1 : ∃ (g : GroupRef) (o : SfuOpt) (d a b p : Nat) (gr : Group) (s : State), s.Issues g p gr ∧ (s.kernelOf g.cluster p gr).vOk d = true ∧ (s.kernelOf g.cluster p gr).vOk a = true ∧ (s.kernelOf g.cluster p gr).vOk b = true ∧ suffixOk o false = true :=
  ⟨g0, ⟨some .bf16, true⟩, 7, 0, 1, 15, grp, work, by decide +kernel⟩

theorem wit_SpecialFunctions_2 : ∃ (g : GroupRef) (o : SfuOpt) (d a b p : Nat) (gr : Group) (s : State), s.Issues g p gr ∧ (s.kernelOf g.cluster p gr).vOk d = true ∧ (s.kernelOf g.cluster p gr).vOk a = true ∧ (s.kernelOf g.cluster p gr).vOk b = true ∧ suffixOk o true = true :=
  ⟨g0, ⟨some .e4m3, true⟩, 7, 0, 1, 15, grp, work, by decide +kernel⟩

/-! ### RowInstructions -/

theorem wit_RowInstructions_0 : ∃ (g : GroupRef) (sd sa sb sc p : Nat) (gr : Group) (s : State), s.Issues g p gr ∧ sd < 63 ∧ sa < 64 ∧ sb < 64 ∧ sc < 64 ∧
    let r := rowDec (gr.sreg sa) (gr.sreg sb)

    let fine := fun (op : RowOp) => rowFault op sd (gr.sreg sa) (gr.sreg sb) (gr.sreg sc) (s.kernelOf g.cluster p gr) gr.priv = none ∧ (s.tile g.cluster p).rowWaits r op = false
    fine .rstat :=
  ⟨g0, 62, 0, 1, 2, 15, { grp with sregs := rowS }, withS rowS, by decide +kernel⟩

theorem wit_RowInstructions_1 : ∃ (g : GroupRef) (sd sa sb sc p : Nat) (gr : Group) (s : State), s.Issues g p gr ∧ sd < 63 ∧ sa < 64 ∧ sb < 64 ∧ sc < 64 ∧
    let r := rowDec (gr.sreg sa) (gr.sreg sb)

    let fine := fun (op : RowOp) => rowFault op sd (gr.sreg sa) (gr.sreg sb) (gr.sreg sc) (s.kernelOf g.cluster p gr) gr.priv = none ∧ (s.tile g.cluster p).rowWaits r op = false
    fine .lnorm :=
  ⟨g0, 62, 0, 1, 2, 15, { grp with sregs := rowS }, withS rowS, by decide +kernel⟩

theorem wit_RowInstructions_2 : ∃ (g : GroupRef) (sd sa sb sc p : Nat) (gr : Group) (s : State), s.Issues g p gr ∧ sd < 63 ∧ sa < 64 ∧ sb < 64 ∧ sc < 64 ∧
    let r := rowDec (gr.sreg sa) (gr.sreg sb)

    let fine := fun (op : RowOp) => rowFault op sd (gr.sreg sa) (gr.sreg sb) (gr.sreg sc) (s.kernelOf g.cluster p gr) gr.priv = none ∧ (s.tile g.cluster p).rowWaits r op = false
    fine .rmsnorm :=
  ⟨g0, 62, 0, 1, 2, 15, { grp with sregs := rowS }, withS rowS, by decide +kernel⟩

theorem wit_RowInstructions_3 : ∃ (g : GroupRef) (sd sa sb sc p : Nat) (gr : Group) (s : State), s.Issues g p gr ∧ sd < 63 ∧ sa < 64 ∧ sb < 64 ∧ sc < 64 ∧
    let r := rowDec (gr.sreg sa) (gr.sreg sb)

    let fine := fun (op : RowOp) => rowFault op sd (gr.sreg sa) (gr.sreg sb) (gr.sreg sc) (s.kernelOf g.cluster p gr) gr.priv = none ∧ (s.tile g.cluster p).rowWaits r op = false
    fine .smax :=
  ⟨g0, 62, 0, 1, 2, 15, { grp with sregs := rowS }, withS rowS, by decide +kernel⟩

theorem wit_RowInstructions_4 : ∃ (g : GroupRef) (sd sa sb sc p : Nat) (gr : Group) (s : State), s.Issues g p gr ∧ sd < 63 ∧ sa < 64 ∧ sb < 64 ∧ sc < 64 ∧
    let r := rowDec (gr.sreg sa) (gr.sreg sb)

    let fine := fun (op : RowOp) => rowFault op sd (gr.sreg sa) (gr.sreg sb) (gr.sreg sc) (s.kernelOf g.cluster p gr) gr.priv = none ∧ (s.tile g.cluster p).rowWaits r op = false
    fine .smaxStep :=
  ⟨g0, 62, 0, 1, 2, 15, { grp with sregs := rowS }, withS rowS, by decide +kernel⟩

theorem wit_RowInstructions_5 : ∃ (g : GroupRef) (sd sa sb sc p : Nat) (gr : Group) (s : State), s.Issues g p gr ∧ sd < 63 ∧ sa < 64 ∧ sb < 64 ∧ sc < 64 ∧
    let r := rowDec (gr.sreg sa) (gr.sreg sb)

    let fine := fun (op : RowOp) => rowFault op sd (gr.sreg sa) (gr.sreg sb) (gr.sreg sc) (s.kernelOf g.cluster p gr) gr.priv = none ∧ (s.tile g.cluster p).rowWaits r op = false
    fine .smaxFin :=
  ⟨g0, 62, 0, 1, 2, 15, { grp with sregs := rowS }, withS rowS, by decide +kernel⟩

/-! ### LedgerAndRangeInstructions -/

theorem wit_LedgerAndRangeInstructions_0 : ∃ (g : GroupRef) (sd ss p f : Nat) (q : Seq) (e : PageEntry) (gr : Group) (s : State), s.Issues g p gr ∧ sd < 64 ∧ sd % 2 = 0 ∧ ss < 64 ∧ s.kvCheck (s.groupHandle g.cluster p gr) (gr.sreg ss) = some (q, e, f) :=
  ⟨g0, 62, 63, 15, 0, seq0, ⟨0, 0, false, 0#32⟩, { grp with sregs := [(63, at? 5 40)] }, withSeq seq0 (withS [(63, at? 5 40)]), by decide +kernel⟩

theorem wit_LedgerAndRangeInstructions_1 : ∃ (g : GroupRef) (ss sa p f : Nat) (q : Seq) (e : PageEntry) (gr : Group) (s : State), s.Issues g p gr ∧ ss < 64 ∧ sa < 64 ∧ s.kvCheck (s.groupHandle g.cluster p gr) (gr.sreg ss) = some (q, e, f) ∧
    let w := gr.sreg ss

    let a := (gr.sreg sa).toNat

    let n := (s.shape q.pipe).tl
    q.len ≤ bitsOf w 39 22 ∧ (s.kernelOf g.cluster p gr).inArea gr.priv a n = true ∧ (s.tile g.cluster p).loadStalls [(a, n)] = false :=
  ⟨g0, 63, 62, 15, 0, seq0, ⟨0, 0, false, 0#32⟩, { grp with sregs := [(63, at? 5 40)] }, withSeq seq0 (withS [(63, at? 5 40)]), by decide +kernel⟩

theorem wit_LedgerAndRangeInstructions_2 : ∃ (g : GroupRef) (op sa sb p : Nat) (gr : Group) (l : Launch) (s : State), s.Issues g p gr ∧ op ≤ 4 ∧ sa < 64 ∧ sb < 64 ∧ s.rangeOk op (gr.sreg sa).toNat (gr.sreg sb).toNat = true ∧ s.launchOf g.cluster p gr = some l :=
  ⟨g0, 2, 62, 63, 15, { grp with sregs := [(63, 256#64)] }, launch0, withS [(63, 256#64)], by decide +kernel⟩

/-! ### RowsAndBlocks -/

theorem wit_RowsAndBlocks_0 : ∃ (sq cid p : Nat) (c : Cmd) (s : State), s.cmd? sq cid = some c ∧ c.stage = .running ∧ c.pipeRows = some p :=
  ⟨63, 9, 7, { cmdOf 0x20 0 [at? 7 61] 0 with stage := .running, rows := 1 }, holding ({ cmdOf 0x20 0 [at? 7 61] 0 with stage := .running, rows := 1 }) up, by decide +kernel⟩

theorem wit_RowsAndBlocks_1 : ∃ (sq cid n : Nat) (c : Cmd) (q : Seq) (x : NextRow) (s : State), s.cmd? sq cid = some c ∧ c.stage = .running ∧ c.pipeRows = none ∧ c.rowSeq = some n ∧ s.seq? n = some q ∧ s.nextRow n q = some x ∧ x.fed = false ∧ x.cmd.uid = c.uid ∧ (∀ w ∈ s.kvl.waits, w.seq ≠ n) :=
  ⟨63, 9, 5, { cmdOf 0x22 0 [at? 5 48] 0 with stage := .running, rows := 1 }, seq0, ⟨{ cmdOf 0x22 0 [at? 5 48] 0 with stage := .running, rows := 1 }, false, [0#8, 0#8, 0#8, 0#8]⟩, holding ({ cmdOf 0x22 0 [at? 5 48] 0 with stage := .running, rows := 1 }) (withSeq seq0 up), by decide +kernel⟩

theorem wit_RowsAndBlocks_2 : ∃ (n : Nat) (q : Seq) (x : NextRow) (s : State), s.seq? n = some q ∧ s.nextRow n q = some x ∧ x.fed = true ∧ (∀ w ∈ s.kvl.waits, w.seq ≠ n) :=
  ⟨5, { seq0 with fed := some (3, 0) }, ⟨{ cmdOf 0x22 0 [at? 5 48] 0 with stage := .running, rows := 0 }, true, [3#8, 0#8, 0#8, 0#8]⟩, holding ({ cmdOf 0x22 0 [at? 5 48] 0 with stage := .running, rows := 0 }) (withSeq ({ seq0 with fed := some (3, 0) }) up), by decide +kernel⟩

theorem wit_RowsAndBlocks_3 : ∃ (pipe cls : Nat) (f : Forming) (s : State), s.form? pipe cls = some f ∧ f.train = none ∧ f.cond = none ∧ f.timeout ≠ 0 :=
  ⟨7, 15, form0, { up with ppl := { up.ppl with forming := [(127, form0)] } }, by decide +kernel⟩

theorem wit_RowsAndBlocks_4 : ∃ (pipe cls t : Nat) (f : Forming) (s : State),
    let s1 := s.noteConds
    s1.form? pipe cls = some f ∧ f.cond = some t ∧ (s1.entries pipe).length < 4 ∧ s1.firstToClose pipe cls t = true ∧ s1.runGoesOn pipe cls f = false :=
  ⟨7, 15, 9, { form0 with cond := some 9 }, { up with ppl := { up.ppl with forming := [(127, { form0 with cond := some 9 })] } }, by decide +kernel⟩

theorem wit_RowsAndBlocks_5 : ∃ (pipe : Nat) (b : Block) (rest : List Block) (s : State), s.entries pipe = b :: rest ∧ s.entryHeld pipe = false :=
  ⟨7, blk, [], { up with ppl := { up.ppl with entryQ := [(7, [blk])] } }, by decide +kernel⟩

theorem wit_RowsAndBlocks_6 : ∃ (handle : W64) (c : Nat) (e : QEntry) (r : W64) (s : State), s.entryOf handle = some (c, e) ∧ e.done = true ∧ e.exits = [] ∧ s.routeOf e.block = some r :=
  ⟨7#64, 15, ⟨blk, false, false, true, [], false⟩, at? 0x8000 26, { staged ⟨blk, false, false, true, [], false⟩ with ppl := { (staged ⟨blk, false, false, true, [], false⟩).ppl with banks := [(0, [(1, [at? 0x8000 26])])] } }, by decide +kernel⟩

theorem wit_RowsAndBlocks_7 : ∃ (handle : W64) (c : Nat) (e : QEntry) (r : W64) (s : State), s.entryOf handle = some (c, e) ∧ e.done = false ∧ s.clusterUp c = false ∧ s.moving? c = false ∧ e.exits = [] ∧ s.routeOf e.block = some r :=
  ⟨7#64, 15, ⟨blk, false, false, false, [], false⟩, at? 0x8000 26, let s := (staged ⟨blk, false, false, false, [], false⟩).clrBit Fld.CFG_LICENCE_ENABLED 15; { s with ppl := { s.ppl with banks := [(0, [(1, [at? 0x8000 26])])] } }, by decide +kernel⟩

theorem wit_RowsAndBlocks_8 : ∃ (link : Nat) (s : State), link < 24 ∧ s.fbit Fld.PPL_MESH_RETIRED link = false :=
  ⟨23, up, by decide +kernel⟩

/-! ### StageOperations -/

theorem wit_StageOperations_0 : ∃ (c : Nat) (s : State), s.mayOperate c = true ∧ (s.cluster c).noticeAt = none ∧ s.nextSweep c ≠ [] :=
  ⟨15, staged ⟨blk, false, false, false, [], false⟩, by decide +kernel⟩

theorem wit_StageOperations_1 : ∃ (c t : Nat) (s : State), (s.cluster c).noticeAt = some t ∧ s.mayOperate c = true :=
  ⟨15, 0, (staged ⟨blk, false, false, false, [], false⟩).modCluster 15 (fun k => { k with noticeAt := some 0 }), by decide +kernel⟩

theorem wit_StageOperations_2 : ∃ (c : Nat) (s : State),
    let sweep := (s.cluster c).queue.filter (fun e => e.sweep)
    s.beltStage c = false ∧ sweep ≠ [] ∧ (∀ e ∈ sweep, e.again = false) ∧ s.stillRuns c (sweep.map (fun e => e.block.handle)) = false :=
  ⟨15, staged ⟨blk, false, true, false, [], false⟩, by decide +kernel⟩

theorem wit_StageOperations_3 : ∃ (handle : W64) (row c : Nat) (e : QEntry) (r : RowDesc) (s : State), s.entryOf handle = some (c, e) ∧ e.exits.contains row = true ∧ e.block.rows[row]? = some r :=
  ⟨7#64, 0, 15, ⟨blk, false, false, true, [0], false⟩, ⟨true, true, true, 0, 5, 0, 0, 0, 0⟩, staged ⟨blk, false, false, true, [0], false⟩, by decide +kernel⟩

theorem wit_StageOperations_4 : ∃ (c old : Nat) (s : State), (s.cluster c).moveFrom = some old ∧ s.clusterUp c = true ∧ (s.region c = RS.Q1 ∨ s.region c = RS.A) :=
  ⟨15, 14, (staged ⟨blk, false, false, false, [], false⟩).modCluster 15 (fun k => { k with moveFrom := some 14 }), by decide +kernel⟩

theorem wit_StageOperations_5 : ∃ (c : Nat) (s : State), s.beltStage c = true ∧ (∀ p, p < 16 → (s.tile c p).launches = []) :=
  ⟨15, scoring, by decide +kernel⟩

/-! ### ChangesOfGeneration -/

theorem wit_ChangesOfGeneration_0 : ∃ (sq cid : Nat) (c : Cmd) (s : State), s.Accepts sq cid 0x41 reloadCheck c :=
  ⟨63, 9, cmdOf 0x41 0 [at? 1 7] 0, holding (cmdOf 0x41 0 [at? 1 7] 0) imaged, by decide +kernel⟩

theorem wit_ChangesOfGeneration_1 : ∃ (x : ChangeSet) (s : State), s.ppl.change = some x ∧ x.staged = false ∧ x.aborting = 0 ∧ (∀ o ∈ s.flash.ops, ∀ p, o.kind ≠ .reload p) ∧ (∀ p ∈ x.parts, s.train? p = none) :=
  ⟨change0, changing change0 imaged, ⟨rfl, rfl, rfl, fun _ h => absurd h List.not_mem_nil, by decide⟩⟩

theorem wit_ChangesOfGeneration_2 : ∃ (c n : Nat) (x : ChangeSet) (g : PartCfg) (s : State), s.ppl.change = some x ∧ x.draining.contains c = true ∧ x.sects.find? (fun e => e.1 = s.partOf c) = some (n, g) ∧ s.oldBlocks c (s.partGen (s.partOf c)) = false ∧ (∀ e ∈ (s.cluster c).progs, s.oldBlocks c e.1 = false) :=
  ⟨15, 7, { change0 with draining := [15] }, part0, changing ({ change0 with draining := [15] }) (imaged.setFld (Fld.PPL_STAGE_PART 15) 7), by decide +kernel⟩

theorem wit_ChangesOfGeneration_3 : ∃ (p n : Nat) (x : ChangeSet) (g : PartCfg) (s : State), s.ppl.change = some x ∧ x.sects.find? (fun e => e.1 = p) = some (n, g) ∧ x.staged = true ∧ x.aborting = 0 ∧ x.todo.head? = some p ∧ x.draining = [] ∧ (∀ q ∈ x.parts, s.train? q = none) :=
  ⟨7, 7, { change0 with staged := true }, part0, changing ({ change0 with staged := true }) imaged, by decide +kernel⟩

theorem wit_ChangesOfGeneration_4 : ∃ (c : Nat) (s : State), s.partGen (s.partOf c) ≠ 0 :=
  ⟨15, imaged.setFld (Fld.PPL_STAGE_PART 15) 7, by decide +kernel⟩

theorem wit_ChangesOfGeneration_5 : ∃ (x : ChangeSet) (s : State), s.ppl.change = some x ∧ s.flag Fld.PPL_CHANGE_HOLDING = true :=
  ⟨change0, changing change0 (imaged.setFld Fld.PPL_CHANGE_HOLDING 1), by decide +kernel⟩

theorem wit_ChangesOfGeneration_6 : ∃ (x : ChangeSet) (s : State), s.ppl.change = some x ∧ x.aborting ≠ 0 :=
  ⟨{ change0 with aborting := 2 }, changing ({ change0 with aborting := 2 }) imaged, by decide +kernel⟩

/-! ### Training -/

theorem wit_Training_0 : ∃ (sq cid : Nat) (c : Cmd) (s : State), s.Accepts sq cid 0x70 trainCheck c :=
  ⟨63, 9, cmdOf 0x70 1 [at? 7 61, 0#64, 4096#64] 0, holding (cmdOf 0x70 1 [at? 7 61, 0#64, 4096#64] 0) adapted, by decide +kernel⟩

theorem wit_Training_1 : ∃ (pipe : Nat) (t : Train) (s : State), s.train? pipe = some t ∧ t.done = true ∧ (∀ e ∈ s.allEntries, (s.readersOf pipe).contains e.2.block.pipe = false) :=
  ⟨7, train0, { adapted with ppl := { adapted.ppl with trains := [(7, train0)] } }, by decide +kernel⟩

theorem wit_Training_2 : ∃ (pipe rd base bytes : Nat) (t : Train) (g : PartCfg) (c : Cmd) (s : State), s.train? pipe = some t ∧ tabFind s.ppl.cfg pipe = some g ∧ g.train = some (rd, base, bytes) ∧ s.cmdU t.uid = some c ∧ t.done = true ∧ t.drained = true :=
  ⟨7, 0, 0x100000, 512, { train0 with drained := true }, { pipe0 with train := some (0, 0x100000, 512) }, cmdOf 0x70 1 [at? 7 61, 0#64, 4096#64] 0, holding (cmdOf 0x70 1 [at? 7 61, 0#64, 4096#64] 0) ({ adapted with ppl := { adapted.ppl with trains := [(7, { train0 with drained := true })] } }), by decide +kernel⟩

/-! ### HostCommands -/

theorem wit_HostCommands_0 : ∃ (sq cid : Nat) (c : Cmd) (s : State), s.Accepts sq cid 0x01 noCheck c :=
  ⟨63, 9, cmdOf 0x01 0 [] 0, holding (cmdOf 0x01 0 [] 0) (up), by decide +kernel⟩

theorem wit_HostCommands_1 : ∃ (sq cid : Nat) (c : Cmd) (s : State), s.Accepts sq cid 0x02 noCheck c :=
  ⟨63, 9, cmdOf 0x02 1 [] 256, holding (cmdOf 0x02 1 [] 256) (up), by decide +kernel⟩

theorem wit_HostCommands_2 : ∃ (sq cid : Nat) (c : Cmd) (s : State), s.Accepts sq cid 0x10 (loadCheck none) c :=
  ⟨63, 9, cmdOf 0x10 0 [0#64, 0#64, at? 256 32] 0, holding (cmdOf 0x10 0 [0#64, 0#64, at? 256 32] 0) (hbmUp), by decide +kernel⟩

theorem wit_HostCommands_3 : ∃ (sq cid : Nat) (c : Cmd) (p : Program) (s : State), s.Accepts sq cid 0x10 (loadCheck (some p)) c ∧ c.f 4 31 24 = 1 :=
  ⟨63, 9, cmdOf 0x10 0 [0#64, 0#64, at? (256 * 2 ^ 8 + 1) 24, 1#64] 0, { prog with descs := [kWords] }, holding (cmdOf 0x10 0 [0#64, 0#64, at? (256 * 2 ^ 8 + 1) 24, 1#64] 0) (hbmUp), by decide +kernel⟩

theorem wit_HostCommands_4 : ∃ (sq cid : Nat) (c : Cmd) (s : State), s.Accepts sq cid 0x11 readCheck c ∧
    let s1 := s.started c 0

    let l := c.f 2 63 0 / 256

    let n := c.f 4 63 32 / 256

    let x := (s1.unbackedSectors ((List.range n).flatMap (fun i => s1.readSecs (l + i))) .plain).readLines l c.cls n
    x.2.2 = true :=
  ⟨63, 9, cmdOf 0x11 1 [0#64, 0#64, at? 256 32] 256, holding (cmdOf 0x11 1 [0#64, 0#64, at? 256 32] 256) ({ hbmUp with ul := { hbmUp.ul with hbmPoison := [(7, true)] } }), by decide +kernel⟩

theorem wit_HostCommands_5 : ∃ (sq cid : Nat) (c : Cmd) (s : State), s.Accepts sq cid 0x11 readCheck c ∧
    let s1 := s.started c 0

    let l := c.f 2 63 0 / 256

    let n := c.f 4 63 32 / 256

    let x := (s1.unbackedSectors ((List.range n).flatMap (fun i => s1.readSecs (l + i))) .plain).readLines l c.cls n
    x.2.2 = false :=
  ⟨63, 9, cmdOf 0x11 1 [0#64, 0#64, at? 256 32] 256, holding (cmdOf 0x11 1 [0#64, 0#64, at? 256 32] 256) (hbmUp), by decide +kernel⟩

theorem wit_HostCommands_6 : ∃ (sq cid : Nat) (c : Cmd) (s : State), s.Accepts sq cid 0x12 rangeCheck c :=
  ⟨63, 9, cmdOf 0x12 0 [0#64, 256#64, 2#64] 0, holding (cmdOf 0x12 0 [0#64, 256#64, 2#64] 0) (hbmUp), by decide +kernel⟩

theorem wit_HostCommands_7 : ∃ (sq cid : Nat) (c : Cmd) (s : State), s.Accepts sq cid 0x20 runCheck c :=
  ⟨63, 9, cmdOf 0x20 1 [at? 7 61, 0#64] 256, holding (cmdOf 0x20 1 [at? 7 61, 0#64] 256) (piped), by decide +kernel⟩

theorem wit_HostCommands_8 : ∃ (sq cid : Nat) (c : Cmd) (s : State), s.Accepts sq cid 0x60 noCheck c :=
  ⟨63, 9, cmdOf 0x60 1 [0#64, 1#64] 256, holding (cmdOf 0x60 1 [0#64, 1#64] 256) (up), by decide +kernel⟩

theorem wit_HostCommands_9 : ∃ (sq cid : Nat) (c : Cmd) (content : NvmContent) (s : State), s.Accepts sq cid 0x40 (nvmCheck content) c :=
  ⟨63, 9, cmdOf 0x40 0 [2#64] 0, .licences [], holding (cmdOf 0x40 0 [2#64] 0) (up), by decide +kernel⟩

/-! ### SequenceCommands -/

theorem wit_SequenceCommands_0 : ∃ (sq cid : Nat) (c : Cmd) (s : State), s.Accepts sq cid 0x21 openCheck c :=
  ⟨63, 9, cmdOf 0x21 0 [BitVec.ofNat 64 (6 * 2 ^ 48 + 16 * 2 ^ 22)] 0, holding (cmdOf 0x21 0 [BitVec.ofNat 64 (6 * 2 ^ 48 + 16 * 2 ^ 22)] 0) (withSeq seq0 up), by decide +kernel⟩

theorem wit_SequenceCommands_1 : ∃ (sq cid : Nat) (c : Cmd) (s : State), s.Accepts sq cid 0x22 appendCheck c :=
  ⟨63, 9, cmdOf 0x22 0 [at? 5 48, at? 1 26] 0, holding (cmdOf 0x22 0 [at? 5 48, at? 1 26] 0) (withSeq seq0 up), by decide +kernel⟩

theorem wit_SequenceCommands_2 : ∃ (sq cid : Nat) (c : Cmd) (s : State), s.Accepts sq cid 0x23 forkCheck c :=
  ⟨63, 9, cmdOf 0x23 0 [BitVec.ofNat 64 (5 * 2 ^ 48 + 6 * 2 ^ 32)] 0, holding (cmdOf 0x23 0 [BitVec.ofNat 64 (5 * 2 ^ 48 + 6 * 2 ^ 32)] 0) (withSeq { seq0 with resv := 0 } up), by decide +kernel⟩

theorem wit_SequenceCommands_3 : ∃ (sq cid : Nat) (c : Cmd) (s : State), s.Accepts sq cid 0x24 closeCheck c :=
  ⟨63, 9, cmdOf 0x24 0 [at? 5 48] 0, holding (cmdOf 0x24 0 [at? 5 48] 0) (withSeq { seq0 with state := 6 } up), by decide +kernel⟩

theorem wit_SequenceCommands_4 : ∃ (sq cid : Nat) (c : Cmd) (s : State), s.Accepts sq cid 0x25 preemptCheck c :=
  ⟨63, 9, cmdOf 0x25 0 [at? 5 48] 0, holding (cmdOf 0x25 0 [at? 5 48] 0) (withSeq seq0 up), by decide +kernel⟩

theorem wit_SequenceCommands_5 : ∃ (sq cid : Nat) (c : Cmd) (s : State), s.Accepts sq cid 0x26 resumeCheck c :=
  ⟨63, 9, cmdOf 0x26 0 [at? 5 48] 0, holding (cmdOf 0x26 0 [at? 5 48] 0) (withSeq { seq0 with state := 3 } up), by decide +kernel⟩

/-! ### BeltCommands -/

theorem wit_BeltCommands_0 : ∃ (sq cid : Nat) (c : Cmd) (s : State), s.clearTx.Accepts sq cid 0x30 queryCheck c ∧ c.f 5 1 0 = 0 :=
  ⟨63, 9, cmdOf 0x30 1 [3#64, at? 1 4] 256, holding (cmdOf 0x30 1 [3#64, at? 1 4] 256) (scoring), by decide +kernel⟩

theorem wit_BeltCommands_1 : ∃ (sq cid : Nat) (c : Cmd) (s : State), s.clearTx.Accepts sq cid 0x30 queryCheck c ∧ c.f 5 1 0 = 1 :=
  ⟨63, 9, cmdOf 0x30 1 [3#64, at? 1 4, 0#64, 1#64] 256, holding (cmdOf 0x30 1 [3#64, at? 1 4, 0#64, 1#64] 256) (scoring), by decide +kernel⟩

theorem wit_BeltCommands_2 : ∃ (sq cid : Nat) (c : Cmd) (s : State), s.clearTx.Accepts sq cid 0x30 queryCheck c ∧ 2 ≤ c.f 5 1 0 :=
  ⟨63, 9, cmdOf 0x30 1 [3#64, at? 1 4, 0#64, 2#64] 256, holding (cmdOf 0x30 1 [3#64, at? 1 4, 0#64, 2#64] 256) (let s := scoring.raise Fld.BLT_FED_ROOT; { s with ring := { s.ring with parentPhase := .formed } }), by decide +kernel⟩

theorem wit_BeltCommands_3 : ∃ (sq cid : Nat) (c : Cmd) (s : State), s.clearTx.Accepts sq cid 0x31 cancelCheck c :=
  ⟨63, 9, cmdOf 0x31 0 [3#64] 0, holding (cmdOf 0x31 0 [3#64] 0) ({ scoring with belt := { scoring.belt with pend := [query0] } }), by decide +kernel⟩

theorem wit_BeltCommands_4 : ∃ (sq cid : Nat) (c : Cmd) (s : State), s.clearTx.Accepts sq cid 0x32 shardCheck c :=
  ⟨63, 9, cmdOf 0x32 0 [at? 1 16, 1#64] 0, holding (cmdOf 0x32 0 [at? 1 16, 1#64] 0) (scoring), by decide +kernel⟩

theorem wit_BeltCommands_5 : ∃ (sq cid : Nat) (c : Cmd) (s : State), s.clearTx.Accepts sq cid 0x33 brakeCheck c :=
  ⟨63, 9, cmdOf 0x33 0 [] 0, holding (cmdOf 0x33 0 [] 0) (scoring), by decide +kernel⟩

theorem wit_BeltCommands_6 : ∃ (sq cid : Nat) (c : Cmd) (s : State), s.clearTx.Accepts sq cid 0x34 releaseCheck c :=
  ⟨63, 9, cmdOf 0x34 0 [] 0, holding (cmdOf 0x34 0 [] 0) ({ scoring with ring := { scoring.ring with brakes := [scoring.pos] } }), by decide +kernel⟩

/-! ### RefusedCommands -/

theorem wit_RefusedCommands_0 : ∃ (sq cid st code : Nat) (c : Cmd) (s : State), s.fetched sq cid 0x01 = some c ∧ s.verdict c noCheck = .refuse st code :=
  ⟨63, 9, St.INVALID, 0, cmdOf 0x01 1 [] 0, holding (cmdOf 0x01 1 [] 0) (up), by decide +kernel⟩

theorem wit_RefusedCommands_1 : ∃ (sq cid st code : Nat) (c : Cmd) (s : State), s.fetched sq cid 0x21 = some c ∧ s.verdict c openCheck = .refuse st code :=
  ⟨63, 9, St.STATE, 1, cmdOf 0x21 0 [at? 5 48] 0, holding (cmdOf 0x21 0 [at? 5 48] 0) (withSeq seq0 up), by decide +kernel⟩

theorem wit_RefusedCommands_2 : ∃ (sq cid st code : Nat) (c : Cmd) (s : State), s.fetched sq cid 0x23 = some c ∧ s.verdict c forkCheck = .wait st code ∧ c.stage = .ready ∧ c.defer = true ∧ (s.host.cmds.filter (fun k => k.stage = .deferred)).length < 256 :=
  ⟨63, 9, St.STATE, 1, cmdOf 0x23 8 [BitVec.ofNat 64 (5 * 2 ^ 48 + 6 * 2 ^ 32)] 0, holding (cmdOf 0x23 8 [BitVec.ofNat 64 (5 * 2 ^ 48 + 6 * 2 ^ 32)] 0) (withSeq seq0 up), by decide +kernel⟩

theorem wit_RefusedCommands_3 : ∃ (sq cid st code : Nat) (c : Cmd) (s : State), s.clearTx.fetched sq cid 0x30 = some c ∧ s.clearTx.verdict c queryCheck = .wait st code ∧ c.stage = .ready ∧ c.defer = false :=
  ⟨63, 9, St.NO_RESOURCE, 0, cmdOf 0x30 1 [4#64, at? 1 4] 256, holding (cmdOf 0x30 1 [4#64, at? 1 4] 256) ({ scoring with belt := { scoring.belt with pend := List.replicate 4096 query0 } }), by decide +kernel⟩

theorem wit_RefusedCommands_4 : ∃ (sq cid st code : Nat) (c : Cmd) (s : State), ∃ content, s.fetched sq cid 0x40 = some c ∧ s.verdict c (nvmCheck content) = .refuse st code :=
  ⟨63, 9, St.INVALID, 0, cmdOf 0x40 0 [1#64] 0, holding (cmdOf 0x40 0 [1#64] 0) (up), .licences [], by decide +kernel⟩

/-! ### RangesAndLedgerEvents -/

theorem wit_RangesAndLedgerEvents_0 : ∃ (id op : Nat) (r : RangeRec) (s : State), s.ul.ranges.find? (fun r => r.id = id && r.op = op) = some r ∧ s.rangeReady r = true ∧ op = 0 :=
  ⟨2, 0, range0 0, ranged (range0 0), by decide +kernel⟩

theorem wit_RangesAndLedgerEvents_1 : ∃ (id op : Nat) (r : RangeRec) (s : State), s.ul.ranges.find? (fun r => r.id = id && r.op = op) = some r ∧ s.rangeReady r = true ∧ op = 1 :=
  ⟨2, 1, range0 1, ranged (range0 1), by decide +kernel⟩

theorem wit_RangesAndLedgerEvents_2 : ∃ (id op : Nat) (r : RangeRec) (s : State), s.ul.ranges.find? (fun r => r.id = id && r.op = op) = some r ∧ s.rangeReady r = true ∧ op = 2 :=
  ⟨2, 2, range0 2, ranged (range0 2), by decide +kernel⟩

theorem wit_RangesAndLedgerEvents_3 : ∃ (id op : Nat) (r : RangeRec) (s : State), s.ul.ranges.find? (fun r => r.id = id && r.op = op) = some r ∧ s.rangeReady r = true ∧ op = 3 :=
  ⟨2, 3, range0 3, ranged (range0 3), by decide +kernel⟩

theorem wit_RangesAndLedgerEvents_4 : ∃ (id op : Nat) (r : RangeRec) (s : State), s.ul.ranges.find? (fun r => r.id = id && r.op = op) = some r ∧ s.rangeReady r = true ∧ op = 4 :=
  ⟨2, 4, range0 4, ranged (range0 4), by decide +kernel⟩

theorem wit_RangesAndLedgerEvents_5 : ∃ (id : Nat) (r : RangeRec) (s : State), s.ul.ranges.find? (fun r => r.id = id && r.applied) = some r :=
  ⟨2, { range0 0 with applied := true }, ranged { range0 0 with applied := true }, by decide +kernel⟩

theorem wit_RangesAndLedgerEvents_6 : ∃ (w : WaitRef) (x : LWait) (s : State), s.waitNamed w = some x :=
  ⟨.fedBack 5, ⟨.fedBack, 5, 0, 0⟩, { up with kvl := { up.kvl with waits := [⟨.fedBack, 5, 0, 0⟩] } }, by decide +kernel⟩

theorem wit_RangesAndLedgerEvents_7 : ∃ (id : Nat) (k : KvCopy) (q : Seq) (s : State), s.kvl.copies.find? (fun k => k.id = id) = some k ∧ s.seq? k.seq = some q :=
  ⟨0, ⟨0, 5, 0, 0, 1, 0, 1, false⟩, seq0, { up with kvl := { up.kvl with copies := [⟨0, 5, 0, 0, 1, 0, 1, false⟩], seqs := [(5, seq0)] } }, by decide +kernel⟩

theorem wit_RangesAndLedgerEvents_8 : ∃ (n : Nat) (q : Seq) (s : State), s.seq? n = some q ∧ q.state = 2 ∧ s.rowsOfSeq n = 0 ∧ (∀ k ∈ s.kvl.copies, k.seq ≠ n) ∧ (∀ e ∈ q.pages, (s.pageRef e.unit).poison = false) :=
  ⟨5, { seq0 with state := 2 }, withSeq { seq0 with state := 2 } up, by decide +kernel⟩

theorem wit_RangesAndLedgerEvents_9 : ∃ (n : Nat) (q : Seq) (s : State), s.seq? n = some q ∧ q.state = 2 ∧ s.rowsOfSeq n = 0 ∧ (∀ k ∈ s.kvl.copies, k.seq ≠ n) ∧ (∃ e ∈ q.pages, (s.pageRef e.unit).poison = true) :=
  ⟨5, { seq0 with state := 2 }, { withSeq { seq0 with state := 2 } up with kvl := { up.kvl with seqs := [(5, { seq0 with state := 2 })], refs := [(0, ⟨1, true, 0, 0, []⟩)] } }, by decide +kernel⟩

theorem wit_RangesAndLedgerEvents_10 : ∃ (n : Nat) (q : Seq) (s : State), s.seq? n = some q ∧ q.state = 4 :=
  ⟨5, { seq0 with state := 4, pages := [] }, withSeq { seq0 with state := 4, pages := [] } up, by decide +kernel⟩

theorem wit_RangesAndLedgerEvents_11 : ∃ (n : Nat) (q : Seq) (s : State), s.seq? n = some q ∧ q.state = 4 ∧ (∀ e ∈ q.pages, s.swapCrcOk e = true) :=
  ⟨5, { seq0 with state := 4, pages := [] }, withSeq { seq0 with state := 4, pages := [] } up, by decide +kernel⟩

/-! ### SliceRequests -/

theorem wit_SliceRequests_0 : ∃ (o : UlOp) (p : Place) (s : State), s.home o.r.line = some p ∧
    let q := s.classed o

    let i := pointNo p.slice (!q.isRead)

    let e := eqPoint p.half

    let there := (s.point i).waiting.contains q || (s.point e).waiting.contains q
    (there = true ∨ 16 ≤ q.r.master) ∧ isScrub q = false ∧ o.kind = .read :=
  ⟨ulOp .read 16, (hbmUp.home 0).getD ⟨0, 0, 0, 0, 0, 0⟩, hbmUp, by decide +kernel⟩

theorem wit_SliceRequests_1 : ∃ (o : UlOp) (p : Place) (s : State), s.home o.r.line = some p ∧
    let q := s.classed o

    let i := pointNo p.slice (!q.isRead)

    let e := eqPoint p.half

    let there := (s.point i).waiting.contains q || (s.point e).waiting.contains q
    (there = true ∨ 16 ≤ q.r.master) ∧ isScrub q = false ∧ o.kind = .store :=
  ⟨ulOp .store 21, (hbmUp.home 0).getD ⟨0, 0, 0, 0, 0, 0⟩, hbmUp, by decide +kernel⟩

theorem wit_SliceRequests_2 : ∃ (o : UlOp) (p : Place) (s : State), s.home o.r.line = some p ∧
    let q := s.classed o

    let i := pointNo p.slice (!q.isRead)

    let e := eqPoint p.half

    let there := (s.point i).waiting.contains q || (s.point e).waiting.contains q
    (there = true ∨ 16 ≤ q.r.master) ∧ isScrub q = false ∧ o.kind = .reduce :=
  ⟨ulOp .reduce 16, (hbmUp.home 0).getD ⟨0, 0, 0, 0, 0, 0⟩, hbmUp, by decide +kernel⟩

theorem wit_SliceRequests_3 : ∃ (line x : Nat) (m : Mshr) (s : State), ∃ s0 t, s.entryFor line = some (x, m) ∧ m.falling = false ∧ s.channelTurn line (fillOf line) = some s0 ∧ s0.fillEntry x line m = some t :=
  ⟨0, 0, ⟨0, 0, 1#8, [], false⟩, { hbmUp with ul := { hbmUp.ul with mshr := [(0, [⟨0, 0, 1#8, [], false⟩])] } }, (({ hbmUp with ul := { hbmUp.ul with mshr := [(0, [⟨0, 0, 1#8, [], false⟩])] } }).channelTurn 0 (fillOf 0)).getD hbmUp, (((({ hbmUp with ul := { hbmUp.ul with mshr := [(0, [⟨0, 0, 1#8, [], false⟩])] } }).channelTurn 0 (fillOf 0)).getD hbmUp).fillEntry 0 0 (⟨0, 0, 1#8, [], false⟩)).getD hbmUp, by decide +kernel⟩

theorem wit_SliceRequests_4 : ∃ (line x : Nat) (m : Mshr) (s : State), ∃ s0, s.entryFor line = some (x, m) ∧ m.falling = false ∧ s.channelTurn line (fillOf line) = some s0 ∧ s0.fillEntry x line m = none :=
  ⟨0, 0, ⟨0, 0, 1#8, [], false⟩, fullSet, (fullSet.channelTurn 0 (fillOf 0)).getD hbmUp, by decide +kernel⟩

theorem wit_SliceRequests_5 : ∃ (line x : Nat) (m : Mshr) (s : State), s.entryFor line = some (x, m) ∧ m.falling = false ∧ s.channelTurn line (fillOf line) = none :=
  ⟨0, 0, ⟨0, 0, 1#8, [], false⟩, starved false, by decide +kernel⟩

theorem wit_SliceRequests_6 : ∃ (line x : Nat) (m : Mshr) (s : State), ∃ s0, s.entryFor line = some (x, m) ∧ m.falling = true ∧ s.channelTurn line (fillOf line) = some s0 :=
  ⟨0, 0, ⟨0, 0, 1#8, [], true⟩, { hbmUp with ul := { hbmUp.ul with mshr := [(0, [⟨0, 0, 1#8, [], true⟩])] } }, (({ hbmUp with ul := { hbmUp.ul with mshr := [(0, [⟨0, 0, 1#8, [], true⟩])] } }).channelTurn 0 (fillOf 0)).getD hbmUp, by decide +kernel⟩

theorem wit_SliceRequests_7 : ∃ (line x : Nat) (m : Mshr) (s : State), s.entryFor line = some (x, m) ∧ m.falling = true ∧ s.channelTurn line (fillOf line) = none :=
  ⟨0, 0, ⟨0, 0, 1#8, [], true⟩, starved true, by decide +kernel⟩

/-! ### UnderlayerErrors -/

theorem wit_UnderlayerErrors_0 : ∃ (slice die row word bits : Nat) (bit0 : Bool) (s : State), ∃ l, slice < 128 ∧ die < 2 ∧ row < 16384 ∧ word < 128 ∧ s.sliceState slice ≠ 2 ∧
    let k := wordKey slice die row word
    tabFind s.ul.lines k = some l ∧ bit0 = lineParity l.tag ∧ bits ≤ s.corrects l :=
  ⟨0, 0, 0, 0, 1, false, lined 0#8, line0 0#8, by decide +kernel⟩

theorem wit_UnderlayerErrors_1 : ∃ (slice die row word bits : Nat) (bit0 : Bool) (s : State), ∃ l, slice < 128 ∧ die < 2 ∧ row < 16384 ∧ word < 128 ∧ s.sliceState slice ≠ 2 ∧
    let k := wordKey slice die row word
    tabFind s.ul.lines k = some l ∧ (bit0 ≠ lineParity l.tag ∨ s.corrects l < bits) :=
  ⟨0, 0, 0, 0, 3, false, lined 0#8, line0 0#8, by decide +kernel⟩

theorem wit_UnderlayerErrors_2 : ∃ (slice die row word bits : Nat) (s : State), slice < 128 ∧ die < 2 ∧ row < 16384 ∧ word < 128 ∧ s.sliceState slice ≠ 2 ∧
    let k := wordKey slice die row word
    tabFind s.ul.lines k = none ∧ bits ≤ 2 :=
  ⟨127, 1, 16383, 127, 2, up, by decide +kernel⟩

theorem wit_UnderlayerErrors_3 : ∃ (line sector k : Nat) (l : Line) (s : State), s.lineOf line = some (k, l) ∧ sector < 8 ∧ l.valid.getLsbD sector = true ∧ l.dirty.getLsbD sector = false :=
  ⟨0, 7, 0, line0 0#8, lined 0#8, by decide +kernel⟩

theorem wit_UnderlayerErrors_4 : ∃ (line sector k : Nat) (l : Line) (s : State), s.lineOf line = some (k, l) ∧ sector < 8 ∧ l.valid.getLsbD sector = true ∧ l.dirty.getLsbD sector = true :=
  ⟨0, 7, 0, line0 0x80#8, lined 0x80#8, by decide +kernel⟩

theorem wit_UnderlayerErrors_5 : ∃ (line k : Nat) (l : Line) (s : State), s.lineOf line = some (k, l) :=
  ⟨0, 0, line0 0#8, lined 0#8, by decide +kernel⟩

theorem wit_UnderlayerErrors_6 : ∃ (s : State), s.scrubRuns = true ∧
    let slice := keySlice s.ul.scrubUl
    s.sliceState slice = 2 :=
  ⟨hbmUp.setFld (Fld.ULC_SLICE_STATE 0) 2, by decide +kernel⟩

theorem wit_UnderlayerErrors_7 : ∃ (s : State), s.scrubRuns = true ∧
    let slice := keySlice s.ul.scrubUl
    s.sliceState slice ≠ 2 :=
  ⟨hbmUp, by decide +kernel⟩

theorem wit_UnderlayerErrors_8 : ∃ (s : State), s.scrubRuns = true ∧ s.hbmBytes ≠ 0 :=
  ⟨hbmUp, by decide +kernel⟩

theorem wit_UnderlayerErrors_9 : ∃ (ch : Nat) (s : State), s.ul.chans.contains ch = true ∧ s.fbit (Fld.ULC_CHAN_RET_RETIRED (ch / 32)) (ch % 32) = false :=
  ⟨127, hbmUp, by decide +kernel⟩

theorem wit_UnderlayerErrors_10 : ∃ (slice : Nat) (s : State), s.sliceState slice = 1 ∧ s.mshrOf slice = [] ∧ s.inqOf slice = [] :=
  ⟨127, up.setFld (Fld.ULC_SLICE_STATE 127) 1, by decide +kernel⟩

theorem wit_UnderlayerErrors_11 : ∃ (s : State), s.ul.pinDue = true :=
  ⟨{ up with ul := { up.ul with pinDue := true } }, by decide +kernel⟩

theorem wit_UnderlayerErrors_12 : ∃ (slice die row : Nat) (s : State), s.ul.rowJobs.contains (slice, die, row) = true :=
  ⟨127, 1, 16383, { up with ul := { up.ul with rowJobs := [(127, 1, 16383)] } }, by decide +kernel⟩

/-! ### FramesReceived -/

theorem wit_FramesReceived_0 : ∃ (rx : Rx) (f : Frame) (s : State), s.Takes rx f ∧ fType f = FT.EMPTY :=
  ⟨(rxOf 7 0 4095), frameOf 0 0, ported, by decide +kernel⟩

theorem wit_FramesReceived_1 : ∃ (rx : Rx) (f : Frame) (s : State), s.Takes rx f ∧ fType f = FT.CORPUS :=
  ⟨(rxOf 7 0 4095), frameOf 1 0, ported, by decide +kernel⟩

theorem wit_FramesReceived_2 : ∃ (rx : Rx) (f : Frame) (s : State), s.Takes rx f ∧ fType f = FT.TOP_NOTE :=
  ⟨(rxOf 7 0 4095), frameOf 2 0, ported, by decide +kernel⟩

theorem wit_FramesReceived_3 : ∃ (rx : Rx) (f : Frame) (s : State), s.Takes rx f ∧ fType f = FT.SEGMENT :=
  ⟨(rxOf 7 0 4095), frameOf 3 0, ported, by decide +kernel⟩

theorem wit_FramesReceived_4 : ∃ (rx : Rx) (f : Frame) (s : State), s.Takes rx f ∧ fType f = FT.QUERY :=
  ⟨(rxOf 7 0 4095), frameOf 4 0, ported, by decide +kernel⟩

theorem wit_FramesReceived_5 : ∃ (rx : Rx) (f : Frame) (s : State), s.Takes rx f ∧ fType f = FT.SHARD :=
  ⟨(rxOf 7 0 4095), frameOf 5 0, ported, by decide +kernel⟩

theorem wit_FramesReceived_6 : ∃ (rx : Rx) (f : Frame) (s : State), s.Takes rx f ∧ isCall f 1 = true :=
  ⟨(rxOf 7 0 4095), frameOf 6 1, ported, by decide +kernel⟩

theorem wit_FramesReceived_7 : ∃ (rx : Rx) (f : Frame) (s : State), s.Takes rx f ∧ isCall f 2 = true :=
  ⟨(rxOf 7 0 4095), frameOf 6 2, ported, by decide +kernel⟩

theorem wit_FramesReceived_8 : ∃ (rx : Rx) (f : Frame) (s : State), s.Takes rx f ∧ isCall f 3 = true :=
  ⟨(rxOf 7 0 4095), frameOf 6 3, ported, by decide +kernel⟩

theorem wit_FramesReceived_9 : ∃ (rx : Rx) (f : Frame) (c : Instr) (s : State), ((fType f = FT.EMPTY ∧ c = .emptyFrame rx f) ∨ (fType f = FT.CORPUS ∧ c = .corpusFrame rx f) ∨ (fType f = FT.TOP_NOTE ∧ c = .topNote rx f) ∨ (fType f = FT.SEGMENT ∧ c = .segment rx f) ∨ (fType f = FT.QUERY ∧ c = .queryFrame rx f) ∨ (fType f = FT.SHARD ∧ c = .shardFrame rx f) ∨ (isCall f 1 = true ∧ c = .discover rx f) ∨ (isCall f 2 = true ∧ c = .confirm rx f) ∨ (isCall f 3 = true ∧ c = .join rx f)) ∧ (s.portUp rx.port && s.onPath rx.port) = false :=
  ⟨(rxOf 7 0 0), frameOf 0 0, .emptyFrame (rxOf 7 0 0) (frameOf 0 0), up, ⟨.inl ⟨by decide +kernel, rfl⟩, by decide +kernel⟩⟩

theorem wit_FramesReceived_10 : ∃ (rx : Rx) (f : Frame) (c : Instr) (s : State), ((fType f = FT.EMPTY ∧ c = .emptyFrame rx f) ∨ (fType f = FT.CORPUS ∧ c = .corpusFrame rx f) ∨ (fType f = FT.TOP_NOTE ∧ c = .topNote rx f) ∨ (fType f = FT.SEGMENT ∧ c = .segment rx f) ∨ (fType f = FT.QUERY ∧ c = .queryFrame rx f) ∨ (fType f = FT.SHARD ∧ c = .shardFrame rx f) ∨ (isCall f 1 = true ∧ c = .discover rx f) ∨ (isCall f 2 = true ∧ c = .confirm rx f) ∨ (isCall f 3 = true ∧ c = .join rx f)) ∧ s.portUp rx.port = true ∧ s.onPath rx.port = true ∧ rxIs rx 0 = true ∧ rxFrame rx f = .inverted :=
  ⟨(rxOf 7 0 0), { frameOf 0 0 with stomp := 0xC3C3#16, crcDiff := 0xFFFFFFFF#32 }, .emptyFrame (rxOf 7 0 0) { frameOf 0 0 with stomp := 0xC3C3#16, crcDiff := 0xFFFFFFFF#32 }, ported, ⟨.inl ⟨by decide +kernel, rfl⟩, by decide +kernel⟩⟩

theorem wit_FramesReceived_11 : ∃ (rx : Rx) (f : Frame) (c : Instr) (s : State), ((fType f = FT.EMPTY ∧ c = .emptyFrame rx f) ∨ (fType f = FT.CORPUS ∧ c = .corpusFrame rx f) ∨ (fType f = FT.TOP_NOTE ∧ c = .topNote rx f) ∨ (fType f = FT.SEGMENT ∧ c = .segment rx f) ∨ (fType f = FT.QUERY ∧ c = .queryFrame rx f) ∨ (fType f = FT.SHARD ∧ c = .shardFrame rx f) ∨ (isCall f 1 = true ∧ c = .discover rx f) ∨ (isCall f 2 = true ∧ c = .confirm rx f) ∨ (isCall f 3 = true ∧ c = .join rx f)) ∧ s.portUp rx.port = true ∧ s.onPath rx.port = true ∧ (rxIs rx 0 = false ∨ rxFrame rx f = .bad) :=
  ⟨(rxOf 7 0 0), { frameOf 0 0 with crcDiff := 1#32 }, .emptyFrame (rxOf 7 0 0) { frameOf 0 0 with crcDiff := 1#32 }, ported, ⟨.inl ⟨by decide +kernel, rfl⟩, by decide +kernel⟩⟩

theorem wit_FramesReceived_12 : ∃ (rx : Rx) (f : Frame) (c : Instr), ((fType f ≠ FT.EMPTY ∧ c = .emptyFrame rx f) ∨ (fType f ≠ FT.CORPUS ∧ c = .corpusFrame rx f) ∨ (fType f ≠ FT.TOP_NOTE ∧ c = .topNote rx f) ∨ (fType f ≠ FT.SEGMENT ∧ c = .segment rx f) ∨ (fType f ≠ FT.QUERY ∧ c = .queryFrame rx f) ∨ (fType f ≠ FT.SHARD ∧ c = .shardFrame rx f) ∨ (isCall f 1 = false ∧ c = .discover rx f) ∨ (isCall f 2 = false ∧ c = .confirm rx f) ∨ (isCall f 3 = false ∧ c = .join rx f)) :=
  ⟨(rxOf 7 0 0), frameOf 1 0, .emptyFrame (rxOf 7 0 0) (frameOf 1 0), .inl ⟨by decide +kernel, rfl⟩⟩

/-! ### ControlMessages -/

theorem wit_ControlMessages_0 : ∃ (rx : Rx) (f : Frame) (s : State), s.Takes rx f ∧ fType f = FT.CONTROL ∧ fSub f = 0x01 :=
  ⟨(rxOf 7 0 0), frameOf 7 1, ported, by decide +kernel⟩

theorem wit_ControlMessages_1 : ∃ (rx : Rx) (f : Frame) (s : State), s.Takes rx f ∧ fType f = FT.CONTROL ∧ fSub f = 0x02 :=
  ⟨(rxOf 7 0 0), frameOf 7 2, ported, by decide +kernel⟩

theorem wit_ControlMessages_2 : ∃ (rx : Rx) (f : Frame) (s : State), s.Takes rx f ∧ fType f = FT.CONTROL ∧ fSub f = 0x03 :=
  ⟨(rxOf 7 0 0), frameOf 7 3, ported, by decide +kernel⟩

theorem wit_ControlMessages_3 : ∃ (rx : Rx) (f : Frame) (s : State), s.Takes rx f ∧ fType f = FT.CONTROL ∧ fSub f = 0x04 :=
  ⟨(rxOf 7 0 0), frameOf 7 4, ported, by decide +kernel⟩

theorem wit_ControlMessages_4 : ∃ (rx : Rx) (f : Frame) (s : State), s.Takes rx f ∧ fType f = FT.CONTROL ∧ fSub f = 0x05 :=
  ⟨(rxOf 7 0 0), frameOf 7 5, ported, by decide +kernel⟩

theorem wit_ControlMessages_5 : ∃ (rx : Rx) (f : Frame) (s : State), s.Takes rx f ∧ fType f = FT.CONTROL ∧ fSub f = 0x06 :=
  ⟨(rxOf 7 0 0), frameOf 7 6, ported, by decide +kernel⟩

theorem wit_ControlMessages_6 : ∃ (rx : Rx) (f : Frame) (s : State), s.Takes rx f ∧ fType f = FT.CONTROL ∧ fSub f = 0x07 :=
  ⟨(rxOf 7 0 0), frameOf 7 7, ported, by decide +kernel⟩

theorem wit_ControlMessages_7 : ∃ (rx : Rx) (f : Frame) (s : State), s.Takes rx f ∧ fType f = FT.CONTROL ∧ fSub f = 0x08 :=
  ⟨(rxOf 7 0 0), frameOf 7 8, ported, by decide +kernel⟩

theorem wit_ControlMessages_8 : ∃ (rx : Rx) (f : Frame) (s : State), s.Takes rx f ∧ fType f = FT.CONTROL ∧ fSub f = 0x09 :=
  ⟨(rxOf 7 0 0), frameOf 7 9, ported, by decide +kernel⟩

theorem wit_ControlMessages_9 : ∃ (rx : Rx) (f : Frame) (s : State), s.Takes rx f ∧ fType f = FT.CONTROL ∧ fSub f = 0x0A :=
  ⟨(rxOf 7 0 0), frameOf 7 10, ported, by decide +kernel⟩

theorem wit_ControlMessages_10 : ∃ (rx : Rx) (f : Frame) (s : State), s.Takes rx f ∧ fType f = FT.CONTROL ∧ fSub f = 0x10 :=
  ⟨(rxOf 7 0 0), frameOf 7 16, ported, by decide +kernel⟩

theorem wit_ControlMessages_11 : ∃ (rx : Rx) (f : Frame) (s : State), s.Takes rx f ∧ fType f = FT.CONTROL ∧ fSub f = 0x11 :=
  ⟨(rxOf 7 0 0), frameOf 7 17, ported, by decide +kernel⟩

theorem wit_ControlMessages_12 : ∃ (rx : Rx) (f : Frame) (s : State), s.Takes rx f ∧ fType f = FT.CONTROL ∧ fSub f = 0x12 :=
  ⟨(rxOf 7 0 0), frameOf 7 18, ported, by decide +kernel⟩

theorem wit_ControlMessages_13 : ∃ (rx : Rx) (f : Frame) (s : State), s.Takes rx f ∧ fType f = FT.CONTROL ∧ fSub f = 0x13 :=
  ⟨(rxOf 7 0 0), frameOf 7 19, ported, by decide +kernel⟩

theorem wit_ControlMessages_14 : ∃ (rx : Rx) (f : Frame) (s : State), s.Takes rx f ∧ fType f = FT.CONTROL ∧ fSub f = 0x14 :=
  ⟨(rxOf 7 0 0), frameOf 7 20, ported, by decide +kernel⟩

theorem wit_ControlMessages_15 : ∃ (rx : Rx) (f : Frame) (s : State), s.Takes rx f ∧ fType f = FT.CONTROL ∧ fSub f = 0x15 :=
  ⟨(rxOf 7 0 0), frameOf 7 21, ported, by decide +kernel⟩

theorem wit_ControlMessages_16 : ∃ (rx : Rx) (f : Frame) (s : State), s.Takes rx f ∧ fType f = FT.CONTROL ∧ fSub f = 0x16 :=
  ⟨(rxOf 7 0 0), frameOf 7 22, ported, by decide +kernel⟩

theorem wit_ControlMessages_17 : ∃ (rx : Rx) (f : Frame) (s : State), s.Takes rx f ∧ fType f = FT.CONTROL ∧ fSub f = 0x17 :=
  ⟨(rxOf 7 0 0), frameOf 7 23, ported, by decide +kernel⟩

theorem wit_ControlMessages_18 : ∃ (rx : Rx) (f : Frame) (s : State), s.Takes rx f ∧ fType f = FT.CONTROL ∧ fSub f = 0x18 :=
  ⟨(rxOf 7 0 0), frameOf 7 24, ported, by decide +kernel⟩

/-! ### BeltEvents -/

theorem wit_BeltEvents_0 : ∃ (s : State), s.mayMark = true ∧ s.intervalOver = true :=
  ⟨ph .formed scoring, by decide +kernel⟩

theorem wit_BeltEvents_1 : ∃ (c : Nat) (s : State), s.roundRuns c = true ∧ s.clearTx.roundRuns c = true :=
  ⟨15, tapped 1 0 [tap0] [], by decide +kernel⟩

theorem wit_BeltEvents_2 : ∃ (c t p : Nat) (s : State), s.roundRuns c = true ∧ s.phys? c t = some p :=
  ⟨15, 14, 15, let s := tapped 1 0 [tap0] []; (s.setLmap 15 14 15).setBit (Fld.PPL_TILE_MAP_LVALID 15) 14, by decide +kernel⟩

theorem wit_BeltEvents_3 : ∃ (c : Nat) (s : State), s.scoreClusters.contains c = true ∧ s.clusterUp c = true ∧
    let k := s.scoreCl c

    let b := s.backlog c

    let s1 := s.setScore c { k with backlog := b }
    s1.highWater ≤ b ∧ k.backlog ≤ b ∧ s1.nextShed k = none :=
  ⟨15, tapped 0 0 [] [], by decide +kernel⟩

theorem wit_BeltEvents_4 : ∃ (c : Nat) (s : State), ∃ p, s.scoreClusters.contains c = true ∧ s.clusterUp c = true ∧
    let k := s.scoreCl c

    let b := s.backlog c

    let s1 := s.setScore c { k with backlog := b }
    s1.highWater ≤ b ∧ k.backlog ≤ b ∧ s1.nextShed k = some p :=
  ⟨15, tapped 0 0 [] [⟨4094, 0, 0, []⟩], 4094, by decide +kernel⟩

theorem wit_BeltEvents_5 : ∃ (c : Nat) (s : State), s.scoreClusters.contains c = true ∧ s.clusterUp c = true ∧
    let k := s.scoreCl c

    let b := s.backlog c

    let s1 := s.setScore c { k with backlog := b }
    ¬(s1.highWater ≤ b ∧ k.backlog ≤ b) ∧ b ≤ s1.lowWater :=
  ⟨15, tapped 2 1 (List.replicate 240 tap0) [], by decide +kernel⟩

theorem wit_BeltEvents_6 : ∃ (c : Nat) (s : State), s.scoreClusters.contains c = true ∧ s.clusterUp c = true ∧
    let k := s.scoreCl c

    let b := s.backlog c

    let s1 := s.setScore c { k with backlog := b }
    ¬(s1.highWater ≤ b ∧ k.backlog ≤ b) ∧ s1.lowWater < b :=
  ⟨15, tapped 2 1 (List.replicate 241 tap0) [], by decide +kernel⟩

theorem wit_BeltEvents_7 : ∃ (home rev seg seq : Nat) (s : State), s.belt.fillSent.contains (⟨home, rev, seg, seq⟩ : FillIn) = true :=
  ⟨4094, 7, 63, 8, { scoring with belt := { scoring.belt with fillSent := [⟨4094, 7, 63, 8⟩] } }, by decide +kernel⟩

theorem wit_BeltEvents_8 : ∃ (due : Nat) (counts : Tab Nat) (s : State), s.ring.audit = some (due, counts) ∧ s.isManager = true ∧ s.formed = true ∧ s.ring.phase = .formed ∧ due ≤ s.now :=
  ⟨0, [], let s := ph .formed scoring; { s with ring := { s.ring with audit := some (0, []) } }, by decide +kernel⟩

theorem wit_BeltEvents_9 : ∃ (qnum : W64) (q : FedQuery) (s : State), s.ring.fed.find? (fun q => q.qnum = qnum) = some q :=
  ⟨3#64, ⟨3#64, query0, [1], []⟩, { scoring with ring := { scoring.ring with fed := [⟨3#64, query0, [1], []⟩] } }, by decide +kernel⟩

theorem wit_BeltEvents_10 : ∃ (sq cid : Nat) (c : Cmd) (p : Placed) (s : State), s.cmd? sq cid = some c ∧ s.ring.placed.find? (fun p => p.q.src = .host c.uid && p.dest.isNone) = some p :=
  ⟨63, 9, { cmdOf 0x30 1 [] 0 with stage := .running }, ⟨5#64, query0, none, [], false⟩, let s := holding ({ cmdOf 0x30 1 [] 0 with stage := .running }) scoring; { s with ring := { s.ring with placed := [⟨5#64, query0, none, [], false⟩] } }, by decide +kernel⟩

/-! ### Links -/

theorem wit_Links_0 : ∃ (port : Nat) (s : State), s.portUp port = true :=
  ⟨7, ported, by decide +kernel⟩

theorem wit_Links_1 : ∃ (port hseq : Nat) (e : Nat × Nat) (s : State), (s.port port).asked.find? (fun e => e.1 = hseq) = some e ∧ e.2 < 2 :=
  ⟨7, 4095, (4095, 1), asking 7 4095 1, by decide +kernel⟩

theorem wit_Links_2 : ∃ (port hseq : Nat) (e : Nat × Nat) (s : State), (s.port port).asked.find? (fun e => e.1 = hseq) = some e ∧ 2 ≤ e.2 :=
  ⟨7, 4095, (4095, 2), asking 7 4095 2, by decide +kernel⟩

theorem wit_Links_3 : ∃ (rx : Rx) (f : Frame) (e : Nat × Nat) (s : State), s.portUp rx.port = true ∧ e ∈ (s.port rx.port).asked ∧ e.1 = rxHseq rx ∧ rxIs rx 1 = true ∧ rxFrame rx f = .good :=
  ⟨(rxOf 7 1 4095), frameOf 1 0, (4095, 1), asking 7 4095 1, by decide +kernel⟩

theorem wit_Links_4 : ∃ (rx : Rx) (f : Frame) (e : Nat × Nat) (s : State), s.portUp rx.port = true ∧ e ∈ (s.port rx.port).asked ∧ e.1 = rxHseq rx ∧ rxIs rx 1 = true ∧ rxFrame rx f = .inverted :=
  ⟨(rxOf 7 1 4095), { frameOf 1 0 with stomp := 0xC3C3#16, crcDiff := 0xFFFFFFFF#32 }, (4095, 1), asking 7 4095 1, by decide +kernel⟩

theorem wit_Links_5 : ∃ (rx : Rx) (f : Frame) (e : Nat × Nat) (s : State), s.portUp rx.port = true ∧ e ∈ (s.port rx.port).asked ∧ e.1 = rxHseq rx ∧ (rxIs rx 1 = false ∨ rxFrame rx f = .bad) :=
  ⟨(rxOf 7 1 4095), { frameOf 1 0 with crcDiff := 1#32 }, (4095, 1), asking 7 4095 1, by decide +kernel⟩

theorem wit_Links_6 : ∃ (port : Nat) (s : State), s.portUp port = true :=
  ⟨7, ported, by decide +kernel⟩

theorem wit_Links_7 : ∃ (port : Nat) (s : State), s.portUp port = true ∧
    let s1 := s.clearTx.setFld (Fld.BLT_PORT_STAT_LOCKED port) 1
    s1.onPath port = true ∧ s1.portUp (onwardPort s1 port) = true :=
  ⟨7, ported.setFld (Fld.BLT_PORT_STAT_STATE 4) 2, by decide +kernel⟩

theorem wit_Links_8 : ∃ (port : Nat) (s : State), s.portUp port = true ∧
    let s1 := s.clearTx.setFld (Fld.BLT_PORT_STAT_LOCKED port) 1
    (s1.onPath port = false ∨ s1.portUp (onwardPort s1 port) = false) :=
  ⟨7, ported, by decide +kernel⟩

theorem wit_Links_9 : ∃ (port : Nat), port < 8 :=
  ⟨7, by decide +kernel⟩

theorem wit_Links_10 : ∃ (port pos : Nat) (s : State), 2 ≤ port % 4 ∧ s.portUp port = true ∧ (s.formedOn (port / 4) = true → s.portPeer (port - 2) = pos) :=
  ⟨7, 4094, ported, by decide +kernel⟩

theorem wit_Links_11 : ∃ (port : Nat) (s : State), s.portUp port = true :=
  ⟨7, ported, by decide +kernel⟩

theorem wit_Links_12 : ∃ (port : Nat) (s : State), s.portUp port = true :=
  ⟨7, ported, by decide +kernel⟩

theorem wit_Links_13 : ∃ (port partner : Nat) (s : State), port < 8 ∧ s.fld (Fld.BLT_PORT_STAT_STATE port) < 2 ∧
    let s1 := (((((s.clearTx.setFld (Fld.BLT_PORT_STAT_STATE port) 2).setFld (Fld.BLT_PORT_STAT_PARTNER port) partner).setFld (Fld.BLT_PORT_STAT_LOCKED port) 1).setPort port emptyPort).heartbeat port)
    s1.formedOn (port / 4) = false :=
  ⟨7, 4094, up, by decide +kernel⟩

theorem wit_Links_14 : ∃ (rx : Rx) (s : State), s.portUp rx.port = true ∧ rxIs rx 4 = true :=
  ⟨(rxOf 7 4 0), ported, by decide +kernel⟩

theorem wit_Links_15 : ∃ (rx : Rx) (s : State), s.portUp rx.port = true ∧ rxIs rx 4 = false :=
  ⟨(rxOf 7 0 0), ported, by decide +kernel⟩

theorem wit_Links_16 : ∃ (rx : Rx) (s : State), s.portUp rx.port = true ∧ rxIs rx 4 = true :=
  ⟨(rxOf 7 4 0), ported, by decide +kernel⟩

theorem wit_Links_17 : ∃ (rx : Rx) (s : State), s.portUp rx.port = true ∧ rxIs rx 4 = false :=
  ⟨(rxOf 7 0 0), ported, by decide +kernel⟩

/-! ### Brakes -/

theorem wit_Brakes_0 : ∃ (origin : Nat) (s : State), s.formed = true ∧
    let s1 := s.clearTx.setFld Fld.BLT_BRAKE_LAST origin
    origin ≠ s1.pos :=
  ⟨4094, scoring, by decide +kernel⟩

theorem wit_Brakes_1 : ∃ (origin : Nat) (s : State), s.formed = true ∧
    let s1 := s.clearTx.setFld Fld.BLT_BRAKE_LAST origin
    origin = s1.pos :=
  ⟨scoring.pos, scoring, by decide +kernel⟩

theorem wit_Brakes_2 : ∃ (origin : Nat) (s : State), s.formed = true ∧ origin ≠ s.clearTx.pos :=
  ⟨4094, scoring, by decide +kernel⟩

theorem wit_Brakes_3 : ∃ (origin : Nat) (s : State), s.formed = true ∧ origin = s.clearTx.pos :=
  ⟨scoring.pos, scoring, by decide +kernel⟩

/-! ### Formation -/

theorem wit_Formation_0 : ∃ (s : State), s.ready = true ∧ s.role = 1 ∧ s.formed = false ∧ s.ring.phase = .idle :=
  ⟨(up.setFld Fld.BLT_RING_ROLE 1), by decide +kernel⟩

theorem wit_Formation_1 : ∃ (s : State), s.ring.phase = .discover :=
  ⟨ph .discover up, by decide +kernel⟩

theorem wit_Formation_2 : ∃ (s : State), (s.ring.phase = .discover ∨ s.ring.phase = .confirm ∨ s.ring.phase = .reports) :=
  ⟨ph .reports up, by decide +kernel⟩

theorem wit_Formation_3 : ∃ (s : State), s.ring.phase = .reports ∧ s.allReported = true :=
  ⟨ph .reports (up.setFld Fld.BLT_RING_SIZE 0), by decide +kernel⟩

theorem wit_Formation_4 : ∃ (s : State), s.linked = true :=
  ⟨up, by decide +kernel⟩

theorem wit_Formation_5 : ∃ (s : State), s.role = 2 ∧ s.formed = true ∧ s.ready = true ∧ s.braked = false ∧ s.ring.behind = [] :=
  ⟨scoring.setFld Fld.BLT_RING_ROLE 2, by decide +kernel⟩

/-! ### Queues -/

theorem wit_Queues_0 : ∃ (q : Nat) (v : W32) (s : State), q < 64 ∧ s.linked = true ∧ s.flag (Fld.HIF_SQ_CFG_EN q) = true ∧
    let t := bitsOf v 11 0

    let head := s.fld (Fld.HIF_SQ_STAT_HEAD q)

    let tail := s.fld (Fld.HIF_SQ_STAT_TAIL q)
    t < s.sqSize q ∧ ringGap (s.sqSize q) head tail ≤ ringGap (s.sqSize q) head t :=
  ⟨63, 0xF#32, queued, by decide +kernel⟩

theorem wit_Queues_1 : ∃ (q : Nat) (v : W32) (s : State), q < 64 ∧ s.linked = true ∧ s.flag (Fld.HIF_SQ_CFG_EN q) = true ∧
    let t := bitsOf v 11 0

    let head := s.fld (Fld.HIF_SQ_STAT_HEAD q)

    let tail := s.fld (Fld.HIF_SQ_STAT_TAIL q)
    (s.sqSize q ≤ t ∨ ringGap (s.sqSize q) head t < ringGap (s.sqSize q) head tail) :=
  ⟨63, 0xFFF#32, queued, by decide +kernel⟩

theorem wit_Queues_2 : ∃ (q : Nat) (v : W32) (s : State), q < 64 ∧ s.linked = true ∧ s.flag (Fld.HIF_CQ_CFG_EN q) = true ∧
    let h := bitsOf v 11 0

    let head := s.fld (Fld.HIF_CQ_STAT_HEAD q)

    let tail := s.fld (Fld.HIF_CQ_STAT_TAIL q)
    h < s.cqSize q ∧ ringGap (s.cqSize q) head h ≤ ringGap (s.cqSize q) head tail :=
  ⟨63, 0#32, queued, by decide +kernel⟩

theorem wit_Queues_3 : ∃ (q : Nat) (v : W32) (s : State), q < 64 ∧ s.linked = true ∧ s.flag (Fld.HIF_CQ_CFG_EN q) = true ∧
    let h := bitsOf v 11 0

    let head := s.fld (Fld.HIF_CQ_STAT_HEAD q)

    let tail := s.fld (Fld.HIF_CQ_STAT_TAIL q)
    (s.cqSize q ≤ h ∨ ringGap (s.cqSize q) head tail < ringGap (s.cqSize q) head h) :=
  ⟨63, 1#32, queued, by decide +kernel⟩

theorem wit_Queues_4 : ∃ (q : Nat) (v : W32) (s : State), q < 64 ∧ s.linked = true ∧ bitsOf v 31 31 = 1 ∧ s.flag (Fld.HIF_SQ_CFG_EN q) = false ∧ s.flag (Fld.HIF_CQ_CFG_EN (bitsOf v 29 24)) = true :=
  ⟨0, 0xBF000000#32, queued, by decide +kernel⟩

theorem wit_Queues_5 : ∃ (q : Nat) (v : W32) (s : State), q < 64 ∧ s.linked = true ∧ bitsOf v 31 31 = 1 ∧ s.flag (Fld.HIF_SQ_CFG_EN q) = false ∧ s.flag (Fld.HIF_CQ_CFG_EN (bitsOf v 29 24)) = false :=
  ⟨0, 0x80000000#32, queued, by decide +kernel⟩

theorem wit_Queues_6 : ∃ (q : Nat) (v : W32) (s : State), q < 64 ∧ s.linked = true ∧ bitsOf v 31 31 = 1 ∧ s.flag (Fld.HIF_CQ_CFG_EN q) = false :=
  ⟨0, 0x80000000#32, queued, by decide +kernel⟩

theorem wit_Queues_7 : ∃ (q : Nat) (v : W32) (s : State), q < 64 ∧ s.linked = true ∧ bitsOf v 31 31 = 0 ∧ s.flag (Fld.HIF_SQ_CFG_EN q) = true ∧ s.cfgSame (Off.HIF_SQ_CFG q) v = true :=
  ⟨63, (queued.regAt (Off.HIF_SQ_CFG 63)) &&& 0x7FFFFFFF#32, queued, by decide +kernel⟩

theorem wit_Queues_8 : ∃ (q : Nat) (v : W32) (s : State), q < 64 ∧ s.linked = true ∧ bitsOf v 31 31 = 0 ∧ s.flag (Fld.HIF_CQ_CFG_EN q) = true ∧ s.cfgSame (Off.HIF_CQ_CFG q) v = true ∧ s.cqNamed q = false :=
  ⟨0, (queued.regAt (Off.HIF_CQ_CFG 0)) &&& 0x7FFFFFFF#32, queued.raise (Fld.HIF_CQ_CFG_EN 0), by decide +kernel⟩

theorem wit_Queues_9 : ∃ (q : Nat) (v : W32) (s : State), q < 64 ∧ s.linked = true ∧ bitsOf v 31 31 = 0 ∧ s.flag (Fld.HIF_CQ_CFG_EN q) = true ∧ s.cqNamed q = true :=
  ⟨63, 0#32, queued, by decide +kernel⟩

theorem wit_Queues_10 : ∃ (q n : Nat) (s : State), s.fetching = true ∧ s.nextSq = some (q, n) :=
  ⟨63, 1, queued.setFld (Fld.HIF_SQ_STAT_TAIL 63) 1, by decide +kernel⟩

/-! ### HostLink -/

theorem wit_HostLink_0 : ∃ (sq cid : Nat) (c : Cmd) (s : State), s.cmd? sq cid = some c ∧ c.stage = .deferred ∧ c.opcode ≠ 0x26 :=
  ⟨63, 9, { cmdOf 0x23 0 [] 0 with stage := .deferred }, holding ({ cmdOf 0x23 0 [] 0 with stage := .deferred }) up, by decide +kernel⟩

theorem wit_HostLink_1 : ∃ (cq : Nat) (s : State), s.flag (Fld.HIF_CQ_CFG_IEN cq) = true ∧ 0 < tabGet 0 s.host.cqNew cq :=
  ⟨63, { up.raise (Fld.HIF_CQ_CFG_IEN 63) with host := { up.host with cqNew := [(63, 1)] } }, by decide +kernel⟩

theorem wit_HostLink_2 : ∃ (n : Nat) (e : Slot) (s : State), tabFind s.host.slots n = some e ∧ e.ready = true ∧ s.linked = true :=
  ⟨262143, ⟨true, 0, 9, 63, 1, 0, 1, 4, []⟩, { up with host := { up.host with slots := [(262143, ⟨true, 0, 9, 63, 1, 0, 1, 4, []⟩)] } }, by decide +kernel⟩

theorem wit_HostLink_3 : ∃ (s : State), s.host.hostless = false :=
  ⟨up, by decide +kernel⟩

theorem wit_HostLink_4 : ∃ (s : State), s.host.hostless = false :=
  ⟨up, by decide +kernel⟩

theorem wit_HostLink_5 : ∃ (s : State), s.linked = true :=
  ⟨up, by decide +kernel⟩

/-! ### FlashAndJournal -/

theorem wit_FlashAndJournal_0 : ∃ (o : FlashOp) (s : State), s.flashOp? = some o :=
  ⟨⟨.segErase 1, 3, false⟩, { up with flash := { up.flash with ops := [⟨.segErase 1, 3, false⟩] } }, by decide +kernel⟩

theorem wit_FlashAndJournal_1 : ∃ (s : State), s.mayAppend = true ∧ (s.jseg s.activeSeg = [] ∨ s.pageRecs ≠ []) :=
  ⟨up, by decide +kernel⟩

theorem wit_FlashAndJournal_2 : ∃ (s : State), s.ready = true ∧ (98304 ≤ (s.jseg s.activeSeg).length ∨ s.jrn.ended = true) :=
  ⟨{ up with jrn := { up.jrn with ended := true } }, by decide +kernel⟩

/-! ### NoticesAndPhases -/

theorem wit_NoticesAndPhases_0 : ∃ (demand : Nat) (s : State), s.ready = true ∧ demand ≤ 7 ∧ s.fld Fld.PWR_STATUS_NOTICE < min 7 (demand + 1) :=
  ⟨7, up.setFld Fld.PWR_STATUS_NOTICE 6, by decide +kernel⟩

theorem wit_NoticesAndPhases_1 : ∃ (demand : Nat) (s : State), s.ready = true ∧ demand + 2 ≤ s.fld Fld.PWR_STATUS_NOTICE :=
  ⟨5, up.setFld Fld.PWR_STATUS_NOTICE 7, by decide +kernel⟩

theorem wit_NoticesAndPhases_2 : ∃ (r : Nat) (s : State), s.region r = RS.Q1 ∧ s.paused r = false ∧ (s.cluster r).noticeAt = none :=
  ⟨15, regional [], by decide +kernel⟩

theorem wit_NoticesAndPhases_3 : ∃ (r ph : Nat) (s : State), r < 16 ∧ ph < 8 ∧ 2 ≤ s.region r ∧ s.trial? r ph = none ∧ s.fbit (Fld.PWR_REGION_STAT_PHASE_OK r) ph = true :=
  ⟨15, 7, regional [], by decide +kernel⟩

theorem wit_NoticesAndPhases_4 : ∃ (r ph : Nat) (t : PhaseTrial) (s : State), r < 16 ∧ ph < 8 ∧ 2 ≤ s.region r ∧ s.trial? r ph = some t ∧ t.retried = true :=
  ⟨15, 7, ⟨15, 7, true⟩, regional [⟨15, 7, true⟩], by decide +kernel⟩

theorem wit_NoticesAndPhases_5 : ∃ (r ph : Nat) (t : PhaseTrial) (s : State), s.trial? r ph = some t ∧ t.retried = true :=
  ⟨15, 7, ⟨15, 7, true⟩, regional [⟨15, 7, true⟩], by decide +kernel⟩

/-! ### IdleAndWake -/

theorem wit_IdleAndWake_0 : ∃ (r : Nat) (s : State), r < 16 ∧ s.fld Fld.PWR_STATUS_DSTATE ≤ 2 ∧ s.clusterUp r = true ∧ s.workWaits r = true :=
  ⟨15, (regional []).modCluster 15 (fun k => { k with moveFrom := some 14 }), by decide +kernel⟩

theorem wit_IdleAndWake_1 : ∃ (r : Nat) (w : Wake) (s : State), s.wakeOf r = some w ∧ w.ramping = false ∧ (∀ v ∈ s.power.wakes, v.region / 4 = r / 4 → v.ramping = false) :=
  ⟨15, ⟨15, false, []⟩, waking false, by decide +kernel⟩

theorem wit_IdleAndWake_2 : ∃ (r : Nat) (w : Wake) (s : State), s.wakeOf r = some w ∧ w.ramping = true :=
  ⟨15, ⟨15, true, []⟩, waking true, by decide +kernel⟩

theorem wit_IdleAndWake_3 : ∃ (r : Nat) (s : State), s.region r = RS.Q1 ∧ (s.cluster r).noticeAt = none ∧ (25 ≤ s.tolUs ∨ s.fld (Fld.PPL_STAGE_ROLE r) = 0) :=
  ⟨15, regional [], by decide +kernel⟩

theorem wit_IdleAndWake_4 : ∃ (state : Nat) (s : State), s.deepOk = true ∧ (state = 3 ∨ state = 4) ∧ s.fld Fld.PWR_STATUS_DSTATE < state ∧ state ≤ s.allowed :=
  ⟨4, (up.setFld Fld.HIF_LAT_TOL_TOL_US 120000).setFld Fld.PWR_CTL_Q4_EN 1, by decide +kernel⟩

theorem wit_IdleAndWake_5 : ∃ (cause : WakeCause) (s : State), (s.fld Fld.PWR_STATUS_DSTATE = 3 ∨ s.fld Fld.PWR_STATUS_DSTATE = 4) ∧ s.wakes cause = true :=
  ⟨.doorbell, up.setFld Fld.PWR_STATUS_DSTATE 4, by decide +kernel⟩

theorem wit_IdleAndWake_6 : ∃ (s : State), s.fld Fld.PWR_STATUS_DSTATE = 5 ∧ s.power.wakeFrom = 4 :=
  ⟨let s := up.setFld Fld.PWR_STATUS_DSTATE 5; { s with power := { s.power with wakeFrom := 4 } }, by decide +kernel⟩

theorem wit_IdleAndWake_7 : ∃ (s : State), s.fld Fld.PWR_STATUS_DSTATE = 5 ∧ s.power.wakeFrom ≠ 4 :=
  ⟨let s := up.setFld Fld.PWR_STATUS_DSTATE 5; { s with power := { s.power with wakeFrom := 3 } }, by decide +kernel⟩

theorem wit_IdleAndWake_8 : ∃ (s : State), s.running = true :=
  ⟨up, by decide +kernel⟩

/-! ### Housekeeping -/

theorem wit_Housekeeping_0 : ∃ (n : Nat) (s : State), n < 64 ∧ s.pins.vaux = true ∧ (s.pins.vinIb = true ∨ n = 0 ∨ n = 3) :=
  ⟨63, up, by decide +kernel⟩

theorem wit_Housekeeping_1 : ∃ (s : State), s.pins.vaux = true ∧ s.pins.vinIb = true ∧
    let s1 := ((s.setFld Fld.PWR_SUPPLY_VIN_MV (s.hk 1)).setFld Fld.PWR_SUPPLY_VIN_DA (s.hk 2)).vinLimit

    let tCd := signed16 (s1.hk 0)
    (tCd < -640 ∨ 2400 < tCd) :=
  ⟨up.setFld (Fld.THM_HK_VALUE 0) 2401, by decide +kernel⟩

theorem wit_Housekeeping_2 : ∃ (s : State), s.pins.vaux = true ∧ s.pins.vinIb = true ∧
    let s1 := ((s.setFld Fld.PWR_SUPPLY_VIN_MV (s.hk 1)).setFld Fld.PWR_SUPPLY_VIN_DA (s.hk 2)).vinLimit

    let tCd := signed16 (s1.hk 0)
    (-640 ≤ tCd) ∧ tCd ≤ 2400 :=
  ⟨up.setFld (Fld.THM_HK_VALUE 0) 2400, by decide +kernel⟩

theorem wit_Housekeeping_3 : ∃ (s : State), s.pins.vaux = true ∧ s.pins.vinIb = true ∧
    let rate := s.fld Fld.THM_GUARD_GUARD_RATE
    rate = 0 :=
  ⟨guarding 0 5 0 1, by decide +kernel⟩

theorem wit_Housekeeping_4 : ∃ (s : State), s.pins.vaux = true ∧ s.pins.vinIb = true ∧
    let n := s.power.u1Corrections

    let rate := s.fld Fld.THM_GUARD_GUARD_RATE

    let s0 := { s with power := { s.power with u1Corrections := 0 } }
    rate ≠ 0 ∧ rate ≤ n ∧ s0.flag Fld.THM_STATUS_GUARD = false :=
  ⟨guarding 8 8 0 0, by decide +kernel⟩

theorem wit_Housekeeping_5 : ∃ (s : State), s.pins.vaux = true ∧ s.pins.vinIb = true ∧
    let n := s.power.u1Corrections

    let rate := s.fld Fld.THM_GUARD_GUARD_RATE

    let s0 := { s with power := { s.power with u1Corrections := 0 } }
    rate ≠ 0 ∧ rate ≤ n ∧ s0.flag Fld.THM_STATUS_GUARD = true :=
  ⟨guarding 8 8 0 1, by decide +kernel⟩

theorem wit_Housekeeping_6 : ∃ (s : State), s.pins.vaux = true ∧ s.pins.vinIb = true ∧
    let n := s.power.u1Corrections

    let rate := s.fld Fld.THM_GUARD_GUARD_RATE

    let s0 := { s with power := { s.power with u1Corrections := 0 } }
    n < rate ∧ s0.flag Fld.THM_STATUS_GUARD = true ∧ 4 * n < rate ∧ 9 ≤ s.power.guardQuiet :=
  ⟨guarding 8 1 9 1, by decide +kernel⟩

theorem wit_Housekeeping_7 : ∃ (s : State), s.pins.vaux = true ∧ s.pins.vinIb = true ∧
    let n := s.power.u1Corrections

    let rate := s.fld Fld.THM_GUARD_GUARD_RATE

    let s0 := { s with power := { s.power with u1Corrections := 0 } }
    n < rate ∧ s0.flag Fld.THM_STATUS_GUARD = true ∧ 4 * n < rate ∧ s.power.guardQuiet < 9 :=
  ⟨guarding 8 1 8 1, by decide +kernel⟩

theorem wit_Housekeeping_8 : ∃ (s : State), s.pins.vaux = true ∧ s.pins.vinIb = true ∧
    let n := s.power.u1Corrections

    let rate := s.fld Fld.THM_GUARD_GUARD_RATE

    let s0 := { s with power := { s.power with u1Corrections := 0 } }
    n < rate ∧ s0.flag Fld.THM_STATUS_GUARD = true ∧ rate ≤ 4 * n :=
  ⟨guarding 8 2 9 1, by decide +kernel⟩

theorem wit_Housekeeping_9 : ∃ (s : State), s.pins.vaux = true ∧ s.pins.vinIb = true ∧
    let n := s.power.u1Corrections

    let rate := s.fld Fld.THM_GUARD_GUARD_RATE

    let s0 := { s with power := { s.power with u1Corrections := 0 } }
    n < rate ∧ s0.flag Fld.THM_STATUS_GUARD = false :=
  ⟨guarding 8 7 0 0, by decide +kernel⟩

/-! ### I3cTarget -/

theorem wit_I3cTarget_0 : ∃ (s : State), s.pins.vaux = true :=
  ⟨up, by decide +kernel⟩

theorem wit_I3cTarget_1 : ∃ (s : State), s.pins.vaux = true ∧ s.i3c.addr = none :=
  ⟨up, by decide +kernel⟩

theorem wit_I3cTarget_2 : ∃ (s : State), ∃ a, s.pins.vaux = true ∧ s.i3c.addr = some a :=
  ⟨{ up with i3c := { up.i3c with addr := some 8 } }, 8, by decide +kernel⟩

theorem wit_I3cTarget_3 : ∃ (s : State), s.pins.vaux = true ∧ s.i3c.addr ≠ none :=
  ⟨{ up with i3c := { up.i3c with addr := some 8 } }, by decide +kernel⟩

/-! ### TestAccessPort -/

theorem wit_TestAccessPort_0 : ∃ (s : State), s.pins.vaux = true :=
  ⟨up, by decide +kernel⟩

/-! ### ReservedOffsets -/

theorem wit_ReservedOffsets_0 : ∃ (off : Nat), regRow? off = none :=
  ⟨0xFFFFFC, by decide +kernel⟩

/-! ### WriteAccess -/

theorem wit_WriteAccess_0 : ∃ (off : Nat) (r : RegRow) (s : State), s.canon = true ∧ regRow? off = some r :=
  ⟨Off.PPL_TILE_EVENTS, (regRow? Off.PPL_TILE_EVENTS).getD ⟨0, 0, 0, 0, 0, 0#32, 0#32, 0#32, 0#32⟩, up, by decide +kernel⟩

theorem wit_WriteAccess_1 : ∃ (off : Nat) (r : RegRow) (s : State), ∃ o, s.canon = true ∧ regRow? off = some r ∧ o ≠ off :=
  ⟨(Off.HIF_SQ_CFG 63), (regRow? (Off.HIF_SQ_CFG 63)).getD ⟨0, 0, 0, 0, 0, 0#32, 0#32, 0#32, 0#32⟩, up, 0, by decide +kernel⟩

theorem wit_WriteAccess_2 : ∃ (off : Nat) (v : W32) (r : RegRow) (s : State), ∃ i, s.canon = true ∧ regRow? off = some r ∧ i < 32 ∧ r.w1c.getLsbD i = true ∧ v.getLsbD i = true :=
  ⟨Off.PPL_TILE_EVENTS, 0xFFFFFFFF#32, (regRow? Off.PPL_TILE_EVENTS).getD ⟨0, 0, 0, 0, 0, 0#32, 0#32, 0#32, 0#32⟩, up, 31, by decide +kernel⟩

theorem wit_WriteAccess_3 : ∃ (off : Nat) (r : RegRow) (s : State), ∃ i, s.canon = true ∧ regRow? off = some r ∧ i < 32 ∧ r.rw.getLsbD i = true ∧ r.w1c.getLsbD i = false :=
  ⟨(Off.HIF_SQ_CFG 63), (regRow? (Off.HIF_SQ_CFG 63)).getD ⟨0, 0, 0, 0, 0, 0#32, 0#32, 0#32, 0#32⟩, up, 31, by decide +kernel⟩

theorem wit_WriteAccess_4 : ∃ (off : Nat) (v : W32) (r : RegRow) (s : State), ∃ i, s.canon = true ∧ regRow? off = some r ∧ i < 32 ∧ r.rw.getLsbD i = false ∧ ¬(r.w1c.getLsbD i = true ∧ v.getLsbD i = true) :=
  ⟨Off.CFG_UID_LO, 0xFFFFFFFF#32, (regRow? Off.CFG_UID_LO).getD ⟨0, 0, 0, 0, 0, 0#32, 0#32, 0#32, 0#32⟩, up, 31, by decide +kernel⟩

/-! ### IdlePhasesShed -/

theorem wit_IdlePhasesShed_0 : ∃ (r : Nat) (s : State), s.canon = true ∧ r < 16 ∧ s.region r = RS.Q1 ∧ s.paused r = false ∧ (s.cluster r).noticeAt = none ∧ s.idleTicks ≤ s.now - (s.cluster r).lastOp :=
  ⟨15, (let s := regional []; { s with stack := { s.stack with tbMaster := 0xFFFFFFFF#64, tbIod := 0xFFFFFFFF#64, tbU1 := 0xFFFFFFFF#64, tbCd := 0xFFFFFFFF#64 } }), by decide +kernel⟩

theorem wit_IdlePhasesShed_1 : ∃ (r : Nat) (s : State), s.canon = true ∧ r < 16 ∧ s.paused r = true :=
  ⟨15, { up with power := { up.power with wakes := [⟨14, true, [15]⟩] } }, by decide +kernel⟩

/-! ### LocalStoreFrame -/

theorem wit_LocalStoreFrame_0 : ∃ (g : GroupRef) (n a src p : Nat) (gr : Group) (s : State), s.canon = true ∧ s.Issues g p gr ∧
    let k := s.kernelOf g.cluster p gr
    k.vOk a = true ∧ k.elemOk n src = true ∧ lsAddrsOk k gr n a = true ∧ (s.tile g.cluster p).storeStalls (lsRanges gr n a) = false :=
  ⟨g0, 3, 2, 6, 15, grp, work, by decide +kernel⟩

theorem wit_LocalStoreFrame_1 : ∃ (g : GroupRef) (d a src cmp p : Nat) (op : AtomicOp) (wide : Bool) (gr : Group) (s : State), s.canon = true ∧ s.Issues g p gr ∧
    let k := s.kernelOf g.cluster p gr

    let w := if wide then 3 else 2
    k.vOk a = true ∧ k.elemOk w d = true ∧ k.elemOk w src = true ∧ (op = .cas → k.elemOk w cmp = true) ∧ lsAddrsOk k gr w a = true ∧ (s.tile g.cluster p).storeStalls (lsRanges gr w a) = false :=
  ⟨g0, 6, 2, 6, 4, 15, .cas, true, grp, work, by decide +kernel⟩

theorem wit_LocalStoreFrame_2 : ∃ (g : GroupRef) (a q p : Nat) (gr : Group) (s : State), s.canon = true ∧ s.Issues g p gr ∧
    let k := s.kernelOf g.cluster p gr
    k.vOk a = true ∧ q < 8 ∧ lsAddrsOk k gr 2 a = true ∧ (s.tile g.cluster p).storeStalls (lsRanges gr 2 a) = false :=
  ⟨g0, 0, 7, 15, grp, work, by decide +kernel⟩

/-! ### VectorFrame -/

theorem wit_VectorFrame_0 : ∃ (g : GroupRef) (op : VecOp) (d a b c p : Nat) (f : W32 → W32 → W32 → F32R) (gr : Group) (s : State), s.canon = true ∧ s.Issues g p gr ∧ vecRegsOk op (s.kernelOf g.cluster p gr) d a b c = true ∧ d < 256 ∧ ((op = .fadd ∧ f = (fun x y _ => add32 x y)) ∨ (op = .fsub ∧ f = (fun x y _ => sub32 x y)) ∨ (op = .fmul ∧ f = (fun x y _ => mul32 x y)) ∨ (op = .ffma ∧ f = fma32) ∨ (op = .fmin ∧ f = (fun x y _ => min32 x y)) ∨ (op = .fmax ∧ f = (fun x y _ => max32 x y))) :=
  ⟨g0, .ffma, 7, 7, 7, 7, 15, fma32, grp, work, ⟨by decide +kernel, by decide +kernel, by decide +kernel, by decide, .inr (.inr (.inr (.inl ⟨rfl, rfl⟩)))⟩⟩

/-! ### ConversionExact -/

theorem wit_ConversionExact_0 : ∃ f ∈ floatFormats, ∃ c, c < 2 ^ f.width ∧ (f.decode c).isFin = true :=
  ⟨ff32, by decide, 0xFF7FFFFF, by decide +kernel⟩

/-! ### RoundsToNearest -/

theorem wit_RoundsToNearest_0 : ∃ f ∈ floatFormats, ∃ (neg sat fresh : Bool) (m : Nat) (e : Int) (c : Nat),
    (f.convert sat fresh (.fin neg m e)).2 &&& asw.OF = 0#32 ∧ c < 2 ^ f.width ∧ (f.decode c).isFin = true :=
  ⟨ffE4m3, by decide, true, false, false, 449, 0, 0xFE, by decide +kernel⟩

theorem wit_RoundsToNearest_1 : ∃ f ∈ floatFormats, ∃ (neg sat fresh : Bool) (m : Nat) (e : Int) (c : Nat),
    let r := f.convert sat fresh (.fin neg m e)
    let q := min e f.qmin
    let x := (FV.fin neg m e).at q
    r.2 &&& asw.OF = 0#32 ∧ c < 2 ^ f.width ∧ (f.decode c).isFin = true ∧
      ((f.decode r.1).at q - x).natAbs = ((f.decode c).at q - x).natAbs ∧ (f.decode c).at q ≠ (f.decode r.1).at q :=
  ⟨ffE4m3, by decide, false, false, false, 432, 0, 0x7D, by decide +kernel⟩

/-! ### JournalQueueBound -/

theorem wit_JournalQueueBound_0 : ∃ (s : State), s.jrn.queue.length ≤ 1024 :=
  ⟨{ up with jrn := { up.jrn with queue := List.replicate 1024 ⟨0, 0, 0, false, 0, 0, 0#288⟩ } }, Nat.le_of_eq List.length_replicate⟩

/-! ### PowerLoss -/

theorem wit_PowerLoss_0 : ∃ (s : State), s.pins.vaux = true :=
  ⟨up, by decide +kernel⟩

end

end Sys2Proof.Tests
end

section
/-! SUPPORT. The host's reads and writes of BAR0 (00_scope.md R13 to R15): which offsets the register rows cover, a write of an
offset that no row covers, what a write by the access codes makes of a register, and the commands that read and write. -/

namespace Sys2Proof.Machine

/-! ## Which offsets the rows cover -/

/-- A row covers every offset that its two indices give. -/
theorem RegRow.covers_index {r : RegRow} {i j : Nat} (hi : i < r.count1) (hj : j < r.count2)
    (hw : j * r.stride2 < r.stride1) : r.covers (r.base + i * r.stride1 + j * r.stride2) = true := by
  have hd : r.base + i * r.stride1 + j * r.stride2 - r.base = j * r.stride2 + i * r.stride1 := by omega
  have h1 : (j * r.stride2 + i * r.stride1) / r.stride1 = i := by
    rw [Nat.add_mul_div_right _ _ (by omega), Nat.div_eq_of_lt hw, Nat.zero_add]
  have hb : ¬ r.base + i * r.stride1 + j * r.stride2 < r.base := by omega
  have hs : r.stride1 ≠ 0 := by omega
  unfold RegRow.covers
  simp only [if_neg hb, hd, if_neg hs, h1, Nat.add_sub_cancel, Bool.and_eq_true, decide_eq_true_eq]
  by_cases h2 : r.stride2 = 0
  · simp only [h2, if_true, Nat.mul_zero]
    exact ⟨⟨hi, by omega⟩, trivial⟩
  · simp only [if_neg h2, Nat.mul_div_cancel _ (Nat.pos_of_ne_zero h2)]
    exact ⟨⟨hi, hj⟩, trivial⟩

/-- Whether a row's indices run through the n offsets from b with a stride: its first index alone, or both without a gap. -/
def RegRow.isRun (r : RegRow) (b n st : Nat) : Bool :=
  decide (r.base = b) && decide (0 < st) && decide (r.stride1 = r.count2 * st) &&
    (decide (r.count2 = 1) || decide (0 < r.count2) && decide (r.stride2 = st)) && decide (n ≤ r.count1 * r.count2)

theorem RegRow.covers_of_isRun {r : RegRow} {off b n st : Nat} (hr : r.isRun b n st = true)
    (h : inStride off b n st = true) : r.covers off = true := by
  simp only [RegRow.isRun, Bool.and_eq_true, Bool.or_eq_true, decide_eq_true_eq] at hr
  simp only [inStride, Bool.and_eq_true, decide_eq_true_eq] at h
  obtain ⟨⟨⟨⟨hb, hst⟩, h1⟩, h2⟩, hn⟩ := hr
  obtain ⟨⟨hle, hmod⟩, hlt⟩ := h
  have hpos : 0 < r.count2 := by omega
  have hi : (off - b) / st / r.count2 < r.count1 := Nat.div_lt_of_lt_mul (by rw [Nat.mul_comm]; omega)
  have hj : (off - b) / st % r.count2 < r.count2 := Nat.mod_lt _ hpos
  have hj2 : (off - b) / st % r.count2 * r.stride2 = (off - b) / st % r.count2 * st := by
    rcases h2 with h2 | h2
    · rw [h2, Nat.mod_one, Nat.zero_mul, Nat.zero_mul]
    · rw [h2.2]
  have hw : (off - b) / st % r.count2 * r.stride2 < r.stride1 := by
    rw [hj2, h1]
    exact Nat.mul_lt_mul_of_pos_right hj hst
  have hoff : off = r.base + (off - b) / st / r.count2 * r.stride1 + (off - b) / st % r.count2 * r.stride2 := by
    rw [hj2, h1, hb, ← Nat.mul_assoc, Nat.add_assoc, ← Nat.add_mul, Nat.div_add_mod' _ r.count2,
      Nat.div_mul_cancel (Nat.dvd_of_mod_eq_zero hmod), Nat.add_sub_cancel' hle]
  rw [hoff]
  exact RegRow.covers_index hi hj hw

/-- Whether one row of the map runs through the n offsets from b with a stride. -/
def hasRun (b n st : Nat) : Bool := regRows.any (fun r => r.isRun b n st)

theorem regRow?_isSome_of_inStride {off b n st : Nat} (hr : hasRun b n st = true) (h : inStride off b n st = true) :
    (regRow? off).isSome = true := by
  obtain ⟨r, hm, hrun⟩ := List.any_eq_true.1 hr
  exact List.find?_isSome.2 ⟨r, hm, RegRow.covers_of_isRun hrun h⟩

theorem inStride_add (off b n st d : Nat) : inStride (off + d) (b + d) n st = inStride off b n st := by
  simp only [inStride, Nat.add_sub_add_right, Nat.add_le_add_iff_right]

/-- Both halves of every pair of a run of pairs are registers. -/
theorem pair_isSome_of_inStride {lo b n st : Nat} (h : inStride lo b n st = true)
    (hr : hasRun b n st = true ∧ hasRun (b + 4) n st = true) :
    (regRow? lo).isSome = true ∧ (regRow? (lo + 4)).isSome = true :=
  ⟨regRow?_isSome_of_inStride hr.1 h, regRow?_isSome_of_inStride hr.2 (inStride_add lo b n st 4 ▸ h)⟩

/-- Both halves of a pair are registers (R15). -/
theorem pair_isSome_of_isPairLow {lo : Nat} (h : isPairLow lo = true) :
    (regRow? lo).isSome = true ∧ (regRow? (lo + 4)).isSome = true := by
  have single : ∀ x ∈ [Off.CFG_TIMEBASE_LO, Off.PPL_KFAULT_LO, Off.KVL_SWAP_BASE_LO, Off.ULC_HBM_BYTES_LO, Off.CFG_UID_LO,
      Off.JRN_SEQ_LO, Off.FLT_CAPTURE_LO], (regRow? x).isSome = true ∧ (regRow? (x + 4)).isSome = true := by
    decide +kernel
  simp only [isPairLow, Bool.or_eq_true, List.contains_iff_mem] at h
  obtain (((((h | lmap) | route) | winBase) | winSrc) | sqBase) | cqBase := h
  · exact single lo h
  · exact pair_isSome_of_inStride lmap (by decide +kernel)
  · exact pair_isSome_of_inStride route (by decide +kernel)
  · exact pair_isSome_of_inStride winBase (by decide +kernel)
  · exact pair_isSome_of_inStride winSrc (by decide +kernel)
  · exact pair_isSome_of_inStride sqBase (by decide +kernel)
  · exact pair_isSome_of_inStride cqBase (by decide +kernel)

/-! ## An offset that no row covers (R14) -/

section Reserved

variable {off : Nat} (h : regRow? off = none)
include h

theorem ne_of_reserved {x : Nat} (hx : (regRow? x).isSome = true) : off ≠ x := by
  rintro rfl
  exact absurd hx (by rw [h]; decide)

theorem not_inStride_of_reserved {b n st : Nat} (hr : hasRun b n st = true) : inStride off b n st = false :=
  Bool.eq_false_iff.2 fun k => ne_of_reserved h (regRow?_isSome_of_inStride hr k) rfl

theorem isHeldLow_of_reserved : isHeldLow off = false :=
  Bool.eq_false_iff.2 fun k => ne_of_reserved h (pair_isSome_of_isPairLow k).1 rfl

theorem not_isHeldHigh_of_reserved : ¬ (4 ≤ off ∧ isHeldLow (off - 4) = true) := fun ⟨hle, k⟩ =>
  ne_of_reserved h (pair_isSome_of_isPairLow k).2 (Nat.sub_add_cancel hle).symm

theorem State.regView_of_reserved (s : State) : s.regView off = 0#32 := by
  have tbLo : off ≠ Off.CFG_TIMEBASE_LO := ne_of_reserved h (by decide +kernel)
  have tbHi : off ≠ Off.CFG_TIMEBASE_HI := ne_of_reserved h (by decide +kernel)
  have seqLo : off ≠ Off.JRN_SEQ_LO := ne_of_reserved h (by decide +kernel)
  have seqHi : off ≠ Off.JRN_SEQ_HI := ne_of_reserved h (by decide +kernel)
  have status : off ≠ Off.JRN_STATUS := ne_of_reserved h (by decide +kernel)
  simp only [State.regView, tbLo, tbHi, seqLo, seqHi, status, if_false, h]

theorem State.hostWrite_of_reserved (s : State) (v : W32) : s.hostWrite off v = s := by
  simp only [State.hostWrite, h]

theorem State.afterWrite_of_reserved (s : State) : s.afterWrite off = s := by
  have tol : off ≠ Off.HIF_LAT_TOL := ne_of_reserved h (by decide +kernel)
  have power : off ≠ Off.PWR_CTL := ne_of_reserved h (by decide +kernel)
  have irq : off ≠ Off.FLT_IRQ_CTL := ne_of_reserved h (by decide +kernel)
  have therm : off ≠ Off.THM_STATUS := ne_of_reserved h (by decide +kernel)
  have mask : inStride off 0x0000800C 256 16 = false := not_inStride_of_reserved h (by decide +kernel)
  simp [State.afterWrite, tol, power, irq, therm, mask]

theorem State.writeOwnReg_of_reserved (s : State) (v : W32) : s.writeOwnReg off v = none := by
  have swap : off ≠ Off.KVL_SWAP_SIZE := ne_of_reserved h (by decide +kernel)
  have sel : off ≠ Off.KVL_SEQ_SEL := ne_of_reserved h (by decide +kernel)
  have reset : off ≠ Off.FLT_RESET_CTL := ne_of_reserved h (by decide +kernel)
  have cad : off ≠ Off.PWR_CAD_CTL := ne_of_reserved h (by decide +kernel)
  have ring : off ≠ Off.BLT_RING_CTL := ne_of_reserved h (by decide +kernel)
  have grt : inStride off (Off.RGL_GRT 0 0) 88 4 = false := not_inStride_of_reserved h (by decide +kernel)
  have cls : inStride off (Off.RGL_CLASS 0) 16 4 = false := not_inStride_of_reserved h (by decide +kernel)
  have sq : inStride off (Off.HIF_SQ_CFG 0) 64 0x20 = false := not_inStride_of_reserved h (by decide +kernel)
  have cq : inStride off (Off.HIF_CQ_CFG 0) 64 0x20 = false := not_inStride_of_reserved h (by decide +kernel)
  simp [State.writeOwnReg, State.writeQueueReg, swap, sel, reset, cad, ring, grt, cls, sq, cq]

end Reserved

/-! ## A register written by the access codes (R13, Table 0-6) -/

/-- The word that a host's write of v makes of a register that holds old. -/
def RegRow.written (r : RegRow) (old v : W32) : W32 := ((old &&& ~~~ r.rw) ||| (v &&& r.rw)) &&& ~~~ (v &&& r.w1c)

theorem RegRow.getLsbD_written (r : RegRow) (old v : W32) {i : Nat} (hi : i < 32) :
    (r.written old v).getLsbD i =
      ((if r.rw.getLsbD i then v.getLsbD i else old.getLsbD i) && !(v.getLsbD i && r.w1c.getLsbD i)) := by
  simp only [RegRow.written, BitVec.getLsbD_and, BitVec.getLsbD_or, BitVec.getLsbD_not, hi, decide_true, Bool.true_and]
  cases r.rw.getLsbD i <;> simp

theorem State.hostWrite_eq_setReg {off : Nat} {r : RegRow} (s : State) (v : W32) (h : regRow? off = some r) :
    s.hostWrite off v = s.setReg off (r.written (s.regAt off) v) := by
  simp only [State.hostWrite, h, RegRow.written]

/-- The written register holds the written word, every other register what it held. -/
theorem State.regAt_hostWrite {off : Nat} {r : RegRow} {s : State} (v : W32) (hs : s.regsWf = true)
    (h : regRow? off = some r) (o : Nat) :
    (s.hostWrite off v).regAt o = if o = off then r.written (s.regAt off) v else s.regAt o := by
  rw [State.hostWrite_eq_setReg s v h, regAt_setReg _ _ _ _ hs]

theorem State.hostWrite_frame (s : State) (off : Nat) (v : W32) :
    s.hostWrite off v = { s with regs := (s.hostWrite off v).regs } := by
  cases h : regRow? off with
  | none => rw [State.hostWrite_of_reserved h]
  | some r => rw [State.hostWrite_eq_setReg s v h]; rfl

/-! ## The commands of a linked host -/

theorem exec_registerWrite {s : State} (off : Nat) (v : W32) (hl : s.linked = true) :
    exec (.registerWrite off v) s = .next (s.writeReg off v) :=
  congrArg Host.Outcome.next (if_pos hl)

theorem exec_registerWrite_unlinked {s : State} (off : Nat) (v : W32) (hl : ¬ s.linked = true) :
    exec (.registerWrite off v) s = .next s :=
  congrArg Host.Outcome.next (if_neg hl)

theorem State.writeReg_plain {off : Nat} {v : W32} {s : State} (hlo : isHeldLow off = false)
    (hhi : ¬ (4 ≤ off ∧ isHeldLow (off - 4) = true)) (hown : s.writeOwnReg off v = none) :
    s.writeReg off v = (s.hostWrite off v).afterWrite off := by
  simp only [State.writeReg, hlo, if_neg hhi, hown, Bool.false_eq_true, if_false]

theorem State.writeReg_of_reserved {off : Nat} (h : regRow? off = none) (v : W32) (s : State) : s.writeReg off v = s := by
  rw [State.writeReg_plain (isHeldLow_of_reserved h) (not_isHeldHigh_of_reserved h) (State.writeOwnReg_of_reserved h s v),
    State.hostWrite_of_reserved h, State.afterWrite_of_reserved h]

theorem State.writeReg_heldLow {off : Nat} (v : W32) (s : State) (h : isHeldLow off = true)
    (hne : off ≠ Off.KVL_SWAP_BASE_LO) : s.writeReg off v = { s with pairLo := tabInsert s.pairLo off v } := by
  simp only [State.writeReg, h, if_true, if_neg hne]

/-- The _HI half of a pair other than the swap area's, no enabled queue's base among them, commits the pair (R15, R348). -/
theorem State.writePairHi_commit {lo : Nat} {s : State} (v : W32) (hne : lo ≠ Off.KVL_SWAP_BASE_LO)
    (hlock : s.baseLocked lo = false) : s.writePairHi (lo + 4) v = s.commitPair lo (lo + 4) v := by
  simp only [State.writePairHi, Nat.add_sub_cancel, if_neg hne, hlock, Bool.false_eq_true, false_and, if_false]

theorem exec_pairHiWrite_commit {lo : Nat} (v : W32) {s : State} (hl : s.linked = true) (h : isHeldLow lo = true)
    (hne : lo ≠ Off.KVL_SWAP_BASE_LO) (hlock : s.baseLocked lo = false) :
    exec (.pairHiWrite (lo + 4) v) s = .next (s.commitPair lo (lo + 4) v) := by
  rw [← State.writePairHi_commit v hne hlock]
  exact congrArg Host.Outcome.next (if_pos ⟨hl, Nat.le_add_left 4 lo, h⟩)

/-- A read of a _LO half captures the upper half (R15). -/
theorem State.readReg_low {off : Nat} (s : State) (h : isPairLow off = true) :
    s.readReg off = ({ s with pairCap := tabInsert s.pairCap off (s.regView (off + 4)) }, s.regView off) :=
  if_pos h

/-- The read of the _HI half that follows returns what was captured (R15). -/
theorem State.readReg_captured {lo : Nat} {v : W32} {s : State} (h : isPairLow lo = true) (h4 : isPairLow (lo + 4) = false)
    (hc : tabFind s.pairCap lo = some v) : s.readReg (lo + 4) = ({ s with pairCap := tabErase s.pairCap lo }, v) := by
  simp [State.readReg, h4, h, hc]

theorem exec_pairLoRead {off : Nat} {s : State} (hl : s.linked = true)
    (h : isPairLow off = true ∨ (4 ≤ off ∧ isPairLow (off - 4) = true)) :
    exec (.pairLoRead off) s = .next (s.hostRead32 off) :=
  congrArg Host.Outcome.next (if_pos ⟨hl, h⟩)

theorem exec_pairLoRead_low {off : Nat} {s : State} (hl : s.linked = true) (h : isPairLow off = true) :
    exec (.pairLoRead off) s = .next { s with pairCap := tabInsert s.pairCap off (s.regView (off + 4))
                                              host := { s.host with rdata := s.regView off } } := by
  rw [exec_pairLoRead hl (.inl h), State.hostRead32, State.readReg_low s h]

theorem exec_pairLoRead_captured {lo : Nat} {v : W32} {s : State} (hl : s.linked = true) (h : isPairLow lo = true)
    (h4 : isPairLow (lo + 4) = false) (hc : tabFind s.pairCap lo = some v) :
    exec (.pairLoRead (lo + 4)) s =
      .next { s with pairCap := tabErase s.pairCap lo, host := { s.host with rdata := v } } := by
  rw [exec_pairLoRead hl (.inr ⟨Nat.le_add_left 4 lo, h⟩), State.hostRead32, State.readReg_captured h h4 hc]

/-- While no sequence is out of the pool, the swap area's base is held and committed like any pair's (R226). -/
theorem exec_swapAreaWrite {s : State} (v : W32) (hl : s.linked = true) (hb : s.flag Fld.KVL_SWAP_SIZE_BUSY = false) :
    exec (.swapAreaWrite Off.KVL_SWAP_SIZE v) s = .next (s.writeSwapSize v) ∧
    exec (.swapAreaWrite Off.KVL_SWAP_BASE_LO v) s = .next { s with pairLo := tabInsert s.pairLo Off.KVL_SWAP_BASE_LO v } ∧
    exec (.swapAreaWrite Off.KVL_SWAP_BASE_HI v) s =
      .next (s.commitPair Off.KVL_SWAP_BASE_LO Off.KVL_SWAP_BASE_HI v) := by
  have he : ∀ off, exec (.swapAreaWrite off v) s = .next (s.writeSwapArea off v) := fun _ =>
    congrArg Host.Outcome.next (if_pos hl)
  have loSize : Off.KVL_SWAP_BASE_LO ≠ Off.KVL_SWAP_SIZE := by decide
  have hiSize : Off.KVL_SWAP_BASE_HI ≠ Off.KVL_SWAP_SIZE := by decide
  have hiLo : Off.KVL_SWAP_BASE_HI ≠ Off.KVL_SWAP_BASE_LO := by decide
  refine ⟨?_, ?_, ?_⟩
  · simp only [he, State.writeSwapArea, if_true]
  · simp only [he, State.writeSwapArea, loSize, hb, if_true, if_false, Bool.false_eq_true]
  · simp only [he, State.writeSwapArea, hiSize, hiLo, hb, if_true, if_false, Bool.false_eq_true]

/-- A guarantee that Table 11-1's pairs and the sum of 1,024 allow is written, and the one in force is kept (R337, R338, R344). -/
theorem State.writeGrt_accepted {m r : Nat} {v : W32} {s : State} (hm : m < 22) (hr : r < 4)
    (hp : bitsOf v 10 0 = 0 ∨ pairExists m r = true) (hsum : s.grtSum m r (bitsOf v 10 0) ≤ 1024) :
    let off := Off.RGL_GRT m r
    let old := if (tabFind s.rgl.old off).isSome then s.rgl.old else tabInsert s.rgl.old off (s.regAt off)
    s.writeGrt m r v = ({ s with rgl := { s.rgl with old := old } }).hostWrite off v := by
  have range : ¬ (22 ≤ m ∨ 4 ≤ r) := by omega
  have pass : ¬ ((bitsOf v 10 0 ≠ 0 ∧ ¬ pairExists m r = true) ∨ 1024 < s.grtSum m r (bitsOf v 10 0)) := by
    rintro (⟨hz, hx⟩ | hgt)
    · exact hp.elim hz hx
    · omega
  simp only [State.writeGrt, if_neg range, if_neg pass]

theorem State.writeRglClass_accepted {k : Nat} {v : W32} {s : State} (hk : k < 16) (he : bitsOf v 5 0 ≤ 32)
    (hq : bitsOf v 12 8 ≤ 16) (hes : s.rsvSum Fld.RGL_CLASS_MSHR_RSV k (bitsOf v 5 0) ≤ 192)
    (hqs : s.rsvSum Fld.RGL_CLASS_QSLOT_RSV k (bitsOf v 12 8) ≤ 96) :
    s.writeRglClass k v = s.hostWrite (Off.RGL_CLASS k) v := by
  have range : ¬ 16 ≤ k := by omega
  have pass : ¬ (32 < bitsOf v 5 0 ∨ 16 < bitsOf v 12 8 ∨ 192 < s.rsvSum Fld.RGL_CLASS_MSHR_RSV k (bitsOf v 5 0) ∨
      96 < s.rsvSum Fld.RGL_CLASS_QSLOT_RSV k (bitsOf v 12 8)) := by omega
  simp only [State.writeRglClass, if_neg range, if_neg pass]

/-! ## The obligations -/

/-- Settles O51: both halves of every pair, every mirrored register and every register whose write acts lie in a row, so an
offset without a row meets only the branches that read zero and write nothing. -/
theorem reservedOffsets : Obligations.ReservedOffsets := by
  unfold Obligations.ReservedOffsets
  intro off v s h
  refine ⟨State.regView_of_reserved h s, ?_⟩
  by_cases hl : s.linked = true
  · rw [exec_registerWrite off v hl, State.writeReg_of_reserved h]
  · exact exec_registerWrite_unlinked off v hl

/-- Settles O52: the written word bit by bit, and the register file's law of a read after a write. -/
theorem writeAccess : Obligations.WriteAccess := by
  unfold Obligations.WriteAccess
  intro off v r s hc h
  have hs : s.regsWf = true := (Bool.and_eq_true .. ▸ hc : _ ∧ _).2
  refine ⟨State.hostWrite_frame s off v, fun o ho => ?_, fun i hi => ?_⟩
  · rw [State.regAt_hostWrite v hs h, if_neg ho]
  · rw [State.regAt_hostWrite v hs h, if_pos rfl, RegRow.getLsbD_written r _ _ hi]
    refine ⟨fun hw hv => ?_, fun hrw hw => ?_, fun hrw hw => ?_⟩
    · simp [hw, hv]
    · simp [hrw, hw]
    · have keep : (v.getLsbD i && r.w1c.getLsbD i) = false := by
        rw [Bool.and_comm]
        exact Bool.eq_false_iff.2 fun k => hw (Bool.and_eq_true .. ▸ k)
      simp [hrw, keep]

/-- Settles O12: each clause is the law of its command when the host is linked and the command's checks pass. -/
theorem registerAccess : Obligations.RegisterAccess := by
  unfold Obligations.RegisterAccess
  refine ⟨fun off s => exec_pairLoRead_low, fun off v s hl h hne => ?heldLow,
    fun lo v s hl h hne => exec_pairHiWrite_commit v hl h hne, fun off v s hl hlo hhi hown => ?plain,
    fun r v s hr hl => congrArg Host.Outcome.next (if_pos ⟨hr, hl⟩), fun s hl => congrArg Host.Outcome.next (if_pos hl),
    fun v s => exec_swapAreaWrite v, fun v s hl => congrArg Host.Outcome.next (if_pos hl),
    fun m r v s hl hm hr hp hsum => ?guarantee, fun k v s hl hk he hq hes hqs => ?reservation,
    fun lo v s => exec_pairLoRead_captured⟩
  case heldLow => rw [exec_registerWrite off v hl, State.writeReg_heldLow v s h hne]
  case plain =>
    have hhi' : ¬ (4 ≤ off ∧ isHeldLow (off - 4) = true) := fun ⟨hle, k⟩ => Bool.eq_false_iff.1 (hhi hle) k
    rw [exec_registerWrite off v hl, State.writeReg_plain hlo hhi' hown]
  case guarantee =>
    exact congrArg Host.Outcome.next ((if_pos hl).trans (State.writeGrt_accepted hm hr hp hsum))
  case reservation =>
    exact congrArg Host.Outcome.next ((if_pos hl).trans (State.writeRglClass_accepted hk he hq hes hqs))

end Sys2Proof.Machine
end

section
/-! SUPPORT. Time and what lies between the dies (01_stack.md R22 to R46; 15_power_thermal.md R452 to R458): a tick of the
timebase with what it leaves unchanged, and the commands of the dies, the bridge and the idle states where their checks pass. -/

namespace Sys2Proof.Machine

/-! ## A tick of the timebase (R29 to R32, R303, R342) -/

/-- The second state differs from the first in the ring state alone. -/
def State.RingOnly (s t : State) : Prop := ∃ r, t = { s with ring := r }

/-- The second state differs from the first in the samples of the regulation window alone. -/
def State.SamplesOnly (s t : State) : Prop :=
  ∃ demand samples oldest dark,
    t = { s with rgl := { s.rgl with demand := demand, samples := samples, oldest := oldest, dark := dark } }

theorem State.RingOnly.trans {s t u : State} : s.RingOnly t → t.RingOnly u → s.RingOnly u := by
  rintro ⟨_, rfl⟩ ⟨r, rfl⟩
  exact ⟨r, rfl⟩

theorem State.SamplesOnly.trans {s t u : State} : s.SamplesOnly t → t.SamplesOnly u → s.SamplesOnly u := by
  rintro ⟨_, _, _, _, rfl⟩ ⟨d, n, o, k, rfl⟩
  exact ⟨d, n, o, k, rfl⟩

theorem State.ringOnly_sendLop (s : State) (x : Nat) (op : Lop) (arg : Nat) : s.RingOnly (s.sendLop x op arg) := by
  unfold State.sendLop
  split
  · exact ⟨s.ring, rfl⟩
  · split
    · exact ⟨_, rfl⟩
    · exact ⟨_, rfl⟩

theorem State.ringOnly_heartbeat (s : State) (x : Nat) : s.RingOnly (s.heartbeat x) := by
  unfold State.heartbeat
  split
  · exact s.ringOnly_sendLop x _ _
  · exact ⟨s.ring, rfl⟩

theorem State.ringOnly_fillSlot (s : State) (x : Nat) : s.RingOnly (s.fillSlot x) := by
  unfold State.fillSlot
  split
  · exact s.ringOnly_heartbeat x
  · exact s.ringOnly_sendLop x _ _

theorem State.ringOnly_slotTime (s : State) (x : Nat) : s.RingOnly (s.slotTime x) := by
  unfold State.slotTime
  dsimp only
  split
  next => exact ⟨_, rfl⟩
  next => exact ⟨_, rfl⟩
  next => exact s.ringOnly_fillSlot x

theorem State.ringOnly_drainPorts (s : State) : s.RingOnly s.drainPorts := by
  unfold State.drainPorts
  dsimp only
  split
  · exact ⟨s.ring, rfl⟩
  · exact List.foldlRecOn _ _ ⟨_, rfl⟩ fun t ht x _ => ht.trans (t.ringOnly_slotTime x)

theorem State.drainPorts_of_idle {s : State} (h : ∀ x, x < 8 → (s.port x).due = [] ∧ (s.port x).fifo = []) :
    s.drainPorts = s := by
  have none_waits : (List.range 8).filter
      (fun x => s.portUp x && !((s.port x).due.isEmpty && (s.port x).fifo.isEmpty)) = [] :=
    List.filter_eq_nil_iff.2 fun x hx => by
      obtain ⟨due, fifo⟩ := h x (List.mem_range.1 hx)
      simp only [due, fifo, List.isEmpty_nil, Bool.and_self, Bool.not_true, Bool.and_false, Bool.false_eq_true,
        not_false_eq_true]
  simp only [State.drainPorts, none_waits, List.isEmpty_nil, if_true]

theorem State.samplesOnly_rglSample (s : State) : s.SamplesOnly s.rglSample := by
  unfold State.rglSample
  refine List.foldlRecOn _ _ ⟨_, _, _, _, rfl⟩ fun t ht e _ => ht.trans ?_
  split
  · exact ⟨_, _, _, _, rfl⟩
  · exact ⟨_, _, _, _, rfl⟩

theorem State.samplesOnly_rglTick (s : State) : s.SamplesOnly s.rglTick := by
  have dark : s.SamplesOnly s.noteDark := ⟨_, _, _, _, rfl⟩
  unfold State.rglTick
  dsimp only
  split
  · exact dark.trans s.noteDark.samplesOnly_rglSample
  · exact dark

/-- The counters after one period: the master and the IOD's one on, the followers at what they came to. -/
def State.counted (s : State) (u1 cd : W64) : State :=
  { s with stack := { s.stack with tbMaster := s.stack.tbMaster + 1, tbIod := s.stack.tbIod + 1, tbU1 := u1, tbCd := cd } }

/-- Without VAUX or without REFCLK no time passes. -/
theorem State.tick_unclocked {s : State} (h : s.pins.vaux = false ∨ s.pins.refclk = false) : s.tick = s :=
  if_pos (h.imp Bool.eq_false_iff.1 Bool.eq_false_iff.1)

/-- With both, the counters advance, the ports send what waits in them and the window is sampled. -/
theorem State.tick_clocked {s : State} (hv : s.pins.vaux = true) (hr : s.pins.refclk = true) :
    ∃ u1 cd, s.tick = (s.counted u1 cd).drainPorts.rglTick :=
  ⟨_, _, if_neg (not_or.2 ⟨not_not_intro hv, not_not_intro hr⟩)⟩

theorem step_of_empty {s : State} (h : s.pending = []) : step s = .next s.tick := by
  simp only [step, h]

/-! ## Between dies (R23, R30, R31, R34, R36 to R39, R43) -/

theorem exec_tbPathLost {onCd pathB : Bool} {s : State} (hd : s.dieUp (if onCd then .cd else .u1) = true)
    (hp : s.flag (pathFld onCd pathB) = true) :
    exec (.tbPathLost onCd pathB) s = .next (if s.flag (pathFld onCd (!pathB)) then s.pathGone onCd pathB
      else (s.pathGone onCd pathB).deviceScope Ev.TB_PATH_LOST) :=
  congrArg Host.Outcome.next (if_pos ⟨hd, hp⟩)

theorem exec_sidebandCopyLost {copyB : Bool} {s : State} (h : s.sideband copyB = true) :
    exec (.sidebandCopyLost copyB) s = .next (if s.sideband (!copyB) then s.copyGone copyB
      else (s.copyGone copyB).deviceScope Ev.SIDEBAND_COPY_LOST) :=
  congrArg Host.Outcome.next (if_pos h)

theorem exec_vifParityMismatch {iface group : Nat} {s : State} (repeatFails : Bool) (hi : iface < 2) (hg : group < 9728)
    (hs : s.sliceState (group / 76) = 0) (ht : s.underTest iface group = false) (hu : s.vifUp iface = true) :
    exec (.vifParityMismatch iface group repeatFails) s =
      .next (if ¬ repeatFails then s.incFld Fld.CFG_VIF_EVENTS_RETRY_COUNT
        else { s with stack := { s.stack with vifUnderTest := s.stack.vifUnderTest ++ [(iface, group)] } }) := by
  have pass : ¬ (2 ≤ iface ∨ 9728 ≤ group ∨ s.sliceState (group / 76) ≠ 0 ∨ s.underTest iface group = true ∨
      ¬ s.vifUp iface = true) := by
    rintro (h | h | h | h | h)
    · omega
    · omega
    · exact h hs
    · exact Bool.eq_false_iff.1 ht h
    · exact h hu
  exact congrArg Host.Outcome.next (if_neg pass)

theorem exec_vifWireTestComplete_located {iface group site : Nat} {s : State} (ok : Bool)
    (ht : s.underTest iface group = true) (hs : siteTested group site = true) :
    exec (.vifWireTestComplete iface group (some site) ok) s = .next (s.vifLocated iface group site ok) :=
  congrArg Host.Outcome.next ((if_neg (not_not_intro ht)).trans (if_pos hs))

theorem exec_vifWireTestComplete_none {iface group : Nat} {s : State} (ok : Bool) (ht : s.underTest iface group = true) :
    exec (.vifWireTestComplete iface group none ok) s = .next (s.vifNotFound iface group) :=
  congrArg Host.Outcome.next (if_neg (not_not_intro ht))

theorem exec_hbmTransferError {ch : Nat} {s : State} (repeatFails : Bool) (lost : List (Nat × LostData)) (hc : ch < 128)
    (hr : s.fbit (Fld.ULC_CHAN_RET_RETIRED (ch / 32)) (ch % 32) = false) (hv : s.pins.vddUp = true) :
    exec (.hbmTransferError ch repeatFails lost) s = .next (if repeatFails then s.retireChannel ch lost else s) := by
  refine congrArg Host.Outcome.next ?_
  cases repeatFails with
  | false => exact if_pos (.inr (.inl Bool.false_ne_true))
  | true =>
    have pass : ¬ (128 ≤ ch ∨ ¬ true = true ∨ s.fbit (Fld.ULC_CHAN_RET_RETIRED (ch / 32)) (ch % 32) = true ∨
        ¬ s.pins.vddUp = true) := by
      rintro (h | h | h | h)
      · omega
      · exact h rfl
      · exact Bool.eq_false_iff.1 hr h
      · exact h hv
    exact if_neg pass

/-- On a pair in service the flit leaves the wire, is discarded, ignored or accepted, and then the die sends. -/
theorem exec_bridgeFlitReceive {pair : Nat} {s : State} (rx : BridgeRx) (hp : pair < 16)
    (hr : s.fbit Fld.CFG_BRIDGE_PAIR_RETIRED pair = false) (hv : s.pins.vddUp = true) :
    let ftype := bitsOf (flitHeader rx.flit) 111 108
    let t := s.offWire rx.atU0 pair
    exec (.bridgeFlitReceive pair rx) s =
      .next ((if ¬ flitCrcOk rx.flit ∨ 4 ≤ ftype then t.discardFlit rx.atU0 pair (decide (ftype = 2))
        else if ftype = 3 then t else t.acceptFlit rx.atU0 pair rx.flit ftype).sendUnits rx.atU0 rx.units) := by
  have pass : ¬ (16 ≤ pair ∨ s.fbit Fld.CFG_BRIDGE_PAIR_RETIRED pair = true ∨ ¬ s.pins.vddUp = true) := by
    rintro (h | h | h)
    · omega
    · exact Bool.eq_false_iff.1 hr h
    · exact h hv
  exact congrArg Host.Outcome.next (if_neg pass)

/-! ## The idle states (R452, R455 to R458) -/

theorem exec_wakeSlotWaitTimeout {r : Nat} {w : Wake} {s : State} (hw : s.wakeOf r = some w) (hn : w.ramping = false)
    (hg : ∀ v ∈ s.power.wakes, v.region / 4 = r / 4 → v.ramping = false) :
    exec (.wakeSlotWaitTimeout r) s =
      .next (if (State.pauseFor 4 s r).slotFree r then (State.pauseFor 4 s r).startRamp r else State.pauseFor 4 s r) := by
  have quiet : ¬ (w.ramping = true ∨ s.power.wakes.any (fun v => v.ramping && v.region / 4 = r / 4) = true) := by
    simp only [hn, Bool.false_eq_true, false_or, List.any_eq_true, Bool.and_eq_true, decide_eq_true_eq]
    rintro ⟨v, hv, ramps, group⟩
    exact Bool.eq_false_iff.1 (hg v hv group) ramps
  refine congrArg Host.Outcome.next ?_
  simp only [hw]
  exact if_neg quiet

/-- The voltage that a region left is no part of its wake. -/
theorem State.wakeV_dropWake (s : State) (r : Nat) : (s.dropWake r).wakeV r = s.wakeV r := rfl

theorem exec_regionWakeComplete {r : Nat} {w : Wake} {s : State} (hw : s.wakeOf r = some w) (hr : w.ramping = true) :
    let s1 := s.dropWake r
    exec (.regionWakeComplete r) s =
      .next ((((s1.setFld (Fld.PWR_REGION_STAT_VNOW r) (s1.wakeV r)).setRegion r RS.Q1).grantWakes r).kickAll) := by
  refine congrArg Host.Outcome.next ?_
  simp only [hw, State.wakeV_dropWake]
  exact if_pos hr

theorem exec_idleDwellExpiry {state : Nat} {s : State} (hd : s.deepOk = true) (h34 : state = 3 ∨ state = 4)
    (hlt : s.fld Fld.PWR_STATUS_DSTATE < state) (ha : state ≤ s.allowed) :
    let s1 := (s.powered).foldl (fun s r => s.setFld (Fld.PWR_REGION_STAT_VNOW r) 0) s
    let s2 := { s1.setFld Fld.PWR_STATUS_DSTATE state with tiles := [] }
    exec (.idleDwellExpiry state) s =
      .next (if state = 3 then s2.incFld Fld.PWR_IDLE_Q3_ENTRIES else (s2.ulOff).incFld Fld.PWR_IDLE_Q4_ENTRIES) :=
  congrArg Host.Outcome.next (if_pos ⟨hd, by omega, hlt, h34, ha⟩)

theorem exec_deviceWakeComplete {s : State} (h : s.fld Fld.PWR_STATUS_DSTATE = 5) :
    let s1 := { s with stack := { s.stack with tbU1 := s.stack.tbMaster, tbCd := s.stack.tbMaster } }
    exec .deviceWakeComplete s = .next (((if s.power.wakeFrom = 4 then s1.raiseRegions.refillPins else s1.raiseRegions).setFld
      Fld.PWR_STATUS_DSTATE 1).syncDstate) :=
  congrArg Host.Outcome.next (if_pos h)

/-! ## The obligations -/

/-- Settles O2: without VAUX or REFCLK the tick is the identity; with both, the counters advance and what follows changes the
ring state alone, then the window's samples alone. -/
theorem emptyQueueTicks : Obligations.EmptyQueueTicks := by
  unfold Obligations.EmptyQueueTicks
  intro s hp
  refine ⟨s.tick, step_of_empty hp, ?_⟩
  by_cases hc : s.pins.vaux = true ∧ s.pins.refclk = true
  case neg =>
    have off : s.pins.vaux = false ∨ s.pins.refclk = false := by
      cases hv : s.pins.vaux with
      | false => exact .inl rfl
      | true => exact .inr (Bool.eq_false_iff.2 fun hr => hc ⟨hv, hr⟩)
    rw [State.tick_unclocked off]
    exact ⟨rfl, rfl, fun _ => rfl, rfl, fun hv hr => absurd ⟨hv, hr⟩ hc, fun _ => rfl⟩
  case pos =>
    obtain ⟨hv, hr⟩ := hc
    obtain ⟨u1, cd, ticked⟩ := State.tick_clocked hv hr
    obtain ⟨r, drained⟩ := (s.counted u1 cd).ringOnly_drainPorts
    obtain ⟨demand, samples, oldest, dark, sampled⟩ := (s.counted u1 cd).drainPorts.samplesOnly_rglTick
    rw [drained] at sampled
    have idle : (∀ x, x < 8 → (s.port x).due = [] ∧ (s.port x).fifo = []) → r = s.ring := fun h =>
      congrArg State.ring (drained.symm.trans (State.drainPorts_of_idle h))
    rw [ticked, drained, sampled]
    refine ⟨rfl, rfl, idle, rfl, fun _ _ => ⟨rfl, rfl⟩, fun off => ?_⟩
    rcases off with off | off
    · exact absurd hv (Bool.eq_false_iff.1 off)
    · exact absurd hr (Bool.eq_false_iff.1 off)

/-- Settles O10: each clause is the law of its command where the command's checks pass. -/
theorem betweenDies : Obligations.BetweenDies := by
  unfold Obligations.BetweenDies
  refine ⟨fun die a b s hd hb => congrArg Host.Outcome.next (if_pos ⟨hd, hb⟩), fun onCd pathB s hd hp hq => ?onePath,
    fun onCd pathB s hd hp hq => ?lastPath, fun copyB s hc ho => ?oneCopy, fun copyB s hc ho => ?lastCopy,
    fun iface group s hi hg hs ht hu => ⟨exec_vifParityMismatch false hi hg hs ht hu, exec_vifParityMismatch true hi hg hs ht hu⟩,
    fun iface group site ok s ht hs => exec_vifWireTestComplete_located ok ht hs,
    fun iface group ok s ht => exec_vifWireTestComplete_none ok ht,
    fun weak s hr => congrArg Host.Outcome.next (if_pos hr),
    fun ch lost s hc hr hv => ⟨exec_hbmTransferError true lost hc hr hv, exec_hbmTransferError false lost hc hr hv⟩⟩
  case onePath => rw [exec_tbPathLost hd hp, if_pos hq]
  case lastPath => rw [exec_tbPathLost hd hp, if_neg (Bool.eq_false_iff.1 hq)]
  case oneCopy => rw [exec_sidebandCopyLost hc, if_pos ho]
  case lastCopy => rw [exec_sidebandCopyLost hc, if_neg (Bool.eq_false_iff.1 ho)]

/-- Settles O11: the three clauses are the three branches that CRC and FTYPE choose. -/
theorem bridgeFlits : Obligations.BridgeFlits := by
  unfold Obligations.BridgeFlits
  intro pair atU0 flit units s hp hr hv ftype t
  have receive := exec_bridgeFlitReceive ⟨atU0, flit, units⟩ hp hr hv
  have intact (hcrc : flitCrcOk flit = true) (hlt : ftype < 4) : ¬ (¬ flitCrcOk flit = true ∨ 4 ≤ ftype) :=
    not_or.2 ⟨not_not_intro hcrc, Nat.not_le.2 hlt⟩
  refine ⟨fun hcrc hlt => ?accepted, fun hcrc h3 => ?ignored, fun hbad => ?discarded⟩
  case accepted =>
    have service : ¬ ftype = 3 := by omega
    rw [receive, if_neg (intact hcrc (by omega)), if_neg service]
  case ignored => rw [receive, if_neg (intact hcrc (by omega)), if_pos h3]
  case discarded =>
    have bad : ¬ flitCrcOk flit = true ∨ 4 ≤ ftype := hbad.imp_left Bool.eq_false_iff.1
    rw [receive, if_pos bad]

/-- Settles O47: each clause is the law of its command where the command's checks pass. -/
theorem idleAndWake : Obligations.IdleAndWake := by
  unfold Obligations.IdleAndWake
  refine ⟨fun r s hr hd hc hw => congrArg Host.Outcome.next (if_pos ⟨hr, hd, hc, hw⟩),
    fun r w s hw hn hg => exec_wakeSlotWaitTimeout hw hn hg, fun r w s hw hr => exec_regionWakeComplete hw hr,
    fun r s hq hn ht => congrArg Host.Outcome.next (if_pos ⟨hq, hn, ht⟩),
    fun state s hd h34 hlt ha => exec_idleDwellExpiry hd h34 hlt ha,
    fun cause s hd hw => congrArg Host.Outcome.next (if_pos ⟨hd, hw⟩), fun s hd => ⟨fun h4 => ?fromQ4, fun h4 => ?fromQ3⟩,
    fun counts s hr => congrArg Host.Outcome.next (if_pos hr)⟩
  case fromQ4 => rw [exec_deviceWakeComplete hd, if_pos h4]
  case fromQ3 => rw [exec_deviceWakeComplete hd, if_neg h4]

end Sys2Proof.Machine
end

section
/-! SUPPORT. Numbers (02_numbers.md R50, R52, R55): which value each finite code of a format holds, the integer that one
rounding gives and how near it lies, and the rounding of a value to a format. -/

namespace Sys2Proof.Machine

/-! ## Which value a finite code holds (R50, R52) -/

/-- A format's sizes fit: at least one mantissa bit, and the magnitude codes of finite values leave the sign bit free. -/
def FloatFmt.fits (f : FloatFmt) : Bool := decide (1 ≤ f.mbits) && decide (2 ≤ f.width) && decide (f.maxFin < 2 ^ (f.width - 1))

theorem fits_of_mem_floatFormats : ∀ f ∈ floatFormats, f.fits = true := by decide

theorem FloatFmt.fits_iff {f : FloatFmt} :
    f.fits = true ↔ 1 ≤ f.mbits ∧ 2 ≤ f.width ∧ f.maxFin < 2 ^ (f.width - 1) := by
  simp only [FloatFmt.fits, Bool.and_eq_true, decide_eq_true_eq, and_assoc]

/-- The significand m at k steps above the least exponent is one that the format holds: a subnormal's at step 0, a normal
one's at any, and no magnitude above the largest. -/
structure FloatFmt.Holds (f : FloatFmt) (m k : Nat) : Prop where
  lt : m < 2 ^ (f.mbits + 1)
  normal : k = 0 ∨ 2 ^ f.mbits ≤ m
  le : k * 2 ^ f.mbits + m ≤ f.maxFin

theorem FloatFmt.encode_mod {f : FloatFmt} {neg : Bool} {mag : Nat} (h : mag < 2 ^ (f.width - 1)) :
    f.encode neg mag % 2 ^ (f.width - 1) = mag := by
  rw [FloatFmt.encode, Nat.mul_add_mod_self_right, Nat.mod_eq_of_lt h]

theorem FloatFmt.encode_sign {f : FloatFmt} {neg : Bool} {mag : Nat} (h : mag < 2 ^ (f.width - 1)) :
    decide (f.encode neg mag / 2 ^ (f.width - 1) % 2 = 1) = neg := by
  rw [FloatFmt.encode, Nat.mul_comm, Nat.mul_add_div (Nat.two_pow_pos _), Nat.div_eq_of_lt h]
  cases neg <;> rfl

/-- The code of a significand and a step holds that significand at that step. -/
theorem FloatFmt.decode_encode {f : FloatFmt} (hf : f.fits = true) (neg : Bool) {m k : Nat} (h : f.Holds m k) :
    f.decode (f.encode neg (k * 2 ^ f.mbits + m)) = .fin neg m (f.qmin + k) := by
  obtain ⟨-, -, hmax⟩ := FloatFmt.fits_iff.1 hf
  obtain ⟨hlt, hn, hle⟩ := h
  have hmag : k * 2 ^ f.mbits + m < 2 ^ (f.width - 1) := Nat.lt_of_le_of_lt hle hmax
  simp only [FloatFmt.decode, FloatFmt.encode_mod hmag, FloatFmt.encode_sign hmag, if_pos hle]
  by_cases hm : m < 2 ^ f.mbits
  · have hk : k = 0 := hn.resolve_right (Nat.not_le.2 hm)
    subst hk
    simp [hm]
  · obtain ⟨x, rfl⟩ := Nat.exists_eq_add_of_le (Nat.not_lt.1 hm)
    have hx : x < 2 ^ f.mbits := by rw [Nat.pow_succ] at hlt; omega
    have hs : k * 2 ^ f.mbits + (2 ^ f.mbits + x) = 2 ^ f.mbits * (k + 1) + x := by
      rw [Nat.mul_add_one, Nat.mul_comm k, Nat.add_assoc]
    have hb : ¬ 2 ^ f.mbits * (k + 1) + x < 2 ^ f.mbits := by
      have := Nat.le_mul_of_pos_right (2 ^ f.mbits) (Nat.succ_pos k)
      omega
    rw [hs, if_neg hb, Nat.mul_add_mod, Nat.mod_eq_of_lt hx, Nat.mul_add_div (Nat.two_pow_pos _), Nat.div_eq_of_lt hx]
    congr 1
    omega

/-- Every finite code is the code of the significand and step that it holds. -/
theorem FloatFmt.exists_encode {f : FloatFmt} (hf : f.fits = true) {c : Nat} (hc : c < 2 ^ f.width)
    (hfin : (f.decode c).isFin = true) : ∃ neg m k, f.Holds m k ∧ c = f.encode neg (k * 2 ^ f.mbits + m) := by
  obtain ⟨-, hw, -⟩ := FloatFmt.fits_iff.1 hf
  have hle : c % 2 ^ (f.width - 1) ≤ f.maxFin := by
    refine Decidable.byContradiction fun hgt => ?_
    simp only [FloatFmt.decode, if_neg hgt] at hfin
    split at hfin <;> exact nomatch hfin
  have hc2 : c / 2 ^ (f.width - 1) < 2 := by
    refine Nat.div_lt_of_lt_mul ?_
    rwa [← Nat.pow_succ, Nat.succ_eq_add_one, Nat.sub_add_cancel (by omega)]
  have hsign : b2n (decide (c / 2 ^ (f.width - 1) = 1)) = c / 2 ^ (f.width - 1) := by
    rcases Nat.lt_succ_iff_lt_or_eq.1 hc2 with h | h
    · rw [Nat.lt_one_iff.1 h]; rfl
    · rw [h]; rfl
  have hcode : c = f.encode (decide (c / 2 ^ (f.width - 1) = 1)) (c % 2 ^ (f.width - 1)) := by
    rw [FloatFmt.encode, hsign, Nat.div_add_mod']
  have hmag := Nat.div_add_mod' (c % 2 ^ (f.width - 1)) (2 ^ f.mbits)
  have hx := Nat.mod_lt (c % 2 ^ (f.width - 1)) (Nat.two_pow_pos f.mbits)
  generalize c % 2 ^ (f.width - 1) = mag at hle hcode hmag hx
  generalize mag % 2 ^ f.mbits = x at hmag hx
  refine ⟨decide (c / 2 ^ (f.width - 1) = 1), ?_⟩
  cases hk : mag / 2 ^ f.mbits with
  | zero =>
    rw [hk] at hmag
    exact ⟨x, 0, ⟨by rw [Nat.pow_succ]; omega, .inl rfl, by omega⟩, hmag.symm ▸ hcode⟩
  | succ k =>
    rw [hk, Nat.succ_mul, Nat.add_assoc] at hmag
    exact ⟨2 ^ f.mbits + x, k, ⟨by rw [Nat.pow_succ]; omega, .inr (Nat.le_add_right ..), by omega⟩, hmag.symm ▸ hcode⟩

/-! ## The one rounding (R55) -/

/-- The integer nearest to a / b, the even one of two. -/
def halfEven (a b : Nat) : Nat :=
  if 2 * (a % b) > b ∨ (2 * (a % b) = b ∧ a / b % 2 = 1) then a / b + 1 else a / b

theorem roundAt_fst (num den : Nat) (e q : Int) :
    (roundAt num den e q).1 =
      halfEven (if e - q ≥ 0 then num * 2 ^ (e - q).toNat else num) (if e - q ≥ 0 then den else den * 2 ^ (-(e - q)).toNat) :=
  apply_ite Prod.fst _ _ _

/-- The multiples of b that are not the k-th lie on one side of it, the step b or more away. -/
theorem mul_sub_cases {b : Nat} {j k : Int} (h : j ≠ k) : j * b ≤ k * b - b ∨ k * b + b ≤ j * b := by
  rcases Int.lt_or_gt_of_ne h with h | h
  · left
    have := Int.mul_le_mul_of_nonneg_right (show j ≤ k - 1 by omega) (Int.natCast_nonneg b)
    rwa [Int.sub_mul, Int.one_mul] at this
  · right
    have := Int.mul_le_mul_of_nonneg_right (show k + 1 ≤ j by omega) (Int.natCast_nonneg b)
    rwa [Int.add_mul, Int.one_mul] at this

/-- No multiple of b is nearer to a than the chosen one, and one as near leaves the chosen one even. -/
theorem halfEven_nearest (a : Nat) {b : Nat} (hb : 0 < b) (j : Int) :
    ((halfEven a b : Int) * b - a).natAbs ≤ (j * b - a).natAbs ∧
      (((halfEven a b : Int) * b - a).natAbs = (j * b - a).natAbs → j ≠ halfEven a b → halfEven a b % 2 = 0) := by
  have ha : ((a / b : Nat) : Int) * b + (a % b : Nat) = a := by exact_mod_cast Nat.div_add_mod' a b
  have hr := Nat.mod_lt a hb
  unfold halfEven
  generalize a / b = k at *
  generalize a % b = r at *
  split
  case isTrue up =>
    rw [Int.natCast_add, Int.natCast_one, Int.add_mul, Int.one_mul]
    by_cases h1 : j = k + 1
    · subst h1
      exact ⟨Nat.le_of_eq (by rw [Int.add_mul, Int.one_mul]), fun _ hne => absurd rfl hne⟩
    · by_cases h0 : j = k
      · subst h0
        omega
      · have := mul_sub_cases (b := b) h0
        have := mul_sub_cases (b := b) h1
        rw [Int.add_mul, Int.one_mul] at this
        omega
  case isFalse down =>
    by_cases h0 : j = k
    · subst h0
      exact ⟨Nat.le_refl _, fun _ hne => absurd rfl hne⟩
    · have := mul_sub_cases (b := b) h0
      omega

/-- m × 2^e and 2^q over a common 2^p, for p at or below both: the integer that roundAt rounds to, times the step, is the
nearest multiple of the step. -/
theorem roundAt_nearest (m : Nat) {e q p : Int} (he : p ≤ e) (hq : p ≤ q) (j : Int) :
    let k := (roundAt m 1 e q).1
    let u := 2 ^ (q - p).toNat
    let x := m * 2 ^ (e - p).toNat
    ((k : Int) * (u : Nat) - (x : Nat)).natAbs ≤ (j * (u : Nat) - (x : Nat)).natAbs ∧
      (((k : Int) * (u : Nat) - (x : Nat)).natAbs = (j * (u : Nat) - (x : Nat)).natAbs → j ≠ k → k % 2 = 0) := by
  intro k u x
  obtain ⟨a, b, t, hk, hu, hx, hb, ht⟩ : ∃ a b t, k = halfEven a b ∧ u = b * t ∧ x = a * t ∧ 0 < b ∧ 0 < t := by
    by_cases h : e - q ≥ 0
    · refine ⟨_, _, u, roundAt_fst .., ?_, ?_, ?_, Nat.two_pow_pos _⟩
      · rw [if_pos h, Nat.one_mul]
      · rw [if_pos h, Nat.mul_assoc, ← Nat.pow_add, show (e - q).toNat + (q - p).toNat = (e - p).toNat by omega]
      · rw [if_pos h]; exact Nat.one_pos
    · refine ⟨_, _, 2 ^ (e - p).toNat, roundAt_fst .., ?_, ?_, ?_, Nat.two_pow_pos _⟩
      · rw [if_neg h, Nat.one_mul, ← Nat.pow_add, show (-(e - q)).toNat + (e - p).toNat = (q - p).toNat by omega]
      · rw [if_neg h]
      · rw [if_neg h, Nat.one_mul]; exact Nat.two_pow_pos _
  have scale : ∀ i : Int, (i * (u : Nat) - (x : Nat)).natAbs = (i * b - a).natAbs * t := fun i => by
    rw [hu, hx, Int.natCast_mul, Int.natCast_mul, ← Int.mul_assoc, ← Int.sub_mul, Int.natAbs_mul, Int.natAbs_natCast]
  obtain ⟨near, even⟩ := halfEven_nearest a hb j
  rw [scale, scale, hk]
  exact ⟨Nat.mul_le_mul_right t near, fun h => even (Nat.eq_of_mul_eq_mul_right ht h)⟩

/-- A value at most n steps rounds to at most n of them, and one of at least n to at least n. -/
theorem roundAt_bounds (m n : Nat) {e q p : Int} (he : p ≤ e) (hq : p ≤ q) :
    (m * 2 ^ (e - p).toNat ≤ n * 2 ^ (q - p).toNat → (roundAt m 1 e q).1 ≤ n) ∧
      (n * 2 ^ (q - p).toNat ≤ m * 2 ^ (e - p).toNat → n ≤ (roundAt m 1 e q).1) := by
  have near := (roundAt_nearest m he hq n).1
  simp only [← Int.natCast_mul] at near
  have hpos := Nat.two_pow_pos (q - p).toNat
  have step {i j : Nat} (h : i < j) : i * 2 ^ (q - p).toNat + 2 ^ (q - p).toNat ≤ j * 2 ^ (q - p).toNat :=
    Nat.succ_mul i _ ▸ Nat.mul_le_mul_right _ h
  rcases Nat.lt_trichotomy n (roundAt m 1 e q).1 with h | h | h
  · have := step h
    omega
  · omega
  · have := step h
    omega

theorem roundAt_self (m : Nat) (e : Int) : roundAt m 1 e e = (m, false) := by
  simp [roundAt, Nat.mod_one]

/-- Where the rounded multiple of u is the nearest one to x, nothing is nearer among the multiples of u and what lies below a
multiple that x is not below. -/
theorem nearest_of_spacing {k u x n : Nat} {v : Int}
    (near : ∀ j : Int, ((k : Int) * u - x).natAbs ≤ (j * u - x).natAbs ∧
      (((k : Int) * u - x).natAbs = (j * u - x).natAbs → j ≠ k → k % 2 = 0))
    (hv : (u : Int) ∣ v ∨ v.natAbs < n * u ∧ n * u ≤ x) :
    ((k : Int) * u - x).natAbs ≤ (v - x).natAbs ∧
      (((k : Int) * u - x).natAbs = (v - x).natAbs → v ≠ k * u → k % 2 = 0) := by
  rcases hv with ⟨j, rfl⟩ | ⟨hlt, hle⟩
  · obtain ⟨hnear, heven⟩ := near j
    rw [Int.mul_comm (u : Int) j]
    exact ⟨hnear, fun h hne => heven h fun e => hne (by rw [e])⟩
  · have closer := (near n).1
    rw [← Int.natCast_mul] at closer ⊢
    omega

/-! ## A value rounded to a format -/

theorem floorLog2_one {m : Nat} (hm : m ≠ 0) (e : Int) : floorLog2 m 1 e = m.log2 + e := by
  have hle := Nat.log2_self_le hm
  have h1 : Nat.log2 1 = 0 := rfl
  simp [floorLog2, h1, hle]

/-- The exponent of the last place that m × 2^e is rounded to in a format. -/
def FloatFmt.lastExp (f : FloatFmt) (m : Nat) (e : Int) : Int := max (m.log2 + e - f.mbits) f.qmin

/-- How many units of the last place m × 2^e rounds to. -/
def FloatFmt.units (f : FloatFmt) (m : Nat) (e : Int) : Nat := (roundAt m 1 e (f.lastExp m e)).1

/-- The magnitude code that m × 2^e rounds to, with the exponent unbounded above. -/
def FloatFmt.roundCode (f : FloatFmt) (m : Nat) (e : Int) : Nat :=
  (f.lastExp m e - f.qmin).toNat * 2 ^ f.mbits + f.units m e

theorem FloatFmt.qmin_le_lastExp (f : FloatFmt) (m : Nat) (e : Int) : f.qmin ≤ f.lastExp m e := by
  unfold FloatFmt.lastExp
  omega

theorem FloatFmt.roundMag_one (f : FloatFmt) {m : Nat} (hm : m ≠ 0) (e : Int) :
    f.roundMag m 1 e =
      (f.roundCode m e, (roundAt m 1 e (f.lastExp m e)).2, decide (m.log2 + e < f.qmin + f.mbits)) := by
  rw [FloatFmt.roundMag, floorLog2_one hm]
  rfl

section Convert

variable (f : FloatFmt) (sat fresh neg : Bool) {m : Nat} (e : Int)

theorem FloatFmt.convert_zero : f.convert sat fresh (.fin neg 0 e) = (f.encode neg 0, 0#32) := rfl

/-- What does not overflow converts to the code of its sign and rounded magnitude. -/
theorem FloatFmt.convert_of_le (hm : m ≠ 0) (h : f.roundCode m e ≤ f.maxFin) :
    f.convert sat fresh (.fin neg m e) =
      (f.encode neg (f.roundCode m e), flagIf (roundAt m 1 e (f.lastExp m e)).2 asw.NX |||
        flagIf ((roundAt m 1 e (f.lastExp m e)).2 && decide (m.log2 + e < f.qmin + f.mbits)) asw.UF) := by
  simp only [FloatFmt.convert, FloatFmt.roundRat, if_neg hm, FloatFmt.roundMag_one f hm, if_neg (Nat.not_lt.2 h)]

theorem FloatFmt.convert_flags_of_gt (hm : m ≠ 0) (h : f.maxFin < f.roundCode m e) :
    (f.convert sat fresh (.fin neg m e)).2 = asw.OF ||| asw.NX := by
  simp only [FloatFmt.convert, FloatFmt.roundRat, if_neg hm, FloatFmt.roundMag_one f hm, if_pos h]

/-- A conversion without the overflow flag rounds to a finite code. -/
theorem FloatFmt.roundCode_le_of_no_overflow (hm : m ≠ 0)
    (h : (f.convert sat fresh (.fin neg m e)).2 &&& asw.OF = 0#32) : f.roundCode m e ≤ f.maxFin := by
  refine Decidable.byContradiction fun hgt => ?_
  rw [FloatFmt.convert_flags_of_gt f sat fresh neg e hm (Nat.not_le.1 hgt)] at h
  exact absurd h (by decide)

end Convert

/-! ## Conversion of what the format holds -/

/-- A significand that the format holds is at its last place already. -/
theorem FloatFmt.Holds.lastExp_eq {f : FloatFmt} {m k : Nat} (h : f.Holds m k) (hm : m ≠ 0) :
    f.lastExp m (f.qmin + k) = f.qmin + k := by
  have hlt : m.log2 < f.mbits + 1 := (Nat.log2_lt hm).2 h.lt
  unfold FloatFmt.lastExp
  rcases h.normal with rfl | hn
  · omega
  · have hge : f.mbits ≤ m.log2 := (Nat.le_log2 hm).2 hn
    omega

theorem FloatFmt.Holds.roundCode_eq {f : FloatFmt} {m k : Nat} (h : f.Holds m k) (hm : m ≠ 0) :
    f.roundCode m (f.qmin + k) = k * 2 ^ f.mbits + m := by
  rw [FloatFmt.roundCode, FloatFmt.units, h.lastExp_eq hm, roundAt_self, show (f.qmin + k - f.qmin).toNat = k by omega]

theorem FloatFmt.Holds.convert_eq {f : FloatFmt} {m k : Nat} (h : f.Holds m k) (sat fresh neg : Bool) :
    f.convert sat fresh (.fin neg m (f.qmin + k)) = (f.encode neg (k * 2 ^ f.mbits + m), 0#32) := by
  by_cases hm : m = 0
  · subst hm
    have hk : k = 0 := h.normal.resolve_right (Nat.not_le.2 (Nat.two_pow_pos _))
    subst hk
    rw [FloatFmt.convert_zero, Nat.zero_mul]
  · rw [FloatFmt.convert_of_le f sat fresh neg _ hm (h.roundCode_eq hm ▸ h.le), h.roundCode_eq hm, h.lastExp_eq hm,
      roundAt_self]
    simp [flagIf]

/-! ## How near a conversion lies -/

/-- An integer of a sign and a magnitude. -/
def signed (neg : Bool) (k : Nat) : Int := if neg then -(k : Int) else k

theorem FV.at_fin (neg : Bool) (m : Nat) (e p : Int) : (FV.fin neg m e).at p = signed neg (m * 2 ^ (e - p).toNat) := rfl

theorem natAbs_signed (neg : Bool) (k : Nat) : (signed neg k).natAbs = k := by cases neg <;> simp [signed]

/-- The sign of the rounded value does not matter to what is nearest. -/
theorem nearest_signed {k u x n : Nat} {v : Int} (neg : Bool)
    (near : ∀ j : Int, ((k : Int) * u - x).natAbs ≤ (j * u - x).natAbs ∧
      (((k : Int) * u - x).natAbs = (j * u - x).natAbs → j ≠ k → k % 2 = 0))
    (hv : (u : Int) ∣ v ∨ v.natAbs < n * u ∧ n * u ≤ x) :
    (signed neg (k * u) - signed neg x).natAbs ≤ (v - signed neg x).natAbs ∧
      ((signed neg (k * u) - signed neg x).natAbs = (v - signed neg x).natAbs → v ≠ signed neg (k * u) → k % 2 = 0) := by
  cases neg with
  | false =>
    have key := nearest_of_spacing near hv
    simpa [signed] using key
  | true =>
    have key := nearest_of_spacing (v := -v) near (by rwa [Int.dvd_neg, Int.natAbs_neg])
    simp only [signed, if_true, Int.natCast_mul]
    omega

section Near

variable {f : FloatFmt} {m : Nat} {e p : Int} (hm : m ≠ 0) (he : p ≤ e) (hq : p ≤ f.qmin)
include hm he hq

/-- A value is at most 2^(mbits + 1) units of its last place. -/
theorem FloatFmt.le_units_lastExp : m * 2 ^ (e - p).toNat ≤ 2 ^ (f.mbits + 1) * 2 ^ (f.lastExp m e - p).toNat := by
  have hlt : m ≤ 2 ^ (m.log2 + 1) := Nat.le_of_lt ((Nat.log2_lt hm).1 (Nat.lt_succ_self _))
  calc m * 2 ^ (e - p).toNat ≤ 2 ^ (m.log2 + 1) * 2 ^ (e - p).toNat := Nat.mul_le_mul_right _ hlt
    _ = 2 ^ (m.log2 + 1 + (e - p).toNat) := (Nat.pow_add ..).symm
    _ ≤ 2 ^ (f.mbits + 1 + (f.lastExp m e - p).toNat) :=
      Nat.pow_le_pow_right Nat.two_pos (by unfold FloatFmt.lastExp; omega)
    _ = _ := Nat.pow_add ..

/-- A value above the subnormals is at least 2^mbits units of its last place. -/
theorem FloatFmt.units_lastExp_le (hn : f.lastExp m e ≠ f.qmin) :
    2 ^ f.mbits * 2 ^ (f.lastExp m e - p).toNat ≤ m * 2 ^ (e - p).toNat := by
  have hexp : f.mbits + (f.lastExp m e - p).toNat = m.log2 + (e - p).toNat := by
    unfold FloatFmt.lastExp at hn ⊢
    omega
  rw [← Nat.pow_add, hexp, Nat.pow_add]
  exact Nat.mul_le_mul_right _ (Nat.log2_self_le hm)

theorem FloatFmt.units_le : f.units m e ≤ 2 ^ (f.mbits + 1) :=
  (roundAt_bounds m _ he (Int.le_trans hq (f.qmin_le_lastExp m e))).1 (FloatFmt.le_units_lastExp hm he hq)

theorem FloatFmt.le_units (hn : f.lastExp m e ≠ f.qmin) : 2 ^ f.mbits ≤ f.units m e :=
  (roundAt_bounds m _ he (Int.le_trans hq (f.qmin_le_lastExp m e))).2 (FloatFmt.units_lastExp_le hm he hq hn)

/-- The code that a value rounds to holds the rounded units of the last place; a carry into the next step holds them too. -/
theorem FloatFmt.at_roundCode (hf : f.fits = true) (neg : Bool) (hle : f.roundCode m e ≤ f.maxFin) :
    (f.decode (f.encode neg (f.roundCode m e))).at p = signed neg (f.units m e * 2 ^ (f.lastExp m e - p).toNat) := by
  have hmin := f.qmin_le_lastExp m e
  have hk : f.lastExp m e = f.qmin + (f.lastExp m e - f.qmin).toNat := by omega
  have hnormal : (f.lastExp m e - f.qmin).toNat = 0 ∨ 2 ^ f.mbits ≤ f.units m e := by
    by_cases hn : f.lastExp m e = f.qmin
    · left; omega
    · exact .inr (FloatFmt.le_units hm he hq hn)
  unfold FloatFmt.roundCode at hle ⊢
  generalize (f.lastExp m e - f.qmin).toNat = k at *
  rcases Nat.lt_or_eq_of_le (FloatFmt.units_le hm he hq) with hlt | heq
  · rw [FloatFmt.decode_encode hf neg ⟨hlt, hnormal, hle⟩, FV.at_fin, hk]
  · have hcarry : k * 2 ^ f.mbits + 2 ^ (f.mbits + 1) = (k + 1) * 2 ^ f.mbits + 2 ^ f.mbits := by
      rw [Nat.pow_succ, Nat.add_one_mul]
      omega
    rw [heq, hcarry] at hle ⊢
    have hpow : 2 ^ f.mbits < 2 ^ (f.mbits + 1) := Nat.pow_lt_pow_right (by decide) (Nat.lt_succ_self _)
    rw [FloatFmt.decode_encode hf neg ⟨hpow, .inr (Nat.le_refl _), hle⟩, FV.at_fin, ← Nat.pow_add, ← Nat.pow_add, hk]
    congr 2
    omega

/-- A value of the format is a multiple of the last place of m × 2^e, or lies below the least value with that last place, which
m × 2^e does not. -/
theorem FloatFmt.Holds.spacing {n k : Nat} (h : f.Holds n k) (neg : Bool) :
    ((2 ^ (f.lastExp m e - p).toNat : Nat) : Int) ∣ signed neg (n * 2 ^ (f.qmin + k - p).toNat) ∨
      (signed neg (n * 2 ^ (f.qmin + k - p).toNat)).natAbs < 2 ^ f.mbits * 2 ^ (f.lastExp m e - p).toNat ∧
        2 ^ f.mbits * 2 ^ (f.lastExp m e - p).toNat ≤ m * 2 ^ (e - p).toNat := by
  have hmin := f.qmin_le_lastExp m e
  rw [← Int.natAbs_dvd_natAbs, natAbs_signed, Int.natAbs_natCast]
  by_cases hle : f.lastExp m e ≤ f.qmin + k
  · exact .inl (Nat.dvd_mul_left_of_dvd (Nat.pow_dvd_pow 2 (by omega)) n)
  · refine .inr ⟨?_, FloatFmt.units_lastExp_le hm he hq (by omega)⟩
    calc n * 2 ^ (f.qmin + k - p).toNat < 2 ^ (f.mbits + 1) * 2 ^ (f.qmin + k - p).toNat :=
          Nat.mul_lt_mul_of_pos_right h.lt (Nat.two_pow_pos _)
      _ = 2 ^ (f.mbits + 1 + (f.qmin + k - p).toNat) := (Nat.pow_add ..).symm
      _ ≤ 2 ^ (f.mbits + (f.lastExp m e - p).toNat) := Nat.pow_le_pow_right Nat.two_pos (by omega)
      _ = _ := Nat.pow_add ..

end Near

theorem FloatFmt.encode_parity {f : FloatFmt} (hf : f.fits = true) (neg : Bool) (k r : Nat) :
    f.encode neg (k * 2 ^ f.mbits + r) % 2 = r % 2 := by
  obtain ⟨hb, hw, -⟩ := FloatFmt.fits_iff.1 hf
  have even {i j : Nat} (hi : 1 ≤ i) : j * 2 ^ i % 2 = 0 :=
    Nat.mod_eq_zero_of_dvd (Nat.dvd_mul_left_of_dvd (Nat.dvd_trans (by decide : 2 ∣ 2 ^ 1) (Nat.pow_dvd_pow 2 hi)) j)
  have hsign := even (j := b2n neg) (show 1 ≤ f.width - 1 by omega)
  have hstep := even (j := k) hb
  unfold FloatFmt.encode
  omega

/-! ## The obligations -/

/-- Settles O57: a finite code holds a significand at its own last place, which rounds to itself. -/
theorem conversionExact : Obligations.ConversionExact := by
  unfold Obligations.ConversionExact
  intro f hf c sat fresh hc hfin
  have fits := fits_of_mem_floatFormats f hf
  obtain ⟨neg, m, k, holds, rfl⟩ := FloatFmt.exists_encode fits hc hfin
  rw [FloatFmt.decode_encode fits neg holds, holds.convert_eq]

/-- Settles O58: every value of the format is a multiple of the last place, among which the rounded one is nearest, or lies
below one of them that is nearer. -/
theorem roundsToNearest : Obligations.RoundsToNearest := by
  unfold Obligations.RoundsToNearest
  intro f hf neg sat fresh m e r q x hno c hc hfin
  have fits := fits_of_mem_floatFormats f hf
  by_cases hm : m = 0
  case pos =>
    subst hm
    have holds : f.Holds 0 0 := ⟨Nat.two_pow_pos _, .inl rfl, by simp⟩
    have hr : (f.decode r.1).at q = signed neg 0 := by
      have hdec := FloatFmt.decode_encode fits neg holds
      rw [Nat.zero_mul] at hdec
      rw [show r.1 = f.encode neg 0 from rfl, hdec, FV.at_fin, Nat.zero_mul]
    have hx : x = signed neg 0 := by rw [show x = _ from FV.at_fin .., Nat.zero_mul]
    rw [hr, hx]
    omega
  case neg =>
    have hle := f.roundCode_le_of_no_overflow sat fresh neg e hm hno
    have hr : r.1 = f.encode neg (f.roundCode m e) := congrArg Prod.fst (f.convert_of_le sat fresh neg e hm hle)
    obtain ⟨s, n, k, holds, rfl⟩ := FloatFmt.exists_encode fits hc hfin
    have he : q ≤ e := Int.min_le_left ..
    have hq : q ≤ f.qmin := Int.min_le_right ..
    rw [hr, FloatFmt.at_roundCode hm he hq fits neg hle, FloatFmt.decode_encode fits s holds, FloatFmt.roundCode,
      FloatFmt.encode_parity fits, FV.at_fin]
    exact nearest_signed neg (roundAt_nearest m he (Int.le_trans hq (f.qmin_le_lastExp m e))) (holds.spacing hm he hq s)

end Sys2Proof.Machine
end

section
/-! SUPPORT. Arithmetic of a thread group (02_numbers.md R66; 04_thread_groups.md R106, R109, R110): what an instruction of a group
that may issue answers, and what a result in every active thread changes and leaves. -/

namespace Sys2Proof.Machine

/-! ## An instruction of a group that may issue -/

theorem State.issue_of_issues {s : State} {g : GroupRef} {p : Nat} {gr : Group} (h : s.Issues g p gr)
    (act : Nat → Group → State) : s.issue g act = act p gr := by
  obtain ⟨hat, hcan⟩ := h
  simp only [State.issue, hat, hcan, if_true]

/-- A group that may issue is in canonical form on a canonical device. -/
theorem State.Issues.wf {s : State} {g : GroupRef} {p : Nat} {gr : Group} (h : s.Issues g p gr) (hs : s.canon = true) :
    gr.wf = true :=
  (Kept.rfl s).group (State.groupAt_facts h.1).2 hs

theorem exec_vectorArith {g : GroupRef} {op : VecOp} {d a b c p : Nat} {gr : Group} {s : State} (h : s.Issues g p gr)
    (hr : vecRegsOk op (s.kernelOf g.cluster p gr) d a b c = true) :
    exec (.vectorArith g op d a b c) s = .next (s.setGroup g.cluster p g.slot (vecRun op gr d a b c).next) :=
  congrArg Host.Outcome.next ((State.issue_of_issues h _).trans (if_pos hr))

theorem exec_scalarArith {g : GroupRef} {op : ScalarOp} {d a b p : Nat} {gr : Group} {s : State} (h : s.Issues g p gr)
    (hr : d < 64 ∧ a < 64 ∧ b < 64) :
    exec (.scalarArith g op d a b) s = .next (s.setGroup g.cluster p g.slot (scalarRun op gr d a b).next) :=
  congrArg Host.Outcome.next ((State.issue_of_issues h _).trans (if_pos hr))

/-! ## A replaced group -/

theorem State.setGroup_frame (s : State) (c p slot : Nat) (gr : Group) :
    s.setGroup c p slot gr = { s with tiles := (s.setGroup c p slot gr).tiles } := rfl

theorem State.tile_setGroup {s : State} (hs : s.canon = true) (c p slot : Nat) (gr : Group) :
    (s.setGroup c p slot gr).tile c p = { s.tile c p with groups := tabInsert (s.tile c p).groups slot gr } := by
  rw [State.setGroup, State.tile_setTile hs, if_pos rfl]

theorem State.tile_setGroup_of_ne {s : State} (hs : s.canon = true) {c p c' p' : Nat} (slot : Nat) (gr : Group) (hp : p < 16)
    (hp' : p' < 16) (hne : ¬ (c' = c ∧ p' = p)) : (s.setGroup c p slot gr).tile c' p' = s.tile c' p' := by
  rw [State.setGroup, State.tile_setTile hs, if_neg (by omega)]

/-! ## A result in every active thread -/

@[simp] theorem Group.flags_vreg (g : Group) (f : AswBits) (i r : Nat) : (g.flags f).vreg i r = g.vreg i r := rfl

/-- Results written thread by thread stand in the threads' own destination registers, and every other register is left. -/
theorem vreg_fold_results (f : Nat → F32R) {d : Nat} (hd : d < 256) (l : List Nat) (x : Group)
    (hx : x.wf = true) (i : Nat) {r : Nat} (hr : r < 256) :
    (l.foldl (fun (x : Group) t => (x.setV t d (f t).1).flags (f t).2) x).vreg i r =
      if i ∈ l ∧ r = d then (f i).1 else x.vreg i r := by
  induction l generalizing x with
  | nil => simp
  | cons t l ih =>
    have hwf : ((x.setV t d (f t).1).flags (f t).2).wf = true :=
      Group.flags_wf (P := True) _ (Group.setV_wf _ _ _ fun _ => hx) trivial
    rw [List.foldl_cons, ih _ hwf, Group.flags_vreg, Group.vreg_setV _ _ _ _ _ _ (Group.wf_iff.1 hx).1 hd hr]
    by_cases hi : i ∈ l
    · by_cases hrd : r = d <;> simp [hi, hrd]
    · by_cases hit : i = t
      · subst hit
        by_cases hrd : r = d <;> simp [hi, hrd]
      · simp [hi, hit]

/-- The destination of every active thread holds its result; every other register holds what it held. -/
theorem Group.vreg_mapF {gr : Group} (hg : gr.wf = true) {d : Nat} (hd : d < 256) (f : Group → Nat → F32R) (i : Nat) {r : Nat}
    (hr : r < 256) : (gr.mapF d f).vreg i r = if i ∈ gr.threads ∧ r = d then (f gr i).1 else gr.vreg i r :=
  vreg_fold_results (f gr) hd gr.threads gr hg i hr

/-- Results in vector registers leave the scalars, the predicates and the live threads. -/
theorem Group.mapF_frame (gr : Group) (d : Nat) (f : Group → Nat → F32R) :
    (gr.mapF d f).sregs = gr.sregs ∧ (gr.mapF d f).preds = gr.preds ∧ (gr.mapF d f).live = gr.live := by
  unfold Group.mapF Group.mapThreads
  exact List.foldlRecOn gr.threads _ (motive := fun (x : Group) => x.sregs = gr.sregs ∧ x.preds = gr.preds ∧ x.live = gr.live)
    ⟨rfl, rfl, rfl⟩ fun x hx t _ => hx

theorem Group.vreg_next (x : Group) (i r : Nat) : x.next.vreg i r = x.vreg i r := by
  rw [Group.vreg, Group.vreg, (Group.next_same x).1]

/-- The FP32 operations with the functions of their three operands. -/
def ComputesFp32 (op : VecOp) (f : W32 → W32 → W32 → F32R) : Prop :=
  (op = .fadd ∧ f = (fun x y _ => add32 x y)) ∨ (op = .fsub ∧ f = (fun x y _ => sub32 x y)) ∨
    (op = .fmul ∧ f = (fun x y _ => mul32 x y)) ∨ (op = .ffma ∧ f = fma32) ∨
    (op = .fmin ∧ f = (fun x y _ => min32 x y)) ∨ (op = .fmax ∧ f = (fun x y _ => max32 x y))

/-- An FP32 operation is its function of the operands' registers, thread by thread. -/
theorem vecRun_of_computesFp32 {op : VecOp} {f : W32 → W32 → W32 → F32R} (h : ComputesFp32 op f) (gr : Group) (d a b c : Nat) :
    vecRun op gr d a b c = gr.mapF d (fun x t => f (x.vreg t a) (x.vreg t b) (x.vreg t c)) := by
  rcases h with ⟨rfl, rfl⟩ | ⟨rfl, rfl⟩ | ⟨rfl, rfl⟩ | ⟨rfl, rfl⟩ | ⟨rfl, rfl⟩ | ⟨rfl, rfl⟩ <;> rfl

/-! ## The obligations -/

/-- Settles O16: the group may issue, and its registers are there, so the operation runs and the group goes on. -/
theorem groupArithmetic : Obligations.GroupArithmetic := by
  unfold Obligations.GroupArithmetic
  exact ⟨fun g op d a b c p gr s h hr => exec_vectorArith h hr,
    fun g op d a b p gr s h hd ha hb => exec_scalarArith h ⟨hd, ha, hb⟩⟩

/-- Settles O56: the operation writes its function's results by `mapF`, whose frame is that of the group; replacing the group has
the frame of the tile and of the device. -/
theorem vectorFrame : Obligations.VectorFrame := by
  unfold Obligations.VectorFrame
  intro g op d a b c p f gr s hs h hr hd hop
  have hg := h.wf hs
  have hexec := exec_vectorArith h hr
  rw [vecRun_of_computesFp32 hop] at hexec
  obtain ⟨-, hsregs, hpreds, hlive⟩ := Group.next_same (gr.mapF d fun x t => f (x.vreg t a) (x.vreg t b) (x.vreg t c))
  obtain ⟨fsregs, fpreds, flive⟩ := Group.mapF_frame gr d fun x t => f (x.vreg t a) (x.vreg t b) (x.vreg t c)
  refine ⟨_, _, hexec, State.setGroup_frame .., State.tile_setGroup hs ..,
    fun c' p' hp' hne => State.tile_setGroup_of_ne hs _ _ (State.groupAt_facts h.1).1 hp' hne, fun i hi => ?result,
    fun i r hr' hkeep => ?others, hsregs.trans fsregs, hpreds.trans fpreds, hlive.trans flive⟩
  case result => rw [Group.vreg_next, Group.vreg_mapF hg hd _ i hd, if_pos ⟨hi, rfl⟩]
  case others =>
    have hout : ¬ (i ∈ gr.threads ∧ r = d) := fun ⟨hi, hrd⟩ => hkeep.elim (· hrd) (· hi)
    rw [Group.vreg_next, Group.vreg_mapF hg hd _ i hr', if_neg hout]

end Sys2Proof.Machine
end

section
/-! SUPPORT. A tile's matrix array and local store (03_tiles.md R83 to R99; 04_thread_groups.md R111, R116, R119, R125 to R127): one
law per instruction of a group that may issue, whose branches the obligations take. -/

namespace Sys2Proof.Machine

/-! ## Accesses of the local store -/

/-- What the access to elements of 2^n bytes at V[a] comes to once its registers are there (R86, R111): a bad address faults, a
guarded range in the way stalls the group, else the access is done. -/
def State.lsAccess (s : State) (g : GroupRef) (p : Nat) (gr : Group) (n a : Nat) (stalls : Bool) (done : State) : State :=
  if ¬ lsAddrsOk (s.kernelOf g.cluster p gr) gr n a then s.groupFault g p gr KF.BAD_ADDRESS
  else if stalls then s
  else done

section Access

variable {s : State} {g : GroupRef} {p : Nat} {gr : Group} {n a : Nat}

theorem State.lsAccess_badAddress (h : lsAddrsOk (s.kernelOf g.cluster p gr) gr n a = false) (stalls : Bool) (done : State) :
    s.lsAccess g p gr n a stalls done = s.groupFault g p gr KF.BAD_ADDRESS :=
  if_pos (Bool.eq_false_iff.1 h)

theorem State.lsAccess_done {stalls : Bool} (h : lsAddrsOk (s.kernelOf g.cluster p gr) gr n a = true) (hs : stalls = false)
    (done : State) : s.lsAccess g p gr n a stalls done = done :=
  (if_neg (not_not_intro h)).trans (if_neg (Bool.eq_false_iff.1 hs))

variable (h : s.Issues g p gr)
include h

theorem exec_lsLoad {d : Nat} (hd : (s.kernelOf g.cluster p gr).elemOk n d = true)
    (ha : (s.kernelOf g.cluster p gr).vOk a = true) :
    exec (.lsLoad g n d a) s = .next (s.lsAccess g p gr n a ((s.tile g.cluster p).loadStalls (lsRanges gr n a))
      (s.stepOn g p (gr.mapThreads fun x i =>
        x.setElem n i d (leNat (getBytes (s.tile g.cluster p).ls (gr.vreg i a).toNat (2 ^ n)))))) :=
  congrArg Host.Outcome.next ((State.issue_of_issues h _).trans (if_neg (by simp [hd, ha])))

theorem exec_lsStore {src : Nat} (hsrc : (s.kernelOf g.cluster p gr).elemOk n src = true)
    (ha : (s.kernelOf g.cluster p gr).vOk a = true) :
    exec (.lsStore g n a src) s = .next (s.lsAccess g p gr n a ((s.tile g.cluster p).storeStalls (lsRanges gr n a))
      (s.stepLs g p gr (gr.threads.foldl (fun m i =>
        putBytes m (gr.vreg i a).toNat (leBytes (2 ^ n) (gr.elem n i src))) (s.tile g.cluster p).ls))) :=
  congrArg Host.Outcome.next ((State.issue_of_issues h _).trans (if_neg (by simp [hsrc, ha])))

/-- Only a compare-and-swap needs the register to compare with. -/
theorem exec_lsAtomic {op : AtomicOp} {wide : Bool} {d src cmp : Nat} (hn : n = if wide then 3 else 2)
    (hd : (s.kernelOf g.cluster p gr).elemOk n d = true) (ha : (s.kernelOf g.cluster p gr).vOk a = true)
    (hsrc : (s.kernelOf g.cluster p gr).elemOk n src = true)
    (hcmp : op = .cas → (s.kernelOf g.cluster p gr).elemOk n cmp = true) :
    let r := gr.threads.foldl (atomicStep op n d a src cmp gr) ((s.tile g.cluster p).ls, gr)
    exec (.lsAtomic g op wide d a src cmp) s =
      .next (s.lsAccess g p gr n a ((s.tile g.cluster p).storeStalls (lsRanges gr n a)) (s.stepLs g p r.2 r.1)) := by
  subst hn
  have hregs : op ≠ .cas ∨ (s.kernelOf g.cluster p gr).elemOk (if wide then 3 else 2) cmp = true :=
    Decidable.not_or_of_imp hcmp
  exact congrArg Host.Outcome.next ((State.issue_of_issues h _).trans (if_neg (by simp [hd, ha, hsrc, hregs])))

theorem exec_lockAcq {q : Nat} (ha : (s.kernelOf g.cluster p gr).vOk a = true) (hq : q < 8) :
    let t := s.tile g.cluster p
    let r := gr.threads.foldl (lockStep g.slot a q gr) (t.ls, t.locks, gr)
    exec (.lockAcq g a q) s = .next (s.lsAccess g p gr 2 a (t.storeStalls (lsRanges gr 2 a))
      ((s.setTile g.cluster p { t with ls := r.1, locks := r.2.1 }).stepOn g p r.2.2)) :=
  congrArg Host.Outcome.next ((State.issue_of_issues h _).trans (if_neg (by simp [ha, hq])))

/-- A release by threads of which one does not hold its lock faults as a whole (R127). -/
theorem exec_lockRel (ha : (s.kernelOf g.cluster p gr).vOk a = true) :
    let t := s.tile g.cluster p
    exec (.lockRel g a) s = .next (s.lsAccess g p gr 2 a (t.storeStalls (lsRanges gr 2 a))
      ((gr.threads.foldl (unlockStep g.slot a gr) (some (t.ls, t.locks))).elim (s.groupFault g p gr KF.LOCK_NOT_HELD)
        fun r => (s.setTile g.cluster p { t with ls := r.1, locks := r.2 }).stepOn g p gr)) := by
  refine congrArg Host.Outcome.next ((State.issue_of_issues h _).trans ((if_neg (not_not_intro ha)).trans ?_))
  dsimp only [State.lsAccess]
  cases gr.threads.foldl (unlockStep g.slot a gr) (some ((s.tile g.cluster p).ls, (s.tile g.cluster p).locks)) <;> rfl

end Access

/-! ## Matrix instructions at issue -/

section IssueMat

variable {s : State} {g : GroupRef} {p : Nat} {gr : Group} {ds : List (List W64)} {packed : Bool} {sOff sScale : Nat}

theorem State.issueMat_diverged (hw : gr.whole = false) :
    s.issueMat g p gr ds packed sOff sScale = s.groupFault g p gr KF.DIVERGED_MATRIX :=
  if_pos (Bool.eq_false_iff.1 hw)

theorem State.issueMat_noRoom (hw : gr.whole = true)
    (hfull : 4 ≤ (s.tile g.cluster p).outstanding g.slot ∨ 16 ≤ (s.tile g.cluster p).queue.length) :
    s.issueMat g p gr ds packed sOff sScale = s :=
  (if_neg (not_not_intro hw)).trans (if_pos hfull)

/-- A matrix instruction that passes every check is queued (R83, R85, R91). -/
theorem State.issueMat_queued (hw : gr.whole = true) (hmine : (s.tile g.cluster p).outstanding g.slot < 4)
    (hroom : (s.tile g.cluster p).queue.length < 16) :
    let sa : W32 := (gr.sreg sScale).setWidth 32
    let sb : W32 := ((gr.sreg sScale) >>> 32).setWidth 32
    let off := (gr.sreg sOff).toNat
    (ds.map matDesc).all (fun d => scalesOk d sa sb) = true → (packed = true → packAgrees (ds.map matDesc) = true) →
    matRangesOk (s.kernelOf g.cluster p gr) gr.priv off (ds.map matDesc) = true →
    s.issueMat g p gr ds packed sOff sScale =
      (s.setTile g.cluster p ((s.tile g.cluster p).enqueue g.slot gr.launch ds packed off sa sb)).stepOn g p gr := by
  intro sa sb off hscales hagree hranges
  have room : ¬ (4 ≤ (s.tile g.cluster p).outstanding g.slot ∨ 16 ≤ (s.tile g.cluster p).queue.length) := by omega
  have agree : ¬ (packed && !packAgrees (ds.map matDesc)) = true := by
    cases packed with
    | false => exact Bool.false_ne_true
    | true => simp [hagree rfl]
  exact (if_neg (not_not_intro hw)).trans <| (if_neg room).trans <| (if_neg (not_not_intro hscales)).trans <|
    (if_neg agree).trans (if_neg (not_not_intro hranges))

variable {desc : Nat} {l : Launch} (h : s.Issues g p gr) (hl : s.launchOf g.cluster p gr = some l)
include h hl

/-- An MMA whose descriptor is of mode packed is issued packed (R91). -/
theorem exec_mma (hds : s.matSlots g.cluster l desc 1 = some ds) :
    exec (.mma g desc sOff sScale) s =
      .next (s.issueMat g p gr ds (ds.any fun w => (matDesc w).mode = 1) sOff sScale) := by
  refine congrArg Host.Outcome.next ((State.issue_of_issues h _).trans ?_)
  simp only [hl, Option.bind_some, hds]

theorem exec_mmap {count : Nat} (h1 : 1 ≤ count) (h16 : count ≤ 16) (hds : s.matSlots g.cluster l desc count = some ds) :
    exec (.mmap g desc count sOff sScale) s = .next (s.issueMat g p gr ds true sOff sScale) := by
  have hcount : ¬ (count < 1 ∨ 16 < count) := by omega
  refine congrArg Host.Outcome.next ((State.issue_of_issues h _).trans ?_)
  simp only [hcount, if_false, hl, Option.bind_some, hds]

end IssueMat

theorem exec_mwait {s : State} {g : GroupRef} {p n : Nat} {gr : Group} (h : s.Issues g p gr) :
    exec (.mwait g n) s = .next (if 3 < n then s
      else if ¬ gr.whole then s.groupFault g p gr KF.DIVERGED_MATRIX
      else if (s.tile g.cluster p).outstanding g.slot ≤ n then s.stepOn g p gr else s) :=
  congrArg Host.Outcome.next (State.issue_of_issues h _)

/-! ## The matrix array in service -/

/-- The end of a pass acts on a sub-problem that is not done, of the operation that the array runs (R89). -/
theorem exec_matrixPassEnd {c t sub p at' : Nat} {m : MatOp} {r : SubRun} {d : MatDesc} {s : State} (e : PassErrors)
    (hp : s.phys? c t = some p) (hrun : (s.tile c p).running? = some (at', m)) (hr : m.subs[sub]? = some r)
    (hd : m.mats[sub]? = some d) (hdone : r.done = false) :
    exec (.matrixPassEnd c t sub e) s = .next (s.passEnd c p at' sub m r d e.mismatch e.mergeDiffers) := by
  change execMatrixPassEnd c t sub e s = _
  simp only [execMatrixPassEnd, hp, hrun, hr, hd, hdone, Bool.false_eq_true, if_false]

theorem Tile.completeMat_head {t : Tile} {m : MatOp} {rest : List MatOp} (hq : t.queue = m :: rest)
    (hdone : m.subs.all (fun r => r.done) = true) :
    t.completeMat = (({ t with ls := (m.drain t.ls).1, queue := rest }).addFlags m.slot m.launch (m.drain t.ls).2).sweepEnded := by
  simp only [Tile.completeMat, hq, hdone, if_true]

theorem exec_matrixInstructionComplete {c t p : Nat} {s : State} (hp : s.phys? c t = some p) :
    exec (.matrixInstructionComplete c t) s = .next (s.putTile c p (s.tile c p).completeMat) := by
  change execMatrixInstructionComplete c t s = _
  simp only [execMatrixInstructionComplete, hp]

/-! ## Other faults of a group -/

section Faults

variable {s : State} {g : GroupRef} {p : Nat} {gr : Group} (h : s.Issues g p gr)
include h

theorem exec_kvaddr_oddPair {sd ss : Nat} (hd : sd < 64) (hs : ss < 64) (hodd : sd % 2 = 1) :
    exec (.kvaddr g sd ss) s = .next (s.groupFault g p gr KF.ILLEGAL_INSTRUCTION) :=
  congrArg Host.Outcome.next ((State.issue_of_issues h _).trans ((if_neg (by omega)).trans (if_pos hodd)))

theorem exec_kvaddr_noPage {sd ss : Nat} (hd : sd < 64) (hs : ss < 64) (heven : sd % 2 = 0)
    (hkv : s.kvCheck (s.groupHandle g.cluster p gr) (gr.sreg ss) = none) :
    exec (.kvaddr g sd ss) s = .next (s.groupFault g p gr KF.BAD_ADDRESS) := by
  have regs : ¬ (64 ≤ sd ∨ 64 ≤ ss) := by omega
  have even : ¬ sd % 2 = 1 := by omega
  refine congrArg Host.Outcome.next ((State.issue_of_issues h _).trans ((if_neg regs).trans ((if_neg even).trans ?_)))
  simp only [hkv]

theorem exec_kvput_noPage {ss sa : Nat} (hs : ss < 64) (ha : sa < 64)
    (hkv : s.kvCheck (s.groupHandle g.cluster p gr) (gr.sreg ss) = none) :
    exec (.kvput g ss sa) s = .next (s.groupFault g p gr KF.BAD_ADDRESS) := by
  have regs : ¬ (64 ≤ ss ∨ 64 ≤ sa) := by omega
  refine congrArg Host.Outcome.next ((State.issue_of_issues h _).trans ((if_neg regs).trans ?_))
  simp only [hkv]

theorem exec_rngInstruction_badRange {op sa sb : Nat} (hop : op ≤ 4) (ha : sa < 64) (hb : sb < 64)
    (hr : s.rangeOk op (gr.sreg sa).toNat (gr.sreg sb).toNat = false) :
    exec (.rngInstruction g op sa sb) s = .next (s.groupFault g p gr KF.BAD_ADDRESS) :=
  congrArg Host.Outcome.next ((State.issue_of_issues h _).trans ((if_neg (by omega)).trans (if_pos (Bool.eq_false_iff.1 hr))))

theorem exec_rowSmaxFin_reserved (sd sa sb : Nat) :
    exec (.rowSmaxFin g sd sa sb .reserved) s = .next (s.groupFault g p gr KF.ILLEGAL_INSTRUCTION) :=
  congrArg Host.Outcome.next (State.issue_of_issues h _)

end Faults

/-! ## The obligations -/

/-- Settles O17: registers and addresses are good and no guarded range is in the way, so each access is done. -/
theorem localStore : Obligations.LocalStore := by
  unfold Obligations.LocalStore
  refine ⟨fun g n d a p gr s h hd ha hok hfree => ?load, fun g n a src p gr s h hsrc ha hok hfree => ?store,
    fun g op wide d a src cmp p gr s h => ?atomic, fun g a q p gr s h ha hq hok hfree => ?acquire,
    fun g a p gr r s h ha hok hfree => ?release⟩
  case load => rw [exec_lsLoad h hd ha, State.lsAccess_done hok hfree, State.stepOn]
  case store => rw [exec_lsStore h hsrc ha, State.lsAccess_done hok hfree]
  case atomic =>
    intro e hd ha hsrc hcmp hok hfree
    exact (exec_lsAtomic h rfl hd ha hsrc hcmp).trans (congrArg _ (State.lsAccess_done hok hfree _))
  case acquire => exact (exec_lockAcq h ha hq).trans (congrArg _ (State.lsAccess_done hok hfree _))
  case release =>
    intro t hheld
    rw [exec_lockRel h ha, State.lsAccess_done hok hfree, hheld, Option.elim_some]

/-- Settles O14: at issue every check passes, in the order of the model's choice (assumption 68); what counts as a mismatch at the
end of a pass is its choice too (assumption 69). -/
theorem matrixOperations : Obligations.MatrixOperations := by
  unfold Obligations.MatrixOperations
  refine ⟨fun g desc sOff sScale p gr l ds s h hl hds hw hmine hroom => ?mma,
    fun g desc count sOff sScale p gr l ds s h h1 h16 hl hds hw hmine hroom => ?mmap,
    fun g n p gr s h hn hw hle => ?mwait,
    fun c t sub p at' mismatch mergeDiffers m r d s hp hrun hr hd hdone => ⟨fun good => ?good, fun bad => ?bad⟩,
    fun c t p m rest s hp hq hdone => ?complete,
    fun c t s hatt hup => congrArg Host.Outcome.next (if_pos ⟨hatt, hup⟩)⟩
  case mma =>
    intro packed sa sb off hscales hagree hranges
    rw [exec_mma h hl hds, State.issueMat_queued hw hmine hroom hscales hagree hranges]
  case mmap =>
    intro sa sb off hscales hagree hranges
    rw [exec_mmap h hl h1 h16 hds, State.issueMat_queued hw hmine hroom hscales (fun _ => hagree) hranges]
  case mwait => rw [exec_mwait h, if_neg (Nat.not_lt.2 hn), if_neg (not_not_intro hw), if_pos hle]
  case good =>
    exact (exec_matrixPassEnd _ hp hrun hr hd hdone).trans (congrArg _ (if_neg (Bool.eq_false_iff.1 good)))
  case bad => exact (exec_matrixPassEnd _ hp hrun hr hd hdone).trans (congrArg _ (if_pos bad))
  case complete => rw [exec_matrixInstructionComplete hp, Tile.completeMat_head hq hdone]

/-- Settles O15: each instruction meets its first check that fails. The fault of a KVADDR whose block is not there and the
reserved code as an operand of ROW_SMAX_FIN are the model's choice (assumptions 54 and 131). -/
theorem groupFaultsAndWaits : Obligations.GroupFaultsAndWaits := by
  unfold Obligations.GroupFaultsAndWaits
  refine ⟨fun g n p gr s h hn hw => ?mwaitDiverged, fun g n p gr s h hw hlt => ?mwaitWaits,
    fun g desc count sOff sScale p gr l ds s h h1 h16 hl hds => ⟨fun hw => ?mmapDiverged, fun hw hfull => ?mmapWaits⟩,
    fun g n d a p gr s h hd ha hbad => ⟨?load, ?store⟩, fun g a p gr s h ha hok hfree hheld => ?unheld,
    fun g sd ss p gr s h => exec_kvaddr_oddPair h,
    fun g sd ss p gr s h hd hs hkv => ⟨fun heven => exec_kvaddr_noPage h hd hs heven hkv, exec_kvput_noPage h hs hd hkv⟩,
    fun g op sa sb p gr s h => exec_rngInstruction_badRange h, fun g sd sa sb p gr s h => exec_rowSmaxFin_reserved h sd sa sb⟩
  case mwaitDiverged => rw [exec_mwait h, if_neg (Nat.not_lt.2 hn), if_pos (Bool.eq_false_iff.1 hw)]
  case mwaitWaits => rw [exec_mwait h, if_neg (not_not_intro hw), if_neg (Nat.not_le.2 hlt), ite_self]
  case mmapDiverged => rw [exec_mmap h hl h1 h16 hds, State.issueMat_diverged hw]
  case mmapWaits => rw [exec_mmap h hl h1 h16 hds, State.issueMat_noRoom hw hfull]
  case load => rw [exec_lsLoad h hd ha, State.lsAccess_badAddress hbad]
  case store => rw [exec_lsStore h hd ha, State.lsAccess_badAddress hbad]
  case unheld => rw [exec_lockRel h ha, State.lsAccess_done hok hfree, hheld, Option.elim_none]

end Sys2Proof.Machine
end

section
/-! SUPPORT. Thread groups (04_thread_groups.md R107, R108, R111 to R113, R115 to R133): which bytes of the local store an access
changes; one law per command on global memory, control, admission and errors, whose branches the obligations take. -/

namespace Sys2Proof.Machine

/-! ## Bytes that a write of the local store leaves -/

/-- A byte address outside the n bytes at a. -/
def OutsideRange (a n x : Nat) : Prop := x < a ∨ a + n ≤ x

/-- The later memory is in canonical form if the earlier one is, and then holds the same bytes wherever `out` says. -/
def KeepsBytes (out : Nat → Prop) (m m' : Tab Byte) : Prop :=
  tabWf 0#8 m = true → tabWf 0#8 m' = true ∧ ∀ x, out x → tabGet 0#8 m' x = tabGet 0#8 m x

theorem KeepsBytes.refl (out : Nat → Prop) (m : Tab Byte) : KeepsBytes out m m := fun h => ⟨h, fun _ _ => rfl⟩

theorem putBytes_keepsBytes (m : Tab Byte) (a : Nat) {n : Nat} {bs : List Byte} (hn : bs.length = n) :
    KeepsBytes (OutsideRange a n) m (putBytes m a bs) := fun hm =>
  ⟨putBytes_wf a bs hm, fun x hx => by
    subst hn
    rw [get_putBytes hm, if_neg (by unfold OutsideRange at hx; omega)]⟩

/-- Where each thread keeps the bytes outside its own range, all together keep those outside every range. -/
theorem KeepsBytes.foldl {β : Type} {ls : β → Tab Byte} {step : β → Nat → β} {addr : Nat → Nat} {n : Nat}
    (hstep : ∀ acc i, KeepsBytes (OutsideRange (addr i) n) (ls acc) (ls (step acc i))) (l : List Nat) (acc : β) :
    KeepsBytes (fun x => ∀ i ∈ l, OutsideRange (addr i) n x) (ls acc) (ls (l.foldl step acc)) := by
  induction l generalizing acc with
  | nil => exact .refl _ _
  | cons i l ih =>
    intro hm
    obtain ⟨hm1, hkeep1⟩ := hstep acc i hm
    obtain ⟨hm2, hkeep2⟩ := ih (step acc i) hm1
    exact ⟨hm2, fun x hx => (hkeep2 x fun j hj => hx j (List.mem_cons_of_mem _ hj)).trans (hkeep1 x (hx i List.mem_cons_self))⟩

theorem storeFold_keepsBytes {addr : Nat → Nat} {bytes : Nat → List Byte} {n : Nat} (hlen : ∀ i, (bytes i).length = n)
    (l : List Nat) (m : Tab Byte) :
    KeepsBytes (fun x => ∀ i ∈ l, OutsideRange (addr i) n x) m (l.foldl (fun m i => putBytes m (addr i) (bytes i)) m) :=
  KeepsBytes.foldl (ls := id) (fun m i => putBytes_keepsBytes m (addr i) (hlen i)) l m

theorem atomicStep_keepsBytes (op : AtomicOp) (e d a src cmp : Nat) (gr : Group) (acc : Tab Byte × Group) (i : Nat) :
    KeepsBytes (OutsideRange (gr.vreg i a).toNat (2 ^ e)) acc.1 (atomicStep op e d a src cmp gr acc i).1 :=
  putBytes_keepsBytes _ _ (leBytes_len _ _)

theorem atomicFold_keepsBytes (op : AtomicOp) (e d a src cmp : Nat) (gr : Group) (l : List Nat) (m : Tab Byte) (x : Group) :
    KeepsBytes (fun x => ∀ i ∈ l, OutsideRange (gr.vreg i a).toNat (2 ^ e) x) m
      (l.foldl (atomicStep op e d a src cmp gr) (m, x)).1 :=
  KeepsBytes.foldl (ls := Prod.fst) (atomicStep_keepsBytes op e d a src cmp gr) l (m, x)

/-- An acquire writes its tag where the lock is free and a lock is left, else nothing. -/
theorem lockStep_keepsBytes (slot a q : Nat) (gr : Group) (acc : Tab Byte × List Lock × Group) (i : Nat) :
    KeepsBytes (OutsideRange (gr.vreg i a).toNat 4) acc.1 (lockStep slot a q gr acc i).1 := by
  simp only [lockStep]
  split
  · exact putBytes_keepsBytes _ _ (leBytes_len _ _)
  · exact .refl _ _

theorem lockFold_keepsBytes (slot a q : Nat) (gr : Group) (l : List Nat) (m : Tab Byte) (locks : List Lock) (x : Group) :
    KeepsBytes (fun x => ∀ i ∈ l, OutsideRange (gr.vreg i a).toNat 4 x) m (l.foldl (lockStep slot a q gr) (m, locks, x)).1 :=
  KeepsBytes.foldl (ls := Prod.fst) (lockStep_keepsBytes slot a q gr) l (m, locks, x)

theorem getBytes_congr {m m' : Tab Byte} {a n : Nat} (h : ∀ x, a ≤ x → x < a + n → tabGet 0#8 m' x = tabGet 0#8 m x) :
    getBytes m' a n = getBytes m a n :=
  List.map_congr_left fun _ hi => h _ (Nat.le_add_right _ _) (Nat.add_lt_add_left (List.mem_range.1 hi) a)

theorem getBytes_putBytes {m : Tab Byte} (hm : tabWf 0#8 m = true) (a : Nat) {n : Nat} {bs : List Byte} (hn : bs.length = n) :
    getBytes (putBytes m a bs) a n = bs := by
  subst hn
  refine List.ext_getElem (by simp [getBytes]) fun i _ hi => ?_
  simp [getBytes, get_putBytes hm, hi]

/-- The bytes that a thread stores stand where no later thread writes over them. -/
theorem getBytes_storeFold {addr : Nat → Nat} {bytes : Nat → List Byte} {n : Nat} (hlen : ∀ i, (bytes i).length = n)
    {l : List Nat} (hl : l.Pairwise (· < ·)) {m : Tab Byte} (hm : tabWf 0#8 m = true) {i : Nat} (hi : i ∈ l)
    (hfree : ∀ j ∈ l, i < j → addr j + n ≤ addr i ∨ addr i + n ≤ addr j) :
    getBytes (l.foldl (fun m i => putBytes m (addr i) (bytes i)) m) (addr i) n = bytes i := by
  induction l generalizing m with
  | nil => exact absurd hi List.not_mem_nil
  | cons t l ih =>
    obtain ⟨hlater, hl⟩ := List.pairwise_cons.1 hl
    have hm1 := putBytes_wf (addr t) (bytes t) hm
    rcases List.mem_cons.1 hi with rfl | hi
    · obtain ⟨-, hkeep⟩ := storeFold_keepsBytes (addr := addr) hlen l _ hm1
      refine (getBytes_congr fun x hlo hhi => hkeep x fun j hj => ?_).trans (getBytes_putBytes hm _ (hlen i))
      have := hfree j (List.mem_cons_of_mem _ hj) (hlater j hj)
      unfold OutsideRange
      omega
    · exact ih hl hm1 hi fun j hj => hfree j (List.mem_cons_of_mem _ hj)

theorem Group.threads_ascending (gr : Group) : gr.threads.Pairwise (· < ·) := List.pairwise_lt_range.filter _

/-! ## The device after an access of the local store -/

/-- The state in which an access has put new bytes and locks on the group's tile, and the group goes on. -/
def State.afterAccess (s : State) (g : GroupRef) (p : Nat) (ls : Tab Byte) (locks : List Lock) (gr : Group) : State :=
  (s.setTile g.cluster p { s.tile g.cluster p with ls := ls, locks := locks }).stepOn g p gr

theorem State.stepLs_eq_afterAccess (s : State) (g : GroupRef) (p : Nat) (gr : Group) (ls : Tab Byte) :
    s.stepLs g p gr ls = s.afterAccess g p ls (s.tile g.cluster p).locks gr := rfl

section Store

variable {s : State} (hs : s.canon = true) {ls : Tab Byte} (hls : tabWf 0#8 ls = true) (g : GroupRef) (locks : List Lock)
include hs hls

theorem State.canon_setTile_access (c p : Nat) :
    (s.setTile c p { s.tile c p with ls := ls, locks := locks }).canon = true :=
  (State.setTile_kept s c p _ (Tile.updLs_wf (fun _ => hls) (Kept.tile (.rfl s))) (.rfl s)).canon hs

theorem State.ls_afterAccess (p : Nat) (gr : Group) : ((s.afterAccess g p ls locks gr).tile g.cluster p).ls = ls := by
  rw [State.afterAccess, State.stepOn, State.tile_setGroup (State.canon_setTile_access hs hls locks _ _), State.tile_setTile hs,
    if_pos rfl]

theorem State.tile_afterAccess_of_ne (gr : Group) {p c' p' : Nat} (hp : p < 16) (hp' : p' < 16)
    (hne : ¬ (c' = g.cluster ∧ p' = p)) : (s.afterAccess g p ls locks gr).tile c' p' = s.tile c' p' := by
  rw [State.afterAccess, State.stepOn, State.tile_setGroup_of_ne (State.canon_setTile_access hs hls locks _ _) _ _ hp hp' hne,
    State.tile_setTile hs, if_neg (by omega)]

end Store

/-- What an access leaves: everything but the tiles, the other tiles, and on its own tile the bytes where `out` says. -/
def State.KeepsOutside (s : State) (c p : Nat) (out : Nat → Prop) (t : State) : Prop :=
  t = { s with tiles := t.tiles } ∧
    (∀ c' p', p' < 16 → ¬(c' = c ∧ p' = p) → t.tile c' p' = s.tile c' p') ∧
    (∀ x, out x → tabGet 0#8 (t.tile c p).ls x = tabGet 0#8 (s.tile c p).ls x)

theorem State.tile_ls_wf {s : State} (hs : s.canon = true) (c p : Nat) : tabWf 0#8 (s.tile c p).ls = true :=
  Tile.ls_wf (Kept.tile (.rfl s)) hs

/-- An access keeps what its new bytes keep. -/
theorem State.afterAccess_keepsOutside {s : State} (hs : s.canon = true) {g : GroupRef} {p : Nat} (hp : p < 16) {ls : Tab Byte}
    {out : Nat → Prop} (hls : KeepsBytes out (s.tile g.cluster p).ls ls) (locks : List Lock) (gr : Group) :
    s.KeepsOutside g.cluster p out (s.afterAccess g p ls locks gr) := by
  obtain ⟨hwf, hkeep⟩ := hls (State.tile_ls_wf hs _ _)
  refine ⟨rfl, fun c' p' hp' hne => State.tile_afterAccess_of_ne hs hwf g locks gr hp hp' hne, fun x hx => ?_⟩
  rw [State.ls_afterAccess hs hwf, hkeep x hx]

/-! ## Global memory (R117, R118, R120, R129) -/

/-- What a store or a reduction in global memory of elements of 2^n bytes at V[a] comes to once its registers are there: a bad
address faults, else the access is done. -/
def State.globalWrite (s : State) (g : GroupRef) (p : Nat) (gr : Group) (n a : Nat) (done : State) : State :=
  if ¬ s.gAddrsOk gr (2 ^ n) a true then s.groupFault g p gr KF.BAD_ADDRESS else done

theorem State.globalWrite_done {s : State} {g : GroupRef} {p n a : Nat} {gr : Group} (h : s.gAddrsOk gr (2 ^ n) a true = true)
    (done : State) : s.globalWrite g p gr n a done = done :=
  if_neg (not_not_intro h)

section Place

variable {s : State} {g : GroupRef} {p : Nat} {gr : Group} {l : Launch} {ops : List CommitOp}
  (hl : s.launchOf g.cluster p gr = some l)
include hl

/-- What is committed for a block without a queue entry, off the belt, is discarded (assumption 130). -/
theorem State.placeCommit_discarded (he : s.entryOf l.handle = none) (hb : s.beltStage g.cluster = false) :
    s.placeCommit g p gr ops = s.stepOn g p gr := by
  simp [State.placeCommit, hl, he, hb]

/-- Entries that the block and the buffer have room for are placed (R100). -/
theorem State.placeCommit_placed (he : (s.entryOf l.handle).isSome = true ∨ s.beltStage g.cluster = true)
    (hblock : (s.tile g.cluster p).commitOf l.handle + ops.length ≤ 1024)
    (hroom : (s.tile g.cluster p).commit.length + ops.length ≤ 1024) :
    s.placeCommit g p gr ops =
      ((s.numbered ops).1.setTile g.cluster p { s.tile g.cluster p with
        commit := (s.tile g.cluster p).commit ++ (s.numbered ops).2.map (fun o => ⟨l.num, g.slot, l.handle, o⟩) }).stepOn
        g p gr := by
  have hlive : ¬ ((s.entryOf l.handle).isNone = true ∧ ¬ s.beltStage g.cluster = true) := by
    rintro ⟨hnone, hbelt⟩
    exact he.elim (fun hsome => by simp [Option.isNone_iff_eq_none.1 hnone] at hsome) hbelt
  simp only [State.placeCommit, hl]
  rw [if_neg hlive, if_neg (Nat.not_lt.2 hblock), if_neg (Nat.not_lt.2 hroom)]

end Place

/-- A fold whose steps leave the state folds the group alone. -/
theorem foldl_of_keeps_fst {f : State × Group → Nat → State × Group} {k : Group → Nat → Group} {s : State} {l : List Nat}
    {gr : Group} (h : ∀ t ∈ l, ∀ x, f (s, x) t = (s, k x t)) : l.foldl f (s, gr) = (s, l.foldl k gr) := by
  induction l generalizing gr with
  | nil => rfl
  | cons t l ih =>
    rw [List.foldl_cons, h t List.mem_cons_self, ih fun t' ht' => h t' (List.mem_cons_of_mem _ ht'), List.foldl_cons]

section Global

variable {s : State} {g : GroupRef} {p : Nat} {gr : Group} (h : s.Issues g p gr)
include h

theorem exec_globalLoad (n d a : Nat) (evict : List Nat) :
    exec (.globalLoad g n d a evict) s = .next (s.issueLoad g p gr n d a false evict) :=
  congrArg Host.Outcome.next (State.issue_of_issues h _)

theorem exec_ldNc (n d a : Nat) : exec (.ldNc g n d a) s = .next (s.issueLoad g p gr n d a true []) :=
  congrArg Host.Outcome.next (State.issue_of_issues h _)

theorem exec_globalStore {n a src : Nat} {l : Launch} (hsrc : (s.kernelOf g.cluster p gr).elemOk n src = true)
    (ha : (s.kernelOf g.cluster p gr).pairOk a = true) (hl : s.launchOf g.cluster p gr = some l) :
    let els := gr.storeEls n a src
    let secs := (els.map (fun e => e.1 / 32)).eraseDups
    let r := s.sendStores g.cluster (s.classAt g.cluster l.handle) els (groupSectors (g.ltile = 0) secs)
    let t := r.1.tile g.cluster p
    exec (.globalStore g n a src) s = .next (s.globalWrite g p gr n a
      ((r.1.setTile g.cluster p { t.noFill (fun x => secs.contains x) with l1 := storeL1 t.l1 els }).stepOn g p
        { gr with stores := gr.stores ++ r.2 })) := by
  refine congrArg Host.Outcome.next ((State.issue_of_issues h _).trans ((if_neg (by simp [hsrc, ha])).trans ?_))
  simp only [hl]
  rfl

theorem exec_globalReduction {op : RedOp} {n a src : Nat} {l : Launch} (hn : n = if redSize op.code = 8 then 3 else 2)
    (hsrc : (s.kernelOf g.cluster p gr).elemOk n src = true) (ha : (s.kernelOf g.cluster p gr).pairOk a = true)
    (hop : op.code % 16 ≤ 6) (hl : s.launchOf g.cluster p gr = some l) :
    exec (.globalReduction g op a src) s = .next (s.globalWrite g p gr n a
      (s.placeCommit g p gr ((reduceRounds (gr.storeEls n a src) []).flatMap
        (roundReds (g.ltile = 0) g.cluster (s.classAt g.cluster l.handle) op.code)))) := by
  subst hn
  refine congrArg Host.Outcome.next ((State.issue_of_issues h _).trans ((if_neg (by simp [hsrc, ha, hop])).trans ?_))
  simp only [hl]
  rfl

/-- Where every thread's constant lies inside the segment, no open value is drawn (R129). -/
theorem exec_constantLoad {n d a : Nat} {l : Launch} {pr : Program} (hd : (s.kernelOf g.cluster p gr).elemOk n d = true)
    (ha : (s.kernelOf g.cluster p gr).vOk a = true) (haligned : ∀ t ∈ gr.threads, (gr.vreg t a).toNat % 2 ^ n = 0)
    (hl : s.launchOf g.cluster p gr = some l) (hpr : (s.cluster g.cluster).prog? l.gen = some pr)
    (hin : ∀ t ∈ gr.threads, (s.kernelOf g.cluster p gr).constBase * 256 + (gr.vreg t a).toNat + 2 ^ n ≤ pr.constBytes) :
    exec (.constantLoad g n d a) s = .next (s.stepOn g p (gr.mapThreads fun x t =>
      x.setElem n t d (leNat (getBytes pr.consts
        ((s.kernelOf g.cluster p gr).constBase * 256 + (gr.vreg t a).toNat) (2 ^ n))))) := by
  have hall : gr.threads.all (fun t => decide ((gr.vreg t a).toNat % 2 ^ n = 0)) = true := by simpa using haligned
  refine congrArg Host.Outcome.next ((State.issue_of_issues h _).trans ((if_neg (by simp [hd, ha])).trans
    ((if_neg (not_not_intro hall)).trans ?_)))
  simp only [hl, Option.bind_some, hpr]
  exact congrArg (fun r : State × Group => r.1.stepOn g p r.2) (a₂ := (s, gr.mapThreads _))
    (foldl_of_keeps_fst fun t ht x => if_pos (hin t ht))

theorem exec_invalL1 : exec (.invalL1 g) s = .next ((s.setTile g.cluster p (s.tile g.cluster p).invalL1).stepOn g p gr) :=
  congrArg Host.Outcome.next (State.issue_of_issues h _)

theorem exec_fenceGl : exec (.fenceGl g) s = .next
    (if gr.stores = [] ∧ ¬ s.ul.ranges.any (fun r => r.group = some g) then s.stepOn g p gr else s) :=
  congrArg Host.Outcome.next (State.issue_of_issues h _)

theorem exec_fenceLs : exec (.fenceLs g) s = .next (s.stepOn g p gr) :=
  congrArg Host.Outcome.next (State.issue_of_issues h _)

/-! ## Control (R115, R121 to R125, R128) -/

/-- A branch by no active thread, by all, and by some (R121 to R123). -/
theorem exec_brc {q : Nat} (hq : q < 8) (target reconv : Nat) :
    let taken := gr.active &&& gr.pred q
    let fall := gr.active &&& ~~~(gr.pred q)
    let st := ⟨true, BitVec.ofNat 24 target, taken⟩ :: gr.reconvStack (BitVec.ofNat 24 reconv)
    exec (.brc g q target reconv) s = .next
      (if taken = 0#64 then s.stepOn g p gr
      else if fall = 0#64 then s.setGroup g.cluster p g.slot (gr.take (BitVec.ofNat 24 target)).fetch
      else if 32 < st.length then s.groupFault g p gr KF.MASK_OVERFLOW
      else s.stepOn g p { gr with active := fall, stack := st }) :=
  congrArg Host.Outcome.next ((State.issue_of_issues h _).trans (if_neg (Nat.not_le.2 hq)))

theorem exec_backwardBranch (target : Nat) : exec (.backwardBranch g target) s =
    .next (s.setGroup g.cluster p g.slot (gr.take (BitVec.ofNat 24 target)).fetch) :=
  congrArg Host.Outcome.next (State.issue_of_issues h _)

theorem exec_exit :
    let s1 := s.setGroup g.cluster p g.slot gr.exitThreads.fetch
    exec (.exit g) s = .next (s1.putTile g.cluster p ((s1.tile g.cluster p).releaseBar gr.launch).sweepEnded) :=
  congrArg Host.Outcome.next (State.issue_of_issues h _)

theorem exec_bar {n : Nat} (hn : n ≤ 3) :
    let s1 := s.stepOn g p { gr with atBar := some n }
    exec (.bar g n) s = .next (if ¬ gr.whole then s.groupFault g p gr KF.DIVERGED_BARRIER
      else s1.setTile g.cluster p ((s1.tile g.cluster p).releaseBar gr.launch)) :=
  congrArg Host.Outcome.next ((State.issue_of_issues h _).trans (if_neg (Nat.not_lt.2 hn)))

theorem exec_shready :
    let t := s.tile g.cluster p
    exec (.shready g) s = .next ((s.setTile g.cluster p { t with
      launches := t.launches.map (fun l => if l.num = gr.launch then { l with shready := true } else l) }).stepOn g p gr) :=
  congrArg Host.Outcome.next (State.issue_of_issues h _)

end Global

/-! ## Admission (R107, R108, R113, R165) -/

section Admit

variable {c t p desc gen : Nat} {handle : W64} {words : List W64} {s : State}

theorem exec_launchAdmit (hp : s.phys? c t = some p) (hgen : s.launchGen c handle = some gen)
    (hk : s.kernelSlot c gen desc = some words) :
    exec (.launchAdmit c t handle desc) s = .next (s.tryLaunch c t p handle words gen) := by
  change execLaunchAdmit c t handle desc s = _
  simp only [execLaunchAdmit, hp, hgen, hk]

theorem State.tryLaunch_admitted (hplace : (kDesc words).placeOk t = true) {x : Tile}
    (hx : (s.tile c p).launch (kDesc words) words gen handle c t = some x) :
    s.tryLaunch c t p handle words gen = (s.putTile c p x).modEntry c handle (fun e => { e with again := false }) := by
  simp only [State.tryLaunch, hplace, not_true_eq_false, if_false, hx]

theorem State.tryLaunch_noRoom (hx : (s.tile c p).launch (kDesc words) words gen handle c t = none) :
    s.tryLaunch c t p handle words gen = s := by
  simp only [State.tryLaunch, hx, ite_self]

end Admit

/-! ## Watchdog, cache parity, tile store errors (R131 to R133) -/

/-- A sweep with a block in flight is no empty one, so the watchdog acts (R131). -/
theorem exec_stageWatchdogExpiry {c : Nat} {e : QEntry} {s : State} (he : e ∈ (s.cluster c).queue) (hsweep : e.sweep = true) :
    let hs := ((s.cluster c).queue.filter (fun e => e.sweep)).map (fun e => e.block.handle)
    exec (.stageWatchdogExpiry c) s = .next (hs.foldl (fun s h => s.blockFault h)
      (((List.range 16).foldl (fun s p => s.watchTile c p) s).syncOcc c)) := by
  intro hs
  have hmem : e.block.handle ∈ hs := List.mem_map_of_mem (List.mem_filter.2 ⟨he, hsweep⟩)
  have hidle : ¬ (hs.isEmpty = true ∧ ¬ s.beltStage c = true) := fun ⟨hempty, _⟩ =>
    List.ne_nil_of_mem hmem (List.isEmpty_iff.1 hempty)
  exact congrArg Host.Outcome.next (if_neg hidle)

/-- An error of an entry in use is counted and noted; a second one within 24 h is lasting (R132). -/
theorem exec_cacheParityError {c set way : Nat} {cache : CacheKind} {s : State} (hup : s.clusterUp c = true) (hway : way < 1024)
    (hset : set < 2 ^ 16) (hdesc : cacheCode cache = 2 → set = 0)
    (hon : (s.cluster c).cacheOff.contains (cacheCode cache, set, way) = false) :
    let key := (cacheCode cache, set, way)
    let s1 := s.incFld (Fld.PPL_TSERR_CACHE_PARITY c)
    let s2 := s1.modCluster c (fun k => { k with cacheErr := (key, s1.now) :: k.cacheErr.filter (fun e => e.1 ≠ key) })
    exec (.cacheParityError c cache set way) s =
      .next (if (s.cluster c).cacheErr.any (fun e => e.1 = key && decide (s.now < e.2 + dayTicks))
        then s2.cacheLasting c (cacheCode cache) set way else s2) := by
  refine congrArg Host.Outcome.next (if_neg ?_)
  rintro (hdown | hoff | hbig | ⟨hkind, hne⟩ | hbig)
  · exact hdown hup
  · exact Bool.eq_false_iff.1 hon hoff
  · exact Nat.not_le.2 hway hbig
  · exact hne (hdesc hkind)
  · exact Nat.not_le.2 hset hbig

theorem exec_tileStoreEccError {c t p : Nat} {s : State} (hp : s.phys? c t = some p) (correctable : Bool) :
    exec (.tileStoreEccError c t correctable) s =
      .next (if correctable then s.incFld (Fld.PPL_TSERR_CORRECTED c) else s.tileUncorrectable c p) := by
  change execTileStoreEccError c t correctable s = _
  simp only [execTileStoreEccError, hp]

/-! ## The obligations -/

/-- Settles O55: each thread writes at its own address alone, in ascending order, and going on touches the group only. That the
address is V[a] as it stands is the model's choice (assumption 65). -/
theorem localStoreFrame : Obligations.LocalStoreFrame := by
  unfold Obligations.LocalStoreFrame
  intro g n d a src cmp q p op wide gr s hs h k ls w out keeps ha
  obtain ⟨-, hstore, hatomic, hacquire, -⟩ := localStore
  have hp : p < 16 := (State.groupAt_facts h.1).1
  refine ⟨fun hsrc hok hfree => ⟨_, hstore g n a src p gr s h hsrc ha hok hfree, ?storeKeeps, fun i hi hover => ?storeLeaves⟩,
    fun hd hsrc hcmp hok hfree => ⟨_, hatomic g op wide d a src cmp p gr s h hd ha hsrc hcmp hok hfree, ?atomicKeeps⟩,
    fun hq hok hfree => ⟨_, hacquire g a q p gr s h ha hq hok hfree, ?acquireKeeps⟩⟩
  case storeKeeps =>
    exact State.afterAccess_keepsOutside hs hp (storeFold_keepsBytes (fun _ => leBytes_len _ _) _ _) _ _
  case storeLeaves =>
    have hls := State.tile_ls_wf hs g.cluster p
    rw [State.stepLs_eq_afterAccess, State.ls_afterAccess hs (storeFold_wf (P := True) _ _ _ (fun _ => hls) trivial)]
    exact getBytes_storeFold (fun _ => leBytes_len _ _) gr.threads_ascending hls hi hover
  case atomicKeeps => exact State.afterAccess_keepsOutside hs hp (atomicFold_keepsBytes op w d a src cmp gr _ _ _) _ _
  case acquireKeeps => exact State.afterAccess_keepsOutside hs hp (lockFold_keepsBytes g.slot a q gr _ _ _ _) _ _

/-- Settles O18: registers and addresses are good, so each command is done. The model's choices are the commit
buffer's limits, a reduction's rounds and what FENCE.GL waits for (assumption 70), and that a reduction whose block has no entry
only goes on (assumption 130). -/
theorem globalMemory : Obligations.GlobalMemory := by
  unfold Obligations.GlobalMemory
  refine ⟨fun g n d a p ev gr s h _ _ _ => ⟨exec_globalLoad h n d a ev, exec_ldNc h n d a⟩,
    fun g n a src p gr l s h hsrc ha hok hl => (exec_globalStore h hsrc ha hl).trans (congrArg _ (State.globalWrite_done hok _)),
    fun g op a src p gr l s h => ?reduction,
    fun g n d a p gr l pr s h hd ha haligned hl hpr hin => exec_constantLoad h hd ha haligned hl hpr hin,
    fun g p gr s h => exec_invalL1 h, fun g p gr s h hstores hranges => ?fenceGl, fun g p gr s h => exec_fenceLs h,
    fun g op a src p gr l s h => ?discarded⟩
  case reduction =>
    intro n hsrc ha hop hok hl ops he hblock hroom
    rw [exec_globalReduction h rfl hsrc ha hop hl, State.globalWrite_done hok, State.placeCommit_placed hl he hblock hroom]
  case fenceGl =>
    have hover : ¬ s.ul.ranges.any (fun r => r.group = some g) = true := by simpa using hranges
    rw [exec_fenceGl h, if_pos ⟨hstores, hover⟩]
  case discarded =>
    intro n hsrc ha hop hok hl he hb
    rw [exec_globalReduction h rfl hsrc ha hop hl, State.globalWrite_done hok, State.placeCommit_discarded hl he hb]

/-- Settles O19: each clause is the branch of its command's law. That a BACKWARD_BRANCH to a target above the pc only
jumps, and that EXIT skips emptied stack entries, is the model's choice (assumption 71). -/
theorem groupControl : Obligations.GroupControl := by
  unfold Obligations.GroupControl
  refine ⟨fun g q target reconv p gr s h hq => ?brc, fun g target p gr s h => exec_backwardBranch h target,
    fun g p gr s h => exec_exit h, fun g n p gr s h hn => ⟨fun hw => ?bar, fun hw => ?barDiverged⟩,
    fun g p gr s h => exec_shready h⟩
  case brc =>
    intro taken fall st
    refine ⟨fun hnone => ?_, fun hsome hall => ?_, fun hsome hpart hroom => ?_, fun hsome hpart hfull => ?_⟩
    · rw [exec_brc h hq, if_pos hnone]
    · rw [exec_brc h hq, if_neg hsome, if_pos hall]
    · rw [exec_brc h hq, if_neg hsome, if_neg hpart, if_neg (Nat.not_lt.2 hroom)]
    · rw [exec_brc h hq, if_neg hsome, if_neg hpart, if_pos hfull]
  case bar => rw [exec_bar h hn, if_neg (not_not_intro hw)]
  case barDiverged => rw [exec_bar h hn, if_pos (Bool.eq_false_iff.1 hw)]

/-- Settles O20: the kernel is found and may stand on the tile, so the tile's room decides. The launches on a stage that the belt
feeds are the model's choice (assumption 125). -/
theorem launchAdmission : Obligations.LaunchAdmission := by
  unfold Obligations.LaunchAdmission
  intro c t p desc gen handle words s hp hgen hk hplace
  rw [exec_launchAdmit hp hgen hk]
  exact ⟨fun x hx => congrArg _ (State.tryLaunch_admitted hplace hx), fun hx => congrArg _ (State.tryLaunch_noRoom hx)⟩

/-- Settles O21: each clause is the law of its command where its checks pass. That the watchdog faults the blocks of the current
sweep, and what a warm reset leaves of the 24 h windows, is the model's choice (assumption 72). -/
theorem tileErrors : Obligations.TileErrors := by
  unfold Obligations.TileErrors
  exact ⟨fun c e s he hsweep => exec_stageWatchdogExpiry he hsweep,
    fun c set way cache s hup hway hset hdesc hon => exec_cacheParityError hup hway hset hdesc hon,
    fun c t p s hp => ⟨exec_tileStoreEccError hp true, exec_tileStoreEccError hp false⟩⟩

end Sys2Proof.Machine
end

section
/-! SUPPORT. Special functions, activations and row instructions (05_special_functions.md R137, R141 to R162): what one of a group
that may issue does when its operands are good. -/

namespace Sys2Proof.Machine

/-! ## Special functions and activations (R137, R141 to R144) -/

section Sfu

variable {s : State} {g : GroupRef} {p d a : Nat} {gr : Group} {o : SfuOpt} (h : s.Issues g p gr)
  (hd : (s.kernelOf g.cluster p gr).vOk d = true) (ha : (s.kernelOf g.cluster p gr).vOk a = true)
include h hd ha

/-- A function of one operand is computed, in the kernel's mode, in every active thread. -/
theorem State.sfu_done (ho : suffixOk o false = true) (f : Bool → W32 → W32 × AswBits) :
    s.sfu g o d a f =
      s.setGroup g.cluster p g.slot (gr.mapF d fun x t => f (s.kernelOf g.cluster p gr).uluver (x.vreg t a)).next := by
  have good : ((s.kernelOf g.cluster p gr).vOk d && (s.kernelOf g.cluster p gr).vOk a && suffixOk o false) = true := by
    simp only [hd, ha, ho, Bool.and_self]
  exact (State.issue_of_issues h _).trans (if_pos good)

/-- A function of two operands is computed, in the kernel's mode, in every active thread. -/
theorem State.sfu2_done {b : Nat} (hb : (s.kernelOf g.cluster p gr).vOk b = true) {sfg : Bool} (ho : suffixOk o sfg = true)
    (f : Bool → W32 → W32 → W32 × AswBits) :
    s.sfu2 g o d a b sfg f =
      s.setGroup g.cluster p g.slot
        (gr.mapF d fun x t => f (s.kernelOf g.cluster p gr).uluver (x.vreg t a) (x.vreg t b)).next := by
  have good : ((s.kernelOf g.cluster p gr).vOk d && (s.kernelOf g.cluster p gr).vOk a && (s.kernelOf g.cluster p gr).vOk b &&
      suffixOk o sfg) = true := by
    simp only [hd, ha, hb, ho, Bool.and_self]
  exact (State.issue_of_issues h _).trans (if_pos good)

end Sfu

/-! ## Row instructions (R147 to R149) -/

/-- A row instruction does its operation: its registers exist, its operands pass Table 5-9, no matrix operation guards its rows and
its accumulators agree. With sd < 63 the pair of SMAX.STEP exists as well. -/
theorem State.row_done {s : State} {g : GroupRef} {op : RowOp} {sd sa sb sc p : Nat} {gr : Group} (h : s.Issues g p gr)
    (hd : sd < 63) (ha : sa < 64) (hb : sb < 64) (hc : sc < 64)
    (hfine : rowFault op sd (gr.sreg sa) (gr.sreg sb) (gr.sreg sc) (s.kernelOf g.cluster p gr) gr.priv = none ∧
      (s.tile g.cluster p).rowWaits (rowDec (gr.sreg sa) (gr.sreg sb)) op = false) :
    s.row g op sd sa sb sc false = s.rowDo g p gr op sd (rowDec (gr.sreg sa) (gr.sreg sb)) (gr.sreg sc) := by
  obtain ⟨hchecks, hfree⟩ := hfine
  have regs : ¬ (64 ≤ sd ∨ 64 ≤ sa ∨ 64 ≤ sb ∨ 64 ≤ sc ∨ (op = .smaxStep ∧ 64 ≤ sd + 1 ∧ sd % 2 = 0)) := by omega
  refine (State.issue_of_issues h _).trans ((if_neg regs).trans ?_)
  simp only [hchecks, hfree, Bool.false_and, Bool.false_eq_true, if_false]

/-! ## The obligations -/

/-- Settles O22: each command is `State.sfu` or `State.sfu2` of its reference function, which the operands' registers and the suffix
let run. -/
theorem specialFunctions : Obligations.SpecialFunctions := by
  unfold Obligations.SpecialFunctions
  refine ⟨fun g o d a p gr s h hd ha ho => ?oneOperand, fun g o act d a b p gr s h hd ha hb => ?twoOperands⟩
  case oneOperand =>
    have base (f : SfuFn) := congrArg (Host.Outcome.next (φ := Fault) (ρ := Refusal)) (State.sfu_done h hd ha ho (sfuOf f o))
    exact ⟨base .rcp, base .rsqrt, base .exp2, base .exp, base .log2, base .ln, base .sinpi, base .cospi, base .tanh,
      base .sigmoid, congrArg _ (State.sfu_done h hd ha ho fun u x => if u then sqrtUluver o x else sqrtNative o x)⟩
  case twoOperands =>
    exact ⟨fun ho => congrArg _ (State.sfu2_done h hd ha hb ho fun u x y => if u then divUluver o x y else divNative o x y),
      fun ho => congrArg _ (State.sfu2_done h hd ha hb ho fun u x y => if u then sfgUluver act o x y else sfgNative act o x y)⟩

/-- Settles O23: each command is `State.row` of its operation, which every check lets pass. -/
theorem rowInstructions : Obligations.RowInstructions := by
  unfold Obligations.RowInstructions
  intro g sd sa sb sc p gr s h hd ha hb hc r fine out
  have done (op : RowOp) (hfine : fine op) : .next (s.row g op sd sa sb sc false) = out op :=
    congrArg _ (State.row_done h hd ha hb hc hfine)
  exact ⟨done .rstat, done .lnorm, done .rmsnorm, done .smax, done .smaxStep, done .smaxFin⟩

end Sys2Proof.Machine
end

section
/-! SUPPORT. The pipeline (06_pipeline.md R171 to R197): one law per command, saying what it does where its checks pass, from which
the obligations take their clauses. -/

namespace Sys2Proof.Machine

/-- No reservation of a sequence waits for blocks of the pool. -/
theorem State.not_waits_of {s : State} {n : Nat} (h : ∀ w ∈ s.kvl.waits, w.seq ≠ n) :
    ¬ s.kvl.waits.any (fun w => w.seq = n) = true := by
  simpa only [List.any_eq_true, decide_eq_true_eq, not_exists, not_and] using h

/-- A host command that every check accepts is started, and then its own effect follows (R358). -/
theorem State.accept_of_accepts {s : State} {sq cid op : Nat} {own : State → Cmd → Verdict} {c : Cmd}
    (h : s.Accepts sq cid op own c) (rows : Cmd → Nat) (go : State → Cmd → State) :
    s.accept sq cid op own rows go = go (s.started c (rows c)) c := by
  obtain ⟨hfetched, hok⟩ := h
  simp only [State.accept, hfetched, hok]

/-! ## Rows and blocks (R171, R172, R175, R176, R210, R213) -/

section Rows

variable {s : State} {n : Nat} {q : Seq} {x : NextRow}

theorem exec_rowPlace_pipeRows {sq cid p : Nat} {c : Cmd} (hc : s.cmd? sq cid = some c) (hrun : c.stage = .running)
    (hp : c.pipeRows = some p) : exec (.rowPlace (.command sq cid)) s = .next (s.feedPipe p) := by
  change execRowPlace (.command sq cid) s = _
  simp only [execRowPlace, hc, hrun, hp, ne_eq, not_true_eq_false, if_false]

theorem exec_rowPlace_rowSeq {sq cid : Nat} {c : Cmd} (hc : s.cmd? sq cid = some c) (hrun : c.stage = .running)
    (hp : c.pipeRows = none) (hn : c.rowSeq = some n) (hq : s.seq? n = some q) (hx : s.nextRow n q = some x)
    (hfed : x.fed = false) (huid : x.cmd.uid = c.uid) (hwaits : ∀ w ∈ s.kvl.waits, w.seq ≠ n) :
    exec (.rowPlace (.command sq cid)) s = .next (s.placeNext n).noteConds := by
  have place : ¬ x.fed = true ∧ x.cmd.uid = c.uid ∧ ¬ s.kvl.waits.any (fun w => w.seq = n) = true :=
    ⟨Bool.eq_false_iff.1 hfed, huid, State.not_waits_of hwaits⟩
  change execRowPlace (.command sq cid) s = _
  simp only [execRowPlace, hc, hrun, hp, hn, hq, Option.bind_some, hx, ne_eq, not_true_eq_false, if_false]
  exact congrArg _ (if_pos place)

theorem exec_rowPlace_fedBack (hq : s.seq? n = some q) (hx : s.nextRow n q = some x) (hfed : x.fed = true)
    (hwaits : ∀ w ∈ s.kvl.waits, w.seq ≠ n) :
    exec (.rowPlace (.fedBack n)) s = .next (s.placeNext n).noteConds := by
  change execRowPlace (.fedBack n) s = _
  simp only [execRowPlace, hq, Option.bind_some, hx]
  exact congrArg _ (if_pos ⟨hfed, State.not_waits_of hwaits⟩)

end Rows

section Blocks

variable {s : State} {pipe cls : Nat} {f : Forming}

theorem exec_fillTimeoutExpiry (hf : s.form? pipe cls = some f) (htrain : f.train = none) (hcond : f.cond = none)
    (htimeout : f.timeout ≠ 0) :
    exec (.fillTimeoutExpiry pipe cls) s = .next (s.setForm pipe cls { f with cond := some s.now }) := by
  have expires : f.train.isNone = true ∧ f.cond.isNone = true ∧ f.timeout ≠ 0 :=
    ⟨Option.isNone_iff_eq_none.2 htrain, Option.isNone_iff_eq_none.2 hcond, htimeout⟩
  change execFillTimeoutExpiry pipe cls s = _
  simp only [execFillTimeoutExpiry, hf]
  exact congrArg _ (if_pos expires)

theorem exec_blockClose {t : Nat} (hf : s.noteConds.form? pipe cls = some f) (hcond : f.cond = some t)
    (hplace : (s.noteConds.entries pipe).length < 4) (hfirst : s.noteConds.firstToClose pipe cls t = true)
    (hrun : s.noteConds.runGoesOn pipe cls f = false) :
    exec (.blockClose pipe cls) s = .next ((s.noteConds.closeForm pipe cls f).feedPipe pipe) := by
  change execBlockClose pipe cls s = _
  simp only [execBlockClose, hf, hcond]
  exact congrArg _ (if_pos ⟨hplace, hfirst, Bool.eq_false_iff.1 hrun⟩)

theorem exec_blockLeaveEntry {b : Block} {rest : List Block} (hb : s.entries pipe = b :: rest)
    (hheld : s.entryHeld pipe = false) : exec (.blockLeaveEntry pipe) s = .next (s.leaveEntry pipe b rest) := by
  change execBlockLeaveEntry pipe s = _
  simp only [execBlockLeaveEntry, hb, hheld, Bool.false_eq_true, if_false]

/-- A block without rows left to exit moves on when its operation is done, or from a cluster out of service whose role no
reserve takes. -/
theorem exec_blockTransfer {handle r : W64} {c : Nat} {e : QEntry} (he : s.entryOf handle = some (c, e))
    (hmay : e.done = true ∨ s.clusterUp c = false ∧ s.moving? c = false) (hexits : e.exits = [])
    (hr : s.routeOf e.block = some r) : exec (.blockTransfer handle) s = .next (s.moveBlock c e r) := by
  have may : ((e.done || (!s.clusterUp c && !s.moving? c)) && e.exits.isEmpty) = true := by
    simpa only [hexits, List.isEmpty_nil, Bool.and_true, Bool.or_eq_true, Bool.and_eq_true, Bool.not_eq_true'] using hmay
  change execBlockTransfer handle s = _
  simp only [execBlockTransfer, he, may, if_true, hr]

theorem exec_meshHandshakeParityError {link : Nat} (hlink : link < 24) (hup : s.fbit Fld.PPL_MESH_RETIRED link = false)
    (repeatFails : Bool) :
    exec (.meshHandshakeParityError link repeatFails) s =
      .next (if repeatFails then s.retireLink link else s.incFld Fld.PPL_MESH_RETRY) :=
  congrArg Host.Outcome.next (if_neg (not_or.2 ⟨Nat.not_le.2 hlink, Bool.eq_false_iff.1 hup⟩))

end Blocks

/-! ## Operations of a stage (R179 to R184, R212, R441) -/

section Stage

variable {s : State} {c : Nat}

theorem exec_sweepStart (hmay : s.mayOperate c = true) (hnotice : (s.cluster c).noticeAt = none)
    (hsweep : s.nextSweep c ≠ []) :
    let s0 := (s.fresh 8).1
    let l := (s.fresh 8).2 + 1
    let s1 := s0.setLevel c l
    exec (.sweepStart c) s = .next (if s0.needsNotice c l then
      s1.modCluster c (fun k => { k with noticeAt := some s1.now }) else s1.sweepOn c) := by
  refine congrArg Host.Outcome.next (if_neg ?_)
  rintro (hbusy | hwaits | hempty)
  · exact hbusy hmay
  · exact Option.not_isSome_iff_eq_none.2 hnotice hwaits
  · exact hsweep (List.isEmpty_iff.1 hempty)

theorem exec_loadNoticeElapsed {t : Nat} (hnotice : (s.cluster c).noticeAt = some t) (hmay : s.mayOperate c = true) :
    exec (.loadNoticeElapsed c) s =
      .next (if s.fld (Fld.PPL_STAGE_ROLE c) = 8 then (s.startRound c).syncBelt else s.sweepOn c) :=
  congrArg Host.Outcome.next (if_pos ⟨Option.isSome_iff_exists.2 ⟨t, hnotice⟩, hmay⟩)

theorem exec_stageOperationComplete_sweep (outs : List BlockOut) (hbelt : s.beltStage c = false) :
    let sweep := (s.cluster c).queue.filter (fun e => e.sweep)
    sweep ≠ [] → (∀ e ∈ sweep, e.again = false) → s.stillRuns c (sweep.map (fun e => e.block.handle)) = false →
    let s1 := sweep.foldl (fun s e => s.blockDone c outs e) s
    exec (.stageOperationComplete c outs) s =
      .next ((s1.modCluster c (fun k => { k with lastOp := s1.now })).setRegion c RS.Q1).faultStuck := by
  intro sweep hsweep hagain hruns s1
  refine congrArg Host.Outcome.next ((if_neg (Bool.eq_false_iff.1 hbelt)).trans (if_neg ?_))
  rintro (hempty | hlost | hruns')
  · exact hsweep (List.isEmpty_iff.1 hempty)
  · obtain ⟨e, he, lost⟩ := List.any_eq_true.1 hlost
    exact Bool.eq_false_iff.1 (hagain e he) lost
  · exact Bool.eq_false_iff.1 hruns hruns'

theorem exec_stageOperationComplete_belt (outs : List BlockOut) (hbelt : s.beltStage c = true)
    (hidle : ∀ p, p < 16 → (s.tile c p).launches = []) :
    let hs := ((List.range 16).flatMap (fun p => (s.tile c p).commit.map (·.handle))).eraseDups
    exec (.stageOperationComplete c outs) s = .next (hs.foldl (fun s h => s.releaseBlock c h) s) := by
  refine congrArg Host.Outcome.next ((if_pos hbelt).trans (if_neg fun hruns => ?_))
  obtain ⟨p, hp, hlaunch⟩ := List.any_eq_true.1 hruns
  simp only [hidle p (List.mem_range.1 hp), List.isEmpty_nil, Bool.not_true, Bool.false_eq_true] at hlaunch

theorem exec_rowExit {handle : W64} {row : Nat} {e : QEntry} {r : RowDesc} (x : Option ExitRec)
    (he : s.entryOf handle = some (c, e)) (hexits : e.exits.contains row = true) (hr : e.block.rows[row]? = some r) :
    let left := e.exits.filter (fun i => i ≠ row)
    let s1 := s.modEntry c handle (fun e => { e with exits := left })
    let s2 := if left.isEmpty then s1.blockExit c e.block else s1
    let s3 := if r.valid then s2.validExit e.block.pipe r x else s2
    exec (.rowExit handle row x) s = .next (if r.kind ≤ 1 then s3.trimSeq r.seq else s3).noteConds := by
  change execRowExit handle row x s = _
  simp only [execRowExit, he, hexits, hr]

theorem exec_roleMoveLoaded {old : Nat} (hfrom : (s.cluster c).moveFrom = some old) (hup : s.clusterUp c = true)
    (hawake : s.region c = RS.Q1 ∨ s.region c = RS.A) :
    exec (.roleMoveLoaded c) s =
      .next ((s.takeRole c old).eventReg Ev.ROLE_MOVED c (Off.PPL_STAGE c)).checkDegraded := by
  change execRoleMoveLoaded c s = _
  simp only [execRoleMoveLoaded, hfrom]
  exact congrArg _ (if_pos ⟨hup, hawake⟩)

end Stage

/-! ## Changes of generation (R130, R186 to R189) -/

section Change

variable {s : State} {x : ChangeSet} (hx : s.ppl.change = some x)

/-- No partition of a set trains. -/
theorem State.not_training_of {s : State} {ps : List Nat} (h : ∀ p ∈ ps, s.train? p = none) :
    ¬ ps.any (fun p => (s.train? p).isSome) = true := by
  simpa only [List.any_eq_true, not_exists, not_and, Option.not_isSome_iff_eq_none] using h

include hx

theorem exec_changeSectionsStaged (hstaged : x.staged = false) (haborting : x.aborting = 0)
    (hread : ∀ o ∈ s.flash.ops, ∀ p, o.kind ≠ .reload p) (htrain : ∀ p ∈ x.parts, s.train? p = none) :
    exec .changeSectionsStaged s = .next (s.setChange { x with staged := true }).applyNext := by
  have noRead : s.flash.ops.any (fun o => match o.kind with
      | .reload _ => true
      | _ => false) = false := List.any_eq_false.2 fun o ho reads => by
    split at reads
    next p hkind => exact hread o ho p hkind
    next => exact Bool.false_ne_true reads
  change execChangeSectionsStaged s = _
  simp only [execChangeSectionsStaged, hx]
  refine congrArg _ (if_neg ?_)
  simp only [Bool.or_eq_true, decide_eq_true_eq]
  rintro (((staged | aborting) | reads) | trains)
  · exact Bool.eq_false_iff.1 hstaged staged
  · exact aborting haborting
  · exact Bool.eq_false_iff.1 noRead reads
  · exact State.not_training_of htrain trains

/-- A cluster whose old generations no block needs leaves the draining ones; where a role of the new section is its own, the
program of that role takes the place of the old ones. -/
theorem exec_clusterOldGenDrained {c n : Nat} {g : PartCfg} (hc : x.draining.contains c = true)
    (hg : x.sects.find? (fun e => e.1 = s.partOf c) = some (n, g)) (hgen : s.oldBlocks c (s.partGen (s.partOf c)) = false)
    (hprogs : ∀ e ∈ (s.cluster c).progs, s.oldBlocks c e.1 = false) :
    let s1 := s.setChange { x with draining := x.draining.filter (fun d => d ≠ c), restoring := x.restoring ++ [c] }
    exec (.clusterOldGenDrained c) s =
      .next (match (g.roles.find? (fun e => s.actor e.1 = c)).bind (fun e => newProg g e.2.2) with
        | some pr => s1.modCluster c (fun k => { k with progs := [], newProgs := [(g.sect.gen, pr)] })
        | none => s1) := by
  have drained : ¬ (s.partGen (s.partOf c) :: (s.cluster c).progs.map (·.1)).any (fun n => s.oldBlocks c n) = true := by
    simp only [List.any_cons, hgen, Bool.false_or, List.any_map, List.any_eq_true, Function.comp_apply, not_exists, not_and]
    exact fun e he => Bool.eq_false_iff.1 (hprogs e he)
  change execClusterOldGenDrained c s = _
  simp only [execClusterOldGenDrained, hx, hc, hg]
  exact congrArg _ (if_neg drained)

theorem exec_partitionSwitched {p n : Nat} {g : PartCfg} (hg : x.sects.find? (fun e => e.1 = p) = some (n, g))
    (hstaged : x.staged = true) (haborting : x.aborting = 0) (hnext : x.todo.head? = some p) (hdrained : x.draining = [])
    (htrain : ∀ q ∈ x.parts, s.train? q = none) :
    let s1 := (s.setFld (Fld.PPL_PART_STAT_STATE p) 2).setBit Fld.PPL_CHANGE_SWITCHED p
    let y := { x with todo := x.todo.drop 1, switched := x.switched ++ [p] }
    let s2 := (((s1.setChange y).raise Fld.PPL_CHANGE_HOLDING).applyWindows g.sect).showRoutes p g.sect.gen
    exec (.partitionSwitched p) s = .next (if y.todo = [] then s2.finishChange y else s2.applyNext) := by
  change execPartitionSwitched p s = _
  simp only [execPartitionSwitched, hx, hg]
  refine congrArg _ (if_neg ?_)
  rintro (unstaged | aborting | other | draining | trains)
  · exact unstaged hstaged
  · exact aborting haborting
  · exact other hnext
  · exact draining hdrained
  · exact State.not_training_of htrain trains

theorem exec_entryHoldTimeout (hhold : s.flag Fld.PPL_CHANGE_HOLDING = true) :
    exec .entryHoldTimeout s = .next (s.abortChange 2) := by
  change execEntryHoldTimeout s = _
  simp only [execEntryHoldTimeout, hx]
  exact congrArg _ (if_pos (.inl hhold))

theorem exec_changeRestoreComplete (haborting : x.aborting ≠ 0) :
    exec .changeRestoreComplete s = .next ((x.restoring.foldl (fun s c => s.restoreCluster c) s).endChange x
      St.ABORTED x.aborting Ev.CHANGE_ABORTED) := by
  change execChangeRestoreComplete s = _
  simp only [execChangeRestoreComplete, hx, haborting, if_false]

end Change

theorem exec_oldGenerationRelease {s : State} {c : Nat} (hgen : s.partGen (s.partOf c) ≠ 0) :
    let p := s.partOf c
    let live := fun (g : Nat) => g = s.partGen p || s.applying p = some g || s.allEntries.any (fun e => e.2.block.genOf p = g)
    let s1 := s.modCluster c (fun k => { k with progs := k.progs.filter (fun x => live x.1) })
    exec (.oldGenerationRelease c) s = .next { s1 with ppl := { s1.ppl with
      banks := tabPut [] s1.ppl.banks p ((tabGet [] s1.ppl.banks p).filter (fun x => live x.1)) } } :=
  congrArg Host.Outcome.next (if_neg fun h => hgen (beq_iff_eq.1 h))

/-! ## Training (R192 to R197) -/

section Training

variable {s : State} {pipe : Nat} {t : Train} (ht : s.train? pipe = some t) (hdone : t.done = true)
include ht hdone

theorem exec_trainReadersDrained (hgone : ∀ e ∈ s.allEntries, (s.readersOf pipe).contains e.2.block.pipe = false) :
    exec (.trainReadersDrained pipe) s = .next (s.setTrain pipe { t with holding := true, drained := true }) := by
  have none_reads : s.allEntries.any (fun e => (s.readersOf pipe).contains e.2.block.pipe) = false :=
    List.any_eq_false.2 fun e he => Bool.eq_false_iff.1 (hgone e he)
  change execTrainReadersDrained pipe s = _
  simp only [execTrainReadersDrained, ht, hdone, none_reads, Bool.not_false, Bool.and_self, if_true]

theorem exec_trainUpdate {rd base bytes : Nat} {g : PartCfg} {c : Cmd} (hg : tabFind s.ppl.cfg pipe = some g)
    (htrain : g.train = some (rd, base, bytes)) (hc : s.cmdU t.uid = some c) (hdrained : t.drained = true) :
    exec (.trainUpdate pipe) s = .next (match s.adapter? (c.f 4 63 0) with
      | some x => s.update pipe t (c.f 4 63 0) base bytes x
      | none => s.failTrain pipe St.FAULT) := by
  change execTrainUpdate pipe s = _
  cases hx : s.adapter? (c.f 4 63 0) <;>
    simp only [execTrainUpdate, ht, hg, htrain, hc, hdone, hdrained, Bool.and_self, not_true_eq_false, if_false, hx]

end Training

/-! ## The obligations -/

/-- Settles O25: each clause is the law of its command where the command's checks pass. That a block waits to close while its last
row's run goes on (assumption 127), and that the block of a retired cluster moves from memory (assumption 126), is the model's
choice. -/
theorem rowsAndBlocks : Obligations.RowsAndBlocks := by
  unfold Obligations.RowsAndBlocks
  exact ⟨fun sq cid p c s hc hrun hp => exec_rowPlace_pipeRows hc hrun hp,
    fun sq cid n c q x s hc hrun hp hn hq hx hfed huid hwaits => exec_rowPlace_rowSeq hc hrun hp hn hq hx hfed huid hwaits,
    fun n q x s hq hx hfed hwaits => exec_rowPlace_fedBack hq hx hfed hwaits,
    fun pipe cls f s hf htrain hcond htimeout => exec_fillTimeoutExpiry hf htrain hcond htimeout,
    fun pipe cls t f s hf hcond hplace hfirst hrun => exec_blockClose hf hcond hplace hfirst hrun,
    fun pipe b rest s hb hheld => exec_blockLeaveEntry hb hheld,
    fun handle c e r s he hdone hexits hr => exec_blockTransfer he (.inl hdone) hexits hr,
    fun handle c e r s he _ hdown hstays hexits hr => exec_blockTransfer he (.inr ⟨hdown, hstays⟩) hexits hr,
    fun link s hlink hup => ⟨exec_meshHandshakeParityError hlink hup true, exec_meshHandshakeParityError hlink hup false⟩⟩

/-- Settles O26: each clause is the law of its command where the command's checks pass; the planned level is the free value below 8
that the sweep draws, plus one (assumption 7). That a stage that the belt feeds releases its commit entries when no launch of the
cluster runs is the model's choice (assumption 125). -/
theorem stageOperations : Obligations.StageOperations := by
  unfold Obligations.StageOperations
  exact ⟨fun c s hmay hnotice hsweep =>
      ⟨(s.fresh 8).2 + 1, Nat.succ_pos _, Nat.mod_lt _ (by decide), exec_sweepStart hmay hnotice hsweep⟩,
    fun c t s hnotice hmay => exec_loadNoticeElapsed hnotice hmay,
    fun c outs s hbelt hsweep hagain hruns => exec_stageOperationComplete_sweep outs hbelt hsweep hagain hruns,
    fun handle row c e r x s he hexits hr => exec_rowExit x he hexits hr,
    fun c old s hfrom hup hawake => exec_roleMoveLoaded hfrom hup hawake,
    fun c outs s hbelt hidle => exec_stageOperationComplete_belt outs hbelt hidle⟩

/-- Settles O27: each clause is the law of its command where the command's checks pass. Which blocks hold back a cluster's drain, when
windows take their attributes and which generations are released is the model's choice (assumption 74). -/
theorem changesOfGeneration : Obligations.ChangesOfGeneration := by
  unfold Obligations.ChangesOfGeneration
  exact ⟨fun sq cid c s h => congrArg Host.Outcome.next (State.accept_of_accepts h noRows _),
    fun x s hx hstaged haborting hread htrain => exec_changeSectionsStaged hx hstaged haborting hread htrain,
    fun c n x g s hx hc hg hgen hprogs => exec_clusterOldGenDrained hx hc hg hgen hprogs,
    fun p n x g s hx hg hstaged haborting hnext hdrained htrain =>
      exec_partitionSwitched hx hg hstaged haborting hnext hdrained htrain,
    fun c s hgen => exec_oldGenerationRelease hgen, fun x s hx hhold => exec_entryHoldTimeout hx hhold,
    fun x s hx haborting => exec_changeRestoreComplete hx haborting⟩

/-- Settles O28: each clause is the law of its command where the command's checks pass. That the readers' entries are held from the
last exit on is the model's choice (assumption 76). -/
theorem training : Obligations.Training := by
  unfold Obligations.Training
  exact ⟨fun sq cid c s h => congrArg Host.Outcome.next (State.accept_of_accepts h (fun c => c.f 2 15 0 + 1) _),
    fun pipe t s ht hdone hgone => exec_trainReadersDrained ht hdone hgone,
    fun pipe rd base bytes t g c s ht hg htrain hc hdone hdrained => exec_trainUpdate ht hdone hg htrain hc hdrained⟩

end Sys2Proof.Machine
end

section
/-! SUPPORT. The ledger (07_kv_ledger.md R206 to R227) and the range instruction of a group (08_underlayer.md R245, R246): what each
command does where its checks pass, and the rank of sequences. -/

namespace Sys2Proof.Machine

/-! ## The ledger's instructions of a group (R214, R215) -/

section Ledger

variable {s : State} {g : GroupRef} {p : Nat} {gr : Group} (h : s.Issues g p gr)
include h

/-- On a page of the block's pipeline KVADDR leaves its answer in the pair of scalar registers, and the group goes on. -/
theorem exec_kvaddr_page {sd ss f : Nat} {q : Seq} {e : PageEntry} (hd : sd < 64) (hs : ss < 64) (heven : sd % 2 = 0)
    (hkv : s.kvCheck (s.groupHandle g.cluster p gr) (gr.sreg ss) = some (q, e, f)) :
    let r := s.kvAnswer (gr.sreg ss) q e f
    exec (.kvaddr g sd ss) s = .next (s.stepOn g p ((gr.setS sd r.1).setS (sd + 1) r.2)) := by
  have regs : ¬ (64 ≤ sd ∨ 64 ≤ ss) := by omega
  have even : ¬ sd % 2 = 1 := by omega
  refine congrArg Host.Outcome.next ((State.issue_of_issues h _).trans ((if_neg regs).trans ((if_neg even).trans ?_)))
  simp only [hkv]

/-- On a page of the block's pipeline KVPUT faults at a position already written or a source outside the areas, waits for the matrix
array's writes of its source, or commits the source's bytes. -/
theorem exec_kvput_page {ss sa f : Nat} {q : Seq} {e : PageEntry} (hs : ss < 64) (ha : sa < 64)
    (hkv : s.kvCheck (s.groupHandle g.cluster p gr) (gr.sreg ss) = some (q, e, f)) :
    let w := gr.sreg ss
    let a := (gr.sreg sa).toNat
    let n := (s.shape q.pipe).tl
    let t := s.tile g.cluster p
    exec (.kvput g ss sa) s = .next
      (if bitsOf w 39 22 < q.len ∨ ¬ (s.kernelOf g.cluster p gr).inArea gr.priv a n then s.groupFault g p gr KF.BAD_ADDRESS
      else if t.loadStalls [(a, n)] then s
      else s.placeCommit g p gr [.kvput (bitsOf w 55 40) (bitsOf w 39 22) (bitsOf w 7 0) (getBytes t.ls a n)]) := by
  have regs : ¬ (64 ≤ ss ∨ 64 ≤ sa) := by omega
  refine congrArg Host.Outcome.next ((State.issue_of_issues h _).trans ((if_neg regs).trans ?_))
  simp only [hkv]

/-! ## The range instruction of a group (R245, R246) -/

/-- A range inside HBM starts its operation in the class of the group's launch, and the group goes on. -/
theorem exec_rngInstruction_started {op sa sb : Nat} {l : Launch} (hop : op ≤ 4) (ha : sa < 64) (hb : sb < 64)
    (hr : s.rangeOk op (gr.sreg sa).toNat (gr.sreg sb).toNat = true) (hl : s.launchOf g.cluster p gr = some l) :
    exec (.rngInstruction g op sa sb) s = .next ((s.startRange op (gr.sreg sa).toNat (gr.sreg sb).toNat
      (s.classAt g.cluster l.handle) none (some g) ((s.tile g.cluster p).before g.slot gr)).stepOn g p gr) := by
  have operands : ¬ (64 ≤ sa ∨ 64 ≤ sb ∨ 4 < op) := by omega
  refine congrArg Host.Outcome.next ((State.issue_of_issues h _).trans
    ((if_neg operands).trans ((if_neg (not_not_intro hr)).trans ?_)))
  simp only [hl]

end Ledger

/-! ## Commands on sequences (R206 to R227) -/

/-- SEQ_RESUME alone settles by itself whether it starts: it may take its blocks, wait for them, or be refused (R225). -/
theorem exec_seqResume_accepted {s : State} {sq cid : Nat} {c : Cmd} (h : s.Accepts sq cid 0x26 resumeCheck c) :
    exec (.seqResume sq cid) s = .next (s.resumeGo c) := by
  obtain ⟨hfetched, hok⟩ := h
  change execSeqResume sq cid s = _
  simp only [execSeqResume, hfetched, hok]

/-! ## The rank of sequences (R221) -/

theorem State.ranksBelow_iff (s : State) (v q : Seq) :
    s.ranksBelow v q = true ↔ s.prio v.cls < s.prio q.cls ∨ s.prio v.cls = s.prio q.cls ∧ q.order < v.order := by
  simp only [State.ranksBelow, Bool.or_eq_true, Bool.and_eq_true, decide_eq_true_eq, gt_iff_lt]

/-! ## The obligations -/

/-- Settles O24: each instruction passes its checks, so it is done. That KVPUT reads its source at issue, into the commit entry, is
the model's choice (assumption 54). -/
theorem ledgerAndRangeInstructions : Obligations.LedgerAndRangeInstructions := by
  unfold Obligations.LedgerAndRangeInstructions
  refine ⟨fun g sd ss p f q e gr s h hd heven hs hkv => exec_kvaddr_page h hd hs heven hkv,
    fun g ss sa p f q e gr s h hs ha hkv => ?kvput,
    fun g op sa sb p gr l s h hop ha hb hr hl => exec_rngInstruction_started h hop ha hb hr hl⟩
  case kvput =>
    intro w a n hnew harea hfree
    have good : ¬ (bitsOf w 39 22 < q.len ∨ ¬ (s.kernelOf g.cluster p gr).inArea gr.priv a n = true) :=
      not_or.2 ⟨Nat.not_lt.2 hnew, not_not_intro harea⟩
    rw [exec_kvput_page h hs ha hkv, if_neg good, if_neg (Bool.eq_false_iff.1 hfree)]

/-- Settles O30: a command that every check accepts starts, with the rows it supplies, and has its effect; SEQ_RESUME has its own way
to start. The corners of the effects are the model's choice (assumptions 50 to 52). -/
theorem sequenceCommands : Obligations.SequenceCommands := by
  unfold Obligations.SequenceCommands
  exact ⟨fun sq cid c s h => congrArg Host.Outcome.next (State.accept_of_accepts h Cmd.tokens openGo),
    fun sq cid c s h => congrArg Host.Outcome.next (State.accept_of_accepts h Cmd.tokens appendGo),
    fun sq cid c s h => congrArg Host.Outcome.next (State.accept_of_accepts h Cmd.tokens forkGo),
    fun sq cid c s h => congrArg Host.Outcome.next (State.accept_of_accepts h noRows closeGo),
    fun sq cid c s h => congrArg Host.Outcome.next (State.accept_of_accepts h noRows preemptGo),
    fun sq cid c s h => exec_seqResume_accepted h⟩

/-- Settles O53: PRIO is the field of the class, and the larger ORDER breaks ties. -/
theorem sequenceRank : Obligations.SequenceRank := by
  unfold Obligations.SequenceRank
  exact fun v q s => s.ranksBelow_iff v q

end Sys2Proof.Machine
end

section
/-! SUPPORT. One step of the block: it is a tick or the command at the front of the queue, and every command keeps the queue of the
others, verified content on the flash, and the canonical form of memories and registers (08_underlayer.md R231, R257;
04_thread_groups.md R110, R111; 00_scope.md R13). -/

namespace Sys2Proof.Machine

/-! ## What a command keeps -/

/-- Only NVM_WRITE and the end of a flash operation change what the banks and the licence area hold (13_configuration.md R379, R394,
R395). Each arm is the command's own law. -/
theorem exec_shed {c : Instr} {s t : State} (hwrite : ∀ sq cid content, c ≠ .nvmWrite sq cid content)
    (hend : ∀ ok, c ≠ .flashOperationComplete ok) (h : exec c s = .next t) : Shed s t := by
  cases c with
  | vauxRise => exact (execVauxRise_kept (eqn := h)).shed
  | vauxFall => exact execVauxFall_shed (eqn := h)
  | vinIbInRange => exact (execVinIbInRange_kept (eqn := h)).shed
  | vinIbLow => exact execVinIbLow_shed (eqn := h)
  | deviceResetAssert => exact execDeviceResetAssert_shed (eqn := h)
  | deviceResetRelease => exact (execDeviceResetRelease_kept (eqn := h)).shed
  | refclkLost => exact (execRefclkLost_kept (eqn := h)).shed
  | refclkReturn => exact (execRefclkReturn_kept (eqn := h)).shed
  | coldStart => exact execColdStart_shed (eqn := h)
  | startStepTimeout => exact execStartStepTimeout_shed (eqn := h)
  | warmDeviceReset => exact execWarmDeviceReset_shed (eqn := h)
  | clusterReset => exact (execClusterReset_kept (eqn := h)).shed
  | tbValueCheck => exact (execTbValueCheck_kept (eqn := h)).shed
  | tbPathLost => exact (execTbPathLost_kept (eqn := h)).shed
  | sidebandCopyLost => exact (execSidebandCopyLost_kept (eqn := h)).shed
  | vifParityMismatch => exact (execVifParityMismatch_kept (eqn := h)).shed
  | vifWireTestComplete => exact (execVifWireTestComplete_kept (eqn := h)).shed
  | tsvSenseRead => exact (execTsvSenseRead_kept (eqn := h)).shed
  | bridgeFlitReceive => exact (execBridgeFlitReceive_kept (eqn := h)).shed
  | hbmTransferError => exact (execHbmTransferError_kept (eqn := h)).shed
  | cadenceWindowEnd => exact (execCadenceWindowEnd_kept (eqn := h)).shed
  | minClear => exact (execMinClear_kept (eqn := h)).shed
  | pairLoRead => exact (execPairLoRead_kept (eqn := h)).shed
  | pairHiWrite => exact (execPairHiWrite_kept (eqn := h)).shed
  | registerWrite => exact (execRegisterWrite_kept (eqn := h)).shed
  | mma => exact (execMma_kept (eqn := h)).shed
  | mmap => exact (execMmap_kept (eqn := h)).shed
  | mwait => exact (execMwait_kept (eqn := h)).shed
  | matrixPassEnd => exact (execMatrixPassEnd_kept (eqn := h)).shed
  | spareAttachComplete => exact (execSpareAttachComplete_kept (eqn := h)).shed
  | matrixInstructionComplete => exact (execMatrixInstructionComplete_kept (eqn := h)).shed
  | launchAdmit => exact (execLaunchAdmit_kept (eqn := h)).shed
  | vectorArith => exact (execVectorArith_kept (eqn := h)).shed
  | scalarArith => exact (execScalarArith_kept (eqn := h)).shed
  | lsLoad => exact (execLsLoad_kept (eqn := h)).shed
  | lsStore => exact (execLsStore_kept (eqn := h)).shed
  | lsAtomic => exact (execLsAtomic_kept (eqn := h)).shed
  | globalLoad => exact (execGlobalLoad_kept (eqn := h)).shed
  | ldNc => exact (execLdNc_kept (eqn := h)).shed
  | globalStore => exact (execGlobalStore_kept (eqn := h)).shed
  | globalReduction => exact (execGlobalReduction_kept (eqn := h)).shed
  | constantLoad => exact (execConstantLoad_kept (eqn := h)).shed
  | invalL1 => exact (execInvalL1_kept (eqn := h)).shed
  | fenceGl => exact (execFenceGl_kept (eqn := h)).shed
  | fenceLs => exact (execFenceLs_kept (eqn := h)).shed
  | brc => exact (execBrc_kept (eqn := h)).shed
  | backwardBranch => exact (execBackwardBranch_kept (eqn := h)).shed
  | exit => exact (execExit_kept (eqn := h)).shed
  | bar => exact (execBar_kept (eqn := h)).shed
  | lockAcq => exact (execLockAcq_kept (eqn := h)).shed
  | lockRel => exact (execLockRel_kept (eqn := h)).shed
  | shready => exact (execShready_kept (eqn := h)).shed
  | stageWatchdogExpiry => exact (execStageWatchdogExpiry_kept (eqn := h)).shed
  | cacheParityError => exact (execCacheParityError_kept (eqn := h)).shed
  | tileStoreEccError => exact (execTileStoreEccError_kept (eqn := h)).shed
  | rcp => exact (execRcp_kept (eqn := h)).shed
  | rsqrt => exact (execRsqrt_kept (eqn := h)).shed
  | sqrt => exact (execSqrt_kept (eqn := h)).shed
  | div => exact (execDiv_kept (eqn := h)).shed
  | exp2 => exact (execExp2_kept (eqn := h)).shed
  | exp => exact (execExp_kept (eqn := h)).shed
  | log2 => exact (execLog2_kept (eqn := h)).shed
  | ln => exact (execLn_kept (eqn := h)).shed
  | sinpi => exact (execSinpi_kept (eqn := h)).shed
  | cospi => exact (execCospi_kept (eqn := h)).shed
  | tanh => exact (execTanh_kept (eqn := h)).shed
  | sigmoid => exact (execSigmoid_kept (eqn := h)).shed
  | sfg => exact (execSfg_kept (eqn := h)).shed
  | rowRstat => exact (execRowRstat_kept (eqn := h)).shed
  | rowLnorm => exact (execRowLnorm_kept (eqn := h)).shed
  | rowRmsnorm => exact (execRowRmsnorm_kept (eqn := h)).shed
  | rowSmax => exact (execRowSmax_kept (eqn := h)).shed
  | rowSmaxStep => exact (execRowSmaxStep_kept (eqn := h)).shed
  | rowSmaxFin => exact (execRowSmaxFin_kept (eqn := h)).shed
  | kvaddr => exact (execKvaddr_kept (eqn := h)).shed
  | kvput => exact (execKvput_kept (eqn := h)).shed
  | rngInstruction => exact (execRngInstruction_kept (eqn := h)).shed
  | rowPlace => exact (execRowPlace_kept (eqn := h)).shed
  | reservationRetry => exact (execReservationRetry_kept (eqn := h)).shed
  | reservationStallTimeout => exact (execReservationStallTimeout_kept (eqn := h)).shed
  | fillTimeoutExpiry => exact (execFillTimeoutExpiry_kept (eqn := h)).shed
  | blockClose => exact (execBlockClose_kept (eqn := h)).shed
  | blockLeaveEntry => exact (execBlockLeaveEntry_kept (eqn := h)).shed
  | blockTransfer => exact (execBlockTransfer_kept (eqn := h)).shed
  | meshHandshakeParityError => exact (execMeshHandshakeParityError_kept (eqn := h)).shed
  | sweepStart => exact (execSweepStart_kept (eqn := h)).shed
  | loadNoticeElapsed => exact (execLoadNoticeElapsed_kept (eqn := h)).shed
  | stageOperationComplete => exact (execStageOperationComplete_kept (eqn := h)).shed
  | rowExit => exact (execRowExit_kept (eqn := h)).shed
  | roleMoveLoaded => exact (execRoleMoveLoaded_kept (eqn := h)).shed
  | reloadPartition => exact (execReloadPartition_kept (eqn := h)).shed
  | changeSectionsStaged => exact (execChangeSectionsStaged_kept (eqn := h)).shed
  | clusterOldGenDrained => exact (execClusterOldGenDrained_kept (eqn := h)).shed
  | partitionSwitched => exact (execPartitionSwitched_kept (eqn := h)).shed
  | oldGenerationRelease => exact (execOldGenerationRelease_kept (eqn := h)).shed
  | entryHoldTimeout => exact (execEntryHoldTimeout_kept (eqn := h)).shed
  | trainStep => exact (execTrainStep_kept (eqn := h)).shed
  | trainReadersDrained => exact (execTrainReadersDrained_kept (eqn := h)).shed
  | trainUpdate => exact (execTrainUpdate_kept (eqn := h)).shed
  | nop => exact (execNop_kept (eqn := h)).shed
  | identify => exact (execIdentify_kept (eqn := h)).shed
  | loadObject => exact (execLoadObject_kept (eqn := h)).shed
  | readObject => exact (execReadObject_kept (eqn := h)).shed
  | rangeOp => exact (execRangeOp_kept (eqn := h)).shed
  | prefetch => exact (execPrefetch_kept (eqn := h)).shed
  | flush => exact (execFlush_kept (eqn := h)).shed
  | invalidate => exact (execInvalidate_kept (eqn := h)).shed
  | dead => exact (execDead_kept (eqn := h)).shed
  | live => exact (execLive_kept (eqn := h)).shed
  | rangeOpComplete => exact (execRangeOpComplete_kept (eqn := h)).shed
  | runPipeline => exact (execRunPipeline_kept (eqn := h)).shed
  | seqOpen => exact (execSeqOpen_kept (eqn := h)).shed
  | seqAppend => exact (execSeqAppend_kept (eqn := h)).shed
  | seqFork => exact (execSeqFork_kept (eqn := h)).shed
  | kvCopyComplete => exact (execKvCopyComplete_kept (eqn := h)).shed
  | seqClose => exact (execSeqClose_kept (eqn := h)).shed
  | seqPreempt => exact (execSeqPreempt_kept (eqn := h)).shed
  | swapOutComplete => exact (execSwapOutComplete_kept (eqn := h)).shed
  | seqResume => exact (execSeqResume_kept (eqn := h)).shed
  | swapInComplete => exact (execSwapInComplete_kept (eqn := h)).shed
  | swapAreaWrite => exact (execSwapAreaWrite_kept (eqn := h)).shed
  | seqSelWrite => exact (execSeqSelWrite_kept (eqn := h)).shed
  | querySubmit => exact (execQuerySubmit_kept (eqn := h)).shed
  | queryCancel => exact (execQueryCancel_kept (eqn := h)).shed
  | shardLoad => exact (execShardLoad_kept (eqn := h)).shed
  | ringBrake => exact (execRingBrake_kept (eqn := h)).shed
  | ringRelease => exact (execRingRelease_kept (eqn := h)).shed
  | nvmWrite sq cid content => exact absurd rfl (hwrite sq cid content)
  | journalRead => exact (execJournalRead_kept (eqn := h)).shed
  | sliceRead => exact (execSliceRead_kept (eqn := h)).shed
  | sliceStore => exact (execSliceStore_kept (eqn := h)).shed
  | sliceFillComplete => exact (execSliceFillComplete_kept (eqn := h)).shed
  | reductionRequest => exact (execReductionRequest_kept (eqn := h)).shed
  | ulCorrectableError => exact (execUlCorrectableError_kept (eqn := h)).shed
  | correctionLogExpiry => exact (execCorrectionLogExpiry_kept (eqn := h)).shed
  | ulUncorrectableClean => exact (execUlUncorrectableClean_kept (eqn := h)).shed
  | ulUncorrectableDirty => exact (execUlUncorrectableDirty_kept (eqn := h)).shed
  | tagError => exact (execTagError_kept (eqn := h)).shed
  | scrubUlVisit => exact (execScrubUlVisit_kept (eqn := h)).shed
  | scrubHbmVisit => exact (execScrubHbmVisit_kept (eqn := h)).shed
  | hbmCorrectableError => exact (execHbmCorrectableError_kept (eqn := h)).shed
  | sliceDrainComplete => exact (execSliceDrainComplete_kept (eqn := h)).shed
  | pinRecomputeComplete => exact (execPinRecomputeComplete_kept (eqn := h)).shed
  | emptyFrame => exact (execEmptyFrame_kept (eqn := h)).shed
  | corpusFrame => exact (execCorpusFrame_kept (eqn := h)).shed
  | topNote => exact (execTopNote_kept (eqn := h)).shed
  | segment => exact (execSegment_kept (eqn := h)).shed
  | markerIntervalExpiry => exact (execMarkerIntervalExpiry_kept (eqn := h)).shed
  | queryFrame => exact (execQueryFrame_kept (eqn := h)).shed
  | shardFrame => exact (execShardFrame_kept (eqn := h)).shed
  | scoreRoundEnd => exact (execScoreRoundEnd_kept (eqn := h)).shed
  | shedCheck => exact (execShedCheck_kept (eqn := h)).shed
  | fillInTimeout => exact (execFillInTimeout_kept (eqn := h)).shed
  | discover => exact (execDiscover_kept (eqn := h)).shed
  | confirm => exact (execConfirm_kept (eqn := h)).shed
  | join => exact (execJoin_kept (eqn := h)).shed
  | directory => exact (execDirectory_kept (eqn := h)).shed
  | takeover => exact (execTakeover_kept (eqn := h)).shed
  | abandon => exact (execAbandon_kept (eqn := h)).shed
  | bypassed => exact (execBypassed_kept (eqn := h)).shed
  | leave => exact (execLeave_kept (eqn := h)).shed
  | demote => exact (execDemote_kept (eqn := h)).shed
  | tol => exact (execTol_kept (eqn := h)).shed
  | resume => exact (execResume_kept (eqn := h)).shed
  | qcancel => exact (execQcancel_kept (eqn := h)).shed
  | fedgen => exact (execFedgen_kept (eqn := h)).shed
  | result => exact (execResult_kept (eqn := h)).shed
  | refuse => exact (execRefuse_kept (eqn := h)).shed
  | homeBehind => exact (execHomeBehind_kept (eqn := h)).shed
  | fillIn => exact (execFillIn_kept (eqn := h)).shed
  | report => exact (execReport_kept (eqn := h)).shed
  | gap => exact (execGap_kept (eqn := h)).shed
  | staged => exact (execStaged_kept (eqn := h)).shed
  | quiet => exact (execQuiet_kept (eqn := h)).shed
  | linkReady => exact (execLinkReady_kept (eqn := h)).shed
  | returnResendTimeout => exact (execReturnResendTimeout_kept (eqn := h)).shed
  | controlPieceTimeout => exact (execControlPieceTimeout_kept (eqn := h)).shed
  | lopRetry => exact (execLopRetry_kept (eqn := h)).shed
  | retryTimeout => exact (execRetryTimeout_kept (eqn := h)).shed
  | replaySlot => exact (execReplaySlot_kept (eqn := h)).shed
  | lopBrake => exact (execLopBrake_kept (eqn := h)).shed
  | lopRelease => exact (execLopRelease_kept (eqn := h)).shed
  | brakeResendTimeout => exact (execBrakeResendTimeout_kept (eqn := h)).shed
  | lopBypass => exact (execLopBypass_kept (eqn := h)).shed
  | heartbeat => exact (execHeartbeat_kept (eqn := h)).shed
  | lastSlot => exact (execLastSlot_kept (eqn := h)).shed
  | sdLossTimeout => exact (execSdLossTimeout_kept (eqn := h)).shed
  | laneBerWindow => exact (execLaneBerWindow_kept (eqn := h)).shed
  | portQualified => exact (execPortQualified_kept (eqn := h)).shed
  | formationStart => exact (execFormationStart_kept (eqn := h)).shed
  | discoverRetry => exact (execDiscoverRetry_kept (eqn := h)).shed
  | formationTimeout => exact (execFormationTimeout_kept (eqn := h)).shed
  | reportCollectionComplete => exact (execReportCollectionComplete_kept (eqn := h)).shed
  | slotAudit u => exact (execSlotAudit_kept u s h).shed
  | standbyTakeoverTimeout => exact (execStandbyTakeoverTimeout_kept (eqn := h)).shed
  | fedTimeout => exact (execFedTimeout_kept (eqn := h)).shed
  | regulationWindowEnd => exact (execRegulationWindowEnd_kept (eqn := h)).shed
  | guaranteeWrite => exact (execGuaranteeWrite_kept (eqn := h)).shed
  | classReservationWrite => exact (execClassReservationWrite_kept (eqn := h)).shed
  | sqTailDoorbell => exact (execSqTailDoorbell_kept (eqn := h)).shed
  | cqHeadDoorbell => exact (execCqHeadDoorbell_kept (eqn := h)).shed
  | sqEnable => exact (execSqEnable_kept (eqn := h)).shed
  | sqDisable => exact (execSqDisable_kept (eqn := h)).shed
  | cqEnable => exact (execCqEnable_kept (eqn := h)).shed
  | cqDisable => exact (execCqDisable_kept (eqn := h)).shed
  | commandFetch => exact (execCommandFetch_kept (eqn := h)).shed
  | deferTimeout => exact (execDeferTimeout_kept (eqn := h)).shed
  | interruptCoalesceTimeout => exact (execInterruptCoalesceTimeout_kept (eqn := h)).shed
  | slotRelease => exact (execSlotRelease_kept (eqn := h)).shed
  | pcieHotReset => exact execPcieHotReset_shed (eqn := h)
  | pcieLinkFailure => exact execPcieLinkFailure_shed (eqn := h)
  | flashOperationComplete ok => exact absurd rfl (hend ok)
  | journalPageProgram => exact (execJournalPageProgram_kept (eqn := h)).shed
  | journalCompaction => exact (execJournalCompaction_kept (eqn := h)).shed
  | warmResetRequest => exact (execWarmResetRequest_kept (eqn := h)).shed
  | clusterResetRequest => exact (execClusterResetRequest_kept (eqn := h)).shed
  | boardNoticeRaise => exact (execBoardNoticeRaise_kept (eqn := h)).shed
  | boardHoldExpiry => exact (execBoardHoldExpiry_kept (eqn := h)).shed
  | phaseShed => exact (execPhaseShed_kept (eqn := h)).shed
  | phaseMismatch => exact (execPhaseMismatch_kept (eqn := h)).shed
  | phaseRetry => exact (execPhaseRetry_kept (eqn := h)).shed
  | phaseTrackWindowEnd => exact (execPhaseTrackWindowEnd_kept (eqn := h)).shed
  | regionWakeRequest => exact (execRegionWakeRequest_kept (eqn := h)).shed
  | wakeSlotWaitTimeout => exact (execWakeSlotWaitTimeout_kept (eqn := h)).shed
  | regionWakeComplete => exact (execRegionWakeComplete_kept (eqn := h)).shed
  | regionVsetWrite => exact (execRegionVsetWrite_kept (eqn := h)).shed
  | q2DwellExpiry => exact (execQ2DwellExpiry_kept (eqn := h)).shed
  | idleDwellExpiry => exact (execIdleDwellExpiry_kept (eqn := h)).shed
  | deviceWake => exact (execDeviceWake_kept (eqn := h)).shed
  | deviceWakeComplete => exact (execDeviceWakeComplete_kept (eqn := h)).shed
  | hkChannelRead => exact (execHkChannelRead_kept (eqn := h)).shed
  | housekeepingRound => exact execHousekeepingRound_shed (eqn := h)
  | guardSecond => exact (execGuardSecond_kept (eqn := h)).shed
  | i3cEntdaa => exact (execI3cEntdaa_kept (eqn := h)).shed
  | i3cCommonCommand => exact (execI3cCommonCommand_kept (eqn := h)).shed
  | i3cPrivateWrite => exact (execI3cPrivateWrite_kept (eqn := h)).shed
  | i3cPrivateRead => exact (execI3cPrivateRead_kept (eqn := h)).shed
  | tapReset => exact (execTapReset_kept (eqn := h)).shed
  | idcode => exact (execIdcode_kept (eqn := h)).shed
  | samplePreload => exact (execSamplePreload_kept (eqn := h)).shed
  | extest => exact (execExtest_kept (eqn := h)).shed
  | extestPulse => exact (execExtestPulse_kept (eqn := h)).shed
  | extestTrain => exact (execExtestTrain_kept (eqn := h)).shed
  | clamp => exact (execClamp_kept (eqn := h)).shed
  | highz => exact (execHighz_kept (eqn := h)).shed
  | bypass => exact (execBypass_kept (eqn := h)).shed
  | roleStrapChange => exact (execRoleStrapChange_kept (eqn := h)).shed
  | refclkPresent => exact (execRefclkPresent_kept (eqn := h)).shed
  | pcieLinkDown => exact (execPcieLinkDown_kept (eqn := h)).shed
  | queryPlacementTimeout => exact (execQueryPlacementTimeout_kept (eqn := h)).shed
  | brakeStoppingDistanceElapsed => exact (execBrakeStoppingDistanceElapsed_kept (eqn := h)).shed
  | boardNoticeElapsed => exact (execBoardNoticeElapsed_kept (eqn := h)).shed
  | changeRestoreComplete => exact (execChangeRestoreComplete_kept (eqn := h)).shed
  | rowReplacementComplete => exact (execRowReplacementComplete_kept (eqn := h)).shed
  | fallThroughComplete => exact (execFallThroughComplete_kept (eqn := h)).shed
  | alignSlot => exact (execAlignSlot_kept (eqn := h)).shed
  | alignmentLockLost => exact (execAlignmentLockLost_kept (eqn := h)).shed

theorem exec_good {c : Instr} {s t : State} (h : exec c s = .next t) : Good s t := by
  by_cases hwrite : ∃ sq cid content, c = .nvmWrite sq cid content
  · obtain ⟨sq, cid, content, rfl⟩ := hwrite
    exact execNvmWrite_good sq cid content s h
  by_cases hend : ∃ ok, c = .flashOperationComplete ok
  · obtain ⟨ok, rfl⟩ := hend
    exact execFlashOperationComplete_good ok s h
  · exact (exec_shed (fun sq cid content e => hwrite ⟨sq, cid, content, e⟩) (fun ok e => hend ⟨ok, e⟩) h).good

/-! ## What a step does -/

/-- A step is a tick on an empty queue, or else the command at the queue's front. -/
theorem step_cases {s t : State} (h : step s = .next t) :
    (s.pending = [] ∧ t = s.tick) ∨ ∃ c rest, s.pending = c :: rest ∧ exec c { s with pending := rest } = .next t := by
  unfold step at h
  split at h
  next hempty =>
    injection h with ht
    exact .inl ⟨hempty, ht.symm⟩
  next c rest hfront => exact .inr ⟨c, rest, hfront, h⟩

/-! ## The obligation -/

/-- Settles O5: a tick and every command keep the canonical form, and taking a command off the queue does not touch it. Which form is
the canonical one is the model's choice (assumption 4). -/
theorem stepKeepsCanon : Obligations.StepKeepsCanon := by
  unfold Obligations.StepKeepsCanon
  intro s t hcanon hstep
  obtain ⟨-, rfl⟩ | ⟨c, rest, -, hexec⟩ := step_cases hstep
  · exact (State.tick_kept s (Kept.rfl s)).canon hcanon
  · exact (exec_good hexec).canon hcanon

end Sys2Proof.Machine
end

section
/-! SUPPORT. The underlayer (08_underlayer.md R236 to R263) and the events of the ledger that no command of the host brings
(07_kv_ledger.md R211, R219, R223, R225): what each command does where its checks pass. -/

namespace Sys2Proof.Machine

/-! ## Range operations (R245, R246) -/

/-- A range operation that is ready acts on the lines of its range, by its own code, and is marked as applied. -/
theorem State.runRange_ready {s : State} {id op : Nat} {r : RangeRec}
    (hr : s.ul.ranges.find? (fun r => r.id = id && r.op = op) = some r) (hready : s.rangeReady r = true) :
    let s1 := s.applyRange op r.base r.size r.cls
    s.runRange id op = { s1 with ul := { s1.ul with
      ranges := s1.ul.ranges.map (fun x => if x.id = id then { x with applied := true } else x) } } := by
  have hop : r.op = op := by
    have named := List.find?_some hr
    simp only [Bool.and_eq_true, decide_eq_true_eq] at named
    exact named.2
  simp only [State.runRange, hr, hready, hop, not_true_eq_false, if_false]

theorem exec_rangeOpComplete {s : State} {id : Nat} {r : RangeRec}
    (hr : s.ul.ranges.find? (fun r => r.id = id && r.applied) = some r) :
    let s1 := { s with ul := { s.ul with ranges := s.ul.ranges.filter (fun x => x.id ≠ id) } }
    exec (.rangeOpComplete id) s = .next (match r.cmd with
      | some (sq, cid) => s1.complete sq cid St.OK
      | none => s1) := by
  change execRangeOpComplete id s = _
  simp only [execRangeOpComplete, hr] <;> rfl

/-! ## The ledger's own events (R211, R219, R223, R225, R228) -/

theorem exec_reservationStallTimeout {s : State} {w : WaitRef} {x : LWait} (hx : s.waitNamed w = some x) :
    exec (.reservationStallTimeout w) s = .next (s.stallOut x).noteConds := by
  change execReservationStallTimeout w s = _
  simp only [execReservationStallTimeout, hx]

theorem exec_kvCopyComplete {s : State} {id : Nat} {k : KvCopy} {q : Seq}
    (hk : s.kvl.copies.find? (fun k => k.id = id) = some k) (hq : s.seq? k.seq = some q) :
    exec (.kvCopyComplete id) s = .next (s.endCopy k q) := by
  change execKvCopyComplete id s = _
  simp only [execKvCopyComplete, hk, hq]

section Swap

variable {s : State} {n : Nat} {q : Seq} (hq : s.seq? n = some q)
include hq

/-- A victim without rows and copies under way leaves the pool, or, with a poisoned page, ends faulted. -/
theorem exec_swapOutComplete (hstate : q.state = 2) (hrows : s.rowsOfSeq n = 0) (hcopies : ∀ k ∈ s.kvl.copies, k.seq ≠ n) :
    exec (.swapOutComplete n) s = .next (if q.pages.any (fun e => (s.pageRef e.unit).poison) then
      (((s.freeSwap q.swapResv).setSeq n { q with swapResv := [] }).faultSeq n).syncKv
      else s.swapOut n q) := by
  have free : ¬ s.kvl.copies.any (fun k => k.seq = n) = true := by
    simpa only [List.any_eq_true, decide_eq_true_eq, not_exists, not_and] using hcopies
  have ends : ¬ (q.state ≠ 2 ∨ s.rowsOfSeq n ≠ 0 ∨ s.kvl.copies.any (fun k => k.seq = n) = true) :=
    not_or.2 ⟨not_not_intro hstate, not_or.2 ⟨not_not_intro hrows, free⟩⟩
  change execSwapOutComplete n s = _
  simp only [execSwapOutComplete, hq]
  exact congrArg _ (if_neg ends)

/-- A resume whose pages have been read ends: the sequence is open again, or, after a read error or a page that fails its CRC,
faulted. -/
theorem exec_swapInComplete (hstate : q.state = 4) (readError : Bool) :
    exec (.swapInComplete n readError) s = .next (if readError || !q.pages.all (fun e => s.swapCrcOk e) then (s.swapFail n q).syncKv
      else ((((s.swapBack n q true).modSeq n (fun q => { q with state := 1 })).endWaitCmd n St.OK).syncKv).noteConds) := by
  change execSwapInComplete n readError s = _
  simp only [execSwapInComplete, hq]
  exact congrArg _ (if_neg (not_not_intro hstate))

end Swap

/-! ## Requests at their points (R236, R237, R249, R339, R340) -/

/-- A request that waits already, or that a master outside the clusters issues now, takes part in one grant cycle of the equator, where
it waits there, and in one of its slice's port; the port serves whichever request it grants. -/
theorem State.atSlice_issued {s : State} {o : UlOp} {p : Place} (hp : s.home o.r.line = some p) (what : LostData) :
    let q := s.classed o
    let i := pointNo p.slice (!q.isRead)
    let e := eqPoint p.half
    let there := (s.point i).waiting.contains q || (s.point e).waiting.contains q
    (there = true ∨ 16 ≤ q.r.master) → isScrub q = false →
    let s0 := { s with ul := { s.ul with out := [] } }
    let s1 := if there then s0 else s0.submit q
    let s2 := if (s1.point e).waiting.contains q then s1.crossEquator p.half else s1
    s.atSlice o what = match s2.grant i s2.grantable with
      | (s3, some x) => s3.portServes x .clean (if x = q then what else .plain)
      | (s3, none) => s3 := by
  intro q i e there hissued hscrub
  have goes : ¬ (isScrub q = true ∨ (¬ there = true ∧ q.r.master < 16)) := by
    rintro (h | ⟨hnew, hcluster⟩)
    · exact Bool.false_ne_true (hscrub.symm.trans h)
    · exact hissued.elim hnew (Nat.not_le.2 hcluster)
  unfold State.atSlice
  rw [hp]
  exact if_neg goes

/-! ## Fills and fall-throughs (R236, R239, R250, R339) -/

section Entries

variable {s : State} {line x : Nat} {m : Mshr} (hm : s.entryFor line = some (x, m))
include hm

/-- A fill ends once the channel has granted it, unless a resident PIN window's fill finds no candidate. -/
theorem exec_sliceFillComplete (hfill : m.falling = false) :
    exec (.sliceFillComplete line) s = 
      .next (((s.channelTurn line (fillOf line)).bind fun s0 => s0.fillEntry x line m).getD s) := by
  change execSliceFillComplete line s = _
  simp only [execSliceFillComplete, hm, hfill, Bool.false_eq_true, if_false]
  cases s.channelTurn line (fillOf line) <;> rfl

/-- A reduction at the channel controller ends once the channel has granted it. -/
theorem exec_fallThroughComplete (hfalls : m.falling = true) :
    exec (.fallThroughComplete line) s = .next ((s.channelTurn line (fillOf line)).elim s fun s0 =>
      let s1 := ({ s0 with ul := { s0.ul with out := [] } }).closeEntry x line
      ((s1.fallThrough line m).drainInq x).settleSlice) := by
  change execFallThroughComplete line s = _
  simp only [execFallThroughComplete, hm, hfalls, not_true_eq_false, if_false]
  cases s.channelTurn line (fillOf line) <;> rfl

end Entries

/-! ## Errors of a word, a sector, a tag (R252 to R257, R260) -/

/-- A word of a slice in service is checked by the code of the line that holds it. -/
theorem exec_ulCorrectableError {s : State} {slice die row : Nat} {w : BadWord} (hslice : slice < 128) (hdie : die < 2)
    (hrow : row < 16384) (hword : w.word < 128) (hon : s.sliceState slice ≠ 2) :
    exec (.ulCorrectableError slice die row w) s = .next (s.checkWord slice die row w.word w.bits w.bit0) := by
  have inside : ¬ (128 ≤ slice ∨ 2 ≤ die ∨ 16384 ≤ row ∨ 128 ≤ w.word ∨ s.sliceState slice = 2) := by omega
  exact congrArg Host.Outcome.next (if_neg inside)

theorem State.checkWord_line {s : State} {slice die row word : Nat} {l : Line}
    (hl : tabFind s.ul.lines (wordKey slice die row word) = some l) (bits : Nat) (bit0 : Bool) :
    s.checkWord slice die row word bits bit0 = if bit0 ≠ lineParity l.tag ∨ s.corrects l < bits then
      s.failCached (wordKey slice die row word) l (word % 32 / 4) .plain else s.correctUl slice die row word := by
  simp only [State.checkWord, hl]

theorem State.checkWord_noLine {s : State} {slice die row word : Nat}
    (hl : tabFind s.ul.lines (wordKey slice die row word) = none) (bits : Nat) (bit0 : Bool) :
    s.checkWord slice die row word bits bit0 = if 2 < bits then s else s.correctUl slice die row word := by
  simp only [State.checkWord, hl]

section Lines

variable {s : State} {line sector k : Nat} {l : Line} (hl : s.lineOf line = some (k, l))
include hl

theorem exec_ulUncorrectableClean (hsector : sector < 8) (hvalid : l.valid.getLsbD sector = true)
    (hclean : l.dirty.getLsbD sector = false) : exec (.ulUncorrectableClean line sector) s = .next (s.failClean k) := by
  change execUlUncorrectableClean line sector s = _
  simp only [execUlUncorrectableClean, hl, hsector, hclean, State.failCached, hvalid, not_true_eq_false, Bool.false_eq_true,
    not_false_eq_true, and_self, if_true, if_false]

theorem exec_ulUncorrectableDirty (hsector : sector < 8) (hvalid : l.valid.getLsbD sector = true)
    (hdirty : l.dirty.getLsbD sector = true) (what : LostData) :
    exec (.ulUncorrectableDirty line sector false what) s = .next (s.failDirty k l sector what) := by
  change execUlUncorrectableDirty line sector false what s = _
  simp only [execUlUncorrectableDirty, hl, hsector, hdirty, State.failCached, hvalid, not_true_eq_false, Bool.false_eq_true,
    and_self, if_true, if_false]

theorem exec_tagError (bothFail : Bool) :
    exec (.tagError line bothFail) s = .next (if bothFail then s.loseTag k else s.raise Fld.ULC_EVENTS_TAG_REPAIRED) := by
  change execTagError line bothFail s = _
  simp only [execTagError, hl]

end Lines

theorem exec_hbmCorrectableError {s : State} {ch : Nat} (hch : s.ul.chans.contains ch = true)
    (hon : s.fbit (Fld.ULC_CHAN_RET_RETIRED (ch / 32)) (ch % 32) = false) (row word : Nat) (left : Bool) :
    exec (.hbmCorrectableError ch row word left) s = .next (s.correctHbm ch row word left) := by
  have inService : (s.ul.chans.contains ch && !s.fbit (Fld.ULC_CHAN_RET_RETIRED (ch / 32)) (ch % 32)) = true := by
    simp only [hch, hon, Bool.not_false, Bool.and_self]
  exact congrArg Host.Outcome.next (if_pos inService)

/-! ## Scrubbing (R259, R339) -/

section Scrub

variable {s : State} (hruns : s.scrubRuns = true) (found : ScrubFind) (what : LostData)
include hruns

/-- The positions of a slice out of service are passed over. -/
theorem exec_scrubUlVisit_retired (hoff : s.sliceState (keySlice s.ul.scrubUl) = 2) :
    exec (.scrubUlVisit found what) s = .next (s.ulWalk .clean what) :=
  congrArg Host.Outcome.next ((if_neg (not_not_intro hruns)).trans (if_pos hoff))

/-- The visit asks at the read port of its position's slice, which serves whichever request it grants. -/
theorem exec_scrubUlVisit_port (hon : s.sliceState (keySlice s.ul.scrubUl) ≠ 2) :
    let s1 := ({ s with ul := { s.ul with out := [] } }).askScrub
    exec (.scrubUlVisit found what) s = .next (match s1.grant (pointNo (keySlice s.ul.scrubUl) false) s1.grantable with
      | (t, some x) => t.portServes x found what
      | (t, none) => t) :=
  congrArg Host.Outcome.next ((if_neg (not_not_intro hruns)).trans (if_neg hon))

/-- The visit asks at its line's channel, and advances once that has granted it. -/
theorem exec_scrubHbmVisit (hbytes : s.hbmBytes ≠ 0) :
    let s1 := s.askScrubHbm s.ul.scrubHbm
    exec (.scrubHbmVisit found what) s = .next (match s1.channelTurn s1.ul.scrubHbm isScrub with
      | some t => t.hbmWalk found what
      | none => s1) :=
  congrArg Host.Outcome.next (if_neg (not_or.2 ⟨not_not_intro hruns, hbytes⟩))

end Scrub

/-! ## Rows and slices out of service (R241, R254, R262, R263) -/

theorem exec_sliceDrainComplete {s : State} {slice : Nat} (hdrains : s.sliceState slice = 1) (hm : s.mshrOf slice = [])
    (hq : s.inqOf slice = []) (lost : List (Nat × LostData)) :
    let gone := if s.fld (Fld.ULC_SLICE_CAUSE slice) = 2 then lost else []
    exec (.sliceDrainComplete slice lost) s =
      .next (((s.keysOf slice).foldl (fun s k => s.drainLine gone k) s).endRetire slice).returnHanded :=
  congrArg Host.Outcome.next (if_pos ⟨hdrains, List.isEmpty_iff.2 hm, List.isEmpty_iff.2 hq⟩)

/-! ## The obligations -/

/-- Settles O33: each clause is the law of its command where the command's checks pass. -/
theorem rangesAndLedgerEvents : Obligations.RangesAndLedgerEvents := by
  unfold Obligations.RangesAndLedgerEvents
  refine ⟨fun id op r s hr hready => ?ranges, fun id r s hr => exec_rangeOpComplete hr, fun s => rfl,
    fun w x s hx => exec_reservationStallTimeout hx, fun id k q s hk hq => exec_kvCopyComplete hk hq,
    fun n q s hq hstate hrows hcopies => ?swapOut, fun n q s hq hstate => ?swapIn⟩
  case ranges =>
    have applied := congrArg (Host.Outcome.next (φ := Fault) (ρ := Refusal)) (State.runRange_ready hr hready)
    refine ⟨?_, ?_, ?_, ?_, ?_⟩ <;> rintro rfl <;> exact applied
  case swapOut =>
    rw [exec_swapOutComplete hq hstate hrows hcopies]
    refine ⟨fun whole => congrArg _ (if_neg ?_), fun poisoned => congrArg _ (if_pos (List.any_eq_true.2 poisoned))⟩
    simpa only [List.any_eq_true, not_exists, not_and, Bool.not_eq_true] using whole
  case swapIn =>
    refine ⟨fun whole => ?_, exec_swapInComplete hq hstate true⟩
    have passes : ¬ (false || !q.pages.all (fun e => s.swapCrcOk e)) = true := by
      simp only [List.all_eq_true.2 whole, Bool.not_true, Bool.or_self, Bool.false_eq_true, not_false_eq_true]
    rw [exec_swapInComplete hq hstate false, if_neg passes]

/-- Settles O34: a request of the three kinds is `State.atSlice` of it; an entry's end is a case of what its channel grants. One grant
cycle of the equator and of the port per command, and a channel turn that grants nothing and has no effect, are the model's choice
(assumptions 57 and 142). -/
theorem sliceRequests : Obligations.SliceRequests := by
  unfold Obligations.SliceRequests
  refine ⟨fun o what p s hp => ?requests, fun line x m s hm hfill => ?fills, fun line x m s hm hfalls => ?falls⟩
  case requests =>
    intro q i e there hissued hscrub s0 s1 s2 t
    have served (what : LostData) : .next (s.atSlice o what) = Host.Outcome.next (φ := Fault) (ρ := Refusal) (t what) :=
      congrArg _ (State.atSlice_issued hp what hissued hscrub)
    obtain ⟨kind, r⟩ := o
    refine ⟨?_, ?_, ?_⟩ <;> rintro rfl <;> exact served _
  case fills =>
    rw [exec_sliceFillComplete hm hfill]
    exact ⟨fun s0 t hturn hdone => by simp only [hturn, Option.bind_some, hdone, Option.getD_some],
      fun s0 hturn hwaits => by simp only [hturn, Option.bind_some, hwaits, Option.getD_none],
      fun hturn => by simp only [hturn, Option.bind_none, Option.getD_none]⟩
  case falls =>
    rw [exec_fallThroughComplete hm hfalls]
    exact ⟨fun s0 hturn => by simp only [hturn, Option.elim_some], fun hturn => by simp only [hturn, Option.elim_none]⟩

/-- Settles O35: each clause is the law of its command where the command's checks pass. How many bits are wrong, bit 0, and the check of
a word that no line holds are the model's choice (assumption 134), as are what a scrub visit checks and which entry leaves the log
(assumption 62). -/
theorem underlayerErrors : Obligations.UnderlayerErrors := by
  unfold Obligations.UnderlayerErrors
  refine ⟨fun slice die row word bits bit0 s hslice hdie hrow hword hon => ?words, fun slice s => rfl,
    fun line sector k l s hl hsector hvalid hclean => exec_ulUncorrectableClean hl hsector hvalid hclean,
    fun line sector k what l s hl hsector hvalid hdirty => exec_ulUncorrectableDirty hl hsector hvalid hdirty what,
    fun line sector what s => rfl, fun line k l s hl => ⟨exec_tagError hl false, exec_tagError hl true⟩,
    fun found what s hruns => ⟨exec_scrubUlVisit_retired hruns found what, exec_scrubUlVisit_port hruns found what⟩,
    fun found what s hruns hbytes => exec_scrubHbmVisit hruns found what hbytes,
    fun ch row word left s hch hon => exec_hbmCorrectableError hch hon row word left,
    fun slice lost s hdrains hm hq => exec_sliceDrainComplete hdrains hm hq lost,
    fun s hdue => congrArg Host.Outcome.next (if_pos hdue),
    fun slice die row s hjob => congrArg Host.Outcome.next (if_pos hjob)⟩
  case words =>
    rw [exec_ulCorrectableError hslice hdie hrow hword hon]
    refine ⟨fun l hl hbit0 hbits => ?_, fun l hl hfails => ?_, fun hl hbits => ?_⟩
    · rw [State.checkWord_line hl, if_neg (not_or.2 ⟨not_not_intro hbit0, Nat.not_lt.2 hbits⟩)]
    · rw [State.checkWord_line hl, if_pos hfails]
    · rw [State.checkWord_noLine hl, if_neg (Nat.not_lt.2 hbits)]

end Sys2Proof.Machine
end

section
/-! SUPPORT. The belt (09_belt_scoring.md R266 to R298; 10_rings.md R302 to R331): the frames' commands by what their slot's checks
answer, the host's commands on queries and the brake, and the belt's own events where their checks pass. -/

namespace Sys2Proof.Machine

/-! ## The frames' commands (R266 to R283, R302 to R307, R320) -/

/-- The command receives a FRAME slot as one of a type of frame, and acts on it when intact; of another type it does nothing. -/
def Receives (c : Instr) (rx : Rx) (f : Frame) (typed : Prop) [Decidable typed] (act : State → Nat → Frame → State) : Prop :=
  ∀ s : State, exec c s = .next (if typed then (s.receive rx f (fun s f => act s rx.port f)).beltDone else s)

section Slot

variable (rx : Rx) (f : Frame)

theorem receives_emptyFrame : Receives (.emptyFrame rx f) rx f (fType f = FT.EMPTY) State.emptyAct := fun _ => rfl
theorem receives_corpusFrame : Receives (.corpusFrame rx f) rx f (fType f = FT.CORPUS) State.corpusAct := fun _ => rfl
theorem receives_topNote : Receives (.topNote rx f) rx f (fType f = FT.TOP_NOTE) State.markerAct := fun _ => rfl
theorem receives_segment : Receives (.segment rx f) rx f (fType f = FT.SEGMENT) State.markerAct := fun _ => rfl
theorem receives_queryFrame : Receives (.queryFrame rx f) rx f (fType f = FT.QUERY) State.queryAct := fun _ => rfl
theorem receives_shardFrame : Receives (.shardFrame rx f) rx f (fType f = FT.SHARD) State.shardAct := fun _ => rfl
theorem receives_discover : Receives (.discover rx f) rx f (isCall f 1 = true) State.discoverAct := fun _ => rfl
theorem receives_confirm : Receives (.confirm rx f) rx f (isCall f 2 = true) State.confirmAct := fun _ => rfl
theorem receives_join : Receives (.join rx f) rx f (isCall f 3 = true) State.joinAct := fun _ => rfl

end Slot

namespace Receives

variable {c : Instr} {rx : Rx} {f : Frame} {typed : Prop} [Decidable typed] {act : State → Nat → Frame → State}

theorem of_type (h : Receives c rx f typed act) (ht : typed) (s : State) :
    exec c s = .next (s.receive rx f (fun s f => act s rx.port f)).beltDone :=
  (h s).trans (congrArg Host.Outcome.next (if_pos ht))

theorem of_otherType (h : Receives c rx f typed act) (ht : ¬ typed) (s : State) : exec c s = .next s :=
  (h s).trans (congrArg Host.Outcome.next (if_neg ht))

theorem of_takes {s : State} (h : Receives c rx f typed act) (ht : typed) (hs : s.Takes rx f) :
    exec c s = .next (act (s.taken rx f) rx.port f).beltDone := by
  rw [h.of_type ht, State.receive_takes hs]

/-- What becomes of a frame that is not taken: dropped on another port, sent on stomped, or bad here (R306, R307, R320). -/
theorem of_notTaken (h : Receives c rx f typed act) (ht : typed) (s : State) :
    ((s.portUp rx.port && s.onPath rx.port) = false → exec c s = .next s.clearTx.beltDone) ∧
    (s.portUp rx.port = true → s.onPath rx.port = true →
      let s1 := (s.clearTx.rxCheck rx 0 f).1
      (rxIs rx 0 = true → rxFrame rx f = .inverted → exec c s = .next (s1.forwardStomped rx.port f).beltDone) ∧
      (rxIs rx 0 = false ∨ rxFrame rx f = .bad → exec c s = .next (s1.badAct rx.port f).beltDone)) := by
  rw [h.of_type ht]
  refine ⟨fun hdown => ?_, fun hup hpath => ⟨fun hsd hinverted => ?_, fun hbad => ?_⟩⟩
  · rw [State.receive_down hdown]
  · rw [State.receive_stomped hup hpath hsd hinverted]
  · rw [State.receive_bad hup hpath hbad]

end Receives

/-! ## The host's commands on the belt (R279, R330, R364) -/

/-- An accepted QUERY_SUBMIT goes by its scope: this device's pending queries, the ring, or the federation. -/
theorem exec_querySubmit_accepted {s : State} {sq cid : Nat} {c : Cmd} (h : s.clearTx.Accepts sq cid 0x30 queryCheck c) :
    let s1 := s.clearTx.started c 0
    let q := s1.cmdQuery c
    let s2 := s1.dmaIn 1024
    exec (.querySubmit sq cid) s = .next (if c.f 5 1 0 = 0 then
        ({ s2 with belt := { s2.belt with pend := s2.belt.pend ++ [q] } }).syncBelt
      else if c.f 5 1 0 = 1 then s2.takeQuery q false
      else s2.fedSubmit q).beltDone := by
  intro s1 q s2
  refine congrArg (fun t => Host.Outcome.next (State.beltDone t)) ((State.accept_of_accepts h noRows _).trans ?_)
  split
  next hlocal => exact (if_pos hlocal).symm
  next hring => rw [hring]; rfl
  next hnotLocal hnotRing => rw [if_neg hnotLocal, if_neg hnotRing]; rfl

/-! ## Rounds and sheds (R282 to R287) -/

/-- A tile that mismatched is a transient or is retired, and the round ends unless it runs no longer. -/
theorem exec_scoreRoundEnd_fault {s : State} {c t p : Nat} (hruns : s.roundRuns c = true) (hp : s.phys? c t = some p) (twice : Bool) :
    let s1 := if twice then s.clearTx.retireTile c p Ev.TILE_TRANSIENT else s.clearTx.transient c p
    exec (.scoreRoundEnd c (some (t, twice))) s =
      .next (if s1.roundRuns c then (s1.roundEnd c).roundIdle c else s1).beltDone := by
  have hp' : s.clearTx.phys? c t = some p := hp
  refine congrArg Host.Outcome.next ((if_pos hruns).trans ?_)
  simp only [hp']

section Shed

variable {s : State} {c : Nat} (hscores : s.scoreClusters.contains c = true) (hup : s.clusterUp c = true)
include hscores hup

/-- A backlog at or over the high water mark that has not shrunk sheds the next home, where there is one. -/
theorem exec_shedCheck_high :
    let k := s.scoreCl c
    let b := s.backlog c
    let s1 := s.setScore c { k with backlog := b }
    s1.highWater ≤ b → k.backlog ≤ b → exec (.shedCheck c) s = .next (((match s1.nextShed k with
      | some p =>
        let k1 := s1.scoreCl c
        let s2 := s1.setScore c { k1 with shed := k1.shed ++ [p], lastShed := some p }
        ((s2.raise Fld.BLT_EVENTS_SHED).event Ev.BELT_SHED c).letPassTap c (fun f => f.home = p)
      | none => s1).settleScore c).syncBelt).beltDone := by
  intro k b s1 hhigh hgrows
  refine congrArg Host.Outcome.next ((if_pos ⟨hscores, hup⟩).trans ?_)
  exact congrArg (fun t => ((State.settleScore t c).syncBelt).beltDone) (if_pos ⟨hhigh, hgrows⟩)

/-- Any other backlog takes the oldest home back once it is at or under the low water mark. -/
theorem exec_shedCheck_low :
    let k := s.scoreCl c
    let b := s.backlog c
    let s1 := s.setScore c { k with backlog := b }
    ¬ (s1.highWater ≤ b ∧ k.backlog ≤ b) → exec (.shedCheck c) s = .next (((if b ≤ s1.lowWater then
        s1.setScore c { s1.scoreCl c with shed := (s1.scoreCl c).shed.drop 1 }
      else s1).settleScore c).syncBelt).beltDone := by
  intro k b s1 hother
  refine congrArg Host.Outcome.next ((if_pos ⟨hscores, hup⟩).trans ?_)
  exact congrArg (fun t => ((State.settleScore t c).syncBelt).beltDone) (if_neg hother)

end Shed

/-! ## The manager's audit, and waits that run out (R316, R331, R364) -/

theorem exec_slotAudit_due {s : State} {due : Nat} {counts : Tab Nat} (haudit : s.ring.audit = some (due, counts))
    (hmanager : s.isManager = true) (hformed : s.formed = true) (hphase : s.ring.phase = .formed) (hdue : due ≤ s.now) :
    let owners := (s.belt.dir.homes.filterMap (fun h => s.ownerNow h)).eraseDups
    let s1 := s.clearTx
    exec (.slotAudit ()) s = .next (owners.foldl (fun s o => s.auditOwner o (tabGet 0 counts o) (s.ownedCount o))
      { s1 with ring := { s1.ring with audit := none } }) := by
  change execSlotAudit () s = _
  simp only [execSlotAudit, haudit]
  exact congrArg Host.Outcome.next (if_pos ⟨hmanager, hformed, hphase, hdue⟩)

theorem exec_fedTimeout {s : State} {qnum : W64} {q : FedQuery} (hq : s.ring.fed.find? (fun q => q.qnum = qnum) = some q) :
    exec (.fedTimeout qnum) s = .next (s.mergeFed q).settleCancels := by
  change execFedTimeout qnum s = _
  simp only [execFedTimeout, hq]

theorem exec_queryPlacementTimeout {s : State} {sq cid : Nat} {c : Cmd} {p : Placed} (hc : s.cmd? sq cid = some c)
    (hp : s.ring.placed.find? (fun p => p.q.src = .host c.uid && p.dest.isNone) = some p) :
    exec (.queryPlacementTimeout sq cid) s =
      .next ((s.clearTx.dropPlaced p.qnum).completeU c.uid St.NO_RESOURCE 0).settleCancels := by
  change execQueryPlacementTimeout sq cid s = _
  simp only [execQueryPlacementTimeout, hc, hp]

/-! ## The obligations -/

/-- Settles O31: a command that every check accepts starts and has its effect, QUERY_SUBMIT by its scope. SCOPE 3 never passes the
check, and which device takes a query is the model's choice (assumptions 113 and 87). -/
theorem beltCommands : Obligations.BeltCommands := by
  unfold Obligations.BeltCommands
  refine ⟨fun sq cid c s h => ?submit,
    fun sq cid c s h => congrArg (fun t => Host.Outcome.next (State.beltDone t)) (State.accept_of_accepts h noRows _),
    fun sq cid c s h => congrArg (fun t => Host.Outcome.next (State.beltDone t)) (State.accept_of_accepts h noRows _),
    fun sq cid c s h => congrArg Host.Outcome.next (State.accept_of_accepts h noRows _),
    fun sq cid c s h => congrArg (fun t => Host.Outcome.next (State.beltDone t)) (State.accept_of_accepts h noRows _)⟩
  case submit =>
    intro s1 q s2
    rw [exec_querySubmit_accepted h]
    refine ⟨fun hlocal => by rw [if_pos hlocal], fun hring => ?_, fun hfederated => ?_⟩
    · rw [if_neg (by omega), if_pos hring]
    · rw [if_neg (by omega), if_neg (by omega)]

/-- Settles O36: each of the nine commands receives its slot, if of its type, in the one way of `Receives`. The ports that a frame may
come by, and that a frame of another type does nothing, are the model's choice (assumption 79), as is what a bad frame leaves
(assumption 140). -/
theorem framesReceived : Obligations.FramesReceived := by
  unfold Obligations.FramesReceived
  refine ⟨fun rx f s hs => ?taken, fun rx f c s => ?notTaken, fun rx f c s => ?otherType⟩
  case taken =>
    exact ⟨fun ht => (receives_emptyFrame rx f).of_takes ht hs, fun ht => (receives_corpusFrame rx f).of_takes ht hs,
      fun ht => (receives_topNote rx f).of_takes ht hs, fun ht => (receives_segment rx f).of_takes ht hs,
      fun ht => (receives_queryFrame rx f).of_takes ht hs, fun ht => (receives_shardFrame rx f).of_takes ht hs,
      fun ht => (receives_discover rx f).of_takes ht hs, fun ht => (receives_confirm rx f).of_takes ht hs,
      fun ht => (receives_join rx f).of_takes ht hs⟩
  case notTaken =>
    rintro (⟨ht, rfl⟩ | ⟨ht, rfl⟩ | ⟨ht, rfl⟩ | ⟨ht, rfl⟩ | ⟨ht, rfl⟩ | ⟨ht, rfl⟩ | ⟨ht, rfl⟩ | ⟨ht, rfl⟩ | ⟨ht, rfl⟩)
    · exact (receives_emptyFrame rx f).of_notTaken ht s
    · exact (receives_corpusFrame rx f).of_notTaken ht s
    · exact (receives_topNote rx f).of_notTaken ht s
    · exact (receives_segment rx f).of_notTaken ht s
    · exact (receives_queryFrame rx f).of_notTaken ht s
    · exact (receives_shardFrame rx f).of_notTaken ht s
    · exact (receives_discover rx f).of_notTaken ht s
    · exact (receives_confirm rx f).of_notTaken ht s
    · exact (receives_join rx f).of_notTaken ht s
  case otherType =>
    rintro (⟨ht, rfl⟩ | ⟨ht, rfl⟩ | ⟨ht, rfl⟩ | ⟨ht, rfl⟩ | ⟨ht, rfl⟩ | ⟨ht, rfl⟩ | ⟨ht, rfl⟩ | ⟨ht, rfl⟩ | ⟨ht, rfl⟩)
    · exact (receives_emptyFrame rx f).of_otherType ht s
    · exact (receives_corpusFrame rx f).of_otherType ht s
    · exact (receives_topNote rx f).of_otherType ht s
    · exact (receives_segment rx f).of_otherType ht s
    · exact (receives_queryFrame rx f).of_otherType ht s
    · exact (receives_shardFrame rx f).of_otherType ht s
    · exact (receives_discover rx f).of_otherType (Bool.eq_false_iff.1 ht) s
    · exact (receives_confirm rx f).of_otherType (Bool.eq_false_iff.1 ht) s
    · exact (receives_join rx f).of_otherType (Bool.eq_false_iff.1 ht) s

/-- Settles O38: each clause is the law of its command where the command's checks pass. The slot audit, which the manager counts itself,
and the moments of a round are the model's choice (assumptions 85 and 95). -/
theorem beltEvents : Obligations.BeltEvents := by
  unfold Obligations.BeltEvents
  refine ⟨fun s hmay hover => congrArg Host.Outcome.next (if_pos ⟨hmay, hover⟩), fun c s hruns hstill => ?roundEnd,
    fun c t p twice s hruns hp => exec_scoreRoundEnd_fault hruns hp twice, fun c s hscores hup => ?shed,
    fun home rev seg seq s hsent => congrArg Host.Outcome.next (if_pos hsent),
    fun due counts s haudit hmanager hformed hphase hdue => exec_slotAudit_due haudit hmanager hformed hphase hdue,
    fun qnum q s hq => exec_fedTimeout hq, fun sq cid c p s hc hp => exec_queryPlacementTimeout hc hp⟩
  case roundEnd =>
    exact congrArg Host.Outcome.next ((if_pos hruns).trans (congrArg State.beltDone (if_pos hstill)))
  case shed =>
    intro k b s1 done
    refine ⟨fun hhigh hgrows hnone => ?_, fun p hhigh hgrows hnext => ?_, fun hother hlow => ?_, fun hother hlow => ?_⟩
    · rw [exec_shedCheck_high hscores hup hhigh hgrows, hnone]
    · rw [exec_shedCheck_high hscores hup hhigh hgrows, hnext]
    · rw [exec_shedCheck_low hscores hup hother, if_pos hlow]
    · rw [exec_shedCheck_low hscores hup hother, if_neg (Nat.not_le.2 hlow)]

end Sys2Proof.Machine
end

section
/-! SUPPORT. Links and rings (10_rings.md R300 to R327): the commands of CONTROL frames by subtype, and for a port's, the brake's and
the formation's commands one law each, saying what it does where its checks pass. -/

namespace Sys2Proof.Machine

/-! ## CONTROL frames (R310, Table 10-7) -/

section Control

variable (rx : Rx) (f : Frame)

/-- The command receives a FRAME slot as a CONTROL frame of one subtype. -/
abbrev ReceivesControl (c : Instr) (sub : Nat) (act : State → Nat → Frame → State) : Prop :=
  Receives c rx f (fType f = FT.CONTROL ∧ fSub f = sub) act

theorem receives_directory : ReceivesControl rx f (.directory rx f) 0x01 State.directoryAct := fun _ => rfl
theorem receives_takeover : ReceivesControl rx f (.takeover rx f) 0x02 State.takeoverAct := fun _ => rfl
theorem receives_abandon : ReceivesControl rx f (.abandon rx f) 0x03 State.abandonAct := fun _ => rfl
theorem receives_bypassed : ReceivesControl rx f (.bypassed rx f) 0x04 State.bypassedAct := fun _ => rfl
theorem receives_leaveMessage : ReceivesControl rx f (.leave (.message rx f)) 0x05 State.leaveAct := fun _ => rfl
theorem receives_demote : ReceivesControl rx f (.demote rx f) 0x06 State.demoteAct := fun _ => rfl
theorem receives_tol : ReceivesControl rx f (.tol rx f) 0x07 State.tolAct := fun _ => rfl
theorem receives_resume : ReceivesControl rx f (.resume rx f) 0x08 State.resumeAct := fun _ => rfl
theorem receives_qcancel : ReceivesControl rx f (.qcancel rx f) 0x09 State.qcancelAct := fun _ => rfl
theorem receives_fedgen : ReceivesControl rx f (.fedgen rx f) 0x0A State.fedgenAct := fun _ => rfl
theorem receives_result : ReceivesControl rx f (.result rx f) 0x10 State.resultAct := fun _ => rfl
theorem receives_refuse : ReceivesControl rx f (.refuse rx f) 0x11 State.refuseAct := fun _ => rfl
theorem receives_homeBehind : ReceivesControl rx f (.homeBehind rx f) 0x12 State.homeBehindAct := fun _ => rfl
theorem receives_fillIn : ReceivesControl rx f (.fillIn rx f) 0x13 State.fillInAct := fun _ => rfl
theorem receives_report : ReceivesControl rx f (.report rx f) 0x14 State.reportAct := fun _ => rfl
theorem receives_gap : ReceivesControl rx f (.gap rx f) 0x15 State.gapAct := fun _ => rfl
theorem receives_staged : ReceivesControl rx f (.staged rx f) 0x16 State.stagedAct := fun _ => rfl
theorem receives_quiet : ReceivesControl rx f (.quiet rx f) 0x17 State.quietAct := fun _ => rfl
theorem receives_linkReady : ReceivesControl rx f (.linkReady rx f) 0x18 State.linkReadyAct := fun _ => rfl

end Control

/-! ## Retries and replays (R307, R308) -/

/-- A RETRY without an answer is asked once more; the second without one makes the link lasting-faulty. -/
theorem exec_retryTimeout {port hseq : Nat} {s : State} {e : Nat × Nat}
    (he : (s.port port).asked.find? (fun e => e.1 = hseq) = some e) :
    exec (.retryTimeout port hseq) s = .next (if e.2 < 2 then
        (s.clearTx.setPort port { s.port port with
          asked := (s.port port).asked.map (fun x => if x.1 = hseq then (hseq, 2) else x) }).sendLop port .retry hseq
      else ((s.clearTx.setPort port { s.port port with
          asked := (s.port port).asked.filter (fun x => x.1 ≠ hseq) }).linkLasting port).beltDone) := by
  change execRetryTimeout port hseq s = _
  simp only [execRetryTimeout, he]

/-- A replay that was asked for is asked for no more, and acts by what its slot's checks find. -/
theorem exec_replaySlot {rx : Rx} {f : Frame} {e : Nat × Nat} {s : State} (hup : s.portUp rx.port = true)
    (hasked : e ∈ (s.port rx.port).asked) (hseq : e.1 = rxHseq rx) :
    let s1 := s.clearTx.setPort rx.port { s.port rx.port with
      asked := (s.port rx.port).asked.filter (fun e => e.1 ≠ rxHseq rx) }
    exec (.replaySlot rx f) s = .next (if rxIs rx 1 ∧ rxFrame rx f = .good then s1.replayed rx.port f
      else if rxIs rx 1 ∧ rxFrame rx f = .inverted then s1.forwardStomped rx.port f
      else (s1.badAct rx.port f).linkLasting rx.port).beltDone := by
  intro s1
  have hany : (s.port rx.port).asked.any (fun e => e.1 = rxHseq rx) = true :=
    List.any_eq_true.2 ⟨e, hasked, decide_eq_true hseq⟩
  exact congrArg Host.Outcome.next (if_neg (not_or.2 ⟨not_not_intro hup, not_not_intro hany⟩))

/-! ## A port's slots and timers (R300, R303, R304, R319, R320, R324) -/

section Port

variable {port : Nat} {s : State}

/-- ALIGN shows the lock, and gives a slot time to the port ahead, where this one is on the ring's path and that one is up. -/
theorem exec_alignSlot (hup : s.portUp port = true) :
    let s1 := s.clearTx.setFld (Fld.BLT_PORT_STAT_LOCKED port) 1
    exec (.alignSlot port) s = .next (if s1.onPath port ∧ s1.portUp (onwardPort s1 port) then s1.slotTime (onwardPort s1 port)
      else s1) :=
  congrArg Host.Outcome.next (if_pos hup)

/-- A skip link's BYPASS names the neighbour between; its receiver switches without telling. -/
theorem exec_lopBypass {pos : Nat} (hskip : 2 ≤ port % 4) (hup : s.portUp port = true)
    (hpeer : s.formedOn (port / 4) = true → s.portPeer (port - 2) = pos) :
    exec (.lopBypass port pos) s = .next (s.clearTx.bypass (port / 4) (port % 4 = 3) false).beltDone :=
  congrArg Host.Outcome.next (if_neg (not_or.2 ⟨Nat.not_lt.2 hskip,
    not_or.2 ⟨not_not_intro hup, fun ⟨hformed, hother⟩ => hother (hpeer hformed)⟩⟩))

/-- A port that trains while its ring is not formed is idle, shows its partner and its lock, and sends a heartbeat. -/
theorem exec_portQualified_unformed {partner : Nat} (hport : port < 8) (hstate : s.fld (Fld.BLT_PORT_STAT_STATE port) < 2) :
    let s1 := (((((s.clearTx.setFld (Fld.BLT_PORT_STAT_STATE port) 2).setFld (Fld.BLT_PORT_STAT_PARTNER port) partner).setFld
      (Fld.BLT_PORT_STAT_LOCKED port) 1).setPort port emptyPort).heartbeat port)
    s1.formedOn (port / 4) = false → exec (.portQualified port partner) s = .next s1 := by
  intro s1 hunformed
  have hidle : ¬ (8 ≤ port ∨ 2 ≤ s.fld (Fld.BLT_PORT_STAT_STATE port)) := by omega
  exact congrArg Host.Outcome.next ((if_neg hidle).trans (if_neg fun h => Bool.eq_false_iff.1 hunformed h.1))

/-- A slot is a LAST marker by its SD word alone; the frame that it may carry acts before the path is switched. -/
theorem exec_lastSlot {rx : Rx} (f : Option Frame) (hup : s.portUp rx.port = true) :
    let s1 := match f with
      | some f => s.receiveAs rx 4 f (fun s f => s.frameAct rx.port f)
      | none => s.clearTx
    (rxIs rx 4 = true → exec (.lastSlot rx f) s = .next (s1.lastPath rx.port).beltDone) ∧
    (rxIs rx 4 = false → exec (.lastSlot rx f) s = .next s1.beltDone) := by
  intro s1
  have hrun : exec (.lastSlot rx f) s = .next (if rxIs rx 4 then s1.lastPath rx.port else s1).beltDone := by
    refine congrArg Host.Outcome.next ((if_neg (not_not_intro hup)).trans ?_)
    cases f <;> rfl
  exact ⟨fun hlast => by rw [hrun, if_pos hlast], fun hnot => by rw [hrun, if_neg (Bool.eq_false_iff.1 hnot)]⟩

end Port

/-! ## The brake (R317, R318) -/

section Brake

variable {origin : Nat} {s : State} (hformed : s.formed = true)
include hformed

/-- The origin takes its BRAKE off the ring, every other device joins it to its set and sends it on. -/
theorem exec_lopBrake :
    let s1 := s.clearTx.setFld Fld.BLT_BRAKE_LAST origin
    exec (.lopBrake origin) s = .next (if origin = s1.pos then
        { s1 with ring := { s1.ring with
          brakeOps := s1.ring.brakeOps.map (fun b => if b.release then b else { b with back := true }) } }
      else (s1.addBrake origin).sendLop (s1.retOut 0) .brake origin) :=
  congrArg Host.Outcome.next (if_neg (not_not_intro hformed))

/-- The origin's RELEASE completes its operations, every other device drops the origin from its set and sends it on. -/
theorem exec_lopRelease :
    let s1 := s.clearTx
    exec (.lopRelease origin) s = .next (if origin = s1.pos then
        (s1.ring.brakeOps.filter (fun b => b.release)).foldl (fun s b => s.completeU b.uid St.OK 0)
          { s1 with ring := { s1.ring with brakeOps := s1.ring.brakeOps.filter (fun b => !b.release) } }
      else (((s1.dropBrake origin).sendLop (s1.retOut 0) .release origin).placeAll).beltDone) :=
  congrArg Host.Outcome.next (if_neg (not_not_intro hformed))

end Brake

/-! ## Formation (R312, R314) -/

/-- A ready manager without a ring takes position 0 and sends DISCOVER. -/
theorem exec_formationStart {s : State} (hready : s.ready = true) (hrole : s.role = 1) (hunformed : s.formed = false)
    (hidle : s.ring.phase = .idle) :
    let s1 := ((s.clearTx.setNetPos 0 0).setPhase 0 .discover).sendDiscover 0
    exec .formationStart s = .next { s1 with ring := { s1.ring with formTb := s1.now } } :=
  congrArg Host.Outcome.next ((if_neg (not_not_intro hready)).trans
    ((if_pos ⟨hrole, Bool.eq_false_iff.1 hunformed⟩).trans (if_pos hidle)))

/-! ## The obligations -/

/-- Settles O37: each of the 19 commands receives its slot, if of its subtype, in the one way of `Receives`. -/
theorem controlMessages : Obligations.ControlMessages := by
  unfold Obligations.ControlMessages
  intro rx f s hs hcontrol out
  have acts {c : Instr} {sub : Nat} {act : State → Nat → Frame → State} (h : ReceivesControl rx f c sub act) (hsub : fSub f = sub) :
      exec c s = out act := h.of_takes ⟨hcontrol, hsub⟩ hs
  exact ⟨acts (receives_directory rx f), acts (receives_takeover rx f), acts (receives_abandon rx f), acts (receives_bypassed rx f),
    acts (receives_leaveMessage rx f), acts (receives_demote rx f), acts (receives_tol rx f), acts (receives_resume rx f),
    acts (receives_qcancel rx f), acts (receives_fedgen rx f), acts (receives_result rx f), acts (receives_refuse rx f),
    acts (receives_homeBehind rx f), acts (receives_fillIn rx f), acts (receives_report rx f), acts (receives_gap rx f),
    acts (receives_staged rx f), acts (receives_quiet rx f), acts (receives_linkReady rx f)⟩

/-- Settles O39: each clause is the law of its command where the command's checks pass. That a message is sent again once where no
effect would reach its sender, what a replay with a bad delimiter does, the counts of the error window, and the slot times that ALIGN
and heartbeats give are the model's choice (assumptions 83, 91, 111 and 139). -/
theorem links : Obligations.Links := by
  unfold Obligations.Links
  refine ⟨fun id s => rfl, fun sender sub seq s => rfl,
    fun port hseq s hup => congrArg Host.Outcome.next (if_neg (not_not_intro hup)), fun port hseq e s he => ?retry,
    fun rx f e s hup hasked hseq => ?replay, fun port pos s hup => ?slots,
    fun port s hport => congrArg Host.Outcome.next (if_pos hport),
    fun port pos s hskip hup hpeer => exec_lopBypass hskip hup hpeer,
    fun port s hup => congrArg Host.Outcome.next (if_neg (not_not_intro hup)),
    fun port e corr bad above s hup => congrArg Host.Outcome.next (if_neg (not_not_intro hup)),
    fun port partner s hport hstate => exec_portQualified_unformed hport hstate, fun rx s hup => exec_lastSlot none hup,
    fun rx f s hup => exec_lastSlot (some f) hup⟩
  case retry =>
    rw [exec_retryTimeout he]
    exact ⟨fun hfirst => by rw [if_pos hfirst], fun hsecond => by rw [if_neg (Nat.not_lt.2 hsecond)]⟩
  case replay =>
    intro s1
    rw [exec_replaySlot hup hasked hseq]
    refine ⟨fun hsd hgood => ?_, fun hsd hinverted => ?_, fun hbad => ?_⟩
    · rw [if_pos ⟨hsd, hgood⟩]
    · rw [if_neg (by simp [hinverted]), if_pos ⟨hsd, hinverted⟩]
    · have hnot : ∀ v ≠ CrcVerdict.bad, ¬ (rxIs rx 1 = true ∧ rxFrame rx f = v) := by
        rintro v hv ⟨hsd, hframe⟩
        exact hbad.elim (Bool.eq_false_iff.1 · hsd) fun hframeBad => hv (hframe.symm.trans hframeBad)
      rw [if_neg (hnot .good nofun), if_neg (hnot .inverted nofun)]
  case slots =>
    intro s1
    refine ⟨congrArg Host.Outcome.next (if_pos hup), fun hpath hahead => ?_, fun hnot => ?_⟩
    · rw [exec_alignSlot hup, if_pos ⟨hpath, hahead⟩]
    · rw [exec_alignSlot hup, if_neg]
      rintro ⟨hpath, hahead⟩
      exact hnot.elim (Bool.eq_false_iff.1 · hpath) (Bool.eq_false_iff.1 · hahead)

/-- Settles O40: a BRAKE or RELEASE that arrives is at its origin or at another device, and the two timers act without a check. That
LAST is set on the origin's own BRAKE too is the model's choice (assumption 92). -/
theorem brakes : Obligations.Brakes := by
  unfold Obligations.Brakes
  refine ⟨fun origin s hformed => ?brake, fun origin s hformed hother => ?passedOn, fun origin s hformed hown => ?returned,
    fun s => rfl, fun s => rfl⟩
  case brake =>
    intro s1
    rw [exec_lopBrake hformed]
    exact ⟨fun hother => by rw [if_neg hother], fun hown => by rw [if_pos hown]⟩
  case passedOn => rw [exec_lopRelease hformed, if_neg hother]
  case returned => rw [exec_lopRelease hformed, if_pos hown]

/-- Settles O41: each clause is the law of its command where the command's checks pass. What a takeover does to the elastic store, the
F ports and the JOINs that wait is the model's choice (assumptions 90 and 147). -/
theorem formation : Obligations.Formation := by
  unfold Obligations.Formation
  refine ⟨fun s hready hrole hunformed hidle => exec_formationStart hready hrole hunformed hidle,
    fun s hphase => congrArg Host.Outcome.next (if_pos hphase), fun s hphase => congrArg Host.Outcome.next (if_pos hphase),
    fun s hphase hall => congrArg Host.Outcome.next (if_pos ⟨hphase, hall⟩),
    fun force s hlinked => congrArg Host.Outcome.next (if_pos hlinked),
    fun s hrole hformed hready hbraked hbehind => congrArg Host.Outcome.next (if_pos ⟨hrole, hformed, hready,
      Bool.eq_false_iff.1 hbraked, List.isEmpty_iff.2 hbehind⟩)⟩

end Sys2Proof.Machine
end

section
/-! SUPPORT. The machine as a whole (13_configuration.md R378, R394 to R396): a step is the command at the front of the queue, every
command answers a next state, and a command leaves the queue of the others and the flash's content as `Good` and `Shed` say. -/

namespace Sys2Proof.Machine

/-! ## Every command answers a next state -/

theorem next_of_ite {p : Prop} [Decidable p] {a b : Host.Outcome State Fault Refusal} (ha : ∃ t, a = .next t)
    (hb : ∃ t, b = .next t) : ∃ t, (if p then a else b) = .next t := by
  split <;> assumption

/-- Three commands of the I3C target choose between next states; every other command is one next state outright. -/
theorem exec_answers (c : Instr) (s : State) : ∃ t, exec c s = .next t := by
  cases c with
  | i3cEntdaa addr => exact next_of_ite ⟨_, rfl⟩ ⟨_, rfl⟩
  | i3cPrivateWrite hi lo => exact next_of_ite ⟨_, rfl⟩ ⟨_, rfl⟩
  | i3cCommonCommand code direct data =>
    exact next_of_ite ⟨_, rfl⟩ (next_of_ite ⟨_, rfl⟩ (next_of_ite ⟨_, rfl⟩ (next_of_ite ⟨_, rfl⟩ (next_of_ite ⟨_, rfl⟩
      (next_of_ite ⟨_, rfl⟩ (next_of_ite ⟨_, rfl⟩ (next_of_ite ⟨_, rfl⟩ ⟨_, rfl⟩)))))))
  | _ => exact ⟨_, rfl⟩

/-! ## The obligations -/

/-- Settles O6: a tick leaves the flash alone, and every command keeps verified content on it. That a bank whose write was cut short
holds a torn image is the model's choice (assumption 22). -/
theorem stepKeepsFlashGood : Obligations.StepKeepsFlashGood := by
  unfold Obligations.StepKeepsFlashGood
  intro s t hgood hstep
  obtain ⟨-, rfl⟩ | ⟨c, rest, -, hexec⟩ := step_cases hstep
  · exact (State.tick_kept s (Kept.rfl s)).good.flash hgood
  · exact (exec_good hexec).flash hgood

/-- Settles O7: what a command sheds from the flash is writes that have not ended, never content. -/
theorem onlyFlashCommandsWriteBanks : Obligations.OnlyFlashCommandsWriteBanks := by
  unfold Obligations.OnlyFlashCommandsWriteBanks
  intro c s t hwrite hend hexec
  have hshed : Shed s t := exec_shed hwrite hend hexec
  exact ⟨hshed.bankA, hshed.bankB, hshed.licences⟩

/-- Settles O3: a command answers a next state, and whatever it answers has the queue that the command was given. -/
theorem everyCommandCompletes : Obligations.EveryCommandCompletes := by
  unfold Obligations.EveryCommandCompletes
  intro c s
  obtain ⟨t, hexec⟩ := exec_answers c s
  exact ⟨t, hexec, (exec_good hexec).pending⟩

/-- Settles O1: the step takes the front off the queue that it was put on. -/
theorem stepTakesTheFront : Obligations.StepTakesTheFront := by
  unfold Obligations.StepTakesTheFront
  exact fun c s => rfl

end Sys2Proof.Machine
end

section
/-! SUPPORT. Regulation, the host interface, the flash and the journal (11_regulation.md R337 to R344; 12_host.md R348 to R374;
13_configuration.md R379, R394, R402 to R406): what a command that a check refuses or makes wait does, and the laws of the host's
queues, link and flash commands. -/

namespace Sys2Proof.Machine

/-! ## Regulation (R337, R338, R341) -/

/-- A guarantee for a pair that Table 11-1 does not have, or beyond the sum of 1,024, is ignored. -/
theorem State.writeGrt_refused {m r : Nat} {v : W32} {s : State} (hm : m < 22) (hr : r < 4)
    (h : (bitsOf v 10 0 ≠ 0 ∧ pairExists m r = false) ∨ 1024 < s.grtSum m r (bitsOf v 10 0)) :
    s.writeGrt m r v = s.raise Fld.RGL_EVENTS_REJECT := by
  have range : ¬ (22 ≤ m ∨ 4 ≤ r) := by omega
  have refused : (bitsOf v 10 0 ≠ 0 ∧ ¬ pairExists m r = true) ∨ 1024 < s.grtSum m r (bitsOf v 10 0) :=
    h.imp_left fun ⟨hnonzero, hpair⟩ => ⟨hnonzero, Bool.eq_false_iff.1 hpair⟩
  exact (if_neg range).trans (if_pos refused)

/-- Reservations beyond 192 entries or 96 slots are ignored. -/
theorem State.writeRglClass_refused {k : Nat} {v : W32} {s : State} (hk : k < 16)
    (h : 192 < s.rsvSum Fld.RGL_CLASS_MSHR_RSV k (bitsOf v 5 0) ∨ 96 < s.rsvSum Fld.RGL_CLASS_QSLOT_RSV k (bitsOf v 12 8)) :
    s.writeRglClass k v = s.raise Fld.RGL_EVENTS_REJECT :=
  (if_neg (Nat.not_le.2 hk)).trans (if_pos (.inr (.inr h)))

theorem exec_guaranteeWrite {m r : Nat} (v : W32) {s : State} (hl : s.linked = true) :
    exec (.guaranteeWrite m r v) s = .next (s.writeGrt m r v) :=
  congrArg Host.Outcome.next (if_pos hl)

theorem exec_classReservationWrite {k : Nat} (v : W32) {s : State} (hl : s.linked = true) :
    exec (.classReservationWrite k v) s = .next (s.writeRglClass k v) :=
  congrArg Host.Outcome.next (if_pos hl)

/-! ## Commands that a check refuses or makes wait (R358, R359) -/

section Checks

variable {s : State} {sq cid op st code : Nat} {own : State → Cmd → Verdict} {c : Cmd} (hfetched : s.fetched sq cid op = some c)
include hfetched

theorem State.accept_of_refused (hverdict : s.verdict c own = .refuse st code) (rows : Cmd → Nat) (go : State → Cmd → State) :
    s.accept sq cid op own rows go = s.completeU c.uid st 0 code := by
  simp only [State.accept, hfetched, hverdict, State.refuse]

theorem State.accept_of_waits (hverdict : s.verdict c own = .wait st code) (rows : Cmd → Nat) (go : State → Cmd → State) :
    s.accept sq cid op own rows go = s.deferCmd c st code := by
  simp only [State.accept, hfetched, hverdict]

end Checks

/-- A command with DEFER set is deferred while fewer than 256 are; its slots are reserved from then on. -/
theorem State.deferCmd_deferred {s : State} {c : Cmd} (st code : Nat) (hready : c.stage = .ready) (hdefer : c.defer = true)
    (hroom : (s.host.cmds.filter (fun k => k.stage = .deferred)).length < 256) :
    s.deferCmd c st code =
      ((s.reserveSlots c).modCmdU c.uid (fun k => { k with stage := .deferred, since := s.now })).updDefer := by
  have hnew : ¬ c.stage = .deferred := by rw [hready]; nofun
  simp only [State.deferCmd, if_neg hnew, hdefer, not_true_eq_false, if_false, if_neg (Nat.not_le.2 hroom)]

/-- A command without DEFER is refused where it would wait. -/
theorem State.deferCmd_refused {s : State} {c : Cmd} (st code : Nat) (hready : c.stage = .ready) (hdefer : c.defer = false) :
    s.deferCmd c st code = s.completeU c.uid st 0 code := by
  have hnew : ¬ c.stage = .deferred := by rw [hready]; nofun
  simp only [State.deferCmd, if_neg hnew, hdefer, Bool.false_eq_true, not_false_eq_true, if_true, State.refuse]

/-! ## The host's objects and the flash (R361, R366, R394) -/

/-- READ_OBJECT ends with FAULT where a line it read is lost, and brings the lines otherwise. -/
theorem exec_readObject_accepted {s : State} {sq cid : Nat} {c : Cmd} (h : s.Accepts sq cid 0x11 readCheck c) :
    let s1 := s.started c 0
    let l := c.f 2 63 0 / 256
    let n := c.f 4 63 32 / 256
    let x := (s1.unbackedSectors ((List.range n).flatMap (fun i => s1.readSecs (l + i))) .plain).readLines l c.cls n
    exec (.readObject sq cid) s = .next (if x.2.2 then x.1.completeU c.uid St.FAULT 0 else x.1.finish c x.2.1) :=
  congrArg Host.Outcome.next (State.accept_of_accepts h noRows _)

/-- An accepted NVM_WRITE queues behind those before it, and begins at once where there are none. -/
theorem exec_nvmWrite_accepted {s : State} {sq cid : Nat} {c : Cmd} {content : NvmContent}
    (h : s.Accepts sq cid 0x40 (nvmCheck content) c) :
    let s1 := s.started c 0
    let r : NvmRun := ⟨c.sq, c.cid, c.f 2 1 0, content⟩
    let s2 := { s1 with flash := { s1.flash with nvm := s1.flash.nvm ++ [r] } }
    exec (.nvmWrite sq cid content) s = .next (if s1.flash.nvm = [] then s2.nvmBegin r else s2) := by
  obtain ⟨hfetched, hok⟩ := id h
  refine congrArg Host.Outcome.next ?_
  simp only [hfetched, hok]
  exact State.accept_of_accepts h noRows _

/-- A refused NVM_WRITE sets NVM_FAIL besides its completion. -/
theorem exec_nvmWrite_refused {s : State} {sq cid st code : Nat} {c : Cmd} {content : NvmContent}
    (hfetched : s.fetched sq cid 0x40 = some c) (hverdict : s.verdict c (nvmCheck content) = .refuse st code) :
    exec (.nvmWrite sq cid content) s = .next ((s.completeU c.uid st 0 code).raise Fld.CFG_NVM_EVENTS_NVM_FAIL) := by
  refine congrArg Host.Outcome.next ?_
  simp only [hfetched, hverdict, State.refuse]

/-! ## Doorbells (R349, R351) -/

theorem exec_sqTailDoorbell {q : Nat} {v : W32} {s : State} (hq : q < 64) (hl : s.linked = true)
    (hen : s.flag (Fld.HIF_SQ_CFG_EN q) = true) :
    let t := bitsOf v 11 0
    let head := s.fld (Fld.HIF_SQ_STAT_HEAD q)
    exec (.sqTailDoorbell q v) s = .next (if s.sqSize q ≤ t ∨ ringGap (s.sqSize q) head t <
        ringGap (s.sqSize q) head (s.fld (Fld.HIF_SQ_STAT_TAIL q)) then s.raise Fld.HIF_EVENTS_DB_ERR
      else s.setFld (Fld.HIF_SQ_STAT_TAIL q) t) :=
  congrArg Host.Outcome.next (if_neg (not_or.2 ⟨Nat.not_le.2 hq, not_or.2 ⟨not_not_intro hl, not_not_intro hen⟩⟩))

theorem exec_cqHeadDoorbell {q : Nat} {v : W32} {s : State} (hq : q < 64) (hl : s.linked = true)
    (hen : s.flag (Fld.HIF_CQ_CFG_EN q) = true) :
    let h := bitsOf v 11 0
    let head := s.fld (Fld.HIF_CQ_STAT_HEAD q)
    let s1 := s.setFld (Fld.HIF_CQ_STAT_HEAD q) h
    exec (.cqHeadDoorbell q v) s = .next (if s.cqSize q ≤ h ∨ ringGap (s.cqSize q) head (s.fld (Fld.HIF_CQ_STAT_TAIL q)) <
        ringGap (s.cqSize q) head h then s.raise Fld.HIF_EVENTS_DB_ERR
      else State.cqDrain s1.host.cqWait.length s1 q) :=
  congrArg Host.Outcome.next (if_neg (not_or.2 ⟨Nat.not_le.2 hq, not_or.2 ⟨not_not_intro hl, not_not_intro hen⟩⟩))

/-! ## Queues enabled and disabled (R348, R349, R353) -/

section Queue

variable {q : Nat} {v : W32} {s : State} (hq : q < 64) (hl : s.linked = true)

theorem State.writeSqCfg_enabled (hoff : s.flag (Fld.HIF_SQ_CFG_EN q) = false) (hv : bitsOf v 31 31 = 1)
    (hcq : s.flag (Fld.HIF_CQ_CFG_EN (bitsOf v 29 24)) = true) :
    s.writeSqCfg q v =
      ((s.hostWrite (Off.HIF_SQ_CFG q) v).setFld (Fld.HIF_SQ_STAT_HEAD q) 0).setFld (Fld.HIF_SQ_STAT_TAIL q) 0 :=
  (if_neg (Bool.eq_false_iff.1 hoff)).trans ((if_neg fun h => h.2 hcq).trans (if_pos hv))

theorem State.writeSqCfg_withoutCq (hoff : s.flag (Fld.HIF_SQ_CFG_EN q) = false) (hv : bitsOf v 31 31 = 1)
    (hcq : s.flag (Fld.HIF_CQ_CFG_EN (bitsOf v 29 24)) = false) : s.writeSqCfg q v = s.raise Fld.HIF_EVENTS_REJECT :=
  (if_neg (Bool.eq_false_iff.1 hoff)).trans (if_pos ⟨hv, Bool.eq_false_iff.1 hcq⟩)

theorem State.writeSqCfg_same (hon : s.flag (Fld.HIF_SQ_CFG_EN q) = true) (hsame : s.cfgSame (Off.HIF_SQ_CFG q) v = true) :
    s.writeSqCfg q v = s.hostWrite (Off.HIF_SQ_CFG q) v :=
  (if_pos hon).trans (if_neg (not_not_intro hsame))

theorem State.writeCqCfg_enabled (hoff : s.flag (Fld.HIF_CQ_CFG_EN q) = false) (hv : bitsOf v 31 31 = 1) :
    let s1 := s.hostWrite (Off.HIF_CQ_CFG q) v
    s.writeCqCfg q v = (({ s1 with host := { s1.host with cqNew := tabErase s1.host.cqNew q } }.setFld
      (Fld.HIF_CQ_STAT_HEAD q) 0).setFld (Fld.HIF_CQ_STAT_TAIL q) 0).setFld (Fld.HIF_CQ_STAT_PHASE q) 1 :=
  (if_neg (Bool.eq_false_iff.1 hoff)).trans (if_pos hv)

theorem State.writeCqCfg_disabled (hon : s.flag (Fld.HIF_CQ_CFG_EN q) = true) (hsame : s.cfgSame (Off.HIF_CQ_CFG q) v = true)
    (hfree : s.cqNamed q = false) : s.writeCqCfg q v = s.hostWrite (Off.HIF_CQ_CFG q) v :=
  (if_pos hon).trans (if_neg (not_or.2 ⟨not_not_intro hsame, fun h => Bool.eq_false_iff.1 hfree h.2⟩))

/-- A CQ that an enabled or busy SQ names is not disabled. -/
theorem State.writeCqCfg_named (hon : s.flag (Fld.HIF_CQ_CFG_EN q) = true) (hv : bitsOf v 31 31 = 0)
    (hnamed : s.cqNamed q = true) : s.writeCqCfg q v = s.raise Fld.HIF_EVENTS_REJECT :=
  (if_pos hon).trans (if_pos (.inr ⟨by omega, hnamed⟩))

include hq hl

theorem exec_queueEnable (hv : bitsOf v 31 31 = 1) :
    exec (.sqEnable q v) s = .next (s.writeSqCfg q v) ∧ exec (.cqEnable q v) s = .next (s.writeCqCfg q v) := by
  have reaches : ¬ (64 ≤ q ∨ ¬ s.linked = true ∨ bitsOf v 31 31 = 0) :=
    not_or.2 ⟨Nat.not_le.2 hq, not_or.2 ⟨not_not_intro hl, by omega⟩⟩
  exact ⟨congrArg Host.Outcome.next (if_neg reaches), congrArg Host.Outcome.next (if_neg reaches)⟩

theorem exec_queueDisable (hv : bitsOf v 31 31 = 0) :
    exec (.sqDisable q v) s = .next (s.writeSqCfg q v) ∧ exec (.cqDisable q v) s = .next (s.writeCqCfg q v) := by
  have reaches : ¬ (64 ≤ q ∨ ¬ s.linked = true ∨ bitsOf v 31 31 = 1) :=
    not_or.2 ⟨Nat.not_le.2 hq, not_or.2 ⟨not_not_intro hl, by omega⟩⟩
  exact ⟨congrArg Host.Outcome.next (if_neg reaches), congrArg Host.Outcome.next (if_neg reaches)⟩

end Queue

/-! ## Fetches, deferred commands, released results (R350, R359, R371) -/

theorem exec_commandFetch {q n : Nat} {s : State} (hfetching : s.fetching = true) (hnext : s.nextSq = some (q, n)) (fails : Bool) :
    exec (.commandFetch fails) s = .next (if fails then
        ((s.setFld (Fld.HIF_SQ_CFG_EN q) 0).raise Fld.HIF_EVENTS_FETCH_ERR).raise (Fld.HIF_SQ_STAT_FETCH_ERR q)
      else s.takeCmd q n) := by
  refine congrArg Host.Outcome.next ((if_neg (not_not_intro hfetching)).trans ?_)
  simp only [hnext]

theorem exec_deferTimeout {sq cid : Nat} {c : Cmd} {s : State} (hc : s.cmd? sq cid = some c) (hdeferred : c.stage = .deferred)
    (hop : c.opcode ≠ 0x26) : exec (.deferTimeout sq cid) s = .next (s.completeU c.uid St.TIMEOUT 0) := by
  refine congrArg Host.Outcome.next ?_
  simp only [hc]
  exact if_pos ⟨hdeferred, hop⟩

theorem exec_slotRelease {n : Nat} {e : Slot} {s : State} (he : tabFind s.host.slots n = some e) (hready : e.ready = true)
    (hl : s.linked = true) :
    exec (.slotRelease n) s = .next { s with host := { s.host with
      slots := s.host.slots.filter (fun (x : Nat × Slot) => x.2.rseq ≠ e.rseq) } } := by
  refine congrArg Host.Outcome.next ?_
  simp only [he]
  exact if_pos ⟨hready, hl⟩

/-! ## Flash operations and journal pages (R379, R402, R406) -/

theorem exec_flashOperationComplete {o : FlashOp} {s : State} (ho : s.flashOp? = some o) (ok : Bool) :
    exec (.flashOperationComplete ok) s = .next (if ok then s.opDone o else s.opFails o) := by
  refine congrArg Host.Outcome.next ?_
  simp only [ho]

/-- A page is programmed where records may be appended: the first of a new segment, or one that holds queued records. -/
theorem exec_journalPageProgram {s : State} (hmay : s.mayAppend = true) (hpage : s.jseg s.activeSeg = [] ∨ s.pageRecs ≠ [])
    (ok : Bool) : exec (.journalPageProgram ok) s = .next (if ok then s.pageDone else s.pageFails) := by
  have programs : ¬ (¬ s.mayAppend = true ∨ (s.jseg s.activeSeg ≠ [] ∧ s.pageRecs = [])) :=
    not_or.2 ⟨not_not_intro hmay, fun ⟨hold, hnone⟩ => hpage.elim hold (· hnone)⟩
  exact congrArg Host.Outcome.next (if_neg programs)

/-! ## The journal queue (R402) -/

/-- A queue that is not full for a record of another type leaves the reserved entries, and so room, free. -/
theorem length_lt_of_not_full {l : List JRec} (h : ¬ jrnFullFor l = true) : l.length < 1024 := by
  have hopen : l.length - min 128 (l.filter JRec.reserved).length < 896 := Nat.not_le.1 fun hfull => h (decide_eq_true hfull)
  omega

theorem length_dropFirst {α : Type} {p : α → Bool} {l : List α} (h : l.any p = true) :
    (dropFirst p l).length + 1 = l.length := by
  induction l with
  | nil => nomatch h
  | cons x l ih =>
    cases hx : p x with
    | true => simp only [dropFirst, hx, if_true, List.length_cons]
    | false =>
      rw [List.any_cons, hx, Bool.false_or] at h
      simp only [dropFirst, hx, Bool.false_eq_true, if_false, List.length_cons, ih h]

theorem State.jrnPush_length (s : State) (r : JRec) : (s.jrnPush r).jrn.queue.length = s.jrn.queue.length + 1 :=
  List.length_append

@[simp] theorem State.jrnDrop_queue (s : State) (n : Nat) : (s.jrnDrop n).jrn.queue = s.jrn.queue := by
  rw [State.jrnDrop, State.raise_jrn, State.addFld_jrn]

@[simp] theorem State.msi_jrn (s : State) (n : Nat) : (s.msi n).jrn = s.jrn := by
  unfold State.msi
  split
  · rfl
  · split
    · exact State.raise_jrn _ _
    · rfl

section Bound

variable {s : State} (hs : s.jrn.queue.length ≤ 1024)
include hs

theorem State.jrnReportDropped_bound : s.jrnReportDropped.jrn.queue.length ≤ 1024 := by
  unfold State.jrnReportDropped
  split
  next => exact hs
  next hopen =>
    rw [State.jrnPush_length]
    exact length_lt_of_not_full (not_or.1 hopen).2

/-- A record with reserved entries enters where there is room, or in the place of one without; another enters only where the reserved
entries stay free. -/
theorem State.journal_bound (type source : Nat) (payload : BitVec 288) :
    (s.journal type source payload).jrn.queue.length ≤ 1024 := by
  unfold State.journal
  extract_lets r _ dropped
  split
  next =>
    split
    next hroom => rwa [State.jrnPush_length]
    next =>
      split
      next => rwa [State.raise_jrn]
      next =>
        split
        next hother =>
          rw [State.jrnPush_length, State.jrnDrop_queue]
          exact Nat.le_trans (Nat.le_of_eq (length_dropFirst hother)) hs
        next => rwa [State.jrnDrop_queue]
  next =>
    have hdropped : dropped.jrn.queue.length ≤ 1024 := State.jrnReportDropped_bound hs
    split
    next => rwa [State.jrnDrop_queue]
    next hopen =>
      rw [State.jrnPush_length]
      exact length_lt_of_not_full hopen

/-- An event that merges with a queued record adds none. -/
theorem State.jrnEvent_bound (code unit cause args : Nat) : (s.jrnEvent code unit cause args).jrn.queue.length ≤ 1024 := by
  unfold State.jrnEvent
  extract_lets boot
  split
  next => exact Nat.le_trans (Nat.le_of_eq (List.length_map _)) hs
  next => exact State.journal_bound hs _ _ _

theorem State.event_bound (code unit cause args : Nat) : (s.event code unit cause args).jrn.queue.length ≤ 1024 := by
  have hjrn : (s.event code unit cause args).jrn = (s.jrnEvent code unit cause args).jrn := by
    unfold State.event
    extract_lets sev s1 s2 s3
    have h3 : s3.jrn = s1.jrn := by
      simp only [s3]
      split
      · exact (State.msi_jrn _ _).trans (State.setReg_jrn _ _ _)
      · exact State.setReg_jrn _ _ _
    clear_value s3
    split
    · rw [State.raise_jrn, State.setFld_jrn, State.setFld_jrn, State.setFld_jrn, h3]
    · exact h3
  rw [hjrn]
  exact State.jrnEvent_bound hs _ _ _ _

end Bound

/-! ## The obligations -/

/-- Settles O13: the sums are those of the registers with the one written replaced. -/
theorem regulationRefusals : Obligations.RegulationRefusals := by
  unfold Obligations.RegulationRefusals
  refine ⟨fun m r v s hl hm hr hsum => ?_, fun m r v s hl hm hr hnonzero hpair => ?_, fun k v s hl hk hsum => ?_⟩
  · rw [exec_guaranteeWrite v hl, State.writeGrt_refused hm hr (.inr hsum)]
  · rw [exec_guaranteeWrite v hl, State.writeGrt_refused hm hr (.inl ⟨hnonzero, hpair⟩)]
  · rw [exec_classReservationWrite v hl, State.writeRglClass_refused hk hsum]

/-- Settles O42: the command is those three parts, one after the other. The capacities, and the steps and the demand at the endpoint
that the command brings, are the model's choice (assumption 145). -/
theorem regulationWindow : Obligations.RegulationWindow := by
  unfold Obligations.RegulationWindow
  exact fun ulSteps eqSteps pcie s => rfl

/-- Settles O29: a command that every check accepts starts and has its own effect. That lost data ends READ_OBJECT with FAULT, that an
NVM_WRITE waits behind those before it, and how JOURNAL_READ merges its records are the model's choice (assumptions 103, 22 and 21). -/
theorem hostCommands : Obligations.HostCommands := by
  unfold Obligations.HostCommands
  refine ⟨fun sq cid c s h => congrArg Host.Outcome.next (State.accept_of_accepts h noRows _),
    fun sq cid c s h => congrArg Host.Outcome.next (State.accept_of_accepts h noRows _),
    fun sq cid c s h => congrArg Host.Outcome.next (State.accept_of_accepts h noRows _), fun sq cid c p s h hprogram => ?program,
    fun sq cid c s h => ?read, fun sq cid c s h => congrArg Host.Outcome.next (State.accept_of_accepts h noRows _),
    fun sq cid c s h => congrArg Host.Outcome.next (State.accept_of_accepts h (fun c => c.f 2 15 0 + 1) _),
    fun sq cid c s h => congrArg Host.Outcome.next (State.accept_of_accepts h noRows _),
    fun sq cid c content s h => exec_nvmWrite_accepted h⟩
  case program =>
    exact congrArg Host.Outcome.next ((State.accept_of_accepts h noRows _).trans
      (congrArg (fun t => State.finish t c []) (if_pos hprogram)))
  case read =>
    intro s1 l n x
    rw [exec_readObject_accepted h]
    exact ⟨fun hlost => by rw [if_pos hlost], fun hfound => by rw [if_neg (Bool.eq_false_iff.1 hfound)]⟩

/-- Settles O32: what a verdict other than acceptance does is the same for every command; NVM_WRITE adds NVM_FAIL. -/
theorem refusedCommands : Obligations.RefusedCommands := by
  unfold Obligations.RefusedCommands
  refine fun sq cid st code c s =>
    ⟨fun hfetched hverdict => congrArg Host.Outcome.next (State.accept_of_refused hfetched hverdict noRows _),
    fun hfetched hverdict => congrArg Host.Outcome.next (State.accept_of_refused hfetched hverdict Cmd.tokens _),
    fun hfetched hverdict hready hdefer hroom => ?deferred, fun hfetched hverdict hready hdefer => ?atOnce,
    fun hfetched content hverdict => exec_nvmWrite_refused hfetched hverdict⟩
  case deferred =>
    exact congrArg Host.Outcome.next ((State.accept_of_waits hfetched hverdict Cmd.tokens _).trans
      (State.deferCmd_deferred st code hready hdefer hroom))
  case atOnce =>
    exact congrArg (fun t => Host.Outcome.next (State.beltDone t)) ((State.accept_of_waits hfetched hverdict noRows _).trans
      (State.deferCmd_refused st code hready hdefer))

/-- Settles O43: a doorbell is outside the queue or inside it, and a configuration write meets R348 and R353 or does not. -/
theorem queues : Obligations.Queues := by
  unfold Obligations.Queues
  refine ⟨fun q v s hq hl hen => ?tail, fun q v s hq hl hen => ?head, fun q v s hq hl hv => ?enable, fun q v s hq hl hv => ?disable,
    fun q n s hfetching hnext => ⟨exec_commandFetch hfetching hnext false, exec_commandFetch hfetching hnext true⟩⟩
  case tail =>
    intro t head tail
    rw [exec_sqTailDoorbell hq hl hen]
    exact ⟨fun hin hgap => by rw [if_neg (not_or.2 ⟨Nat.not_le.2 hin, Nat.not_lt.2 hgap⟩)], fun hout => by rw [if_pos hout]⟩
  case head =>
    intro h head tail
    rw [exec_cqHeadDoorbell hq hl hen]
    exact ⟨fun hin hgap => by rw [if_neg (not_or.2 ⟨Nat.not_le.2 hin, Nat.not_lt.2 hgap⟩)], fun hout => by rw [if_pos hout]⟩
  case enable =>
    obtain ⟨hsq, hcq⟩ := exec_queueEnable hq hl hv
    rw [hsq, hcq]
    exact ⟨fun hoff hon => by rw [State.writeSqCfg_enabled hoff hv hon],
      fun hoff hnone => by rw [State.writeSqCfg_withoutCq hoff hv hnone], fun hoff => by rw [State.writeCqCfg_enabled hoff hv]⟩
  case disable =>
    obtain ⟨hsq, hcq⟩ := exec_queueDisable hq hl hv
    rw [hsq, hcq]
    exact ⟨fun hon hsame => by rw [State.writeSqCfg_same hon hsame],
      fun hon hsame hfree => by rw [State.writeCqCfg_disabled hon hsame hfree],
      fun hon hnamed => by rw [State.writeCqCfg_named hon hv hnamed]⟩

/-- Settles O44: each clause is the law of its command where the command's checks pass. What the work of the commands that a hot reset
ends does from then on is the model's choice (assumption 102). -/
theorem hostLink : Obligations.HostLink := by
  unfold Obligations.HostLink
  exact ⟨fun sq cid c s hc hdeferred hop => exec_deferTimeout hc hdeferred hop,
    fun cq s hien hnew => congrArg Host.Outcome.next (if_pos ⟨hien, hnew⟩), fun n e s he hready hl => exec_slotRelease he hready hl,
    fun s hhost => congrArg Host.Outcome.next (if_neg (Bool.eq_false_iff.1 hhost)),
    fun s hhost => congrArg Host.Outcome.next (if_neg (Bool.eq_false_iff.1 hhost)),
    fun s hl => congrArg Host.Outcome.next (if_pos hl)⟩

/-- Settles O45: an operation or a page ends well or badly as the command says. What becomes of records that can no longer be written
is the model's choice (assumption 20). -/
theorem flashAndJournal : Obligations.FlashAndJournal := by
  unfold Obligations.FlashAndJournal
  exact ⟨fun o s ho => ⟨exec_flashOperationComplete ho true, exec_flashOperationComplete ho false⟩,
    fun s hmay hpage => ⟨exec_journalPageProgram hmay hpage true, exec_journalPageProgram hmay hpage false⟩,
    fun s hready hfull => congrArg Host.Outcome.next (if_pos ⟨hready, hfull⟩)⟩

/-- Settles O59: a record that enters finds room, or takes the place of another. -/
theorem journalQueueBound : Obligations.JournalQueueBound := by
  unfold Obligations.JournalQueueBound
  exact fun s hs => ⟨State.journal_bound hs, State.event_bound hs⟩

end Sys2Proof.Machine
end

section
/-! SUPPORT. The reset state, supplies, starts and resets, power and temperature, board management and the test port
(14_startup_faults.md R409 to R432; 15_power_thermal.md R437 to R465; 16_pins_test.md R471 to R486): one law per command, saying what it
does where its checks pass. -/

namespace Sys2Proof.Machine

/-! ## Supplies, pins, clocks (R10, R33, R409, R438, R471, R475) -/

section Supplies

variable {s : State}

theorem exec_vinIbInRange_waits {env : StartEnv} (hrun : s.boot.run = .waitVin env) :
    exec .vinIbInRange s = .next ((({ s with pins := { s.pins with vinIb := true } }).waitRun .idle).fromVin env) := by
  refine congrArg Host.Outcome.next ?_
  simp only [hrun]

theorem exec_vinIbInRange_level (hrun : ∀ env, s.boot.run ≠ .waitVin env) :
    exec .vinIbInRange s = .next { s with pins := { s.pins with vinIb := true } } := by
  refine congrArg Host.Outcome.next ?_
  split
  next env h => exact absurd h (hrun env)
  next => rfl

/-- A part that is powered, not held by DEVICE_RESET# and not shut down: what VIN_IB and REFCLK act on. -/
theorem not_heldDown (hvaux : s.pins.vaux = true) (hreset : s.pins.resetLow = false) (hlatch : s.boot.thermLatch = false) :
    ¬ (¬ s.pins.vaux = true ∨ s.pins.resetLow = true ∨ s.boot.thermLatch = true) :=
  not_or.2 ⟨not_not_intro hvaux, not_or.2 ⟨Bool.eq_false_iff.1 hreset, Bool.eq_false_iff.1 hlatch⟩⟩

theorem exec_vinIbLow (hin : s.pins.vinIb = true) (hvaux : s.pins.vaux = true) (hreset : s.pins.resetLow = false)
    (hlatch : s.boot.thermLatch = false) :
    exec .vinIbLow s =
      .next (((({ s with pins := { s.pins with vinIb := false } }).dropRails).setDstate DS.STARTING).askStart) :=
  congrArg Host.Outcome.next ((if_neg (not_not_intro hin)).trans (if_neg (not_heldDown hvaux hreset hlatch)))

theorem exec_deviceResetAssert (hhigh : s.pins.resetLow = false) (hvaux : s.pins.vaux = true) (hlatch : s.boot.thermLatch = false) :
    exec .deviceResetAssert s =
      .next (((((({ s with pins := { s.pins with resetLow := true } }).syncLands).dropRails).waitRun .idle).setFld
        Fld.PWR_STATUS_NOTICE 7).setDstate DS.STARTING) :=
  congrArg Host.Outcome.next ((if_neg (Bool.eq_false_iff.1 hhigh)).trans ((if_neg (not_not_intro hvaux)).trans
    (if_neg (Bool.eq_false_iff.1 hlatch))))

theorem exec_refclkLost (hclk : s.pins.refclk = true) (hvaux : s.pins.vaux = true) (hreset : s.pins.resetLow = false)
    (hlatch : s.boot.thermLatch = false) (hstarting : s.dstate ≠ DS.STARTING) (hfailed : s.dstate ≠ DS.FAILED) :
    exec .refclkLost s =
      .next (((({ s with pins := { s.pins with refclk := false } }).event Ev.REFCLK_LOST 0).portsDown).setDstate DS.STARTING) := by
  have acts : ¬ (¬ s.pins.vaux = true ∨ s.pins.resetLow = true ∨ s.boot.thermLatch = true ∨ s.dstate = DS.STARTING) :=
    not_or.2 ⟨not_not_intro hvaux, not_or.2 ⟨Bool.eq_false_iff.1 hreset, not_or.2 ⟨Bool.eq_false_iff.1 hlatch, hstarting⟩⟩⟩
  exact congrArg Host.Outcome.next ((if_neg (not_not_intro hclk)).trans ((if_neg acts).trans
    (if_neg fun h => hfailed (of_decide_eq_true h))))

/-- A start that waits for REFCLK goes on from its step 2. -/
theorem State.clockBack_waits {env : StartEnv} (hrun : s.boot.run = .waitRefclk env) :
    s.clockBack = (({ s with pins := { s.pins with refclk := true } }).waitRun .idle).fromClock env true := by
  simp only [State.clockBack, hrun]

theorem State.clockBack_level (hrun : ∀ env, s.boot.run ≠ .waitRefclk env) :
    s.clockBack = { s with pins := { s.pins with refclk := true } } := by
  unfold State.clockBack
  split
  next env h => exact absurd h (hrun env)
  next => rfl

theorem exec_refclkPresent (hclk : s.pins.refclk = false) : exec .refclkPresent s = .next s.clockBack :=
  congrArg Host.Outcome.next (if_neg (Bool.eq_false_iff.1 hclk))

theorem exec_refclkReturn_waits {env : StartEnv} (hclk : s.pins.refclk = false) (hrun : s.boot.run = .waitRefclk env) :
    exec .refclkReturn s = .next s.clockBack := by
  refine congrArg Host.Outcome.next ((if_neg (Bool.eq_false_iff.1 hclk)).trans ?_)
  simp only [hrun]

/-- Where no start waits, the return of REFCLK asks for one. -/
theorem exec_refclkReturn_asks (hclk : s.pins.refclk = false) (hrun : s.boot.run = .idle) (hvaux : s.pins.vaux = true)
    (hreset : s.pins.resetLow = false) (hlatch : s.boot.thermLatch = false) :
    exec .refclkReturn s = .next ({ s with pins := { s.pins with refclk := true } }).askStart := by
  have hback : s.clockBack = { s with pins := { s.pins with refclk := true } } :=
    State.clockBack_level fun env h => by rw [hrun] at h; nomatch h
  refine congrArg Host.Outcome.next ((if_neg (Bool.eq_false_iff.1 hclk)).trans ?_)
  simp only [hrun, hback]
  exact if_neg (not_heldDown hvaux hreset hlatch)

end Supplies

/-! ## Starts and resets (R410, R425, R428, R432) -/

section Resets

variable {s : State} {cause : Nat}

theorem exec_warmDeviceReset (env : WarmEnv) (hreq : s.boot.warmReq = some cause) (hcold : s.boot.coldReq = false)
    (hvdd : s.pins.vddUp = true) (hreset : s.pins.resetLow = false) :
    exec (.warmDeviceReset env) s = .next (if s.dstate = DS.READY then s.warmReady cause env
      else if s.dstate = DS.RECOVERY then s.warmRecovery env.start else s) := by
  refine congrArg Host.Outcome.next ?_
  simp only [hreq]
  exact if_neg (not_or.2 ⟨Bool.eq_false_iff.1 hcold, not_or.2 ⟨not_not_intro hvdd, Bool.eq_false_iff.1 hreset⟩⟩)

theorem exec_clusterReset {c : Nat} (hreq : s.boot.clusterReq.find? (fun e => e.1 = c) = some (c, cause)) (hready : s.ready = true) :
    let t := { s with boot := { s.boot with clusterReq := s.boot.clusterReq.filter (fun x => x.1 ≠ c) } }
    t.clusterUp c = true → exec (.clusterReset c) s = .next (t.resetCluster c cause) := by
  intro t hup
  refine congrArg Host.Outcome.next ?_
  simp only [hreq]
  exact (if_neg (not_not_intro hready)).trans (if_pos hup)

/-- A write of FLT_RESET_CTL with WARM set is the warm request's, any other the cluster requests'. -/
theorem exec_resetRequest (v : W32) (s : State) :
    (bitsOf v 31 31 = 1 → exec (.warmResetRequest v) s = .next (s.writeResetCtl v)) ∧
    (bitsOf v 31 31 = 0 → exec (.clusterResetRequest v) s = .next (s.writeResetCtl v)) :=
  ⟨fun h => congrArg Host.Outcome.next (if_pos h), fun h => congrArg Host.Outcome.next (if_pos h)⟩

section Request

variable {v : W32} (hl : s.linked = true)
include hl

theorem State.writeResetCtl_wrongKey (hkey : bitsOf v 23 16 ≠ 0x5A) : s.writeResetCtl v = s.raise Fld.FLT_EVENTS_REJECT :=
  (if_neg (not_not_intro hl)).trans (if_pos (.inl hkey))

/-- A write with the key that names only clusters the licence powers asks for what it names. -/
theorem State.writeResetCtl_accepted (hkey : bitsOf v 23 16 = 0x5A) (hready : s.ready = true)
    (hlicence : ∀ c ∈ maskList (bitsOf v 15 0), s.fbit Fld.CFG_LICENCE_ENABLED c = true) :
    let t := s.askClusterResets ((maskList (bitsOf v 15 0)).filter (fun c => s.clusterUp c)) 0
    s.writeResetCtl v = if bitsOf v 31 31 = 1 then { t with boot := { t.boot with warmReq := some 0 } } else t := by
  intro t
  have licensed : ¬ (maskList (bitsOf v 15 0)).any (fun c => !s.fbit Fld.CFG_LICENCE_ENABLED c) = true := by
    simp only [List.any_eq_true, Bool.not_eq_true', not_exists, not_and, Bool.not_eq_false]
    exact hlicence
  have passes : ¬ (bitsOf v 23 16 ≠ 0x5A ∨ (maskList (bitsOf v 15 0)).any (fun c => !s.fbit Fld.CFG_LICENCE_ENABLED c) = true) :=
    not_or.2 ⟨not_not_intro hkey, licensed⟩
  have hreadyT : t.ready = true := hready
  simp only [State.writeResetCtl, hl, not_true_eq_false, if_false, if_neg passes, if_pos hready]
  change (if bitsOf v 31 31 = 1 ∧ (t.ready = true ∨ t.dstate = DS.RECOVERY) then _ else t) = _
  simp only [hreadyT, true_or, and_true]
  rfl

end Request

theorem State.askClusterResets_nil (s : State) (cause : Nat) : s.askClusterResets [] cause = s := by
  simp only [State.askClusterResets, List.filter_nil, List.map_nil, List.append_nil]

theorem maskList_zero : maskList 0 = [] := by decide

theorem bitsOf_single (v : W32) (i : Nat) : bitsOf v i i < 2 := by
  rw [bitsOf, Nat.add_sub_cancel_left]
  exact Nat.mod_lt _ (by decide)

end Resets

/-! ## Phases (R442, R449) -/

section Phases

variable {r ph : Nat} {s : State}

theorem exec_phaseMismatch_first (hr : r < 16) (hph : ph < 8) (hon : 2 ≤ s.region r) (hnone : s.trial? r ph = none)
    (hok : s.fbit (Fld.PWR_REGION_STAT_PHASE_OK r) ph = true) :
    let s1 := s.clrBit (Fld.PWR_REGION_STAT_PHASE_OK r) ph
    exec (.phaseMismatch r ph) s = .next ({ s1 with power := { s1.power with
      trials := s1.power.trials ++ [(⟨r, ph, false⟩ : PhaseTrial)] } }.updCap r Ev.PHASE_FAILED (unitPhase r ph)) := by
  have checks : ¬ (16 ≤ r ∨ 8 ≤ ph ∨ s.region r < 2) := by omega
  refine congrArg Host.Outcome.next ((if_neg checks).trans ?_)
  simp only [hnone]
  exact if_pos hok

theorem exec_phaseMismatch_again {t : PhaseTrial} (hr : r < 16) (hph : ph < 8) (hon : 2 ≤ s.region r)
    (ht : s.trial? r ph = some t) (hretried : t.retried = true) :
    exec (.phaseMismatch r ph) s = .next (((((s.dropTrial r ph).raise Fld.PWR_EVENTS_PHASE_FAILED).event Ev.PHASE_FAILED
      (unitPhase r ph)).addDefect 0x0D (unitPhase r ph) Ev.PHASE_FAILED).updCap r Ev.PHASE_FAILED (unitPhase r ph)) := by
  have checks : ¬ (16 ≤ r ∨ 8 ≤ ph ∨ s.region r < 2) := by omega
  refine congrArg Host.Outcome.next ((if_neg checks).trans ?_)
  simp only [ht]
  exact if_pos hretried

theorem exec_phaseTrackWindowEnd {t : PhaseTrial} (ht : s.trial? r ph = some t) (hretried : t.retried = true) :
    exec (.phaseTrackWindowEnd r ph) s = .next ((((s.dropTrial r ph).setBit (Fld.PWR_REGION_STAT_PHASE_OK r) ph).raise
      Fld.PWR_EVENTS_PHASE_TRANSIENT).updCap r Ev.PHASE_FAILED (unitPhase r ph)) := by
  refine congrArg Host.Outcome.next ?_
  simp only [ht]
  exact if_pos hretried

theorem exec_phaseShed_idle (hq1 : s.region r = RS.Q1) (hp : s.paused r = false) (hn : (s.cluster r).noticeAt = none) :
    exec (.phaseShed r) s = .next (s.setLevel r 0) :=
  congrArg Host.Outcome.next (if_pos ⟨hq1, Bool.eq_false_iff.1 hp, hn⟩)

theorem exec_phaseShed_paused (hp : s.paused r = true) : exec (.phaseShed r) s = .next s :=
  congrArg Host.Outcome.next (if_neg fun h => h.2.1 hp)

end Phases

/-! ## A region's planned level (R441, R442) -/

theorem foldl_grants_wakes (l : List Wake) (s : State) :
    ∃ ws, l.foldl (fun s w => if s.slotFree w.region then s.startRamp w.region else s) s =
      { s with power := { s.power with wakes := ws } } := by
  induction l generalizing s with
  | nil => exact ⟨s.power.wakes, rfl⟩
  | cons w l ih =>
    rw [List.foldl_cons]
    split
    · obtain ⟨ws, hws⟩ := ih (s.startRamp w.region)
      exact ⟨ws, hws⟩
    · exact ih s

/-- A new level is written, and the wakes that a fall lets begin are all else that changes. -/
theorem State.setLevel_eq (s : State) (r l : Nat) :
    ∃ ws, s.setLevel r l = { s.setFld (Fld.PWR_REGION_STAT_LEVEL r) l with power := { s.power with wakes := ws } } := by
  unfold State.setLevel
  extract_lets falls s1
  split
  · exact foldl_grants_wakes _ s1
  · exact ⟨s.power.wakes, rfl⟩

section Level

variable {s : State} {r : Nat} (hregs : s.regsWf = true) (l : Nat)
include hregs

theorem State.level_setLevel : (s.setLevel r l).level r = l % 16 := by
  obtain ⟨ws, h⟩ := s.setLevel_eq r l
  rw [h]
  exact State.fld_setFld s (Fld.PWR_REGION_STAT_LEVEL r) l hregs (Nat.le_of_ble_eq_true rfl)

theorem State.fld_setLevel {f : Fld} (hf : f.off ≠ (Fld.PWR_REGION_STAT_LEVEL r).off) : (s.setLevel r l).fld f = s.fld f := by
  obtain ⟨ws, h⟩ := s.setLevel_eq r l
  rw [h]
  exact State.fld_setFld_of_ne s (Fld.PWR_REGION_STAT_LEVEL r) f l hregs (Nat.le_of_ble_eq_true rfl) (.inl hf)

theorem State.level_setLevel_of_ne {q : Nat} (hq : q ≠ r) : (s.setLevel r l).level q = s.level q :=
  State.fld_setLevel hregs l (by simp only [Fld.PWR_REGION_STAT_LEVEL]; omega)

/-- How long a region has been idle, and for how long it may be without notice, do not depend on its level. -/
theorem State.needsNotice_setLevel (hidle : s.idleTicks ≤ s.now - (s.cluster r).lastOp) (n : Nat) :
    (s.setLevel r l).needsNotice r n = true := by
  have hticks : (s.setLevel r l).idleTicks = s.idleTicks := by
    rw [State.idleTicks, State.idleTicks,
      State.fld_setLevel hregs l (by simp only [Fld.PWR_REGION_STAT_LEVEL, Fld.PWR_CTL_IDLE_NOTICE_US]; omega)]
  have hsince : (s.setLevel r l).now - ((s.setLevel r l).cluster r).lastOp = s.now - (s.cluster r).lastOp := by
    obtain ⟨ws, h⟩ := s.setLevel_eq r l
    rw [h]
    rfl
  rw [State.needsNotice, hticks, hsince, decide_eq_true hidle, Bool.true_or]

end Level

/-! ## Housekeeping (R460 to R465) -/

section Supplied

variable {s : State} (hvaux : s.pins.vaux = true) (hvin : s.pins.vinIb = true)
include hvaux hvin

theorem exec_housekeepingRound :
    let s1 := ((s.setFld Fld.PWR_SUPPLY_VIN_MV (s.hk 1)).setFld Fld.PWR_SUPPLY_VIN_DA (s.hk 2)).vinLimit
    let s2 := (s1.setFld Fld.THM_TEMP_T_CD (s1.hk 0)).setFld Fld.THM_TEMP_T_U1 (unsigned16 s1.tU1)
    let tCd := signed16 (s1.hk 0)
    exec .housekeepingRound s = .next (if tCd < -640 ∨ 2400 < tCd then s2.sensorBad
      else (((s2.sensorGood).thermal (max tCd s1.tU1)).stepDuty (max tCd s1.tU1)).syncAlert) :=
  congrArg Host.Outcome.next (if_neg (not_or.2 ⟨not_not_intro hvaux, not_not_intro hvin⟩))

theorem exec_guardSecond : exec .guardSecond s = .next s.guardSecond :=
  congrArg Host.Outcome.next (if_neg (not_or.2 ⟨not_not_intro hvaux, not_not_intro hvin⟩))

end Supplied

/-! ## The test access port (R483 to R486) -/

/-- With VAUX present an instruction is loaded, and the lands follow it while DEVICE_RESET# is low. -/
theorem State.tapLoad_powered {s : State} (hvaux : s.pins.vaux = true) (ir : BitVec 8) :
    s.tapLoad ir = { s with tap := { s.tap with ir := ir, lands := if s.pins.resetLow then landsOf ir else .functional } } :=
  if_pos hvaux

/-! ## The obligations -/

/-- Settles O4: the reset state is a constant. The values of the registers, the journal, the flash and the cold start that is due are the
model's choice (assumptions 2 and 3). -/
theorem resetState : Obligations.ResetState := by
  unfold Obligations.ResetState
  have hflash : State.reset.flashGood :=
    ⟨nofun, nofun, licencesGood_nil, nofun⟩
  exact ⟨rfl, by decide, hflash, fun _ => rfl, by decide +kernel, rfl, rfl, rfl, rfl, rfl, rfl⟩

/-- Settles O8: each clause is the law of its command where the command's checks pass. What VAUX_FALL keeps, that the
loss of REFCLK sets no cause, and that REFCLK_PRESENT outside a wait records the level alone, are the model's choice (assumptions 31
and 23). -/
theorem suppliesAndPins : Obligations.SuppliesAndPins := by
  unfold Obligations.SuppliesAndPins
  refine ⟨fun s hvaux => congrArg Host.Outcome.next (if_neg (Bool.eq_false_iff.1 hvaux)),
    fun s hvaux => congrArg Host.Outcome.next (if_pos hvaux), fun s hrun => exec_vinIbInRange_level hrun,
    fun s env hrun => exec_vinIbInRange_waits hrun, fun s hin hvaux hreset hlatch => exec_vinIbLow hin hvaux hreset hlatch,
    fun s hhigh hvaux hlatch => exec_deviceResetAssert hhigh hvaux hlatch, fun s hlow hvaux => ?released, fun v s => rfl,
    fun s hclk hvaux hreset hlatch hstarting hfailed => exec_refclkLost hclk hvaux hreset hlatch hstarting hfailed,
    fun s hclk hrun hvaux hreset hlatch => exec_refclkReturn_asks hclk hrun hvaux hreset hlatch, fun s env hclk hrun => ?goesOn,
    fun s hclk hrun => ?level⟩
  case released =>
    exact congrArg Host.Outcome.next ((if_neg (not_not_intro hlow)).trans (if_neg (not_not_intro hvaux)))
  case goesOn =>
    intro t
    rw [exec_refclkReturn_waits hclk hrun, exec_refclkPresent hclk, State.clockBack_waits hrun]
    exact ⟨rfl, rfl⟩
  case level => rw [exec_refclkPresent hclk, State.clockBack_level hrun]

/-- Settles O9: each clause is the law of its command where the command's checks pass. That a step which exceeds its time leaves what
step 0 did, and no more, is the model's choice (assumption 24). -/
theorem startsAndResets : Obligations.StartsAndResets := by
  unfold Obligations.StartsAndResets
  refine ⟨fun env s hmay => congrArg Host.Outcome.next (if_pos hmay),
    fun step s hmay hstep => congrArg Host.Outcome.next (if_pos ⟨hmay, hstep⟩),
    fun env cause s hreq hcold hvdd hreset hready => ?warm, fun env cause s hreq hcold hvdd hreset hrecovery => ?recovery,
    fun c cause s hreq hready => exec_clusterReset hreq hready, fun v s hl hwarm hkey hnone hready => ?warmRequest,
    fun v s hl hbit hkey hlicence hready => ?clusterRequest, fun v s hl hkey => ?wrongKey⟩
  case warm => rw [exec_warmDeviceReset env hreq hcold hvdd hreset, if_pos hready]
  case recovery =>
    have hnotReady : ¬ s.dstate = DS.READY := by rw [hrecovery]; decide
    rw [exec_warmDeviceReset env hreq hcold hvdd hreset, if_neg hnotReady, if_pos hrecovery]
  case warmRequest =>
    have hlist : maskList (bitsOf v 15 0) = [] := by rw [hnone, maskList_zero]
    rw [(exec_resetRequest v s).1 hwarm,
      State.writeResetCtl_accepted hl hkey hready (by rw [hlist]; exact fun _ h => nomatch h), if_pos hwarm, hlist, List.filter_nil,
      State.askClusterResets_nil]
  case clusterRequest =>
    rw [(exec_resetRequest v s).2 hbit, State.writeResetCtl_accepted hl hkey hready hlicence, if_neg (by omega)]
  case wrongKey =>
    split
    next hwarm => rw [(exec_resetRequest v s).1 hwarm, State.writeResetCtl_wrongKey hl hkey]
    next hnot =>
      have hbit : bitsOf v 31 31 = 0 := by have := bitsOf_single v 31; omega
      rw [(exec_resetRequest v s).2 hbit, State.writeResetCtl_wrongKey hl hkey]

/-- Settles O46: each clause is the law of its command where the command's checks pass. The journal code of a change of cap is the
model's choice (assumption 98). -/
theorem noticesAndPhases : Obligations.NoticesAndPhases := by
  unfold Obligations.NoticesAndPhases
  exact ⟨fun demand s hready hdemand hcode => congrArg Host.Outcome.next (if_pos ⟨hready, hdemand, hcode⟩),
    fun demand s hready hcode => congrArg Host.Outcome.next (if_pos ⟨hready, hcode⟩), fun s => rfl,
    fun r s hq1 hp hn => exec_phaseShed_idle hq1 hp hn,
    fun r ph s hr hph hon hnone hok => exec_phaseMismatch_first hr hph hon hnone hok,
    fun r ph t s hr hph hon ht hretried => exec_phaseMismatch_again hr hph hon ht hretried, fun r ph s => rfl,
    fun r ph t s ht hretried => exec_phaseTrackWindowEnd ht hretried⟩

/-- Settles O54: shedding writes the region's level, and what decides on a notice is how long the region has been idle. -/
theorem idlePhasesShed : Obligations.IdlePhasesShed := by
  unfold Obligations.IdlePhasesShed
  intro r s hcanon _
  have hregs : s.regsWf = true := (Bool.and_eq_true .. ▸ hcanon : _ ∧ _).2
  refine ⟨fun hq1 hp hn hidle => ⟨s.setLevel r 0, exec_phaseShed_idle hq1 hp hn, State.level_setLevel hregs 0,
    fun q _ hq => State.level_setLevel_of_ne hregs 0 hq, State.needsNotice_setLevel hregs 0 hidle⟩,
    fun hp => exec_phaseShed_paused hp⟩

/-- Settles O48: a round by its diode's reading, and the guard's second by its count against the rate. That the guard clears at rate 0
and that a round with a sensor fault looks at no threshold are the model's choice (assumption 98). -/
theorem housekeeping : Obligations.Housekeeping := by
  unfold Obligations.Housekeeping
  refine ⟨fun n v s hn hvaux hcurrent => congrArg Host.Outcome.next (if_pos ⟨hn, hvaux, hcurrent⟩), fun s hvaux hvin => ?round,
    fun s hvaux hvin => ?guard⟩
  case round =>
    intro s1 s2 tCd
    rw [exec_housekeepingRound hvaux hvin]
    exact ⟨fun hout => by rw [if_pos hout], fun hlow hhigh => by
      rw [if_neg (not_or.2 ⟨Int.not_lt.2 hlow, Int.not_lt.2 hhigh⟩)]⟩
  case guard =>
    intro n rate q s0
    have under {a b c : State} (h : n < rate) :
        (if rate = 0 then a else if rate ≤ n then b else c) = c :=
      (if_neg (by omega)).trans (if_neg (Nat.not_le.2 h))
    have above {a b c : State} (hzero : rate ≠ 0) (h : rate ≤ n) :
        (if rate = 0 then a else if rate ≤ n then b else c) = b :=
      (if_neg hzero).trans (if_pos h)
    rw [exec_guardSecond hvaux hvin]
    refine ⟨fun hzero => congrArg Host.Outcome.next (if_pos hzero),
      fun hzero hover hoff => congrArg Host.Outcome.next ((above hzero hover).trans (if_neg (Bool.eq_false_iff.1 hoff))),
      fun hzero hover hon => congrArg Host.Outcome.next ((above hzero hover).trans (if_pos hon)),
      fun hunder hon hquarter hten => congrArg Host.Outcome.next ((under hunder).trans ?clears),
      fun hunder hon hquarter hfew => congrArg Host.Outcome.next ((under hunder).trans ?counts),
      fun hunder hon hquarter => congrArg Host.Outcome.next ((under hunder).trans ?restarts),
      fun hunder hoff => congrArg Host.Outcome.next ((under hunder).trans (if_neg (Bool.eq_false_iff.1 hoff)))⟩
    case clears => exact (if_pos hon).trans ((if_pos hquarter).trans (if_pos (Nat.succ_le_succ hten)))
    case counts => exact (if_pos hon).trans ((if_pos hquarter).trans (if_neg (Nat.not_le.2 (Nat.succ_lt_succ hfew))))
    case restarts => exact (if_pos hon).trans (if_neg (Nat.not_lt.2 hquarter))

/-- Settles O49: each common command by its code. The codes are MIPI's, and what the capture of a slot covers is the model's choice
(assumptions 8 and 108). -/
theorem i3cTarget : Obligations.I3cTarget := by
  unfold Obligations.I3cTarget
  intro s hvaux
  have hon : ¬ (!s.pins.vaux) = true := by rw [hvaux]; decide
  refine ⟨fun addr hnone => if_pos ⟨hvaux, hnone⟩, fun addr a hsome => if_neg fun h => ?assigned, fun data => ?rstdaa,
    fun data => ?enec, fun data => ?disec, fun data haddr => ?getpid, fun hi lo => if_pos hvaux,
    fun n => congrArg Host.Outcome.next (if_pos hvaux)⟩
  case assigned => exact absurd (hsome.symm.trans h.2) nofun
  case rstdaa => exact (if_neg hon).trans ((if_neg fun h => nomatch h.1).trans (if_pos rfl))
  case enec => exact (if_neg hon).trans ((if_neg fun h => nomatch h.1).trans ((if_neg (by decide)).trans (if_pos (.inl rfl))))
  case disec =>
    exact (if_neg hon).trans ((if_neg fun h => nomatch h.1).trans ((if_neg (by decide)).trans ((if_neg (by decide)).trans
      (if_pos (.inl rfl)))))
  case getpid =>
    exact (if_neg hon).trans ((if_neg fun h => haddr h.2).trans ((if_neg (by decide)).trans ((if_neg (by decide)).trans
      ((if_neg (by decide)).trans (if_pos rfl)))))

/-- Settles O50: each instruction is loaded by its code, which says what the lands do. That the boundary cells of SAMPLE take the
command's operand is the model's choice (assumption 108). -/
theorem testAccessPort : Obligations.TestAccessPort := by
  unfold Obligations.TestAccessPort
  intro s hvaux load
  have loads (ir : BitVec 8) : Host.Outcome.next (s.tapLoad ir) = load ir (landsOf ir) :=
    congrArg Host.Outcome.next (State.tapLoad_powered hvaux ir)
  refine ⟨loads _, loads _, loads _, loads _, loads _, loads _, loads _, loads _, fun cells => ?sample⟩
  have hlands : landsOf TapIr.SAMPLE = .functional := by decide
  change execSamplePreload cells s = _
  simp only [execSamplePreload, State.tapLoad_powered hvaux, hlands, ite_self, hvaux, if_true]

end Sys2Proof.Machine
end
